-- ==== Sys2Proof/Syntax.lean ====
section
/-!
DEFINITION. The steps of the FA16 as data: one constructor for each row of spec/opcode_table.json.

Constructors come in three runs: the instruction words with operands (R180 to R183) and the events that
the machine itself raises; the words without operands; and the instructions of the test access port (R367)
with the events that come from outside (spec/95).  Register numbers and small codes are numbers; `Instr.ill`
(WellFormed.lean) says which values the spec admits.  STALL and VER (R168) belong to the word and
not to the instruction, so they are no operand here.
-/
namespace Sys2Proof

/-- Operand B in the forms of R195, R196 and the one-bit selections of R197: a vector register, a
scalar register, or an immediate. -/
inductive Src where
  | v (k : Nat)
  | s (k : Nat)
  | imm (n : Nat)
deriving DecidableEq, Repr

/-- The access code of R271 with an extension word: a weak access of a width, or an ordered
access (`sync` = acquire or release, else strong) of a scope. -/
inductive Acc where
  | weak (w : Nat)
  | ordered (sync : Bool) (scope : Nat)
deriving DecidableEq, Repr

/-- The width code of an access: the ordered forms are 4 bytes wide (R271). -/
def Acc.width : Acc → Nat
  | .weak w => w
  | .ordered _ _ => 0

/-- The fields of a ceiling-group message (R447): sender, new and current limit, group map,
sequence number and apply instant. -/
structure CeilMsg where
  sender : Nat
  lnew : Nat
  lcur : Nat
  group : Nat
  seq : Nat
  a : Nat
deriving DecidableEq, Repr

/-- What a message of a Vreles port carries (R397): an address request to a peer package with its bytes, its answer, a
ceiling-group message by kind (R447), a time message with its kind, sender, sequence number, stamp and correction (R445), or
bare control. -/
inductive PeerMsg where
  | control
  | read (pa len tag : Nat)
  | write (pa : Nat) (bytes : List Nat) (tag : Nat)
  | readReply (tag : Nat) (bytes : List Nat) (poisoned : Bool)
  | writeAck (tag : Nat)
  | ack (seq : Nat)
  | undeliverable (tag : Nat)
  | ceil (kind : Nat) (m : CeilMsg)
  | time (kind sender seqid stamp : Nat) (corr : Int)
deriving DecidableEq, Repr

/-- The steps of the machine: one constructor for each row of spec/opcode_table.json. -/
inductive Instr where
  /-- `IADD` (R198): Adds B to vA in each active lane, modulo 2^32. -/
  | iadd (d : Nat) (a : Nat) (b : Src)
  /-- `ISUB` (R198): Subtracts B from vA in each active lane, modulo 2^32. -/
  | isub (d : Nat) (a : Nat) (b : Src)
  /-- `IADDC` (R202): Adds with a carry held in a predicate and writes the carry out. -/
  | iaddc (d : Nat) (a : Nat) (c : Nat) (b : Src)
  /-- `ISUBB` (R202): Subtracts with a borrow held in a predicate and writes the borrow out. -/
  | isubb (d : Nat) (a : Nat) (c : Nat) (b : Src)
  /-- `IMUL` (R198): Writes the low 32 bits of the product of vA and B. -/
  | imul (d : Nat) (a : Nat) (b : Src)
  /-- `IMULH` (R200): Writes bits [63:32] of the signed or unsigned 64-bit product. -/
  | imulh (d : Nat) (a : Nat) (b : Src) (u : Bool)
  /-- `IMAD` (R203): Writes the low 32 bits of vA times B plus C. -/
  | imad (d : Nat) (a : Nat) (b : Src) (c : Src)
  /-- `IMIN` (R200): Writes the smaller operand, signed or unsigned. -/
  | imin (d : Nat) (a : Nat) (b : Src) (u : Bool)
  /-- `IMAX` (R200): Writes the larger operand, signed or unsigned. -/
  | imax (d : Nat) (a : Nat) (b : Src) (u : Bool)
  /-- `IABS` (R201): Writes the absolute value of signed vA, optionally saturating. -/
  | iabs (d : Nat) (a : Nat) (sat : Bool)
  /-- `INEG` (R201): Writes the negation of vA, optionally saturating. -/
  | ineg (d : Nat) (a : Nat) (sat : Bool)
  /-- `IDOT4` (R204): Accumulates a four-way 8-bit dot product into vD. -/
  | idot4 (d : Nat) (a : Nat) (b : Nat) (ua : Bool) (ub : Bool)
  /-- `IADD64` (R205): Adds B to the 64-bit pair vA:vA+1. -/
  | iadd64 (d : Nat) (a : Nat) (b : Src)
  /-- `LEA` (R206): Forms a 64-bit address from a pair and a scaled 32-bit index. -/
  | lea (d : Nat) (a : Nat) (b : Src) (k : Nat) (u : Bool)
  /-- `SEL` (R211): Selects vA or B per lane by a predicate. -/
  | sel (d : Nat) (a : Nat) (p : Nat) (b : Src)
  /-- `ISETP` (R210): Compares vA with B and writes the relation test to a predicate. -/
  | isetp (p : Nat) (a : Nat) (code : Nat) (u : Bool) (b : Src)
  /-- `AND` (R198): Bitwise AND of vA and B. -/
  | and (d : Nat) (a : Nat) (b : Src)
  /-- `OR` (R198): Bitwise OR of vA and B. -/
  | or (d : Nat) (a : Nat) (b : Src)
  /-- `XOR` (R198): Bitwise XOR of vA and B. -/
  | xor (d : Nat) (a : Nat) (b : Src)
  /-- `ANDN` (R198): vA AND NOT B. -/
  | andn (d : Nat) (a : Nat) (b : Src)
  /-- `ORN` (R198): vA OR NOT B. -/
  | orn (d : Nat) (a : Nat) (b : Src)
  /-- `NOT` (R201): Writes the bitwise complement of vA. -/
  | not (d : Nat) (a : Nat)
  /-- `LOP3` (R207): Applies an 8-bit truth table bitwise over three operands. -/
  | lop3 (d : Nat) (a : Nat) (b : Nat) (c : Nat) (t : Nat)
  /-- `SHL` (R199): Shifts vA left by B places. -/
  | shl (d : Nat) (a : Nat) (b : Src)
  /-- `SHR` (R199): Shifts vA right logically by B places. -/
  | shr (d : Nat) (a : Nat) (b : Src)
  /-- `SAR` (R199): Shifts vA right arithmetically by B places. -/
  | sar (d : Nat) (a : Nat) (b : Src)
  /-- `ROL` (R199): Rotates vA left by B mod 32 places. -/
  | rol (d : Nat) (a : Nat) (b : Src)
  /-- `FSHL` (R208): Funnel shift left of vA:vB, writing the high word. -/
  | fshl (d : Nat) (a : Nat) (b : Nat) (c : Src)
  /-- `SHL64` (R205): Shifts a 64-bit pair left by a 32-bit count. -/
  | shl64 (d : Nat) (a : Nat) (b : Src)
  /-- `POPC` (R201): Counts set bits of vA. -/
  | popc (d : Nat) (a : Nat)
  /-- `CLZ` (R201): Counts leading zero bits of vA. -/
  | clz (d : Nat) (a : Nat)
  /-- `CTZ` (R201): Counts trailing zero bits of vA. -/
  | ctz (d : Nat) (a : Nat)
  /-- `BREV` (R201): Reverses the bits of vA. -/
  | brev (d : Nat) (a : Nat)
  /-- `BFX` (R209): Extracts a bit field, optionally sign-extended. -/
  | bfx (d : Nat) (a : Nat) (pos : Nat) (len : Nat) (sx : Bool)
  /-- `BFI` (R209): Inserts a bit field of vB into vA. -/
  | bfi (d : Nat) (a : Nat) (b : Nat) (pos : Nat) (len : Nat)
  /-- `MOV` (R212): Copies a register or pair unchanged. -/
  | mov (d : Nat) (a : Nat) (w64 : Bool)
  /-- `MOVI` (R212): Writes a 32-bit immediate from the extension word. -/
  | movi (d : Nat) (imm : Nat)
  /-- `MOVS` (R212): Copies a scalar or scalar pair into every active lane. -/
  | movs (d : Nat) (s : Nat) (w64 : Bool)
  /-- `SREAD` (R213): Reads a special register into a vector or scalar destination. -/
  | sread (d : Nat) (kind : Nat) (rsel : Nat)
  /-- `PLOP` (R219): Applies a truth table to three predicates. -/
  | plop (p : Nat) (pa : Nat) (pb : Nat) (pc : Nat) (t : Nat)
  /-- `PMOV` (R220): Moves the predicate word to or from a vector register. -/
  | pmov (wr : Bool) (r : Nat)
  /-- `SADD` (R215): Scalar add. -/
  | sadd (d : Nat) (a : Nat) (b : Src)
  /-- `SSUB` (R215): Scalar subtract. -/
  | ssub (d : Nat) (a : Nat) (b : Src)
  /-- `SMUL` (R215): Scalar multiply keeping the low 32 bits. -/
  | smul (d : Nat) (a : Nat) (b : Src)
  /-- `SAND` (R215): Scalar bitwise AND. -/
  | sand (d : Nat) (a : Nat) (b : Src)
  /-- `SOR` (R215): Scalar bitwise OR. -/
  | sor (d : Nat) (a : Nat) (b : Src)
  /-- `SXOR` (R215): Scalar bitwise XOR. -/
  | sxor (d : Nat) (a : Nat) (b : Src)
  /-- `SSHL` (R215): Scalar shift left. -/
  | sshl (d : Nat) (a : Nat) (b : Src)
  /-- `SSHR` (R215): Scalar shift right, logical or arithmetic. -/
  | sshr (d : Nat) (a : Nat) (b : Src) (ar : Bool)
  /-- `SMOV` (R216): Copies a scalar or scalar pair. -/
  | smov (d : Nat) (a : Nat) (w64 : Bool)
  /-- `SMOVI` (R216): Writes a 32-bit immediate to a scalar. -/
  | smovi (d : Nat) (imm : Nat)
  /-- `SSETP` (R217): Compares a scalar and writes the result to a predicate of every active lane. -/
  | ssetp (p : Nat) (a : Nat) (code : Nat) (u : Bool) (b : Src)
  /-- `SLANE` (R218): Reads one lane's register into a scalar. -/
  | slane (d : Nat) (a : Nat) (lane : Src) (w64 : Bool)
  /-- `BRA` (R221): Per-lane conditional branch, short form. -/
  | bra (p : Nat) (off : Int)
  /-- `BRA_LONG` (R221): Per-lane conditional branch with a 32-bit offset in the extension word. -/
  | braLong (p : Nat) (off : Int)
  /-- `BANY` (R222): Branches all active lanes when any lane's predicate is true, short form. -/
  | bany (p : Nat) (off : Int)
  /-- `BANY_LONG` (R222): bany with a 32-bit offset. -/
  | banyLong (p : Nat) (off : Int)
  /-- `BALL` (R222): Branches all active lanes when every lane's predicate is true, short form. -/
  | ball (p : Nat) (off : Int)
  /-- `BALL_LONG` (R222): ball with a 32-bit offset. -/
  | ballLong (p : Nat) (off : Int)
  /-- `BNONE` (R222): Branches all active lanes when no lane's predicate is true, short form. -/
  | bnone (p : Nat) (off : Int)
  /-- `BNONE_LONG` (R222): bnone with a 32-bit offset. -/
  | bnoneLong (p : Nat) (off : Int)
  /-- `BDIV` (R223): Branches lanes when the group holds a fibre at another PC, short form. -/
  | bdiv (p : Nat) (off : Int)
  /-- `BDIV_LONG` (R223): bdiv with a 32-bit offset. -/
  | bdivLong (p : Nat) (off : Int)
  /-- `JMP` (R224): Jumps to a register-held 64-bit target. -/
  | jmp (tgt : Src)
  /-- `CALL` (R225): Advances the window base by F and branches to a relative target. -/
  | call (f : Nat) (off : Int)
  /-- `CALLI` (R226): Advances the window base and jumps to a register-held target. -/
  | calli (f : Nat) (tgt : Src)
  /-- `RET` (R227): Lowers the window base by F and returns to a register-held link. -/
  | ret (link : Nat) (f : Nat)
  /-- `EXIT` (R229): Ends the executing fibres and vacates their lane slots. -/
  | exit (p : Nat)
  /-- `FSPAWN` (R230): Creates a fibre in the lowest vacant lane slot of the group. -/
  | fspawn (d : Nat) (p : Nat) (w : Nat) (off : Int)
  /-- `BKPT` (R233): Halts for the debugger or traps at the next clause header. -/
  | bkpt (code : Nat)
  /-- `UTRAP` (R234): Completes and raises a user trap. -/
  | utrap (code : Nat)
  /-- `MJOIN` (R235): Sets the issuing fibres' bits in a lane mask. -/
  | mjoin (m : Nat)
  /-- `MLEAVE` (R235): Clears the issuing fibres' bits in a lane mask. -/
  | mleave (m : Nat)
  /-- `MWAIT` (R45): Records arrival on a mask and waits for its release condition. -/
  | mwait (m : Nat)
  /-- `MSET` (R236): Replaces, ORs or clears a lane mask from a scalar. -/
  | mset (m : Nat) (s : Nat) (mode : Nat)
  /-- `MGET` (R237): Reads a mask, its arrivals, active or occupied lanes into a scalar. -/
  | mget (d : Nat) (m : Nat) (mode : Nat)
  /-- `VOTE` (R238): Gathers a predicate over contributing lanes as a mask, count or quorum. -/
  | vote (d : Nat) (pa : Nat) (m : Nat) (q : Nat) (mode : Nat)
  /-- `MATCH` (R239): Writes the mask of contributing lanes holding an equal value. -/
  | matchl (d : Nat) (a : Nat) (m : Nat) (w64 : Bool)
  /-- `SHFL` (R260): Reads vA of a source lane chosen within a segment. -/
  | shfl (d : Nat) (a : Nat) (mlo : Nat) (mhi : Nat) (b : Src) (w64 : Bool) (m : Nat) (seg : Nat) (z : Bool)
  /-- `REDMIN` (R261): Minimum over contributing lanes, optionally with its lowest lane. -/
  | redmin (d : Nat) (a : Nat) (m : Nat) (idx : Bool) (ty : Nat)
  /-- `REDMAX` (R261): Maximum over contributing lanes, optionally with its lowest lane. -/
  | redmax (d : Nat) (a : Nat) (m : Nat) (idx : Bool) (ty : Nat)
  /-- `REDADD` (R262): Exact integer sum over contributing lanes. -/
  | redadd (d : Nat) (a : Nat) (m : Nat) (mode : Nat)
  /-- `FREDADD` (R263): Floating sum over lanes in the fixed pairwise tree. -/
  | fredadd (d : Nat) (a : Nat) (m : Nat) (w64 : Bool)
  /-- `SCAN` (R264): Writes an inclusive or exclusive prefix over contributing lanes. -/
  | scan (d : Nat) (a : Nat) (m : Nat) (excl : Bool) (op : Nat)
  /-- `REDLOG` (R262): Bitwise AND, OR or XOR over contributing lanes. -/
  | redlog (d : Nat) (a : Nat) (m : Nat) (op : Nat)
  /-- `FADD` (R245): FP32 add with one rounding. -/
  | fadd (d : Nat) (a : Nat) (rnd : Nat) (b : Src)
  /-- `FSUB` (R245): FP32 subtract with one rounding. -/
  | fsub (d : Nat) (a : Nat) (rnd : Nat) (b : Src)
  /-- `FMUL` (R245): FP32 multiply with one rounding. -/
  | fmul (d : Nat) (a : Nat) (rnd : Nat) (b : Src)
  /-- `FFMA` (R245): FP32 fused multiply-add with one rounding. -/
  | ffma (d : Nat) (a : Nat) (b : Src) (c : Src) (rnd : Nat) (np : Bool)
  /-- `FMIN` (R246): Selects the smaller FP32 operand. -/
  | fmin (d : Nat) (a : Nat) (b : Src) (nan : Bool)
  /-- `FMAX` (R246): Selects the larger FP32 operand. -/
  | fmax (d : Nat) (a : Nat) (b : Src) (nan : Bool)
  /-- `FSETP` (R247): Compares FP32 values into a predicate. -/
  | fsetp (p : Nat) (a : Nat) (cond : Nat) (b : Src)
  /-- `FCLASS` (R248): Writes a one-hot class word of an FP32 or FP64 value. -/
  | fclass (d : Nat) (a : Nat) (w64 : Bool)
  /-- `FRCP` (R249): Correctly rounded FP32 reciprocal. -/
  | frcp (d : Nat) (a : Nat)
  /-- `FRSQ` (R249): Correctly rounded FP32 reciprocal square root. -/
  | frsq (d : Nat) (a : Nat)
  /-- `FSQRT` (R249): Correctly rounded FP32 square root. -/
  | fsqrt (d : Nat) (a : Nat)
  /-- `FDIV` (R249): Correctly rounded FP32 division. -/
  | fdiv (d : Nat) (a : Nat) (b : Src)
  /-- `FEXP2` (R249): Correctly rounded FP32 base-2 exponential. -/
  | fexp2 (d : Nat) (a : Nat)
  /-- `FLOG2` (R249): Correctly rounded FP32 base-2 logarithm. -/
  | flog2 (d : Nat) (a : Nat)
  /-- `FSINPI` (R249): Correctly rounded sin(pi x). -/
  | fsinpi (d : Nat) (a : Nat)
  /-- `FCOSPI` (R249): Correctly rounded cos(pi x). -/
  | fcospi (d : Nat) (a : Nat)
  /-- `DADD` (R250): FP64 add with one rounding. -/
  | dadd (d : Nat) (a : Nat) (b : Src) (rnd : Nat)
  /-- `DMUL` (R250): FP64 multiply with one rounding. -/
  | dmul (d : Nat) (a : Nat) (b : Src) (rnd : Nat)
  /-- `DFMA` (R250): FP64 fused multiply-add. -/
  | dfma (d : Nat) (a : Nat) (b : Src) (c : Src) (rnd : Nat) (np : Bool)
  /-- `DMIN` (R246): Selects the smaller FP64 operand. -/
  | dmin (d : Nat) (a : Nat) (b : Src) (nan : Bool)
  /-- `DMAX` (R246): Selects the larger FP64 operand. -/
  | dmax (d : Nat) (a : Nat) (b : Src) (nan : Bool)
  /-- `DSETP` (R247): Compares FP64 values into a predicate. -/
  | dsetp (p : Nat) (a : Nat) (cond : Nat) (b : Src)
  /-- `DDIV` (R249): Correctly rounded FP64 division. -/
  | ddiv (d : Nat) (a : Nat) (b : Src)
  /-- `HADD2` (R251): Packed FP16 or BF16 add. -/
  | hadd2 (d : Nat) (a : Nat) (b : Src) (rnd : Nat) (bf : Bool)
  /-- `HMUL2` (R251): Packed FP16 or BF16 multiply. -/
  | hmul2 (d : Nat) (a : Nat) (b : Src) (rnd : Nat) (bf : Bool)
  /-- `HFMA2` (R251): Packed FP16 or BF16 fused multiply-add. -/
  | hfma2 (d : Nat) (a : Nat) (b : Src) (c : Src) (rnd : Nat) (bf : Bool)
  /-- `CMUL` (R252): Complex FP32 multiply, one rounding per component. -/
  | cmul (d : Nat) (a : Nat) (b : Nat) (rnd : Nat) (cj : Bool)
  /-- `CFMA` (R252): Complex FP32 fused multiply-add. -/
  | cfma (d : Nat) (a : Nat) (b : Nat) (c : Nat) (rnd : Nat) (cj : Bool)
  /-- `CVTFF` (R253): Converts between floating formats and register parts. -/
  | cvtff (d : Nat) (a : Nat) (rnd : Nat) (sat : Bool) (df : Nat) (sf : Nat) (dp : Nat) (sp : Nat)
  /-- `CVTFI` (R254): Converts a float to a saturated integer. -/
  | cvtfi (d : Nat) (a : Nat) (rnd : Nat) (sf : Nat) (sp : Nat) (dt : Nat)
  /-- `CVTIF` (R255): Converts an integer to a float. -/
  | cvtif (d : Nat) (a : Nat) (rnd : Nat) (sat : Bool) (df : Nat) (ty : Nat) (dp : Nat)
  /-- `CVTPK` (R256): Encodes lane values into FB4 codes and a block scale. -/
  | cvtpk (d : Nat) (a : Nat) (rnd : Nat) (ty : Nat) (slot : Nat) (m : Nat)
  /-- `CVTUNPK` (R257): Decodes one scaled element to FP32. -/
  | cvtunpk (d : Nat) (a : Nat) (b : Nat) (k : Nat) (slot : Nat)
  /-- `CVTW` (R258): Reads or quantises a W96 element held in registers. -/
  | cvtw (d : Nat) (a : Nat) (q : Bool) (w : Nat)
  /-- `LD` (R272): Weak global load without offset word. -/
  | ld (d : Nat) (b : Nat) (sb : Nat) (w : Nat)
  /-- `LD_EXT` (R272): Global load with offset word, including strong and acquire forms. -/
  | ldExt (d : Nat) (b : Nat) (sb : Nat) (acc : Acc) (off : Int)
  /-- `ST` (R272): Weak global store without offset word. -/
  | st (d : Nat) (b : Nat) (sb : Nat) (w : Nat)
  /-- `ST_EXT` (R272): Global store with offset word, including strong and release forms. -/
  | stExt (d : Nat) (b : Nat) (sb : Nat) (acc : Acc) (off : Int)
  /-- `LDS` (R273): Scalar global load without offset word. -/
  | lds (d : Nat) (b : Nat) (sb : Nat) (w : Nat)
  /-- `LDS_EXT` (R273): Scalar global load with offset word or ordered form. -/
  | ldsExt (d : Nat) (b : Nat) (sb : Nat) (acc : Acc) (off : Int)
  /-- `LDL` (R274): Scratchpad load without offset word. -/
  | ldl (d : Nat) (b : Src) (sb : Nat) (w : Nat)
  /-- `LDL_EXT` (R274): Scratchpad load with offset word. -/
  | ldlExt (d : Nat) (b : Src) (sb : Nat) (w : Nat) (off : Int)
  /-- `STL` (R274): Scratchpad store without offset word. -/
  | stl (d : Nat) (b : Src) (sb : Nat) (w : Nat)
  /-- `STL_EXT` (R274): Scratchpad store with offset word. -/
  | stlExt (d : Nat) (b : Src) (sb : Nat) (w : Nat) (off : Int)
  /-- `LDT` (R283): Tolerant load of a W96 element after settling shares to a tolerance. -/
  | ldt (d : Nat) (b : Nat) (sb : Nat) (k : Nat)
  /-- `HZADD` (R282): Adds FP32 values into W96 elements of a haze region, without offset word. -/
  | hzadd (a : Nat) (b : Nat) (sb : Nat)
  /-- `HZADD_EXT` (R282): hzadd with offset word. -/
  | hzaddExt (a : Nat) (b : Nat) (sb : Nat) (off : Int)
  /-- `HZSETTLE` (R284): Settles every region overlapping an address range. -/
  | hzsettle (l : Nat) (b : Nat) (sb : Nat)
  /-- `PREF` (R275): Prefetches lines into the first-level cache, without offset word. -/
  | pref (b : Nat) (sb : Nat)
  /-- `PREF_EXT` (R275): pref with offset word. -/
  | prefExt (b : Nat) (sb : Nat) (off : Int)
  /-- `WBACK` (R276): Writes dirty bytes of lines, or of all context lines, to home. -/
  | wback (b : Nat) (sb : Nat) (all : Bool)
  /-- `WBACK_EXT` (R276): wback with offset word. -/
  | wbackExt (b : Nat) (sb : Nat) (off : Int)
  /-- `FENCE` (R277): Orders the fibre's accesses with a release, acquire or both at a scope. -/
  | fence (sb : Nat) (kind : Nat) (scope : Nat)
  /-- `ATOM` (R279): Per-lane atomic read-modify-write returning the old value. -/
  | atom (op : Nat) (b : Nat) (sb : Nat) (ord : Nat) (scope : Nat)
  /-- `ATOMV` (R280): Element-wise atomic over 32 aligned bytes. -/
  | atomv (esz : Nat) (op : Nat) (b : Nat) (sb : Nat) (ord : Nat) (scope : Nat)
  /-- `REDM` (R279): Atomic reduction to memory that returns nothing. -/
  | redm (op : Nat) (b : Nat) (sb : Nat) (ord : Nat) (scope : Nat)
  /-- `BAR` (R285): Block-barrier arrival with release, then wait for the phase. -/
  | bar (k : Nat) (sb : Nat)
  /-- `BAR_ARV` (R285): Block-barrier arrival without waiting. -/
  | barArv (k : Nat) (sb : Nat)
  /-- `BAR_EXP` (R286): Sets EXPECT of a block barrier. -/
  | barExp (k : Nat) (cnt : Nat) (sb : Nat)
  /-- `GBAR` (R287): Arrives at a gang barrier after a package-scope release. -/
  | gbar (g : Nat) (sb : Nat)
  /-- `MMA` (R301): Tile matrix multiply-accumulate into accumulator rows. -/
  | mma (ta : Nat) (tb : Nat) (r : Nat) (k : Nat) (c0 : Nat) (z : Bool) (ea : Bool) (eb : Bool) (pr : Bool)
  /-- `MMAS` (R301): Scaled tile matrix multiply-accumulate. -/
  | mmas (ta : Nat) (tb : Nat) (r : Nat) (k : Nat) (c0 : Nat) (z : Bool) (ea : Bool) (eb : Bool) (pr : Bool)
  /-- `MZERO` (R304): Clears accumulator rows to +0. -/
  | mzero (r : Nat) (n1 : Nat) (sb : Nat)
  /-- `MACC_OUT` (R305): Moves accumulator cells into a tile with conversion. -/
  | maccOut (t : Nat) (r : Nat) (sb : Nat) (rnd : Nat) (hi : Bool) (c0 : Nat)
  /-- `MACC_IN` (R305): Moves or adds tile elements into accumulator cells. -/
  | maccIn (t : Nat) (r : Nat) (sb : Nat) (rnd : Nat) (add : Bool) (hi : Bool) (c0 : Nat)
  /-- `MLOOP` (R306): Runs a streaming multi-dimensional matrix loop through staging tiles. -/
  | mloop (ta : Nat) (tb : Nat) (sd : Nat)
  /-- `TALLOC` (R308): Allocates operand-buffer space to a tile entry. -/
  | talloc (p : Nat) (t : Nat) (sg : Nat) (sb : Nat)
  /-- `TFREE` (R309): Frees a tile entry once it is idle. -/
  | tfree (t : Nat) (sb : Nat)
  /-- `TCOPY` (R313): Queues a copy of global memory into a tile. -/
  | tcopy (t : Nat) (sd : Nat) (acq : Bool) (rel : Bool) (scope : Nat) (ir : Bool) (sb : Nat) (rnd : Nat) (slot : Nat) (cv : Bool) (hi : Bool)
  /-- `TCHAIN` (R316): Hands a chain of transfer records to a channel FIFO. -/
  | tchain (sh : Nat) (ch : Nat) (ir : Bool) (scope : Nat) (sb : Nat)
  /-- `TSTORE` (R314): Queues a copy of a READY tile to global memory. -/
  | tstore (t : Nat) (sd : Nat) (acq : Bool) (rel : Bool) (scope : Nat) (ir : Bool) (sb : Nat) (rnd : Nat) (slot : Nat) (cv : Bool) (hi : Bool)
  /-- `TSTORE_HZ` (R315): Adds accumulator rows into a haze region. -/
  | tstoreHz (sd : Nat) (acq : Bool) (rel : Bool) (scope : Nat) (ir : Bool) (sb : Nat) (hi : Bool) (r : Nat) (rows1 : Nat) (c0 : Nat)
  /-- `TFILL` (R310): Fills every word of a tile with a scalar. -/
  | tfill (t : Nat) (sv : Nat) (hi : Bool) (sb : Nat)
  /-- `SEQBAR` (R318): Sequencer arrives at a block barrier and waits for the phase. -/
  | seqbar (k : Nat)
  /-- `SEQBAR_ARV` (R318): Sequencer arrives at a block barrier without waiting. -/
  | seqbarArv (k : Nat)
  /-- `SEQBAR_WAIT` (R318): Sequencer waits for a barrier phase without arriving. -/
  | seqbarWait (k : Nat)
  /-- `ACCRD` (R319): Reads accumulator cells into lanes. -/
  | accrd (d : Nat) (a : Nat) (sb : Nat)
  /-- `ACCWR` (R319): Writes lane values into accumulator cells. -/
  | accwr (s : Nat) (a : Nat) (sb : Nat)
  /-- `AWSET` (R320): Sets a group's accumulator window during the allocation phase. -/
  | awset (sg : Nat) (sb0 : Nat) (sl : Nat) (last : Bool)
  /-- `TXINIT` (R289): Initialises a transaction barrier. -/
  | txinit (x : Nat) (c : Nat) (sb : Nat)
  /-- `TXEXP` (R289): Adds expected sectors to a transaction barrier. -/
  | txexp (x : Nat) (cnt : Nat) (sb : Nat)
  /-- `TXARV` (R289): Arrives at a transaction barrier, optionally adding expected sectors. -/
  | txarv (x : Nat) (cnt : Nat) (exp : Bool) (one : Bool) (sb : Nat)
  /-- `TXWAIT` (R290): Waits until a transaction barrier leaves a phase. -/
  | txwait (x : Nat) (ph : Nat)
  /-- `TXTEST` (R290): Tests whether a transaction barrier has left a phase. -/
  | txtest (p : Nat) (x : Nat) (ph : Nat) (sb : Nat)
  /-- `TWAIT` (R291): Waits until a tile is EMPTY or READY. -/
  | twait (t : Nat) (state : Nat)
  /-- `TSTATE` (R291): Reads a tile-table entry into a pair. -/
  | tstate (d : Nat) (t : Nat) (sb : Nat)
  /-- `SRDP` (R343): Reads a privileged selector into scalars. -/
  | srdp (d : Nat) (rsel : Nat)
  /-- `SWRP` (R343): Writes a privileged selector from scalars. -/
  | swrp (rsel : Nat) (s : Nat)
  /-- `PDONE` (R360): Ends the group's pre-emption handler and names data to save. -/
  | pdone (s : Nat)
  /-- `TLBINV` (R344): Removes translations of a page or the context from every translation cache. -/
  | tlbinv (a : Nat) (all : Bool)
  /-- `DBGRD` (R366): Reads a debug object per lane. -/
  | dbgrd (d : Nat) (a : Nat) (obj : Nat)
  /-- `SCOREBOARD_DECREMENT` (R67): A variable-latency operation completes and decrements its counter. -/
  | scoreboardDecrement (op : Nat)
  /-- `GROUP_RETIRE` (R58): A group with no occupied lane and zero counters retires. -/
  | groupRetire (g : Nat)
  /-- `BLOCK_RETIRE` (R59): A block retires and releases its context's dirty lines. -/
  | blockRetire (b : Nat)
  /-- `GANG_RETIRE` (R59): The last block's release completes and the gang retires, sending the join decrement. -/
  | gangRetire (ga : Nat)
  /-- `JOIN_DECREMENT` (R55): The join counter is decremented at its home slice. -/
  | joinDecrement (ga : Nat)
  /-- `PORT_DOWN` (R472): A Vreles port fails training and goes down. -/
  | portDown (port : Nat)
  /-- `PEER_REQUEST` (R374): An inbound peer request is performed at home or refused. -/
  | peerRequest (port : Nat)
  /-- `MATRIX_BURST_START` (R440): A core holding a token and admission starts a matrix burst. -/
  | matrixBurstStart (core : Nat)
  /-- `MATRIX_BURST_END` (R440): A burst ends after 256 busy clocks or when the array idles, freeing its token. -/
  | matrixBurstEnd (core : Nat)
  /-- `TOKEN_PASS` (R441): A free power token moves to the next core of the chiplet ring. -/
  | tokenPass (chip : Nat)
  /-- `MATRIX_WRITE_COMPLETE` (R118): A matrix operation's last write lands and row busy bits clear. -/
  | matrixWriteComplete (core : Nat)
  /-- `MLOOP_ITERATION` (R307): One mloop K-step copies its slabs and multiplies. -/
  | mloopIteration (core : Nat) (cmd : Nat)
  /-- `COPY_ENGINE_TRANSFER` (R473): A copy engine sends a line or sector read or write of a queued command. -/
  | copyEngineTransfer (core : Nat) (cmd : Nat)
  /-- `COPY_SECTOR_ARRIVAL` (R313): A copied sector completes in a tile and decrements its barrier's SEC_PEND. -/
  | copySectorArrival (core : Nat) (cmd : Nat)
  /-- `CHAIN_RECORD` (R317): A channel walks one transfer record of a chain. -/
  | chainRecord (isle : Nat) (ch : Nat)
  /-- `COMMAND_RESUME` (R323): A command stopped on a recoverable fault resumes from its vector. -/
  | commandResume (core : Nat) (cmd : Nat)
  /-- `TRANSLATION_WALK` (R382): A walker completes a page walk and answers all joined misses. -/
  | translationWalk (isle : Nat) (ctx : Nat) (vpn : Nat)
  /-- `ARBITRATION_CYCLE` (R392): A router output port grants one packet. -/
  | arbitrationCycle (isle : Nat) (port : Nat)
  /-- `PACKET_ARRIVAL` (R389): A packet's flits arrive at a router input or destination unit. -/
  | packetArrival (k : Nat)
  /-- `STOP` (R391): A receiver signals STOP for a channel and the sender stops granting. -/
  | stopSignal (isle : Nat) (input : Nat) (vc : Nat)
  /-- `GO` (R391): A receiver signals GO and the sender resumes the channel. -/
  | goSignal (isle : Nat) (input : Nat) (vc : Nat)
  /-- `RD` (R399): Line fetch at home answered with data and a lease expiry. -/
  | rd (isle : Nat) (unit : Nat)
  /-- `RDH` (R394): Read at home for strong loads, walks, records and host reads. -/
  | rdh (isle : Nat) (unit : Nat)
  /-- `WT` (R399): Write-through of masked bytes applied at home and acknowledged with a GWCT. -/
  | wt (isle : Nat) (unit : Nat)
  /-- `ATOM_AT_HOME` (R401): An atomic request executed at the slice arithmetic unit. -/
  | atomAtHome (isle : Nat) (unit : Nat)
  /-- `HZQ` (R149): One quantised W96 add applied at the element home. -/
  | hzq (isle : Nat) (unit : Nat)
  /-- `TOLERANT_LOAD_REQUEST` (R406): An LDT at the region home settles shares to the tolerance, then reads the element. -/
  | tolerantLoadRequest (isle : Nat) (unit : Nat)
  /-- `DRN` (R130): Drained dirty bytes applied at home and acknowledged with a GWCT. -/
  | drn (isle : Nat) (unit : Nat)
  /-- `HZD` (R401): A delta line of eight adds applied at the element homes. -/
  | hzd (isle : Nat) (unit : Nat)
  /-- `CPR` (R140): A copy-engine read at home. -/
  | cpr (isle : Nat) (unit : Nat)
  /-- `CPW` (R399): A copy-engine write at home acknowledged with a GWCT. -/
  | cpw (isle : Nat) (unit : Nat)
  /-- `DATA` (R113): Read data arrives at the requester and fills a line with its lease. -/
  | dataArrive (isle : Nat) (unit : Nat)
  /-- `ACK` (R399): A write acknowledgement carrying the GWCT arrives at the writer. -/
  | ackArrive (isle : Nat) (unit : Nat)
  /-- `ATR` (R279): An atomic's old value arrives at the core. -/
  | atr (isle : Nat) (unit : Nat)
  /-- `XGNT` (R402): An exclusive lease grant with the line arrives at the core. -/
  | xgnt (isle : Nat) (unit : Nat)
  /-- `XRET` (R402): An exclusive line returns to home and waiting requests are applied. -/
  | xret (isle : Nat) (unit : Nat)
  /-- `RECALL` (R402): Home asks the lease holder to return an exclusive line. -/
  | recall (isle : Nat) (unit : Nat)
  /-- `EXCLUSIVE_LEASE_END` (R402): An exclusive lease reaches its end and the holder returns the line. -/
  | exclusiveLeaseEnd (core : Nat) (loc : Nat)
  /-- `DREQ` (R400): A core receives a drain request for a release record and drains the context. -/
  | dreq (isle : Nat) (unit : Nat)
  /-- `DDONE` (R400): Drain done arrives at home, which answers held acquires after Gmax. -/
  | ddone (isle : Nat) (unit : Nat)
  /-- `SHREQ` (R404): A share request arrives at the region home. -/
  | shreq (isle : Nat) (unit : Nat)
  /-- `SHGNT` (R149): A share grant or refusal arrives at the core. -/
  | shgnt (isle : Nat) (unit : Nat)
  /-- `SPLIT` (R404): A holder halves its share, draining first if needed. -/
  | splitShare (isle : Nat) (unit : Nat)
  /-- `SPDONE` (R405): The region home records units given up in a split. -/
  | spdone (isle : Nat) (unit : Nat)
  /-- `SETTLE` (R150): A holder drains all its deltas of a region and surrenders its share. -/
  | settle (isle : Nat) (unit : Nat)
  /-- `SURR` (R405): The region home records a surrendered share. -/
  | surr (isle : Nat) (unit : Nat)
  /-- `DOPEN` (R407): A delta-line open notice is recorded by the filter and directory. -/
  | dopen (isle : Nat) (unit : Nat)
  /-- `DCLOSE` (R407): A delta-line drained notice undoes filter and directory records. -/
  | dclose (isle : Nat) (unit : Nat)
  /-- `HAZE_IDLE_SURRENDER` (R150): A core idle on a region for 64 us drains and surrenders its share. -/
  | hazeIdleSurrender (core : Nat) (ctx : Nat) (region : Nat)
  /-- `BAR_ARRIVAL` (R425): A gang-barrier arrival message reaches the barrier unit. -/
  | barArrival (isle : Nat) (unit : Nat)
  /-- `BAR_RELEASE` (R425): A gang-barrier release reaches a block's core. -/
  | barRelease (isle : Nat) (unit : Nat)
  /-- `PREEMPT_QUIESCED` (R359): The gang has quiesced; control state is captured and handlers start. -/
  | preemptQuiesced (ga : Nat)
  /-- `PREEMPT_DEADLINE` (R361): The 50 us pre-emption deadline expires and remaining groups are stopped. -/
  | preemptDeadline (ga : Nat)
  /-- `LIVENESS_PROBE` (R454): The base sends a liveness probe to every core of a chiplet. -/
  | livenessProbe (m : Nat)
  /-- `PROBE_TIMEOUT` (R454): A probe unanswered for 16 us fences the chiplet. -/
  | probeTimeout (m : Nat)
  /-- `BACKPRESSURE_TIMEOUT` (R454): A vertical port backpressured for 64 us fences the chiplet. -/
  | backpressureTimeout (m : Nat)
  /-- `FSTEP_END` (R436): A 0.5 us frequency step ends. -/
  | fstepEnd (n : Nat)
  /-- `RAMP_END` (R436): A 4 us converter ramp ends at the committed ratio. -/
  | rampEnd (n : Nat)
  /-- `MHEAVY_SAMPLE` (R435): Each 1 us a cluster re-evaluates its matrix-heavy class. -/
  | mheavySample (n : Nat)
  /-- `BUDGET_INTERVAL` (R442): A new 1 us byte-budget interval releases held requests. -/
  | budgetInterval (n : Nat)
  /-- `GWCT_PASSED` (R130): Package time passes the largest GWCT (Gmax) awaited by a release, a fence, ctxwb, an engine release flag or a slice holding acquires after DDONE, and the waiter completes. -/
  | gwctPassed (d : Nat)
  /-- `PENDING_WRITE_LANDS` (R176): The result of a fixed-latency instruction issued in clock c lands at the end of clock c + L - 1. -/
  | pendingWriteLands (g : Nat)
  /-- `OPERAND_READS_COMPLETE` (R117): The last issued operand read of a tile completes, its pending-read count reaches zero, and any waiting READY-to-EMPTY or DRAINING-to-EMPTY transition or tfree takes effect. -/
  | operandReadsComplete (core : Nat)
  /-- `PROBE_ANSWER` (R454): A core's answer to a liveness probe arrives at the base and the probe no longer counts as unanswered. -/
  | probeAnswer (core : Nat)
  /-- `TILE_WAIT_TIMEOUT` (R292): A fibre waiting on a tile or barrier for 2^24 clocks traps. -/
  | tileWaitTimeout (g : Nat) (lanes : Nat)
  /-- `SEQ_TILE_WAIT_TIMEOUT` (R297): The sequencer waiting 2^24 clocks terminates the block. -/
  | seqTileWaitTimeout (b : Nat)
  /-- `MEMORY_ERROR_TRAP` (R267): A fibre set reaching a header that waits on a failed counter traps. -/
  | memoryErrorTrap (g : Nat) (lanes : Nat)
  /-- `YIELD` (R231): Marks active lanes as yielding for the next issue slot. -/
  | yield
  /-- `NOP` (R232): Changes no state. -/
  | nop
  /-- `TRAPRET` (R352): Ends trap mode and resumes at TPC and TIDX. -/
  | trapret
  /-- `CTXWB` (R345): Drains the context's dirty lines on every core. -/
  | ctxwb
  /-- `HZRECLAIM` (R346): Settles deltas and shares held on cores not running the context. -/
  | hzreclaim
  /-- `BYPASS` (R367): Test-port instruction selecting the bypass register. -/
  | bypass
  /-- `IDCODE` (R367): Test-port instruction selecting the identification register. -/
  | idcode
  /-- `FRZSEL` (R367): Test-port instruction loading an array selector after a freeze. -/
  | frzsel
  /-- `FRZREAD` (R367): Test-port instruction shifting out the selected array's raw words. -/
  | frzread
  /-- `CLAUSE_SKIP` (R31): Fibres with a false guard move to the next clause header in an issue slot. -/
  | clauseSkip (g : Nat) (lanes : Nat)
  /-- `QUEUE_POP` (R418): The arbiter pops one record from an eligible queue into the pending list. -/
  | queuePop
  /-- `PLACEMENT_PASS` (R420): The scheduler places every pending gang that fits, in list order. -/
  | placementPass
  /-- `PENDING_ENTRY_BLOCKS` (R420): A pending entry that has waited 100 us starts blocking later entries. -/
  | pendingEntryBlocks
  /-- `HOLDBACK_WINDOW` (R423): At each 10 us boundary the scheduler recomputes remote-traffic holdback. -/
  | holdbackWindow
  /-- `TRAFFIC_WINDOW` (R409): Strait utilisation counters latch the completed 10 us window. -/
  | trafficWindow
  /-- `SLEW_WINDOW` (R426): A slew window admits up to SLEWA requesting cores after a device-wide release. -/
  | slewWindow
  /-- `VRELES_FLIT` (R397): A Vreles port receives a flit and checks its CRC and sequence. -/
  | vrelesFlit (port : Nat) (seq : Nat) (crcOk : Bool) (vc : Nat) (msg : PeerMsg)
  /-- `NAK` (R397): A sender receives a NAK and replays from that flit. -/
  | nak (port : Nat) (seq : Nat)
  /-- `HOST_MEMORY_READ` (R470): A host read through BAR2 is performed at home. -/
  | hostMemoryRead (off : Nat) (len : Nat)
  /-- `HOST_MEMORY_WRITE` (R470): A host posted write through BAR2 is performed at home. -/
  | hostMemoryWrite (off : Nat) (bytes : List Nat)
  /-- `REGISTER_WRITE` (R6): A supervisor write to a device register without behaviour of its own. -/
  | registerWrite (off : Nat) (len : Nat) (val : Nat)
  /-- `WAKE` (R417): A wake-port tail write checked against the capability and queue. -/
  | wake (port : Nat) (off : Nat) (len : Nat) (val : Nat)
  /-- `MINT` (R416): The supervisor writes capability bits and reads back the seal. -/
  | mint (off : Nat) (len : Nat) (val : Nat)
  /-- `QCTL` (R415): A queue control write; enabling resets HEAD and TAIL. -/
  | qctl (q : Nat) (off : Nat) (len : Nat) (val : Nat)
  /-- `REGION_TABLE` (R403): A region-table write, taking effect only under its conditions and setting U. -/
  | regionTable (n : Nat) (off : Nat) (len : Nat) (val : Nat)
  /-- `CGCFG` (R446): A ceiling-group configuration write; EN joins or leaves the group. -/
  | cgcfg (val : Nat)
  /-- `PAGEANS` (R355): Supervisor command answering or refusing a page request. -/
  | pageans
  /-- `PREEMPT` (R358): Supervisor command starting pre-emption of a gang. -/
  | preempt
  /-- `DBGRUN` (R368): Supervisor command resuming halted groups. -/
  | dbgrun
  /-- `DBGSTEP` (R368): Supervisor command letting a halted group issue one clause. -/
  | dbgstep
  /-- `DBGHALT` (R368): Supervisor command halting a group or block. -/
  | dbghalt
  /-- `FREEZE` (R367): Supervisor command asserting the debug freeze. -/
  | freezeCmd
  /-- `UNKNOWN_COMMAND` (R368): An unknown SVCMD code ends with RESULT 0x04. -/
  | unknownCommand (code : Nat)
  /-- `FREEZE_PIN` (R367): The freeze pin stops every clock of the package. -/
  | freezePin
  /-- `PACKAGE_RESET` (R367): A package reset restarts the part after a freeze. -/
  | packageReset
  /-- `HOT_RESET` (R468): A PCI Express hot reset or link-down resets the package. -/
  | hotReset
  /-- `POWER_ON` (R467): Base power-on starts bring-up. -/
  | powerOn (yehamOk : Bool) (baseOk : Bool) (chips : Nat) (hostOk : Bool) (ports : Nat)
  /-- `ATTESTATION_REQUEST` (R466): Yeham returns a signed attestation report or refuses. -/
  | attestationRequest (algOk : Bool) (nonce : Nat)
  /-- `STORE` (R471): Recovery command copying a chunk into the staging area. -/
  | storeChunk
  /-- `COMMIT` (R471): Recovery command verifying and writing the staged image to flash. -/
  | commitImage (sigOk : Bool) (flashOk : Bool)
  /-- `RESTART` (R471): Recovery command restarting bring-up from phase 0. -/
  | restart
  /-- `IDENTIFY` (R471): Recovery command writing identity data into DATA. -/
  | identify
  /-- `MAILBOX_UNKNOWN` (R471): An unknown recovery command code sets STATE 3 with ERR 0x01. -/
  | mailboxUnknown (code : Nat)
  /-- `CHIPCTL_FENCE` (R455): Supervisor command fencing a chiplet. -/
  | chipctlFence (m : Nat)
  /-- `REJOIN` (R460): Supervisor command resetting and self-testing a fenced chiplet. -/
  | rejoin (m : Nat)
  /-- `SELF_TEST_COMPLETE` (R460): A chiplet self-test ends and the chiplet joins the map or fails. -/
  | selfTestComplete (m : Nat) (ok : Bool)
  /-- `TELEMETRY_SAMPLE` (R464): Telemetry updates power, error counts and PLIM every 100 us. -/
  | telemetrySample (pwr : Nat) (plim : Nat)
  /-- `EARLY_BITE` (R439): A thermal trip or power excess lowers L_self at once. -/
  | earlyBite (lim : Nat)
  /-- `SCRUB` (R464): A line is scrubbed and errors corrected or poisoned. -/
  | scrub (loc : Nat) (uncorrectable : Bool)
  /-- `LINK_CALIBRATION` (R464): A Vreles port pauses for calibration. -/
  | linkCalibration (port : Nat)
  /-- `LIMIT` (R447): A ceiling-group LIMIT message is received. -/
  | limit (m : CeilMsg)
  /-- `HEARTBEAT` (R447): A ceiling-group HEARTBEAT message is received. -/
  | heartbeat (m : CeilMsg)
  /-- `JOIN` (R447): A ceiling-group JOIN message is received. -/
  | join (m : CeilMsg)
  /-- `LEAVE` (R447): A ceiling-group LEAVE message is received. -/
  | leave (m : CeilMsg)
  /-- `EMERGENCY` (R451): An EMERGENCY message lowers the sender's limit on receipt. -/
  | emergency (m : CeilMsg)
  /-- `HEARTBEAT_DUE` (R447): A member sends a heartbeat after HBINT without other messages. -/
  | heartbeatDue
  /-- `APPLY_INSTANT` (R448): At an apply instant the member applies messages and recomputes C. -/
  | applyInstant
  /-- `SUSPECT_TIMEOUT` (R449): A member silent for 1 ms is marked suspect. -/
  | suspectTimeout
  /-- `EXPEL_TIMEOUT` (R449): A member silent for 2 ms is expelled. -/
  | expelTimeout
  /-- `EXPELLED` (R449): A package hearing no member for 2 ms sets EXPELLED. -/
  | expelled
  /-- `SYNC_INTERVAL` (R445): The time master sends SYNC and FOLLOW_UP every 2^SYNCINT us. -/
  | syncInterval
  /-- `SYNC` (R445): A follower receives SYNC and records t2. -/
  | sync (port : Nat) (sender : Nat) (seqid : Nat) (corr : Int)
  /-- `FOLLOW_UP` (R445): A follower receives FOLLOW_UP and sends DELAY_REQ. -/
  | followUp (port : Nat) (seqid : Nat) (t1 : Nat)
  /-- `DELAY_REQ` (R445): The master receives DELAY_REQ and answers DELAY_RESP. -/
  | delayReq (port : Nat) (sender : Nat) (seqid : Nat) (corr : Int)
  /-- `DELAY_RESP` (R445): A follower completes an exchange and corrects its time. -/
  | delayResp (port : Nat) (seqid : Nat) (t4 : Nat) (corr : Int)
  /-- `LOCK_LOSS` (R445): After eight intervals without an exchange LOCKED falls to 0. -/
  | lockLoss
  /-- `PORT_TRAINS_AGAIN` (R472): A Vreles port that was retraining or down completes training and carries traffic again, which raises interrupt source 70. -/
  | portTrainsAgain (port : Nat)
deriving DecidableEq, Repr

end Sys2Proof
end

