-- ==== Sys2Proof/WellFormed.lean ====
section
/-!
DEFINITION. Which instructions the encodings admit (R169, R172, R174, R194 to R197, R242 to R244,
R268 to R271, R288, R299, R342): `Instr.ill` names the first operand check an instruction fails.
-/
namespace Sys2Proof

/-- The reasons an instruction is ill-formed. Each is an encoding check of R169. -/
inductive Ill where
  | badRegister
  | badScalar
  | badPredicate
  | badMask
  | badTile
  | oddPair
  | badQuad
  | badRounding
  | badScope
  | badCounter
  | counterRequired
  | badCode
  | badSelector
  | badDescriptor
  | badOffset
  | badRange
  | badUnit
deriving DecidableEq, Repr

/-- The first check of a list that does not hold. -/
def firstIll : List (Bool × Ill) → Option Ill
  | [] => none
  | (true, _) :: t => firstIll t
  | (false, r) :: _ => some r

/-- An even register number. -/
def isEven (n : Nat) : Bool := n % 2 == 0

/-- A pair condition that binds only when `c` holds (R63). -/
def evenIf (c : Bool) (n : Nat) : Bool := !c || isEven n

/-- Operand B: vector register, scalar register below `sMax / 2` or immediate below `iMax`;
`vMax = 0` forbids the vector form and `iMax = 0` the immediate form (R195, R196, R197). -/
def Src.okB (vMax iMax : Nat) : Src → Bool
  | .v k => decide (k < vMax)
  | .s k => decide (k < 32)
  | .imm n => decide (n < iMax)

/-- A vector register or a five-bit immediate (`fshl`, `shfl`). -/
def Src.okVI : Src → Bool
  | .v k => decide (k < 64)
  | .s _ => false
  | .imm n => decide (n < 32)

/-- A register source of a 64-bit form names a pair (R63, R195). -/
def Src.evenReg : Src → Bool
  | .v k => isEven k
  | .s k => isEven k
  | .imm _ => true

/-- Access codes that `ld` lists (R271). -/
def Acc.okLoad : Acc → Bool
  | .weak w => decide (w < 7)
  | .ordered _ _ => true

/-- Access codes that `st` lists (R271). -/
def Acc.okStore : Acc → Bool
  | .weak w => decide (w < 7) && decide (w ≠ 2) && decide (w ≠ 4)
  | .ordered _ _ => true

/-- Access codes that `lds` lists: no `.b128` (R270). -/
def Acc.okLds : Acc → Bool
  | .weak w => decide (w < 6)
  | .ordered _ _ => true

/-- Scope codes 0b110 and 0b111 trap (R268). -/
def Acc.okScope : Acc → Bool
  | .weak _ => true
  | .ordered _ c => decide (c < 6)

/-- The data register of an access of a width code: a pair for `.b64`, a quad for `.b128` (R120). -/
def dataOk (w d : Nat) : Bool :=
  if w == 5 then isEven d else if w == 6 then d % 4 == 0 else true

/-- The operations of `atom` (R278). -/
def atomOpOk (op : Nat) : Bool :=
  decide (op < 14) || (decide (16 ≤ op) && decide (op < 26)) || op == 29

/-- The operations of `redm`: no compare-and-swap and no load, and `fma` (R278). -/
def redmOpOk (op : Nat) : Bool :=
  (decide (op < 15) && decide (op ≠ 9) && decide (op ≠ 13)) || (decide (16 ≤ op) && decide (op < 25))

/-- The selectors of `sread` (R76). -/
def selectorOk (n : Nat) : Bool :=
  n == 0 || n == 1 || n == 2 || n == 3 || n == 4 || n == 6 || n == 7 || n == 8 || n == 9 ||
  n == 10 || n == 12 || n == 14 || n == 15 || (decide (16 ≤ n) && decide (n < 32) && isEven n) ||
  (decide (32 ≤ n) && decide (n < 67))

/-- The selectors that `swrp` may name: BROLE, TVEC, TPC and TIDX (R343). -/
def swrpOk (n : Nat) : Bool := n == 0 || n == 1 || n == 5 || n == 6

/-- The 64-bit selectors of R343: BROLE, TVEC, TPC and TADDR. -/
def psel64 (n : Nat) : Bool := n == 0 || n == 1 || n == 5 || n == 7

/-- The part index of a format: 0 for FP32 and FP64, a half for FP16 and BF16, a byte for E4M3 and
E5M2 (R253). -/
def partOk (f p : Nat) : Bool := if f < 2 then p == 0 else if f < 4 then decide (p < 2) else decide (p < 4)

/-- `.ir` takes a scope of isle or wider (R141, R299). -/
def irOk (ir : Bool) (scope : Nat) : Bool := !ir || scope == 0 || scope == 4 || scope == 5

/-- The first encoding check an instruction fails, or `none`: it is well-formed (R169). -/
def Instr.ill : Instr → Option Ill
  | .iadd d a b =>
      firstIll [(decide (d < 64), .badRegister), (decide (a < 64), .badRegister),
        (b.okB 64 64, .badRegister)]
  | .isub d a b =>
      firstIll [(decide (d < 64), .badRegister), (decide (a < 64), .badRegister),
        (b.okB 64 64, .badRegister)]
  | .iaddc d a c b =>
      firstIll [(decide (d < 64), .badRegister), (decide (a < 64), .badRegister),
        (decide (c < 16), .badPredicate), (b.okB 64 4294967296, .badRegister)]
  | .isubb d a c b =>
      firstIll [(decide (d < 64), .badRegister), (decide (a < 64), .badRegister),
        (decide (c < 16), .badPredicate), (b.okB 64 4294967296, .badRegister)]
  | .imul d a b =>
      firstIll [(decide (d < 64), .badRegister), (decide (a < 64), .badRegister),
        (b.okB 64 64, .badRegister)]
  | .imulh d a b _ =>
      firstIll [(decide (d < 64), .badRegister), (decide (a < 64), .badRegister),
        (b.okB 64 0, .badRegister)]
  | .imad d a b c =>
      firstIll [(decide (d < 64), .badRegister), (decide (a < 64), .badRegister),
        (b.okB 64 0, .badRegister), (c.okB 64 0, .badRegister)]
  | .imin d a b _ =>
      firstIll [(decide (d < 64), .badRegister), (decide (a < 64), .badRegister),
        (b.okB 64 0, .badRegister)]
  | .imax d a b _ =>
      firstIll [(decide (d < 64), .badRegister), (decide (a < 64), .badRegister),
        (b.okB 64 0, .badRegister)]
  | .iabs d a _ => firstIll [(decide (d < 64), .badRegister), (decide (a < 64), .badRegister)]
  | .ineg d a _ => firstIll [(decide (d < 64), .badRegister), (decide (a < 64), .badRegister)]
  | .idot4 d a b _ _ =>
      firstIll [(decide (d < 64), .badRegister), (decide (a < 64), .badRegister),
        (decide (b < 64), .badRegister)]
  | .iadd64 d a b =>
      firstIll [(decide (d < 64), .badRegister), (isEven d, .oddPair), (decide (a < 64), .badRegister),
        (isEven a, .oddPair), (b.okB 64 64, .badRegister), (b.evenReg, .oddPair)]
  | .lea d a b k _ =>
      firstIll [(decide (d < 64), .badRegister), (isEven d, .oddPair), (decide (a < 64), .badRegister),
        (isEven a, .oddPair), (b.okB 64 0, .badRegister), (decide (k < 4), .badCode)]
  | .sel d a p b =>
      firstIll [(decide (d < 64), .badRegister), (decide (a < 64), .badRegister),
        (decide (p < 16), .badPredicate), (b.okB 64 4294967296, .badRegister)]
  | .isetp p a code _ b =>
      firstIll [(decide (p < 16), .badPredicate), (decide (a < 64), .badRegister),
        (decide (code < 8), .badCode), (b.okB 64 4294967296, .badRegister)]
  | .and d a b =>
      firstIll [(decide (d < 64), .badRegister), (decide (a < 64), .badRegister),
        (b.okB 64 64, .badRegister)]
  | .or d a b =>
      firstIll [(decide (d < 64), .badRegister), (decide (a < 64), .badRegister),
        (b.okB 64 64, .badRegister)]
  | .xor d a b =>
      firstIll [(decide (d < 64), .badRegister), (decide (a < 64), .badRegister),
        (b.okB 64 64, .badRegister)]
  | .andn d a b =>
      firstIll [(decide (d < 64), .badRegister), (decide (a < 64), .badRegister),
        (b.okB 64 64, .badRegister)]
  | .orn d a b =>
      firstIll [(decide (d < 64), .badRegister), (decide (a < 64), .badRegister),
        (b.okB 64 64, .badRegister)]
  | .not d a => firstIll [(decide (d < 64), .badRegister), (decide (a < 64), .badRegister)]
  | .lop3 d a b c t =>
      firstIll [(decide (d < 64), .badRegister), (decide (a < 64), .badRegister),
        (decide (b < 64), .badRegister), (decide (c < 64), .badRegister),
        (decide (t < 256), .badRange)]
  | .shl d a b =>
      firstIll [(decide (d < 64), .badRegister), (decide (a < 64), .badRegister),
        (b.okB 64 64, .badRegister)]
  | .shr d a b =>
      firstIll [(decide (d < 64), .badRegister), (decide (a < 64), .badRegister),
        (b.okB 64 64, .badRegister)]
  | .sar d a b =>
      firstIll [(decide (d < 64), .badRegister), (decide (a < 64), .badRegister),
        (b.okB 64 64, .badRegister)]
  | .rol d a b =>
      firstIll [(decide (d < 64), .badRegister), (decide (a < 64), .badRegister),
        (b.okB 64 64, .badRegister)]
  | .fshl d a b c =>
      firstIll [(decide (d < 64), .badRegister), (decide (a < 64), .badRegister),
        (decide (b < 64), .badRegister), (c.okVI, .badRegister)]
  | .shl64 d a b =>
      firstIll [(decide (d < 64), .badRegister), (isEven d, .oddPair), (decide (a < 64), .badRegister),
        (isEven a, .oddPair), (b.okB 64 64, .badRegister)]
  | .popc d a => firstIll [(decide (d < 64), .badRegister), (decide (a < 64), .badRegister)]
  | .clz d a => firstIll [(decide (d < 64), .badRegister), (decide (a < 64), .badRegister)]
  | .ctz d a => firstIll [(decide (d < 64), .badRegister), (decide (a < 64), .badRegister)]
  | .brev d a => firstIll [(decide (d < 64), .badRegister), (decide (a < 64), .badRegister)]
  | .bfx d a pos len _ =>
      firstIll [(decide (d < 64), .badRegister), (decide (a < 64), .badRegister),
        (decide (pos < 32), .badRange), (decide (1 ≤ len) && decide (len < 33), .badCode)]
  | .bfi d a b pos len =>
      firstIll [(decide (d < 64), .badRegister), (decide (a < 64), .badRegister),
        (decide (b < 64), .badRegister), (decide (pos < 32), .badRange),
        (decide (1 ≤ len) && decide (len < 33), .badCode)]
  | .mov d a w64 =>
      firstIll [(decide (d < 64), .badRegister), (decide (a < 64), .badRegister), (evenIf w64 d, .oddPair),
        (evenIf w64 a, .oddPair)]
  | .movi d imm =>
      firstIll [(decide (d < 64), .badRegister), (decide (imm < 4294967296), .badRange)]
  | .movs d s w64 =>
      firstIll [(decide (d < 64), .badRegister), (decide (s < 32), .badScalar), (evenIf w64 d, .oddPair),
        (evenIf w64 s, .oddPair)]
  | .sread d kind rsel =>
      firstIll [(decide (d < 64), .badRegister), (decide (kind < 4), .badCode),
        (selectorOk rsel, .badSelector),
        (!(kind == 1 || kind == 3) || decide (d < 32), .badRegister),
        (evenIf (decide (2 ≤ kind)) d, .oddPair)]
  | .plop p pa pb pc t =>
      firstIll [(decide (p < 16), .badPredicate), (decide (pa < 16), .badPredicate),
        (decide (pb < 16), .badPredicate), (decide (pc < 16), .badPredicate),
        (decide (t < 256), .badRange)]
  | .pmov _ r => firstIll [(decide (r < 64), .badRegister)]
  | .sadd d a b =>
      firstIll [(decide (d < 32), .badScalar), (decide (a < 32), .badScalar), (b.okB 0 64, .badRegister)]
  | .ssub d a b =>
      firstIll [(decide (d < 32), .badScalar), (decide (a < 32), .badScalar), (b.okB 0 64, .badRegister)]
  | .smul d a b =>
      firstIll [(decide (d < 32), .badScalar), (decide (a < 32), .badScalar), (b.okB 0 64, .badRegister)]
  | .sand d a b =>
      firstIll [(decide (d < 32), .badScalar), (decide (a < 32), .badScalar), (b.okB 0 64, .badRegister)]
  | .sor d a b =>
      firstIll [(decide (d < 32), .badScalar), (decide (a < 32), .badScalar), (b.okB 0 64, .badRegister)]
  | .sxor d a b =>
      firstIll [(decide (d < 32), .badScalar), (decide (a < 32), .badScalar), (b.okB 0 64, .badRegister)]
  | .sshl d a b =>
      firstIll [(decide (d < 32), .badScalar), (decide (a < 32), .badScalar), (b.okB 0 64, .badRegister)]
  | .sshr d a b _ =>
      firstIll [(decide (d < 32), .badScalar), (decide (a < 32), .badScalar), (b.okB 0 64, .badRegister)]
  | .smov d a w64 =>
      firstIll [(decide (d < 32), .badScalar), (decide (a < 32), .badScalar), (evenIf w64 d, .oddPair),
        (evenIf w64 a, .oddPair)]
  | .smovi d imm =>
      firstIll [(decide (d < 32), .badScalar), (decide (imm < 4294967296), .badRange)]
  | .ssetp p a code _ b =>
      firstIll [(decide (p < 16), .badPredicate), (decide (a < 32), .badScalar),
        (decide (code < 8), .badCode), (b.okB 0 4294967296, .badRegister)]
  | .slane d a lane w64 =>
      firstIll [(decide (d < 32), .badScalar), (decide (a < 64), .badRegister),
        (lane.okB 0 32, .badRegister), (evenIf w64 d, .oddPair), (evenIf w64 a, .oddPair)]
  | .bra p off =>
      firstIll [(decide (p < 16), .badPredicate),
        (decide (-32767 ≤ off) && decide (off ≤ 32767), .badOffset)]
  | .braLong p off =>
      firstIll [(decide (p < 16), .badPredicate),
        (decide (-2147483648 ≤ off) && decide (off < 2147483648), .badOffset)]
  | .bany p off =>
      firstIll [(decide (p < 16), .badPredicate),
        (decide (-32767 ≤ off) && decide (off ≤ 32767), .badOffset)]
  | .banyLong p off =>
      firstIll [(decide (p < 16), .badPredicate),
        (decide (-2147483648 ≤ off) && decide (off < 2147483648), .badOffset)]
  | .ball p off =>
      firstIll [(decide (p < 16), .badPredicate),
        (decide (-32767 ≤ off) && decide (off ≤ 32767), .badOffset)]
  | .ballLong p off =>
      firstIll [(decide (p < 16), .badPredicate),
        (decide (-2147483648 ≤ off) && decide (off < 2147483648), .badOffset)]
  | .bnone p off =>
      firstIll [(decide (p < 16), .badPredicate),
        (decide (-32767 ≤ off) && decide (off ≤ 32767), .badOffset)]
  | .bnoneLong p off =>
      firstIll [(decide (p < 16), .badPredicate),
        (decide (-2147483648 ≤ off) && decide (off < 2147483648), .badOffset)]
  | .bdiv p off =>
      firstIll [(decide (p < 16), .badPredicate),
        (decide (-32767 ≤ off) && decide (off ≤ 32767), .badOffset)]
  | .bdivLong p off =>
      firstIll [(decide (p < 16), .badPredicate),
        (decide (-2147483648 ≤ off) && decide (off < 2147483648), .badOffset)]
  | .jmp tgt => firstIll [(tgt.okB 64 0, .badRegister), (tgt.evenReg, .oddPair)]
  | .call f off =>
      firstIll [(decide (f < 63), .badRange), (isEven f, .oddPair),
        (decide (-2147483648 ≤ off) && decide (off < 2147483648), .badOffset)]
  | .calli f tgt =>
      firstIll [(decide (f < 63), .badRange), (isEven f, .oddPair), (tgt.okB 64 0, .badRegister),
        (tgt.evenReg, .oddPair)]
  | .ret link f =>
      firstIll [(decide (link < 64), .badRegister), (isEven link, .oddPair), (decide (f < 63), .badRange),
        (isEven f, .oddPair)]
  | .exit p => firstIll [(decide (p < 16), .badPredicate)]
  | .fspawn d p w off =>
      firstIll [(decide (d < 64), .badRegister), (decide (p < 16), .badPredicate),
        (decide (w < 63), .badRange), (isEven w, .oddPair),
        (decide (-2147483648 ≤ off) && decide (off < 2147483648), .badOffset)]
  | .yield => none
  | .nop => none
  | .bkpt code => firstIll [(decide (code < 256), .badRange)]
  | .utrap code => firstIll [(decide (code < 256), .badRange)]
  | .mjoin m => firstIll [(decide (m < 12), .badMask)]
  | .mleave m => firstIll [(decide (m < 12), .badMask)]
  | .mwait m => firstIll [(decide (m < 12), .badMask)]
  | .mset m s mode =>
      firstIll [(decide (m < 12), .badMask), (decide (s < 32), .badScalar), (decide (mode < 3), .badCode)]
  | .mget d m mode =>
      firstIll [(decide (d < 32), .badScalar), (decide (m < 12), .badMask), (decide (mode < 4), .badCode),
        (decide (mode < 2) || m == 0, .badCode)]
  | .vote d pa m q mode =>
      firstIll [(decide (d < 64), .badRegister), (decide (pa < 16), .badPredicate),
        (decide (m < 12), .badMask), (decide (q < 4), .badCode), (decide (mode < 3), .badCode),
        (mode == 2 || q == 0, .badCode), (!(mode == 2) || decide (d < 16), .badPredicate)]
  | .matchl d a m w64 =>
      firstIll [(decide (d < 64), .badRegister), (decide (a < 64), .badRegister),
        (decide (m < 12), .badMask), (evenIf w64 a, .oddPair)]
  | .shfl d a mlo mhi b w64 m seg _ =>
      firstIll [(decide (d < 64), .badRegister), (decide (a < 64), .badRegister),
        (decide (mlo < 4), .badCode), (decide (mhi < 2), .badCode), (b.okVI, .badRegister),
        (decide (m < 12), .badMask), (decide (seg < 5), .badCode),
        (decide (mlo + 4 * mhi ≤ 5), .badCode), (!(mlo + 4 * mhi == 5) || b == .imm 0, .badCode),
        (evenIf w64 d, .oddPair), (evenIf w64 a, .oddPair)]
  | .redmin d a m idx ty =>
      firstIll [(decide (d < 64), .badRegister), (decide (a < 64), .badRegister),
        (decide (m < 12), .badMask), (decide (ty < 3), .badCode), (evenIf idx d, .oddPair)]
  | .redmax d a m idx ty =>
      firstIll [(decide (d < 64), .badRegister), (decide (a < 64), .badRegister),
        (decide (m < 12), .badMask), (decide (ty < 3), .badCode), (evenIf idx d, .oddPair)]
  | .redadd d a m mode =>
      firstIll [(decide (d < 64), .badRegister), (decide (a < 64), .badRegister),
        (decide (m < 12), .badMask), (decide (mode < 3), .badCode),
        (evenIf (mode == 1) d, .oddPair), (evenIf (mode == 1) a, .oddPair)]
  | .fredadd d a m w64 =>
      firstIll [(decide (d < 64), .badRegister), (decide (a < 64), .badRegister),
        (decide (m < 12), .badMask), (evenIf w64 d, .oddPair), (evenIf w64 a, .oddPair)]
  | .scan d a m _ op =>
      firstIll [(decide (d < 64), .badRegister), (decide (a < 64), .badRegister),
        (decide (m < 12), .badMask), (decide (op < 3), .badCode)]
  | .redlog d a m op =>
      firstIll [(decide (d < 64), .badRegister), (decide (a < 64), .badRegister),
        (decide (m < 12), .badMask), (decide (op < 3), .badCode)]
  | .fadd d a rnd b =>
      firstIll [(decide (d < 64), .badRegister), (decide (a < 64), .badRegister),
        (decide (rnd < 5), .badRounding), (b.okB 64 4294967296, .badRegister)]
  | .fsub d a rnd b =>
      firstIll [(decide (d < 64), .badRegister), (decide (a < 64), .badRegister),
        (decide (rnd < 5), .badRounding), (b.okB 64 4294967296, .badRegister)]
  | .fmul d a rnd b =>
      firstIll [(decide (d < 64), .badRegister), (decide (a < 64), .badRegister),
        (decide (rnd < 5), .badRounding), (b.okB 64 4294967296, .badRegister)]
  | .ffma d a b c rnd _ =>
      firstIll [(decide (d < 64), .badRegister), (decide (a < 64), .badRegister),
        (b.okB 64 0, .badRegister), (c.okB 64 0, .badRegister), (decide (rnd < 5), .badRounding)]
  | .fmin d a b _ =>
      firstIll [(decide (d < 64), .badRegister), (decide (a < 64), .badRegister),
        (b.okB 64 0, .badRegister)]
  | .fmax d a b _ =>
      firstIll [(decide (d < 64), .badRegister), (decide (a < 64), .badRegister),
        (b.okB 64 0, .badRegister)]
  | .fsetp p a cond b =>
      firstIll [(decide (p < 16), .badPredicate), (decide (a < 64), .badRegister),
        (decide (cond < 16), .badCode), (decide (cond % 8 ≠ 7), .badCode),
        (b.okB 64 4294967296, .badRegister)]
  | .fclass d a w64 =>
      firstIll [(decide (d < 64), .badRegister), (decide (a < 64), .badRegister), (evenIf w64 a, .oddPair)]
  | .frcp d a => firstIll [(decide (d < 64), .badRegister), (decide (a < 64), .badRegister)]
  | .frsq d a => firstIll [(decide (d < 64), .badRegister), (decide (a < 64), .badRegister)]
  | .fsqrt d a => firstIll [(decide (d < 64), .badRegister), (decide (a < 64), .badRegister)]
  | .fdiv d a b =>
      firstIll [(decide (d < 64), .badRegister), (decide (a < 64), .badRegister),
        (b.okB 64 0, .badRegister)]
  | .fexp2 d a => firstIll [(decide (d < 64), .badRegister), (decide (a < 64), .badRegister)]
  | .flog2 d a => firstIll [(decide (d < 64), .badRegister), (decide (a < 64), .badRegister)]
  | .fsinpi d a => firstIll [(decide (d < 64), .badRegister), (decide (a < 64), .badRegister)]
  | .fcospi d a => firstIll [(decide (d < 64), .badRegister), (decide (a < 64), .badRegister)]
  | .dadd d a b rnd =>
      firstIll [(decide (d < 64), .badRegister), (isEven d, .oddPair), (decide (a < 64), .badRegister),
        (isEven a, .oddPair), (b.okB 64 0, .badRegister), (b.evenReg, .oddPair),
        (decide (rnd < 5), .badRounding)]
  | .dmul d a b rnd =>
      firstIll [(decide (d < 64), .badRegister), (isEven d, .oddPair), (decide (a < 64), .badRegister),
        (isEven a, .oddPair), (b.okB 64 0, .badRegister), (b.evenReg, .oddPair),
        (decide (rnd < 5), .badRounding)]
  | .dfma d a b c rnd _ =>
      firstIll [(decide (d < 64), .badRegister), (isEven d, .oddPair), (decide (a < 64), .badRegister),
        (isEven a, .oddPair), (b.okB 64 0, .badRegister), (b.evenReg, .oddPair),
        (c.okB 64 0, .badRegister), (c.evenReg, .oddPair), (decide (rnd < 5), .badRounding)]
  | .dmin d a b _ =>
      firstIll [(decide (d < 64), .badRegister), (isEven d, .oddPair), (decide (a < 64), .badRegister),
        (isEven a, .oddPair), (b.okB 64 0, .badRegister), (b.evenReg, .oddPair)]
  | .dmax d a b _ =>
      firstIll [(decide (d < 64), .badRegister), (isEven d, .oddPair), (decide (a < 64), .badRegister),
        (isEven a, .oddPair), (b.okB 64 0, .badRegister), (b.evenReg, .oddPair)]
  | .dsetp p a cond b =>
      firstIll [(decide (p < 16), .badPredicate), (decide (a < 64), .badRegister), (isEven a, .oddPair),
        (decide (cond < 16), .badCode), (decide (cond % 8 ≠ 7), .badCode),
        (b.okB 64 4294967296, .badRegister), (b.evenReg, .oddPair)]
  | .ddiv d a b =>
      firstIll [(decide (d < 64), .badRegister), (isEven d, .oddPair), (decide (a < 64), .badRegister),
        (isEven a, .oddPair), (b.okB 64 0, .badRegister), (b.evenReg, .oddPair)]
  | .hadd2 d a b rnd _ =>
      firstIll [(decide (d < 64), .badRegister), (decide (a < 64), .badRegister),
        (b.okB 64 0, .badRegister), (decide (rnd < 5), .badRounding)]
  | .hmul2 d a b rnd _ =>
      firstIll [(decide (d < 64), .badRegister), (decide (a < 64), .badRegister),
        (b.okB 64 0, .badRegister), (decide (rnd < 5), .badRounding)]
  | .hfma2 d a b c rnd _ =>
      firstIll [(decide (d < 64), .badRegister), (decide (a < 64), .badRegister),
        (b.okB 64 0, .badRegister), (c.okB 64 0, .badRegister), (decide (rnd < 5), .badRounding)]
  | .cmul d a b rnd _ =>
      firstIll [(decide (d < 64), .badRegister), (isEven d, .oddPair), (decide (a < 64), .badRegister),
        (isEven a, .oddPair), (decide (b < 64), .badRegister), (isEven b, .oddPair),
        (decide (rnd < 5), .badRounding)]
  | .cfma d a b c rnd _ =>
      firstIll [(decide (d < 64), .badRegister), (isEven d, .oddPair), (decide (a < 64), .badRegister),
        (isEven a, .oddPair), (decide (b < 64), .badRegister), (isEven b, .oddPair),
        (decide (c < 64), .badRegister), (isEven c, .oddPair), (decide (rnd < 5), .badRounding)]
  | .cvtff d a rnd _ df sf dp sp =>
      firstIll [(decide (d < 64), .badRegister), (decide (a < 64), .badRegister),
        (decide (rnd < 5), .badRounding), (decide (df < 6), .badCode), (decide (sf < 6), .badCode),
        (decide (dp < 4), .badCode), (decide (sp < 4), .badCode), (partOk df dp, .badCode),
        (partOk sf sp, .badCode), (evenIf (df == 1) d, .oddPair), (evenIf (sf == 1) a, .oddPair)]
  | .cvtfi d a rnd sf sp dt =>
      firstIll [(decide (d < 64), .badRegister), (decide (a < 64), .badRegister),
        (decide (rnd < 5), .badRounding), (decide (sf < 6), .badCode), (decide (sp < 4), .badCode),
        (decide (dt < 4), .badCode), (partOk sf sp, .badCode), (evenIf (sf == 1) a, .oddPair),
        (evenIf (decide (2 ≤ dt)) d, .oddPair)]
  | .cvtif d a rnd _ df ty dp =>
      firstIll [(decide (d < 64), .badRegister), (decide (a < 64), .badRegister),
        (decide (rnd < 5), .badRounding), (decide (df < 6), .badCode), (decide (ty < 4), .badCode),
        (decide (dp < 4), .badCode), (partOk df dp, .badCode), (evenIf (df == 1) d, .oddPair),
        (evenIf (decide (2 ≤ ty)) a, .oddPair)]
  | .cvtpk d a rnd ty slot m =>
      firstIll [(decide (d < 64), .badRegister), (decide (a < 64), .badRegister),
        (decide (rnd < 5), .badRounding), (decide (ty < 4), .badCode),
        (decide (slot < 8), .badCode), (decide (m < 12), .badMask)]
  | .cvtunpk d a b k slot =>
      firstIll [(decide (d < 64), .badRegister), (decide (a < 64), .badRegister),
        (decide (b < 64), .badRegister), (decide (k < 8), .badCode), (decide (slot < 8), .badCode)]
  | .cvtw d a q w =>
      firstIll [(decide (d < 64), .badRegister), (decide (a < 64), .badRegister),
        (decide (w < 256), .badRange), (decide (w ≠ 128), .badCode), (decide (w ≠ 129), .badCode),
        (if q then d % 4 == 0 else a % 4 == 0, .badQuad)]
  | .ld d b sb w =>
      firstIll [(decide (d < 64), .badRegister), (decide (b < 64), .badRegister), (isEven b, .oddPair),
        (decide (sb ≠ 0), .counterRequired), (decide (sb < 7), .badCounter),
        (decide (w < 7), .badCode), (dataOk w d, .badQuad)]
  | .ldExt d b sb acc off =>
      firstIll [(decide (d < 64), .badRegister), (decide (b < 64), .badRegister), (isEven b, .oddPair),
        (decide (sb ≠ 0), .counterRequired), (decide (sb < 7), .badCounter),
        (acc.okLoad, .badCode), (acc.okScope, .badScope),
        (decide (-2147483648 ≤ off) && decide (off < 2147483648), .badOffset),
        (dataOk acc.width d, .badQuad)]
  | .st d b sb w =>
      firstIll [(decide (d < 64), .badRegister), (decide (b < 64), .badRegister), (isEven b, .oddPair),
        (decide (sb < 7), .badCounter), (decide (w < 7), .badCode), (decide (w ≠ 2), .badCode),
        (decide (w ≠ 4), .badCode), (dataOk w d, .badQuad)]
  | .stExt d b sb acc off =>
      firstIll [(decide (d < 64), .badRegister), (decide (b < 64), .badRegister), (isEven b, .oddPair),
        (decide (sb < 7), .badCounter), (acc.okStore, .badCode), (acc.okScope, .badScope),
        (decide (-2147483648 ≤ off) && decide (off < 2147483648), .badOffset),
        (dataOk acc.width d, .badQuad)]
  | .lds d b sb w =>
      firstIll [(decide (d < 32), .badScalar), (decide (b < 32), .badScalar), (isEven b, .oddPair),
        (decide (sb ≠ 0), .counterRequired), (decide (sb < 7), .badCounter),
        (decide (w < 6), .badCode), (dataOk w d, .badQuad)]
  | .ldsExt d b sb acc off =>
      firstIll [(decide (d < 32), .badScalar), (decide (b < 32), .badScalar), (isEven b, .oddPair),
        (decide (sb ≠ 0), .counterRequired), (decide (sb < 7), .badCounter), (acc.okLds, .badCode),
        (acc.okScope, .badScope),
        (decide (-2147483648 ≤ off) && decide (off < 2147483648), .badOffset),
        (dataOk acc.width d, .badQuad)]
  | .ldl d b sb w =>
      firstIll [(decide (d < 64), .badRegister), (b.okB 64 0, .badRegister),
        (decide (sb ≠ 0), .counterRequired), (decide (sb < 7), .badCounter),
        (decide (w < 7), .badCode), (dataOk w d, .badQuad)]
  | .ldlExt d b sb w off =>
      firstIll [(decide (d < 64), .badRegister), (b.okB 64 0, .badRegister),
        (decide (sb ≠ 0), .counterRequired), (decide (sb < 7), .badCounter),
        (decide (w < 7), .badCode),
        (decide (-2147483648 ≤ off) && decide (off < 2147483648), .badOffset),
        (dataOk w d, .badQuad)]
  | .stl d b sb w =>
      firstIll [(decide (d < 64), .badRegister), (b.okB 64 0, .badRegister),
        (decide (sb < 7), .badCounter), (decide (w < 7), .badCode), (decide (w ≠ 2), .badCode),
        (decide (w ≠ 4), .badCode), (dataOk w d, .badQuad)]
  | .stlExt d b sb w off =>
      firstIll [(decide (d < 64), .badRegister), (b.okB 64 0, .badRegister),
        (decide (sb < 7), .badCounter), (decide (w < 7), .badCode), (decide (w ≠ 2), .badCode),
        (decide (w ≠ 4), .badCode),
        (decide (-2147483648 ≤ off) && decide (off < 2147483648), .badOffset),
        (dataOk w d, .badQuad)]
  | .ldt d b sb k =>
      firstIll [(decide (d < 64), .badRegister), (isEven d, .oddPair), (decide (b < 64), .badRegister),
        (isEven b, .oddPair), (decide (sb ≠ 0), .counterRequired), (decide (sb < 7), .badCounter),
        (decide (k < 32), .badRange)]
  | .hzadd a b sb =>
      firstIll [(decide (a < 64), .badRegister), (decide (b < 64), .badRegister), (isEven b, .oddPair),
        (decide (sb < 7), .badCounter)]
  | .hzaddExt a b sb off =>
      firstIll [(decide (a < 64), .badRegister), (decide (b < 64), .badRegister), (isEven b, .oddPair),
        (decide (sb < 7), .badCounter),
        (decide (-2147483648 ≤ off) && decide (off < 2147483648), .badOffset)]
  | .hzsettle l b sb =>
      firstIll [(decide (l < 32), .badScalar), (decide (b < 32), .badScalar), (isEven b, .oddPair),
        (decide (sb ≠ 0), .counterRequired), (decide (sb < 7), .badCounter)]
  | .pref b sb =>
      firstIll [(decide (b < 64), .badRegister), (isEven b, .oddPair), (decide (sb < 7), .badCounter)]
  | .prefExt b sb off =>
      firstIll [(decide (b < 64), .badRegister), (isEven b, .oddPair), (decide (sb < 7), .badCounter),
        (decide (-2147483648 ≤ off) && decide (off < 2147483648), .badOffset)]
  | .wback b sb all =>
      firstIll [(decide (b < 64), .badRegister), (isEven b, .oddPair), (decide (sb < 7), .badCounter),
        (!all || b == 0, .badCode)]
  | .wbackExt b sb off =>
      firstIll [(decide (b < 64), .badRegister), (isEven b, .oddPair), (decide (sb < 7), .badCounter),
        (decide (-2147483648 ≤ off) && decide (off < 2147483648), .badOffset)]
  | .fence sb kind scope =>
      firstIll [(decide (sb < 7), .badCounter), (decide (kind < 3), .badCode),
        (decide (scope < 6), .badScope)]
  | .atom op b sb ord scope =>
      firstIll [(atomOpOk op, .badCode), (decide (b < 64), .badRegister), (isEven b, .oddPair),
        (decide (sb ≠ 0), .counterRequired), (decide (sb < 7), .badCounter),
        (decide (ord < 4), .badCode), (decide (scope < 6), .badScope)]
  | .atomv esz op b sb ord scope =>
      firstIll [(decide (esz < 4), .badCode), (decide (op < 9), .badCode), (decide (b < 64), .badRegister),
        (isEven b, .oddPair), (decide (sb ≠ 0), .counterRequired), (decide (sb < 7), .badCounter),
        (decide (ord < 4), .badCode), (decide (scope < 6), .badScope)]
  | .redm op b sb ord scope =>
      firstIll [(redmOpOk op, .badCode), (decide (b < 64), .badRegister), (isEven b, .oddPair),
        (decide (sb < 7), .badCounter), (ord == 0 || ord == 2, .badCode),
        (decide (scope < 6), .badScope)]
  | .bar k sb => firstIll [(decide (k < 16), .badRange), (decide (sb < 7), .badCounter)]
  | .barArv k sb => firstIll [(decide (k < 16), .badRange), (decide (sb < 7), .badCounter)]
  | .barExp k cnt sb =>
      firstIll [(decide (k < 16), .badRange), (decide (1 ≤ cnt) && decide (cnt ≤ 33), .badCode),
        (decide (sb < 7), .badCounter)]
  | .gbar g sb =>
      firstIll [(decide (g < 16), .badRange), (decide (sb ≠ 0), .counterRequired),
        (decide (sb < 7), .badCounter)]
  | .mma ta tb r k c0 _ _ _ _ =>
      firstIll [(decide (ta < 64), .badTile), (decide (tb < 64), .badTile), (decide (r < 256), .badRange),
        (decide (k < 4096), .badRange), (decide (c0 < 16), .badRange)]
  | .mmas ta tb r k c0 _ _ _ _ =>
      firstIll [(decide (ta < 64), .badTile), (decide (tb < 64), .badTile), (decide (r < 256), .badRange),
        (decide (k < 4096), .badRange), (decide (c0 < 16), .badRange)]
  | .mzero r n1 sb =>
      firstIll [(decide (r < 256), .badRange), (decide (n1 < 256), .badRange),
        (decide (sb < 7), .badCounter)]
  | .maccOut t r sb rnd _ c0 =>
      firstIll [(decide (t < 64), .badTile), (decide (r < 256), .badRange), (decide (sb < 7), .badCounter),
        (decide (rnd < 5), .badRounding), (decide (c0 < 16), .badRange)]
  | .maccIn t r sb rnd _ _ c0 =>
      firstIll [(decide (t < 64), .badTile), (decide (r < 256), .badRange), (decide (sb < 7), .badCounter),
        (decide (rnd < 5), .badRounding), (decide (c0 < 16), .badRange)]
  | .mloop ta tb sd =>
      firstIll [(decide (ta < 64), .badTile), (decide (tb < 64), .badTile),
        (decide (sd ≤ 10), .badDescriptor), (isEven sd, .badDescriptor)]
  | .talloc p t sg sb =>
      firstIll [(decide (p < 16), .badPredicate), (decide (t < 64), .badTile),
        (decide (sg < 32), .badScalar), (decide (sb ≠ 0), .counterRequired),
        (decide (sb < 7), .badCounter)]
  | .tfree t sb => firstIll [(decide (t < 64), .badTile), (decide (sb < 7), .badCounter)]
  | .tcopy t sd _ _ scope ir sb rnd slot cv _ =>
      firstIll [(decide (t < 64), .badTile), (decide (sd ≤ 20), .badDescriptor),
        (isEven sd, .badDescriptor), (decide (scope < 6), .badScope),
        (decide (sb < 7), .badCounter), (decide (rnd < 5), .badRounding),
        (decide (slot < 8), .badCode), (irOk ir scope, .badScope),
        (cv || (rnd == 0 && slot == 0), .badCode)]
  | .tchain sh ch ir scope sb =>
      firstIll [(decide (sh < 32), .badScalar), (isEven sh, .oddPair), (decide (ch < 8), .badCode),
        (decide (scope < 6), .badScope), (decide (sb < 7), .badCounter),
        (irOk ir scope, .badScope)]
  | .tstore t sd _ _ scope ir sb rnd slot cv _ =>
      firstIll [(decide (t < 64), .badTile), (decide (sd ≤ 20), .badDescriptor),
        (isEven sd, .badDescriptor), (decide (scope < 6), .badScope),
        (decide (sb < 7), .badCounter), (decide (rnd < 5), .badRounding),
        (decide (slot < 8), .badCode), (irOk ir scope, .badScope),
        (cv || (rnd == 0 && slot == 0), .badCode)]
  | .tstoreHz sd _ _ scope ir sb _ r rows1 c0 =>
      firstIll [(decide (sd ≤ 20), .badDescriptor), (isEven sd, .badDescriptor),
        (decide (scope < 6), .badScope), (decide (sb < 7), .badCounter),
        (decide (r < 256), .badRange), (decide (rows1 < 256), .badRange),
        (decide (c0 < 16), .badRange), (irOk ir scope, .badScope)]
  | .tfill t sv _ sb =>
      firstIll [(decide (t < 64), .badTile), (decide (sv < 32), .badScalar),
        (decide (sb < 7), .badCounter)]
  | .seqbar k => firstIll [(decide (k < 16), .badRange)]
  | .seqbarArv k => firstIll [(decide (k < 16), .badRange)]
  | .seqbarWait k => firstIll [(decide (k < 16), .badRange)]
  | .accrd d a sb =>
      firstIll [(decide (d < 64), .badRegister), (decide (a < 64), .badRegister),
        (decide (sb ≠ 0), .counterRequired), (decide (sb < 7), .badCounter)]
  | .accwr s a sb =>
      firstIll [(decide (s < 64), .badRegister), (decide (a < 64), .badRegister),
        (decide (sb < 7), .badCounter)]
  | .awset sg sb0 sl _ =>
      firstIll [(decide (sg < 32), .badScalar), (decide (sb0 < 32), .badScalar),
        (decide (sl < 32), .badScalar)]
  | .txinit x c sb =>
      firstIll [(decide (x < 32), .badScalar), (decide (c < 32), .badScalar),
        (decide (sb < 7), .badCounter)]
  | .txexp x cnt sb =>
      firstIll [(decide (x < 32), .badScalar), (decide (cnt < 32), .badScalar),
        (decide (sb < 7), .badCounter)]
  | .txarv x cnt exp _ sb =>
      firstIll [(decide (x < 32), .badScalar), (decide (cnt < 32), .badScalar),
        (decide (sb < 7), .badCounter), (exp || cnt == 0, .badCode)]
  | .txwait x ph => firstIll [(decide (x < 32), .badScalar), (decide (ph < 32), .badScalar)]
  | .txtest p x ph sb =>
      firstIll [(decide (p < 16), .badPredicate), (decide (x < 32), .badScalar),
        (decide (ph < 32), .badScalar), (decide (sb ≠ 0), .counterRequired),
        (decide (sb < 7), .badCounter)]
  | .twait t state => firstIll [(decide (t < 64), .badTile), (state == 0 || state == 2, .badCode)]
  | .tstate d t sb =>
      firstIll [(decide (d < 64), .badRegister), (isEven d, .oddPair), (decide (t < 64), .badTile),
        (decide (sb ≠ 0), .counterRequired), (decide (sb < 7), .badCounter)]
  | .srdp d rsel =>
      firstIll [(decide (d < 32), .badScalar), (decide (rsel < 10), .badSelector),
        (evenIf (psel64 rsel) d, .oddPair)]
  | .swrp rsel s =>
      firstIll [(swrpOk rsel, .badSelector), (decide (s < 32), .badScalar),
        (evenIf (psel64 rsel) s, .oddPair)]
  | .trapret => none
  | .pdone s => firstIll [(decide (s < 32), .badScalar)]
  | .tlbinv a all =>
      firstIll [(decide (a < 32), .badScalar), (isEven a, .oddPair), (!all || a == 0, .badCode)]
  | .ctxwb => none
  | .hzreclaim => none
  | .dbgrd d a obj =>
      firstIll [(decide (d < 64), .badRegister), (isEven d, .oddPair), (decide (a < 64), .badRegister),
        (decide (obj < 5), .badCode)]
  | .bypass => none
  | .idcode => none
  | .frzsel => none
  | .frzread => none
  | .clauseSkip _ _ => none
  | .memoryErrorTrap _ _ => none
  | .scoreboardDecrement _ => none
  | .groupRetire _ => none
  | .blockRetire _ => none
  | .gangRetire _ => none
  | .joinDecrement _ => none
  | .queuePop => none
  | .placementPass => none
  | .pendingEntryBlocks => none
  | .holdbackWindow => none
  | .trafficWindow => none
  | .slewWindow => none
  | .matrixBurstStart core => firstIll [(decide (core < 256), .badUnit)]
  | .matrixBurstEnd core => firstIll [(decide (core < 256), .badUnit)]
  | .tokenPass chip => firstIll [(decide (chip < 16), .badUnit)]
  | .matrixWriteComplete core => firstIll [(decide (core < 256), .badUnit)]
  | .mloopIteration core _ => firstIll [(decide (core < 256), .badUnit)]
  | .copyEngineTransfer core _ => firstIll [(decide (core < 256), .badUnit)]
  | .copySectorArrival core _ => firstIll [(decide (core < 256), .badUnit)]
  | .chainRecord isle _ => firstIll [(decide (isle < 16), .badUnit)]
  | .commandResume core _ => firstIll [(decide (core < 256), .badUnit)]
  | .tileWaitTimeout _ _ => none
  | .seqTileWaitTimeout _ => none
  | .translationWalk isle _ _ => firstIll [(decide (isle < 16), .badUnit)]
  | .arbitrationCycle isle port => firstIll [(decide (isle < 16), .badUnit), (decide (port < 5), .badUnit)]
  | .packetArrival _ => none
  | .stopSignal isle _ _ => firstIll [(decide (isle < 16), .badUnit)]
  | .goSignal isle _ _ => firstIll [(decide (isle < 16), .badUnit)]
  | .rd isle _ => firstIll [(decide (isle < 16), .badUnit)]
  | .rdh isle _ => firstIll [(decide (isle < 16), .badUnit)]
  | .wt isle _ => firstIll [(decide (isle < 16), .badUnit)]
  | .atomAtHome isle _ => firstIll [(decide (isle < 16), .badUnit)]
  | .hzq isle _ => firstIll [(decide (isle < 16), .badUnit)]
  | .tolerantLoadRequest isle _ => firstIll [(decide (isle < 16), .badUnit)]
  | .drn isle _ => firstIll [(decide (isle < 16), .badUnit)]
  | .hzd isle _ => firstIll [(decide (isle < 16), .badUnit)]
  | .cpr isle _ => firstIll [(decide (isle < 16), .badUnit)]
  | .cpw isle _ => firstIll [(decide (isle < 16), .badUnit)]
  | .dataArrive isle _ => firstIll [(decide (isle < 16), .badUnit)]
  | .ackArrive isle _ => firstIll [(decide (isle < 16), .badUnit)]
  | .atr isle _ => firstIll [(decide (isle < 16), .badUnit)]
  | .xgnt isle _ => firstIll [(decide (isle < 16), .badUnit)]
  | .xret isle _ => firstIll [(decide (isle < 16), .badUnit)]
  | .recall isle _ => firstIll [(decide (isle < 16), .badUnit)]
  | .exclusiveLeaseEnd core _ => firstIll [(decide (core < 256), .badUnit)]
  | .dreq isle _ => firstIll [(decide (isle < 16), .badUnit)]
  | .ddone isle _ => firstIll [(decide (isle < 16), .badUnit)]
  | .shreq isle _ => firstIll [(decide (isle < 16), .badUnit)]
  | .shgnt isle _ => firstIll [(decide (isle < 16), .badUnit)]
  | .splitShare isle _ => firstIll [(decide (isle < 16), .badUnit)]
  | .spdone isle _ => firstIll [(decide (isle < 16), .badUnit)]
  | .settle isle _ => firstIll [(decide (isle < 16), .badUnit)]
  | .surr isle _ => firstIll [(decide (isle < 16), .badUnit)]
  | .dopen isle _ => firstIll [(decide (isle < 16), .badUnit)]
  | .dclose isle _ => firstIll [(decide (isle < 16), .badUnit)]
  | .hazeIdleSurrender core _ _ => firstIll [(decide (core < 256), .badUnit)]
  | .barArrival isle _ => firstIll [(decide (isle < 16), .badUnit)]
  | .barRelease isle _ => firstIll [(decide (isle < 16), .badUnit)]
  | .vrelesFlit port _ _ _ _ => firstIll [(decide (port < 32), .badUnit)]
  | .nak port _ => firstIll [(decide (port < 32), .badUnit)]
  | .portDown port => firstIll [(decide (port < 32), .badUnit)]
  | .peerRequest port => firstIll [(decide (port < 32), .badUnit)]
  | .hostMemoryRead _ _ => none
  | .hostMemoryWrite _ _ => none
  | .registerWrite _ _ _ => none
  | .wake port _ _ _ => firstIll [(decide (port < 65), .badUnit)]
  | .mint _ _ _ => none
  | .qctl _ _ _ _ => none
  | .regionTable _ _ _ _ => none
  | .cgcfg _ => none
  | .pageans => none
  | .preempt => none
  | .preemptQuiesced _ => none
  | .preemptDeadline _ => none
  | .dbgrun => none
  | .dbgstep => none
  | .dbghalt => none
  | .freezeCmd => none
  | .unknownCommand _ => none
  | .freezePin => none
  | .packageReset => none
  | .hotReset => none
  | .powerOn _ _ _ _ _ => none
  | .attestationRequest _ _ => none
  | .storeChunk => none
  | .commitImage _ _ => none
  | .restart => none
  | .identify => none
  | .mailboxUnknown _ => none
  | .chipctlFence _ => none
  | .rejoin _ => none
  | .selfTestComplete _ _ => none
  | .livenessProbe _ => none
  | .probeTimeout _ => none
  | .backpressureTimeout _ => none
  | .fstepEnd _ => none
  | .rampEnd _ => none
  | .mheavySample _ => none
  | .budgetInterval _ => none
  | .telemetrySample _ _ => none
  | .earlyBite _ => none
  | .scrub _ _ => none
  | .linkCalibration port => firstIll [(decide (port < 32), .badUnit)]
  | .limit _ => none
  | .heartbeat _ => none
  | .join _ => none
  | .leave _ => none
  | .emergency _ => none
  | .heartbeatDue => none
  | .applyInstant => none
  | .suspectTimeout => none
  | .expelTimeout => none
  | .expelled => none
  | .syncInterval => none
  | .sync port _ _ _ => firstIll [(decide (port < 32), .badUnit)]
  | .followUp port _ _ => firstIll [(decide (port < 32), .badUnit)]
  | .delayReq port _ _ _ => firstIll [(decide (port < 32), .badUnit)]
  | .delayResp port _ _ _ => firstIll [(decide (port < 32), .badUnit)]
  | .lockLoss => none
  | .gwctPassed _ => none
  | .pendingWriteLands _ => none
  | .operandReadsComplete core => firstIll [(decide (core < 256), .badUnit)]
  | .probeAnswer core => firstIll [(decide (core < 256), .badUnit)]
  | .portTrainsAgain port => firstIll [(decide (port < 32), .badUnit)]

/-- A well-formed instruction passes every encoding check. -/
def Instr.WellFormed (i : Instr) : Prop := i.ill = none

end Sys2Proof
end

