-- ==== Sys2Proof/Decode.lean ====
section
/-!
DEFINITION. Decoding (R162 to R174, R180 to R183, R197, R244, R270, R271, R288, R299, R342) and,
after it, the encoder written from the same tables.

A word is a number below 2^32.  Decoding is total: a word that no row admits, a reserved bit that
is set, or an operand the entry does not allow is rejected by name (R169).  The class of a clause
comes from its header (R166), so the decoders take it as an argument: 0 compute, 1 memory,
2 engine, 3 system.
-/
namespace Sys2Proof

/-- The field of a word at bit `lo`, `n` = 2^width values. -/
def fld (w lo n : Nat) : Nat := w / 2 ^ lo % n

/-- A 16-bit field read as a signed number (R173). -/
def signed16 (x : Nat) : Int := if x < 32768 then (x : Int) else (x : Int) - 65536

/-- A 32-bit word read as a signed number (R171, R173). -/
def signed32 (x : Nat) : Int := if x < 2147483648 then (x : Int) else (x : Int) - 4294967296

/-- Operand B of a V3 form (R195); code 0b11 is reserved. -/
def srcOf (sel x : Nat) : Option Src :=
  if sel == 0 then some (.v x) else if sel == 1 then some (.s x)
  else if sel == 2 then some (.imm x) else none

/-- Operand B in an extension word (R196): a register source has bits [31:6] zero. -/
def srcExtOf (sel e : Nat) : Option Src :=
  if sel == 2 then some (.imm e)
  else if e < 64 then (if sel == 0 then some (.v e) else if sel == 1 then some (.s e) else none)
  else none

/-- Operand B of `ssetp`: code 0b00 is a scalar register and 0b01 traps (R197). -/
def srcUniformOf (sel e : Nat) : Option Src :=
  if sel == 2 then some (.imm e) else if sel == 0 then (if e < 64 then some (.s e) else none) else none

/-- The access code of R271, bit [3] of a weak form being E. -/
def accOf (m : Nat) : Acc := if m < 16 then .weak (m % 8) else .ordered (m / 8 % 2 == 1) (m % 8)

/-- Why a word is rejected (R169). -/
inductive Reject where
  /-- No row of the class's opcode map admits the word: a reserved opcode, code or bit. -/
  | reserved
  /-- An operand field holds a value the entry does not allow. -/
  | ill (r : Ill)
deriving DecidableEq, Repr

/-- The rows of the compute map (R180); `e` is the extension word, 0 where there is none. -/
def decodeCompute (opc w e : Nat) : Option Instr :=
  match opc with
  | 0 => (srcOf (fld w 0 4) (fld w 2 64)).map fun b => .iadd (fld w 14 64) (fld w 8 64) b
  | 1 => (srcOf (fld w 0 4) (fld w 2 64)).map fun b => .isub (fld w 14 64) (fld w 8 64) b
  | 2 => if fld w 6 4 == 0 then (srcExtOf (fld w 4 4) e).map fun b => .iaddc (fld w 14 64) (fld w 8 64) (fld w 0 16) b else none
  | 3 => if fld w 6 4 == 0 then (srcExtOf (fld w 4 4) e).map fun b => .isubb (fld w 14 64) (fld w 8 64) (fld w 0 16) b else none
  | 4 => (srcOf (fld w 0 4) (fld w 2 64)).map fun b => .imul (fld w 14 64) (fld w 8 64) b
  | 5 => some (.imulh (fld w 14 64) (fld w 8 64) (if fld w 0 2 == 1 then .s (fld w 2 64) else .v (fld w 2 64)) (fld w 1 2 == 1))
  | 6 => if fld w 2 64 == 0 && fld e 6 4 == 0 && fld e 14 262144 == 0 then some (.imad (fld w 14 64) (fld w 8 64) (if fld w 0 2 == 1 then .s (fld e 0 64) else .v (fld e 0 64)) (if fld w 1 2 == 1 then .s (fld e 8 64) else .v (fld e 8 64))) else none
  | 7 => some (.imin (fld w 14 64) (fld w 8 64) (if fld w 0 2 == 1 then .s (fld w 2 64) else .v (fld w 2 64)) (fld w 1 2 == 1))
  | 8 => some (.imax (fld w 14 64) (fld w 8 64) (if fld w 0 2 == 1 then .s (fld w 2 64) else .v (fld w 2 64)) (fld w 1 2 == 1))
  | 9 => if fld w 1 128 == 0 then some (.iabs (fld w 14 64) (fld w 8 64) (fld w 0 2 == 1)) else none
  | 10 => if fld w 1 128 == 0 then some (.ineg (fld w 14 64) (fld w 8 64) (fld w 0 2 == 1)) else none
  | 11 => some (.idot4 (fld w 14 64) (fld w 8 64) (fld w 2 64) (fld w 0 2 == 1) (fld w 1 2 == 1))
  | 12 => (srcOf (fld w 0 4) (fld w 2 64)).map fun b => .iadd64 (fld w 14 64) (fld w 8 64) b
  | 13 => if fld w 4 16 == 0 && fld e 6 67108864 == 0 then some (.lea (fld w 14 64) (fld w 8 64) (if fld w 3 2 == 1 then .s (fld e 0 64) else .v (fld e 0 64)) (fld w 0 4) (fld w 2 2 == 1)) else none
  | 14 => if fld w 6 4 == 0 then (srcExtOf (fld w 4 4) e).map fun b => .sel (fld w 14 64) (fld w 8 64) (fld w 0 16) b else none
  | 15 => if fld w 6 4 == 0 then (srcExtOf (fld w 4 4) e).map fun b => .isetp (fld w 14 64) (fld w 8 64) (fld w 0 8) (fld w 3 2 == 1) b else none
  | 16 => (srcOf (fld w 0 4) (fld w 2 64)).map fun b => .and (fld w 14 64) (fld w 8 64) b
  | 17 => (srcOf (fld w 0 4) (fld w 2 64)).map fun b => .or (fld w 14 64) (fld w 8 64) b
  | 18 => (srcOf (fld w 0 4) (fld w 2 64)).map fun b => .xor (fld w 14 64) (fld w 8 64) b
  | 19 => (srcOf (fld w 0 4) (fld w 2 64)).map fun b => .andn (fld w 14 64) (fld w 8 64) b
  | 20 => (srcOf (fld w 0 4) (fld w 2 64)).map fun b => .orn (fld w 14 64) (fld w 8 64) b
  | 21 => if fld w 0 256 == 0 then some (.not (fld w 14 64) (fld w 8 64)) else none
  | 22 => if fld e 6 4 == 0 && fld e 14 262144 == 0 then some (.lop3 (fld w 14 64) (fld w 8 64) (fld e 0 64) (fld e 8 64) (fld w 0 256)) else none
  | 23 => (srcOf (fld w 0 4) (fld w 2 64)).map fun b => .shl (fld w 14 64) (fld w 8 64) b
  | 24 => (srcOf (fld w 0 4) (fld w 2 64)).map fun b => .shr (fld w 14 64) (fld w 8 64) b
  | 25 => (srcOf (fld w 0 4) (fld w 2 64)).map fun b => .sar (fld w 14 64) (fld w 8 64) b
  | 26 => (srcOf (fld w 0 4) (fld w 2 64)).map fun b => .rol (fld w 14 64) (fld w 8 64) b
  | 27 => if fld w 1 128 == 0 && fld e 6 4 == 0 && fld e 14 262144 == 0 then some (.fshl (fld w 14 64) (fld w 8 64) (fld e 0 64) (if fld w 0 2 == 1 then .imm (fld e 8 64) else .v (fld e 8 64))) else none
  | 28 => (srcOf (fld w 0 4) (fld w 2 64)).map fun b => .shl64 (fld w 14 64) (fld w 8 64) b
  | 29 => if fld w 0 256 == 0 then some (.popc (fld w 14 64) (fld w 8 64)) else none
  | 30 => if fld w 0 256 == 0 then some (.clz (fld w 14 64) (fld w 8 64)) else none
  | 31 => if fld w 0 256 == 0 then some (.ctz (fld w 14 64) (fld w 8 64)) else none
  | 32 => if fld w 0 256 == 0 then some (.brev (fld w 14 64) (fld w 8 64)) else none
  | 33 => if fld w 1 128 == 0 && fld e 0 64 == 0 && fld e 17 32768 == 0 then some (.bfx (fld w 14 64) (fld w 8 64) (fld e 6 32) (fld e 11 64) (fld w 0 2 == 1)) else none
  | 34 => if fld w 0 256 == 0 && fld e 17 32768 == 0 then some (.bfi (fld w 14 64) (fld w 8 64) (fld e 0 64) (fld e 6 32) (fld e 11 64)) else none
  | 35 => if fld w 1 128 == 0 then some (.mov (fld w 14 64) (fld w 8 64) (fld w 0 2 == 1)) else none
  | 36 => if fld w 0 16384 == 0 then some (.movi (fld w 14 64) (fld e 0 4294967296)) else none
  | 37 => if fld w 1 4 == 0 && fld w 8 64 == 0 then some (.movs (fld w 14 64) (fld w 3 32) (fld w 0 2 == 1)) else none
  | 38 => some (.sread (fld w 14 64) (fld w 8 64) (fld w 0 256))
  | 39 => if fld e 8 16777216 == 0 then some (.plop (fld w 14 64) (fld w 8 64) (fld e 0 16) (fld e 4 16) (fld w 0 256)) else none
  | 40 => if fld w 2 64 == 0 && fld w 1 2 == 0 && (if fld w 0 2 == 1 then fld w 14 64 == 0 else fld w 8 64 == 0) then
        some (.pmov (fld w 0 2 == 1) (if fld w 0 2 == 1 then fld w 8 64 else fld w 14 64)) else none
  | 41 => if fld w 1 2 == 0 then some (.sadd (fld w 14 64) (fld w 8 64) (if fld w 0 2 == 1 then .imm (fld w 2 64) else .s (fld w 2 64))) else none
  | 42 => if fld w 1 2 == 0 then some (.ssub (fld w 14 64) (fld w 8 64) (if fld w 0 2 == 1 then .imm (fld w 2 64) else .s (fld w 2 64))) else none
  | 43 => if fld w 1 2 == 0 then some (.smul (fld w 14 64) (fld w 8 64) (if fld w 0 2 == 1 then .imm (fld w 2 64) else .s (fld w 2 64))) else none
  | 44 => if fld w 1 2 == 0 then some (.sand (fld w 14 64) (fld w 8 64) (if fld w 0 2 == 1 then .imm (fld w 2 64) else .s (fld w 2 64))) else none
  | 45 => if fld w 1 2 == 0 then some (.sor (fld w 14 64) (fld w 8 64) (if fld w 0 2 == 1 then .imm (fld w 2 64) else .s (fld w 2 64))) else none
  | 46 => if fld w 1 2 == 0 then some (.sxor (fld w 14 64) (fld w 8 64) (if fld w 0 2 == 1 then .imm (fld w 2 64) else .s (fld w 2 64))) else none
  | 47 => if fld w 1 2 == 0 then some (.sshl (fld w 14 64) (fld w 8 64) (if fld w 0 2 == 1 then .imm (fld w 2 64) else .s (fld w 2 64))) else none
  | 48 => some (.sshr (fld w 14 64) (fld w 8 64) (if fld w 0 2 == 1 then .imm (fld w 2 64) else .s (fld w 2 64)) (fld w 1 2 == 1))
  | 49 => if fld w 1 128 == 0 then some (.smov (fld w 14 64) (fld w 8 64) (fld w 0 2 == 1)) else none
  | 50 => if fld w 0 16384 == 0 then some (.smovi (fld w 14 64) (fld e 0 4294967296)) else none
  | 51 => if fld w 6 4 == 0 then (srcUniformOf (fld w 4 4) e).map fun b => .ssetp (fld w 14 64) (fld w 8 64) (fld w 0 8) (fld w 3 2 == 1) b else none
  | 52 => some (.slane (fld w 14 64) (fld w 8 64) (if fld w 0 2 == 1 then .s (fld w 2 64) else .imm (fld w 2 64)) (fld w 1 2 == 1))
  | 53 =>
    if fld w 0 65536 == 32768 then (some (.braLong (fld w 16 16) (signed32 e)))
    else (some (.bra (fld w 16 16) (signed16 (fld w 0 65536))))
  | 54 =>
    if fld w 0 65536 == 32768 then (some (.banyLong (fld w 16 16) (signed32 e)))
    else (some (.bany (fld w 16 16) (signed16 (fld w 0 65536))))
  | 55 =>
    if fld w 0 65536 == 32768 then (some (.ballLong (fld w 16 16) (signed32 e)))
    else (some (.ball (fld w 16 16) (signed16 (fld w 0 65536))))
  | 56 =>
    if fld w 0 65536 == 32768 then (some (.bnoneLong (fld w 16 16) (signed32 e)))
    else (some (.bnone (fld w 16 16) (signed16 (fld w 0 65536))))
  | 57 =>
    if fld w 0 65536 == 32768 then (some (.bdivLong (fld w 16 16) (signed32 e)))
    else (some (.bdiv (fld w 16 16) (signed16 (fld w 0 65536))))
  | 58 => if fld w 1 128 == 0 && fld w 14 64 == 0 then some (.jmp (if fld w 0 2 == 1 then .s (fld w 8 64) else .v (fld w 8 64))) else none
  | 59 => if fld w 0 256 == 0 && fld w 14 64 == 0 then some (.call (fld w 8 64 * 2) (signed32 e)) else none
  | 60 => if fld w 1 2 == 0 && fld w 14 64 == 0 then some (.calli (fld w 2 64 * 2) (if fld w 0 2 == 1 then .s (fld w 8 64) else .v (fld w 8 64))) else none
  | 61 => if fld w 0 4 == 0 && fld w 14 64 == 0 then some (.ret (fld w 8 64) (fld w 2 64 * 2)) else none
  | 62 => if fld w 0 65536 == 0 then some (.exit (fld w 16 16)) else none
  | 63 => if fld w 5 8 == 0 then some (.fspawn (fld w 14 64) (fld w 8 64) (fld w 0 32 * 2) (signed32 e)) else none
  | 64 => if fld w 0 1048576 == 0 then some .yield else none
  | 65 => if fld w 0 1048576 == 0 then some .nop else none
  | 66 => if fld w 8 4096 == 0 then some (.bkpt (fld w 0 256)) else none
  | 67 => if fld w 8 4096 == 0 then some (.utrap (fld w 0 256)) else none
  | 68 => if fld w 0 16384 == 0 then some (.mjoin (fld w 14 64)) else none
  | 69 => if fld w 0 16384 == 0 then some (.mleave (fld w 14 64)) else none
  | 70 => if fld w 0 16384 == 0 then some (.mwait (fld w 14 64)) else none
  | 71 => if fld w 8 64 == 0 then some (.mset (fld w 14 64) (fld w 3 32) (fld w 0 8)) else none
  | 72 => if fld w 2 64 == 0 then some (.mget (fld w 14 64) (fld w 8 64) (fld w 0 4)) else none
  | 73 => some (.vote (fld w 14 64) (fld w 8 64) (fld w 2 16) (fld w 6 4) (fld w 0 4))
  | 74 => if fld w 1 2 == 0 then some (.matchl (fld w 14 64) (fld w 8 64) (fld w 2 64) (fld w 0 2 == 1)) else none
  | 75 => if fld e 6 4 == 0 && fld e 13 524288 == 0 then some (.shfl (fld w 14 64) (fld w 8 64) (fld w 0 4) (fld e 11 2) (if fld w 2 2 == 1 then .imm (fld e 0 64) else .v (fld e 0 64)) (fld w 3 2 == 1) (fld w 4 16) (fld e 8 8) (fld e 12 2 == 1)) else none
  | 76 => if fld w 7 2 == 0 then some (.redmin (fld w 14 64) (fld w 8 64) (fld w 2 16) (fld w 6 2 == 1) (fld w 0 4)) else none
  | 77 => if fld w 7 2 == 0 then some (.redmax (fld w 14 64) (fld w 8 64) (fld w 2 16) (fld w 6 2 == 1) (fld w 0 4)) else none
  | 78 => if fld w 6 4 == 0 then some (.redadd (fld w 14 64) (fld w 8 64) (fld w 2 16) (fld w 0 4)) else none
  | 79 => if fld w 1 2 == 0 && fld w 6 4 == 0 then some (.fredadd (fld w 14 64) (fld w 8 64) (fld w 2 16) (fld w 0 2 == 1)) else none
  | 80 => if fld w 7 2 == 0 then some (.scan (fld w 14 64) (fld w 8 64) (fld w 2 16) (fld w 6 2 == 1) (fld w 0 4)) else none
  | 81 => if fld w 6 4 == 0 then some (.redlog (fld w 14 64) (fld w 8 64) (fld w 2 16) (fld w 0 4)) else none
  | 82 => if fld w 5 8 == 0 then (srcExtOf (fld w 3 4) e).map fun b => .fadd (fld w 14 64) (fld w 8 64) (fld w 0 8) b else none
  | 83 => if fld w 5 8 == 0 then (srcExtOf (fld w 3 4) e).map fun b => .fsub (fld w 14 64) (fld w 8 64) (fld w 0 8) b else none
  | 84 => if fld w 5 8 == 0 then (srcExtOf (fld w 3 4) e).map fun b => .fmul (fld w 14 64) (fld w 8 64) (fld w 0 8) b else none
  | 85 => if fld w 6 4 == 0 && fld e 6 4 == 0 && fld e 14 262144 == 0 then some (.ffma (fld w 14 64) (fld w 8 64) (if fld w 3 2 == 1 then .s (fld e 0 64) else .v (fld e 0 64)) (if fld w 4 2 == 1 then .s (fld e 8 64) else .v (fld e 8 64)) (fld w 0 8) (fld w 5 2 == 1)) else none
  | 86 => some (.fmin (fld w 14 64) (fld w 8 64) (if fld w 0 2 == 1 then .s (fld w 2 64) else .v (fld w 2 64)) (fld w 1 2 == 1))
  | 87 => some (.fmax (fld w 14 64) (fld w 8 64) (if fld w 0 2 == 1 then .s (fld w 2 64) else .v (fld w 2 64)) (fld w 1 2 == 1))
  | 88 => if fld w 6 4 == 0 then (srcExtOf (fld w 4 4) e).map fun b => .fsetp (fld w 14 64) (fld w 8 64) (fld w 0 16) b else none
  | 89 => if fld w 1 128 == 0 then some (.fclass (fld w 14 64) (fld w 8 64) (fld w 0 2 == 1)) else none
  | 90 => if fld w 0 256 == 0 then some (.frcp (fld w 14 64) (fld w 8 64)) else none
  | 91 => if fld w 0 256 == 0 then some (.frsq (fld w 14 64) (fld w 8 64)) else none
  | 92 => if fld w 0 256 == 0 then some (.fsqrt (fld w 14 64) (fld w 8 64)) else none
  | 93 => if fld w 1 2 == 0 then some (.fdiv (fld w 14 64) (fld w 8 64) (if fld w 0 2 == 1 then .s (fld w 2 64) else .v (fld w 2 64))) else none
  | 94 => if fld w 0 256 == 0 then some (.fexp2 (fld w 14 64) (fld w 8 64)) else none
  | 95 => if fld w 0 256 == 0 then some (.flog2 (fld w 14 64) (fld w 8 64)) else none
  | 96 => if fld w 0 256 == 0 then some (.fsinpi (fld w 14 64) (fld w 8 64)) else none
  | 97 => if fld w 0 256 == 0 then some (.fcospi (fld w 14 64) (fld w 8 64)) else none
  | 98 => if fld w 4 16 == 0 && fld e 6 67108864 == 0 then some (.dadd (fld w 14 64) (fld w 8 64) (if fld w 3 2 == 1 then .s (fld e 0 64) else .v (fld e 0 64)) (fld w 0 8)) else none
  | 99 => if fld w 4 16 == 0 && fld e 6 67108864 == 0 then some (.dmul (fld w 14 64) (fld w 8 64) (if fld w 3 2 == 1 then .s (fld e 0 64) else .v (fld e 0 64)) (fld w 0 8)) else none
  | 100 => if fld w 6 4 == 0 && fld e 6 4 == 0 && fld e 14 262144 == 0 then some (.dfma (fld w 14 64) (fld w 8 64) (if fld w 3 2 == 1 then .s (fld e 0 64) else .v (fld e 0 64)) (if fld w 4 2 == 1 then .s (fld e 8 64) else .v (fld e 8 64)) (fld w 0 8) (fld w 5 2 == 1)) else none
  | 101 => some (.dmin (fld w 14 64) (fld w 8 64) (if fld w 0 2 == 1 then .s (fld w 2 64) else .v (fld w 2 64)) (fld w 1 2 == 1))
  | 102 => some (.dmax (fld w 14 64) (fld w 8 64) (if fld w 0 2 == 1 then .s (fld w 2 64) else .v (fld w 2 64)) (fld w 1 2 == 1))
  | 103 => if fld w 6 4 == 0 then (srcExtOf (fld w 4 4) e).map fun b => .dsetp (fld w 14 64) (fld w 8 64) (fld w 0 16) b else none
  | 104 => if fld w 1 2 == 0 then some (.ddiv (fld w 14 64) (fld w 8 64) (if fld w 0 2 == 1 then .s (fld w 2 64) else .v (fld w 2 64))) else none
  | 105 => if fld w 5 8 == 0 && fld e 6 67108864 == 0 then some (.hadd2 (fld w 14 64) (fld w 8 64) (if fld w 4 2 == 1 then .s (fld e 0 64) else .v (fld e 0 64)) (fld w 0 8) (fld w 3 2 == 1)) else none
  | 106 => if fld w 5 8 == 0 && fld e 6 67108864 == 0 then some (.hmul2 (fld w 14 64) (fld w 8 64) (if fld w 4 2 == 1 then .s (fld e 0 64) else .v (fld e 0 64)) (fld w 0 8) (fld w 3 2 == 1)) else none
  | 107 => if fld w 6 4 == 0 && fld e 6 4 == 0 && fld e 14 262144 == 0 then some (.hfma2 (fld w 14 64) (fld w 8 64) (if fld w 4 2 == 1 then .s (fld e 0 64) else .v (fld e 0 64)) (if fld w 5 2 == 1 then .s (fld e 8 64) else .v (fld e 8 64)) (fld w 0 8) (fld w 3 2 == 1)) else none
  | 108 => if fld w 4 16 == 0 && fld e 6 67108864 == 0 then some (.cmul (fld w 14 64) (fld w 8 64) (fld e 0 64) (fld w 0 8) (fld w 3 2 == 1)) else none
  | 109 => if fld w 4 16 == 0 && fld e 6 4 == 0 && fld e 14 262144 == 0 then some (.cfma (fld w 14 64) (fld w 8 64) (fld e 0 64) (fld e 8 64) (fld w 0 8) (fld w 3 2 == 1)) else none
  | 110 => if fld w 4 16 == 0 && fld e 12 1048576 == 0 then some (.cvtff (fld w 14 64) (fld w 8 64) (fld w 0 8) (fld w 3 2 == 1) (fld e 0 16) (fld e 4 16) (fld e 8 4) (fld e 10 4)) else none
  | 111 => if fld w 3 32 == 0 && fld e 8 16777216 == 0 then some (.cvtfi (fld w 14 64) (fld w 8 64) (fld w 0 8) (fld e 0 16) (fld e 4 4) (fld e 6 4)) else none
  | 112 => if fld w 4 16 == 0 && fld e 8 16777216 == 0 then some (.cvtif (fld w 14 64) (fld w 8 64) (fld w 0 8) (fld w 3 2 == 1) (fld e 0 16) (fld e 4 4) (fld e 6 4)) else none
  | 113 => if fld e 4 268435456 == 0 then some (.cvtpk (fld w 14 64) (fld w 8 64) (fld w 0 8) (fld w 3 4) (fld w 5 8) (fld e 0 16)) else none
  | 114 => if fld w 6 4 == 0 && fld e 6 67108864 == 0 then some (.cvtunpk (fld w 14 64) (fld w 8 64) (fld e 0 64) (fld w 0 8) (fld w 3 8)) else none
  | 115 => if fld w 1 128 == 0 && fld e 8 16777216 == 0 then some (.cvtw (fld w 14 64) (fld w 8 64) (fld w 0 2 == 1) (fld e 0 256)) else none
  | _ => none

/-- The rows of the memory map (R181); `e` is the extension word, 0 where there is none. -/
def decodeMemory (opc w e : Nat) : Option Instr :=
  match opc with
  | 0 =>
    if decide (8 ≤ fld w 0 32) then (some (.ldExt (fld w 14 64) (fld w 8 64) (fld w 5 8) (accOf (fld w 0 32)) (signed32 e)))
    else (if fld w 3 4 == 0 then some (.ld (fld w 14 64) (fld w 8 64) (fld w 5 8) (fld w 0 8)) else none)
  | 1 =>
    if decide (8 ≤ fld w 0 32) then (some (.stExt (fld w 14 64) (fld w 8 64) (fld w 5 8) (accOf (fld w 0 32)) (signed32 e)))
    else (if fld w 3 4 == 0 then some (.st (fld w 14 64) (fld w 8 64) (fld w 5 8) (fld w 0 8)) else none)
  | 2 =>
    if decide (8 ≤ fld w 0 32) then (some (.ldsExt (fld w 14 64) (fld w 8 64) (fld w 5 8) (accOf (fld w 0 32)) (signed32 e)))
    else (if fld w 3 4 == 0 then some (.lds (fld w 14 64) (fld w 8 64) (fld w 5 8) (fld w 0 8)) else none)
  | 3 =>
    if fld w 3 2 == 1 then (some (.ldlExt (fld w 14 64) (if fld w 4 2 == 1 then .s (fld w 8 64) else .v (fld w 8 64)) (fld w 5 8) (fld w 0 8) (signed32 e)))
    else (if fld w 3 2 == 0 then some (.ldl (fld w 14 64) (if fld w 4 2 == 1 then .s (fld w 8 64) else .v (fld w 8 64)) (fld w 5 8) (fld w 0 8)) else none)
  | 4 =>
    if fld w 3 2 == 1 then (some (.stlExt (fld w 14 64) (if fld w 4 2 == 1 then .s (fld w 8 64) else .v (fld w 8 64)) (fld w 5 8) (fld w 0 8) (signed32 e)))
    else (if fld w 3 2 == 0 then some (.stl (fld w 14 64) (if fld w 4 2 == 1 then .s (fld w 8 64) else .v (fld w 8 64)) (fld w 5 8) (fld w 0 8)) else none)
  | 5 => some (.ldt (fld w 14 64) (fld w 8 64) (fld w 5 8) (fld w 0 32))
  | 6 =>
    if fld w 3 2 == 1 then (if fld w 0 8 == 0 && fld w 4 2 == 0 then some (.hzaddExt (fld w 14 64) (fld w 8 64) (fld w 5 8) (signed32 e)) else none)
    else (if fld w 0 32 == 0 then some (.hzadd (fld w 14 64) (fld w 8 64) (fld w 5 8)) else none)
  | 7 => if fld w 0 32 == 0 then some (.hzsettle (fld w 14 64) (fld w 8 64) (fld w 5 8)) else none
  | 8 =>
    if fld w 3 2 == 1 then (if fld w 0 8 == 0 && fld w 4 2 == 0 && fld w 14 64 == 0 then some (.prefExt (fld w 8 64) (fld w 5 8) (signed32 e)) else none)
    else (if fld w 0 32 == 0 && fld w 14 64 == 0 then some (.pref (fld w 8 64) (fld w 5 8)) else none)
  | 9 =>
    if fld w 3 2 == 1 then (if fld w 0 8 == 0 && fld w 4 2 == 0 && fld w 14 64 == 0 then some (.wbackExt (fld w 8 64) (fld w 5 8) (signed32 e)) else none)
    else (if fld w 0 16 == 0 && fld w 14 64 == 0 then some (.wback (fld w 8 64) (fld w 5 8) (fld w 4 2 == 1)) else none)
  | 10 => if fld w 8 4096 == 0 then some (.fence (fld w 5 8) (fld w 3 4) (fld w 0 8)) else none
  | 11 => some (.atom (fld w 14 64) (fld w 8 64) (fld w 5 8) (fld w 3 4) (fld w 0 8))
  | 12 => some (.atomv (fld w 18 4) (fld w 14 16) (fld w 8 64) (fld w 5 8) (fld w 3 4) (fld w 0 8))
  | 13 => some (.redm (fld w 14 64) (fld w 8 64) (fld w 5 8) (fld w 3 4) (fld w 0 8))
  | 14 =>
    if fld w 0 32 == 1 then (if fld w 8 64 == 0 then some (.barArv (fld w 14 64) (fld w 5 8)) else none)
    else if fld w 0 32 == 2 then (some (.barExp (fld w 14 64) (fld w 8 64) (fld w 5 8)))
    else (if fld w 0 32 == 0 && fld w 8 64 == 0 then some (.bar (fld w 14 64) (fld w 5 8)) else none)
  | 15 => if fld w 0 32 == 0 && fld w 8 64 == 0 then some (.gbar (fld w 14 64) (fld w 5 8)) else none
  | _ => none

/-- The rows of the engine map (R182); `e` is the extension word, 0 where there is none. -/
def decodeEngine (opc w e : Nat) : Option Instr :=
  match opc with
  | 0 => if fld e 20 4096 == 0 then some (.mma (fld w 14 64) (fld w 8 64) (fld w 0 256) (fld e 0 4096) (fld e 12 16) (fld e 16 2 == 1) (fld e 17 2 == 1) (fld e 18 2 == 1) (fld e 19 2 == 1)) else none
  | 1 => if fld e 20 4096 == 0 then some (.mmas (fld w 14 64) (fld w 8 64) (fld w 0 256) (fld e 0 4096) (fld e 12 16) (fld e 16 2 == 1) (fld e 17 2 == 1) (fld e 18 2 == 1) (fld e 19 2 == 1)) else none
  | 2 => if fld w 3 2 == 0 then some (.mzero (fld w 12 256) (fld w 4 256) (fld w 0 8)) else none
  | 3 =>
    if fld w 5 2 == 1 then (if fld w 3 4 == 0 && fld e 9 8388608 == 0 then some (.maccIn (fld w 14 64) (fld w 6 256) (fld w 0 8) (fld e 0 8) (fld e 3 2 == 1) (fld e 4 2 == 1) (fld e 5 16)) else none)
    else (if fld w 3 8 == 0 && fld e 3 2 == 0 && fld e 9 8388608 == 0 then some (.maccOut (fld w 14 64) (fld w 6 256) (fld w 0 8) (fld e 0 8) (fld e 4 2 == 1) (fld e 5 16)) else none)
  | 4 => if fld w 0 8 == 0 then some (.mloop (fld w 14 64) (fld w 8 64) (fld w 3 32)) else none
  | 5 => if fld w 3 4 == 0 then some (.talloc (fld w 16 16) (fld w 10 64) (fld w 5 32) (fld w 0 8)) else none
  | 6 => if fld w 3 2048 == 0 then some (.tfree (fld w 14 64) (fld w 0 8)) else none
  | 7 => if fld e 8 16777216 == 0 then some (.tcopy (fld w 14 64) (fld w 9 32) (fld w 8 2 == 1) (fld w 7 2 == 1) (fld w 4 8) (fld w 3 2 == 1) (fld w 0 8) (fld e 0 8) (fld e 3 8) (fld e 6 2 == 1) (fld e 7 2 == 1)) else none
  | 8 => if fld w 3 32 == 0 then some (.tchain (fld w 15 32) (fld w 12 8) (fld w 11 2 == 1) (fld w 8 8) (fld w 0 8)) else none
  | 9 =>
    if fld e 8 2 == 1 then (if fld w 14 64 == 0 && fld e 0 128 == 0 && fld e 29 8 == 0 then some (.tstoreHz (fld w 9 32) (fld w 8 2 == 1) (fld w 7 2 == 1) (fld w 4 8) (fld w 3 2 == 1) (fld w 0 8) (fld e 7 2 == 1) (fld e 9 256) (fld e 17 256) (fld e 25 16)) else none)
    else (if fld e 8 16777216 == 0 then some (.tstore (fld w 14 64) (fld w 9 32) (fld w 8 2 == 1) (fld w 7 2 == 1) (fld w 4 8) (fld w 3 2 == 1) (fld w 0 8) (fld e 0 8) (fld e 3 8) (fld e 6 2 == 1) (fld e 7 2 == 1)) else none)
  | 10 => if fld w 3 32 == 0 then some (.tfill (fld w 14 64) (fld w 9 32) (fld w 8 2 == 1) (fld w 0 8)) else none
  | 11 =>
    if fld w 14 4 == 1 then (if fld w 0 16384 == 0 then some (.seqbarArv (fld w 16 16)) else none)
    else if fld w 14 4 == 2 then (if fld w 0 16384 == 0 then some (.seqbarWait (fld w 16 16)) else none)
    else (if fld w 0 65536 == 0 then some (.seqbar (fld w 16 16)) else none)
  | 12 => if fld w 3 32 == 0 then some (.accrd (fld w 14 64) (fld w 8 64) (fld w 0 8)) else none
  | 13 => if fld w 3 32 == 0 then some (.accwr (fld w 14 64) (fld w 8 64) (fld w 0 8)) else none
  | 14 => if fld w 0 16 == 0 then some (.awset (fld w 15 32) (fld w 10 32) (fld w 5 32) (fld w 4 2 == 1)) else none
  | 15 => if fld w 3 128 == 0 then some (.txinit (fld w 15 32) (fld w 10 32) (fld w 0 8)) else none
  | 16 => if fld w 3 128 == 0 then some (.txexp (fld w 15 32) (fld w 10 32) (fld w 0 8)) else none
  | 17 => if fld w 3 32 == 0 then some (.txarv (fld w 15 32) (fld w 10 32) (fld w 9 2 == 1) (fld w 8 2 == 1) (fld w 0 8)) else none
  | 18 => if fld w 0 1024 == 0 then some (.txwait (fld w 15 32) (fld w 10 32)) else none
  | 19 => if fld w 3 8 == 0 then some (.txtest (fld w 16 16) (fld w 11 32) (fld w 6 32) (fld w 0 8)) else none
  | 20 => if fld w 0 4096 == 0 then some (.twait (fld w 14 64) (fld w 12 4)) else none
  | 21 => if fld w 3 32 == 0 then some (.tstate (fld w 14 64) (fld w 8 64) (fld w 0 8)) else none
  | _ => none

/-- The rows of the system map (R183); `e` is the extension word, 0 where there is none. -/
def decodeSystem (opc w _e : Nat) : Option Instr :=
  match opc with
  | 0 => if fld w 8 64 == 0 then some (.srdp (fld w 14 64) (fld w 0 256)) else none
  | 1 => if fld w 0 8 == 0 && fld w 8 64 == 0 then some (.swrp (fld w 14 64) (fld w 3 32)) else none
  | 2 => if fld w 0 1048576 == 0 then some .trapret else none
  | 3 => if fld w 0 8 == 0 && fld w 8 4096 == 0 then some (.pdone (fld w 3 32)) else none
  | 4 => if fld w 1 128 == 0 && fld w 14 64 == 0 then some (.tlbinv (fld w 8 64) (fld w 0 2 == 1)) else none
  | 5 => if fld w 0 1048576 == 0 then some .ctxwb else none
  | 6 => if fld w 0 1048576 == 0 then some .hzreclaim else none
  | 7 => some (.dbgrd (fld w 14 64) (fld w 8 64) (fld w 0 256))
  | _ => none

/-- The opcodes of the compute map whose format always carries an extension word (R167, R197, R244). -/
def extCompute : List Nat :=
  [2, 3, 6, 13, 14, 15, 22, 27, 33, 34, 36, 39, 50, 51, 59, 63, 75, 82, 83, 84, 85, 88, 98, 99, 100, 103, 105, 106, 107, 108, 109, 110, 111, 112, 113, 114, 115]

/-- The opcodes of the engine map that always carry an extension word (R299). -/
def extEngine : List Nat := [0, 1, 3, 7, 9]

/-- Whether an instruction word requires an extension word (R167): by its format, by OFF = 0x8000
in the BR format, or by the E bit or an ordered form in the MEM format. -/
def needsExt (cls w : Nat) : Bool :=
  let opc := fld w 20 128
  if cls == 0 then
    extCompute.contains opc || ((decide (53 ≤ opc) && decide (opc ≤ 57) || opc == 62) && fld w 0 65536 == 32768)
  else if cls == 1 then
    (decide (opc ≤ 2) && decide (8 ≤ fld w 0 32)) ||
    ((opc == 3 || opc == 4 || opc == 6 || opc == 8 || opc == 9) && fld w 3 2 == 1)
  else if cls == 2 then extEngine.contains opc
  else false

/-- The instruction that the rows of a class give for a word and its extension word, before the
operand checks. -/
def decodeRow (cls w e : Nat) : Option Instr :=
  if cls == 0 then decodeCompute (fld w 20 128) w e
  else if cls == 1 then decodeMemory (fld w 20 128) w e
  else if cls == 2 then decodeEngine (fld w 20 128) w e
  else decodeSystem (fld w 20 128) w e

/-- Decoding an instruction word of a clause of class `cls` with its extension word (R169). -/
def decodeInstr (cls w e : Nat) : Except Reject Instr :=
  match decodeRow cls w e with
  | none => .error .reserved
  | some i =>
    match i.ill with
    | none => .ok i
    | some r => .error (.ill r)

/-- The test access port's instruction of an 8-bit code: every code without its own selects BYPASS
(R367). -/
def decodeTap (code : Nat) : Instr :=
  if code == 1 then .idcode else if code == 32 then .frzsel else if code == 33 then .frzread else .bypass

/-- The successful result of a decoding. -/
def accepted : Except Reject Instr → Option Instr
  | .ok i => some i
  | .error _ => none

/-- The first class whose rows admit a word (the class is in the clause header, R162; a bare word
leaves it open, notes/assumptions/11). -/
def decodeAnyClass (w e : Nat) : Option Instr :=
  match accepted (decodeInstr 0 w e) with
  | some i => some i
  | none =>
    match accepted (decodeInstr 1 w e) with
    | some i => some i
    | none =>
      match accepted (decodeInstr 2 w e) with
      | some i => some i
      | none => accepted (decodeInstr 3 w e)

/-- The class under which `decodeAnyClass` reads a word. -/
def classOfWord (w e : Nat) : Nat :=
  if (accepted (decodeInstr 0 w e)).isSome then 0
  else if (accepted (decodeInstr 1 w e)).isSome then 1
  else if (accepted (decodeInstr 2 w e)).isSome then 2 else 3

/-- The words of a table row as numbered by spec/opcode_table.json: 8-bit rows are test-port
instructions, wider ones an instruction word followed by its extension word. -/
def decodeTableWord (nbits w : Nat) : Option Instr :=
  if nbits ≤ 8 then some (decodeTap (w % 256))
  else decodeAnyClass (w % 4294967296) (w / 4294967296 % 4294967296)

/-! ## The encoder -/

/-- The code of an instruction: its class, its word with VER and STALL zero, and its extension
word where it has one. -/
structure Code where
  cls : Nat
  w : Nat
  e : Option Nat
deriving DecidableEq, Repr

/-- A Boolean as a bit. -/
def bit (b : Bool) : Nat := if b then 1 else 0

/-- A signed offset as a 16-bit field. -/
def unsigned16 (x : Int) : Nat := (x % 65536).toNat

/-- A signed offset as a 32-bit word. -/
def unsigned32 (x : Int) : Nat := (x % 4294967296).toNat

/-- The B-source code of R195 and R196. -/
def Src.sel : Src → Nat
  | .v _ => 0
  | .s _ => 1
  | .imm _ => 2

/-- The B-source code of `ssetp`. -/
def Src.selUniform : Src → Nat
  | .imm _ => 2
  | _ => 0

/-- The number in an operand B: register or immediate. -/
def Src.num : Src → Nat
  | .v k => k
  | .s k => k
  | .imm n => n

/-- A one-bit selection of a scalar register. -/
def Src.isScalar : Src → Nat
  | .s _ => 1
  | _ => 0

/-- A one-bit selection of an immediate. -/
def Src.isImm : Src → Nat
  | .imm _ => 1
  | _ => 0

/-- The access code of R271 with an extension word. -/
def Acc.code : Acc → Nat
  | .weak w => 8 + w
  | .ordered k c => 16 + bit k * 8 + c

/-- The words of an instruction; the events have none. -/
def encode : Instr → Option Code
  | .iadd d a b => some ⟨0, d * 16384 + a * 256 + b.sel + b.num * 4, none⟩
  | .isub d a b => some ⟨0, 1 * 1048576 + d * 16384 + a * 256 + b.sel + b.num * 4, none⟩
  | .iaddc d a c b => some ⟨0, 2 * 1048576 + d * 16384 + a * 256 + c + b.sel * 16, some (b.num)⟩
  | .isubb d a c b => some ⟨0, 3 * 1048576 + d * 16384 + a * 256 + c + b.sel * 16, some (b.num)⟩
  | .imul d a b => some ⟨0, 4 * 1048576 + d * 16384 + a * 256 + b.sel + b.num * 4, none⟩
  | .imulh d a b u =>
    some ⟨0, 5 * 1048576 + d * 16384 + a * 256 + b.isScalar + b.num * 4 + (bit u) * 2,
      none⟩
  | .imad d a b c =>
    some ⟨0, 6 * 1048576 + d * 16384 + a * 256 + b.isScalar + c.isScalar * 2,
      some (b.num + c.num * 256)⟩
  | .imin d a b u =>
    some ⟨0, 7 * 1048576 + d * 16384 + a * 256 + b.isScalar + b.num * 4 + (bit u) * 2,
      none⟩
  | .imax d a b u =>
    some ⟨0, 8 * 1048576 + d * 16384 + a * 256 + b.isScalar + b.num * 4 + (bit u) * 2,
      none⟩
  | .iabs d a sat => some ⟨0, 9 * 1048576 + d * 16384 + a * 256 + bit sat, none⟩
  | .ineg d a sat => some ⟨0, 10 * 1048576 + d * 16384 + a * 256 + bit sat, none⟩
  | .idot4 d a b ua ub =>
    some ⟨0, 11 * 1048576 + d * 16384 + a * 256 + b * 4 + bit ua + (bit ub) * 2,
      none⟩
  | .iadd64 d a b => some ⟨0, 12 * 1048576 + d * 16384 + a * 256 + b.sel + b.num * 4, none⟩
  | .lea d a b k u =>
    some ⟨0, 13 * 1048576 + d * 16384 + a * 256 + b.isScalar * 8 + k + (bit u) * 4,
      some (b.num)⟩
  | .sel d a p b => some ⟨0, 14 * 1048576 + d * 16384 + a * 256 + p + b.sel * 16, some (b.num)⟩
  | .isetp p a code u b =>
    some ⟨0, 15 * 1048576 + p * 16384 + a * 256 + code + (bit u) * 8 + b.sel * 16,
      some (b.num)⟩
  | .and d a b => some ⟨0, 16 * 1048576 + d * 16384 + a * 256 + b.sel + b.num * 4, none⟩
  | .or d a b => some ⟨0, 17 * 1048576 + d * 16384 + a * 256 + b.sel + b.num * 4, none⟩
  | .xor d a b => some ⟨0, 18 * 1048576 + d * 16384 + a * 256 + b.sel + b.num * 4, none⟩
  | .andn d a b => some ⟨0, 19 * 1048576 + d * 16384 + a * 256 + b.sel + b.num * 4, none⟩
  | .orn d a b => some ⟨0, 20 * 1048576 + d * 16384 + a * 256 + b.sel + b.num * 4, none⟩
  | .not d a => some ⟨0, 21 * 1048576 + d * 16384 + a * 256, none⟩
  | .lop3 d a b c t => some ⟨0, 22 * 1048576 + d * 16384 + a * 256 + t, some (b + c * 256)⟩
  | .shl d a b => some ⟨0, 23 * 1048576 + d * 16384 + a * 256 + b.sel + b.num * 4, none⟩
  | .shr d a b => some ⟨0, 24 * 1048576 + d * 16384 + a * 256 + b.sel + b.num * 4, none⟩
  | .sar d a b => some ⟨0, 25 * 1048576 + d * 16384 + a * 256 + b.sel + b.num * 4, none⟩
  | .rol d a b => some ⟨0, 26 * 1048576 + d * 16384 + a * 256 + b.sel + b.num * 4, none⟩
  | .fshl d a b c =>
    some ⟨0, 27 * 1048576 + d * 16384 + a * 256 + c.isImm,
      some (b + c.num * 256)⟩
  | .shl64 d a b => some ⟨0, 28 * 1048576 + d * 16384 + a * 256 + b.sel + b.num * 4, none⟩
  | .popc d a => some ⟨0, 29 * 1048576 + d * 16384 + a * 256, none⟩
  | .clz d a => some ⟨0, 30 * 1048576 + d * 16384 + a * 256, none⟩
  | .ctz d a => some ⟨0, 31 * 1048576 + d * 16384 + a * 256, none⟩
  | .brev d a => some ⟨0, 32 * 1048576 + d * 16384 + a * 256, none⟩
  | .bfx d a pos len sx =>
    some ⟨0, 33 * 1048576 + d * 16384 + a * 256 + bit sx,
      some (pos * 64 + len * 2048)⟩
  | .bfi d a b pos len =>
    some ⟨0, 34 * 1048576 + d * 16384 + a * 256,
      some (b + pos * 64 + len * 2048)⟩
  | .mov d a w64 => some ⟨0, 35 * 1048576 + d * 16384 + a * 256 + bit w64, none⟩
  | .movi d imm => some ⟨0, 36 * 1048576 + d * 16384, some (imm)⟩
  | .movs d s w64 => some ⟨0, 37 * 1048576 + d * 16384 + s * 8 + bit w64, none⟩
  | .sread d kind rsel => some ⟨0, 38 * 1048576 + d * 16384 + kind * 256 + rsel, none⟩
  | .plop p pa pb pc t => some ⟨0, 39 * 1048576 + p * 16384 + pa * 256 + t, some (pb + pc * 16)⟩
  | .pmov wr r => some ⟨0, 40 * 1048576 + bit wr + (if wr then r * 256 else r * 16384), none⟩
  | .sadd d a b => some ⟨0, 41 * 1048576 + d * 16384 + a * 256 + b.isImm + b.num * 4, none⟩
  | .ssub d a b => some ⟨0, 42 * 1048576 + d * 16384 + a * 256 + b.isImm + b.num * 4, none⟩
  | .smul d a b => some ⟨0, 43 * 1048576 + d * 16384 + a * 256 + b.isImm + b.num * 4, none⟩
  | .sand d a b => some ⟨0, 44 * 1048576 + d * 16384 + a * 256 + b.isImm + b.num * 4, none⟩
  | .sor d a b => some ⟨0, 45 * 1048576 + d * 16384 + a * 256 + b.isImm + b.num * 4, none⟩
  | .sxor d a b => some ⟨0, 46 * 1048576 + d * 16384 + a * 256 + b.isImm + b.num * 4, none⟩
  | .sshl d a b => some ⟨0, 47 * 1048576 + d * 16384 + a * 256 + b.isImm + b.num * 4, none⟩
  | .sshr d a b ar =>
    some ⟨0, 48 * 1048576 + d * 16384 + a * 256 + b.isImm + b.num * 4 + (bit ar) * 2,
      none⟩
  | .smov d a w64 => some ⟨0, 49 * 1048576 + d * 16384 + a * 256 + bit w64, none⟩
  | .smovi d imm => some ⟨0, 50 * 1048576 + d * 16384, some (imm)⟩
  | .ssetp p a code u b =>
    some ⟨0, 51 * 1048576 + p * 16384 + a * 256 + code + (bit u) * 8 + b.selUniform * 16,
      some (b.num)⟩
  | .slane d a lane w64 =>
    some ⟨0, 52 * 1048576 + d * 16384 + a * 256 + lane.isScalar + lane.num * 4 + (bit w64) * 2,
      none⟩
  | .bra p off => some ⟨0, 53 * 1048576 + p * 65536 + unsigned16 off, none⟩
  | .braLong p off => some ⟨0, 53 * 1048576 + 32768 + p * 65536, some (unsigned32 off)⟩
  | .bany p off => some ⟨0, 54 * 1048576 + p * 65536 + unsigned16 off, none⟩
  | .banyLong p off => some ⟨0, 54 * 1048576 + 32768 + p * 65536, some (unsigned32 off)⟩
  | .ball p off => some ⟨0, 55 * 1048576 + p * 65536 + unsigned16 off, none⟩
  | .ballLong p off => some ⟨0, 55 * 1048576 + 32768 + p * 65536, some (unsigned32 off)⟩
  | .bnone p off => some ⟨0, 56 * 1048576 + p * 65536 + unsigned16 off, none⟩
  | .bnoneLong p off => some ⟨0, 56 * 1048576 + 32768 + p * 65536, some (unsigned32 off)⟩
  | .bdiv p off => some ⟨0, 57 * 1048576 + p * 65536 + unsigned16 off, none⟩
  | .bdivLong p off => some ⟨0, 57 * 1048576 + 32768 + p * 65536, some (unsigned32 off)⟩
  | .jmp tgt => some ⟨0, 58 * 1048576 + tgt.isScalar + tgt.num * 256, none⟩
  | .call f off => some ⟨0, 59 * 1048576 + (f / 2) * 256, some (unsigned32 off)⟩
  | .calli f tgt => some ⟨0, 60 * 1048576 + (f / 2) * 4 + tgt.isScalar + tgt.num * 256, none⟩
  | .ret link f => some ⟨0, 61 * 1048576 + link * 256 + (f / 2) * 4, none⟩
  | .exit p => some ⟨0, 62 * 1048576 + p * 65536, none⟩
  | .fspawn d p w off =>
    some ⟨0, 63 * 1048576 + d * 16384 + p * 256 + w / 2,
      some (unsigned32 off)⟩
  | .yield => some ⟨0, 64 * 1048576, none⟩
  | .nop => some ⟨0, 65 * 1048576, none⟩
  | .bkpt code => some ⟨0, 66 * 1048576 + code, none⟩
  | .utrap code => some ⟨0, 67 * 1048576 + code, none⟩
  | .mjoin m => some ⟨0, 68 * 1048576 + m * 16384, none⟩
  | .mleave m => some ⟨0, 69 * 1048576 + m * 16384, none⟩
  | .mwait m => some ⟨0, 70 * 1048576 + m * 16384, none⟩
  | .mset m s mode => some ⟨0, 71 * 1048576 + m * 16384 + s * 8 + mode, none⟩
  | .mget d m mode => some ⟨0, 72 * 1048576 + d * 16384 + m * 256 + mode, none⟩
  | .vote d pa m q mode =>
    some ⟨0, 73 * 1048576 + d * 16384 + pa * 256 + m * 4 + q * 64 + mode,
      none⟩
  | .matchl d a m w64 => some ⟨0, 74 * 1048576 + d * 16384 + a * 256 + m * 4 + bit w64, none⟩
  | .shfl d a mlo mhi b w64 m seg z =>
    some ⟨0, 75 * 1048576 + d * 16384 + a * 256 + mlo + b.isImm * 4 + (bit w64) * 8 + m * 16,
      some (mhi * 2048 + b.num + seg * 256 + (bit z) * 4096)⟩
  | .redmin d a m idx ty =>
    some ⟨0, 76 * 1048576 + d * 16384 + a * 256 + m * 4 + (bit idx) * 64 + ty,
      none⟩
  | .redmax d a m idx ty =>
    some ⟨0, 77 * 1048576 + d * 16384 + a * 256 + m * 4 + (bit idx) * 64 + ty,
      none⟩
  | .redadd d a m mode => some ⟨0, 78 * 1048576 + d * 16384 + a * 256 + m * 4 + mode, none⟩
  | .fredadd d a m w64 => some ⟨0, 79 * 1048576 + d * 16384 + a * 256 + m * 4 + bit w64, none⟩
  | .scan d a m excl op =>
    some ⟨0, 80 * 1048576 + d * 16384 + a * 256 + m * 4 + (bit excl) * 64 + op,
      none⟩
  | .redlog d a m op => some ⟨0, 81 * 1048576 + d * 16384 + a * 256 + m * 4 + op, none⟩
  | .fadd d a rnd b =>
    some ⟨0, 82 * 1048576 + d * 16384 + a * 256 + rnd + b.sel * 8,
      some (b.num)⟩
  | .fsub d a rnd b =>
    some ⟨0, 83 * 1048576 + d * 16384 + a * 256 + rnd + b.sel * 8,
      some (b.num)⟩
  | .fmul d a rnd b =>
    some ⟨0, 84 * 1048576 + d * 16384 + a * 256 + rnd + b.sel * 8,
      some (b.num)⟩
  | .ffma d a b c rnd np =>
    some ⟨0, 85 * 1048576 + d * 16384 + a * 256 + b.isScalar * 8 + c.isScalar * 16 + rnd + (bit np) * 32,
      some (b.num + c.num * 256)⟩
  | .fmin d a b nan =>
    some ⟨0, 86 * 1048576 + d * 16384 + a * 256 + b.isScalar + b.num * 4 + (bit nan) * 2,
      none⟩
  | .fmax d a b nan =>
    some ⟨0, 87 * 1048576 + d * 16384 + a * 256 + b.isScalar + b.num * 4 + (bit nan) * 2,
      none⟩
  | .fsetp p a cond b =>
    some ⟨0, 88 * 1048576 + p * 16384 + a * 256 + cond + b.sel * 16,
      some (b.num)⟩
  | .fclass d a w64 => some ⟨0, 89 * 1048576 + d * 16384 + a * 256 + bit w64, none⟩
  | .frcp d a => some ⟨0, 90 * 1048576 + d * 16384 + a * 256, none⟩
  | .frsq d a => some ⟨0, 91 * 1048576 + d * 16384 + a * 256, none⟩
  | .fsqrt d a => some ⟨0, 92 * 1048576 + d * 16384 + a * 256, none⟩
  | .fdiv d a b => some ⟨0, 93 * 1048576 + d * 16384 + a * 256 + b.isScalar + b.num * 4, none⟩
  | .fexp2 d a => some ⟨0, 94 * 1048576 + d * 16384 + a * 256, none⟩
  | .flog2 d a => some ⟨0, 95 * 1048576 + d * 16384 + a * 256, none⟩
  | .fsinpi d a => some ⟨0, 96 * 1048576 + d * 16384 + a * 256, none⟩
  | .fcospi d a => some ⟨0, 97 * 1048576 + d * 16384 + a * 256, none⟩
  | .dadd d a b rnd =>
    some ⟨0, 98 * 1048576 + d * 16384 + a * 256 + b.isScalar * 8 + rnd,
      some (b.num)⟩
  | .dmul d a b rnd =>
    some ⟨0, 99 * 1048576 + d * 16384 + a * 256 + b.isScalar * 8 + rnd,
      some (b.num)⟩
  | .dfma d a b c rnd np =>
    some ⟨0, 100 * 1048576 + d * 16384 + a * 256 + b.isScalar * 8 + c.isScalar * 16 + rnd + (bit np) * 32,
      some (b.num + c.num * 256)⟩
  | .dmin d a b nan =>
    some ⟨0, 101 * 1048576 + d * 16384 + a * 256 + b.isScalar + b.num * 4 + (bit nan) * 2,
      none⟩
  | .dmax d a b nan =>
    some ⟨0, 102 * 1048576 + d * 16384 + a * 256 + b.isScalar + b.num * 4 + (bit nan) * 2,
      none⟩
  | .dsetp p a cond b =>
    some ⟨0, 103 * 1048576 + p * 16384 + a * 256 + cond + b.sel * 16,
      some (b.num)⟩
  | .ddiv d a b => some ⟨0, 104 * 1048576 + d * 16384 + a * 256 + b.isScalar + b.num * 4, none⟩
  | .hadd2 d a b rnd bf =>
    some ⟨0, 105 * 1048576 + d * 16384 + a * 256 + b.isScalar * 16 + rnd + (bit bf) * 8,
      some (b.num)⟩
  | .hmul2 d a b rnd bf =>
    some ⟨0, 106 * 1048576 + d * 16384 + a * 256 + b.isScalar * 16 + rnd + (bit bf) * 8,
      some (b.num)⟩
  | .hfma2 d a b c rnd bf =>
    some ⟨0, 107 * 1048576 + d * 16384 + a * 256 + b.isScalar * 16 + c.isScalar * 32 + rnd + (bit bf) * 8,
      some (b.num + c.num * 256)⟩
  | .cmul d a b rnd cj =>
    some ⟨0, 108 * 1048576 + d * 16384 + a * 256 + rnd + (bit cj) * 8,
      some (b)⟩
  | .cfma d a b c rnd cj =>
    some ⟨0, 109 * 1048576 + d * 16384 + a * 256 + rnd + (bit cj) * 8,
      some (b + c * 256)⟩
  | .cvtff d a rnd sat df sf dp sp =>
    some ⟨0, 110 * 1048576 + d * 16384 + a * 256 + rnd + (bit sat) * 8,
      some (df + sf * 16 + dp * 256 + sp * 1024)⟩
  | .cvtfi d a rnd sf sp dt =>
    some ⟨0, 111 * 1048576 + d * 16384 + a * 256 + rnd,
      some (sf + sp * 16 + dt * 64)⟩
  | .cvtif d a rnd sat df ty dp =>
    some ⟨0, 112 * 1048576 + d * 16384 + a * 256 + rnd + (bit sat) * 8,
      some (df + ty * 16 + dp * 64)⟩
  | .cvtpk d a rnd ty slot m =>
    some ⟨0, 113 * 1048576 + d * 16384 + a * 256 + rnd + ty * 8 + slot * 32,
      some (m)⟩
  | .cvtunpk d a b k slot =>
    some ⟨0, 114 * 1048576 + d * 16384 + a * 256 + k + slot * 8,
      some (b)⟩
  | .cvtw d a q w => some ⟨0, 115 * 1048576 + d * 16384 + a * 256 + bit q, some (w)⟩
  | .ld d b sb w => some ⟨1, d * 16384 + b * 256 + sb * 32 + w, none⟩
  | .ldExt d b sb acc off =>
    some ⟨1, d * 16384 + b * 256 + sb * 32 + acc.code,
      some (unsigned32 off)⟩
  | .st d b sb w => some ⟨1, 1 * 1048576 + d * 16384 + b * 256 + sb * 32 + w, none⟩
  | .stExt d b sb acc off =>
    some ⟨1, 1 * 1048576 + d * 16384 + b * 256 + sb * 32 + acc.code,
      some (unsigned32 off)⟩
  | .lds d b sb w => some ⟨1, 2 * 1048576 + d * 16384 + b * 256 + sb * 32 + w, none⟩
  | .ldsExt d b sb acc off =>
    some ⟨1, 2 * 1048576 + d * 16384 + b * 256 + sb * 32 + acc.code,
      some (unsigned32 off)⟩
  | .ldl d b sb w =>
    some ⟨1, 3 * 1048576 + d * 16384 + b.isScalar * 16 + b.num * 256 + sb * 32 + w,
      none⟩
  | .ldlExt d b sb w off =>
    some ⟨1, 3 * 1048576 + 8 + d * 16384 + b.isScalar * 16 + b.num * 256 + sb * 32 + w,
      some (unsigned32 off)⟩
  | .stl d b sb w =>
    some ⟨1, 4 * 1048576 + d * 16384 + b.isScalar * 16 + b.num * 256 + sb * 32 + w,
      none⟩
  | .stlExt d b sb w off =>
    some ⟨1, 4 * 1048576 + 8 + d * 16384 + b.isScalar * 16 + b.num * 256 + sb * 32 + w,
      some (unsigned32 off)⟩
  | .ldt d b sb k => some ⟨1, 5 * 1048576 + d * 16384 + b * 256 + sb * 32 + k, none⟩
  | .hzadd a b sb => some ⟨1, 6 * 1048576 + a * 16384 + b * 256 + sb * 32, none⟩
  | .hzaddExt a b sb off =>
    some ⟨1, 6 * 1048576 + 8 + a * 16384 + b * 256 + sb * 32,
      some (unsigned32 off)⟩
  | .hzsettle l b sb => some ⟨1, 7 * 1048576 + l * 16384 + b * 256 + sb * 32, none⟩
  | .pref b sb => some ⟨1, 8 * 1048576 + b * 256 + sb * 32, none⟩
  | .prefExt b sb off => some ⟨1, 8 * 1048576 + 8 + b * 256 + sb * 32, some (unsigned32 off)⟩
  | .wback b sb all => some ⟨1, 9 * 1048576 + b * 256 + sb * 32 + (bit all) * 16, none⟩
  | .wbackExt b sb off => some ⟨1, 9 * 1048576 + 8 + b * 256 + sb * 32, some (unsigned32 off)⟩
  | .fence sb kind scope => some ⟨1, 10 * 1048576 + sb * 32 + kind * 8 + scope, none⟩
  | .atom op b sb ord scope =>
    some ⟨1, 11 * 1048576 + op * 16384 + b * 256 + sb * 32 + ord * 8 + scope,
      none⟩
  | .atomv esz op b sb ord scope =>
    some ⟨1, 12 * 1048576 + esz * 262144 + op * 16384 + b * 256 + sb * 32 + ord * 8 + scope,
      none⟩
  | .redm op b sb ord scope =>
    some ⟨1, 13 * 1048576 + op * 16384 + b * 256 + sb * 32 + ord * 8 + scope,
      none⟩
  | .bar k sb => some ⟨1, 14 * 1048576 + k * 16384 + sb * 32, none⟩
  | .barArv k sb => some ⟨1, 14 * 1048576 + 1 + k * 16384 + sb * 32, none⟩
  | .barExp k cnt sb => some ⟨1, 14 * 1048576 + 2 + k * 16384 + cnt * 256 + sb * 32, none⟩
  | .gbar g sb => some ⟨1, 15 * 1048576 + g * 16384 + sb * 32, none⟩
  | .mma ta tb r k c0 z ea eb pr =>
    some ⟨2, ta * 16384 + tb * 256 + r,
      some (k + c0 * 4096 + (bit z) * 65536 + (bit ea) * 131072 + (bit eb) * 262144 + (bit pr) * 524288)⟩
  | .mmas ta tb r k c0 z ea eb pr =>
    some ⟨2, 1 * 1048576 + ta * 16384 + tb * 256 + r,
      some (k + c0 * 4096 + (bit z) * 65536 + (bit ea) * 131072 + (bit eb) * 262144 + (bit pr) * 524288)⟩
  | .mzero r n1 sb => some ⟨2, 2 * 1048576 + r * 4096 + n1 * 16 + sb, none⟩
  | .maccOut t r sb rnd hi c0 =>
    some ⟨2, 3 * 1048576 + t * 16384 + r * 64 + sb,
      some (rnd + (bit hi) * 16 + c0 * 32)⟩
  | .maccIn t r sb rnd add hi c0 =>
    some ⟨2, 3 * 1048576 + 32 + t * 16384 + r * 64 + sb,
      some (rnd + (bit add) * 8 + (bit hi) * 16 + c0 * 32)⟩
  | .mloop ta tb sd => some ⟨2, 4 * 1048576 + ta * 16384 + tb * 256 + sd * 8, none⟩
  | .talloc p t sg sb => some ⟨2, 5 * 1048576 + p * 65536 + t * 1024 + sg * 32 + sb, none⟩
  | .tfree t sb => some ⟨2, 6 * 1048576 + t * 16384 + sb, none⟩
  | .tcopy t sd acq rel scope ir sb rnd slot cv hi =>
    some ⟨2, 7 * 1048576 + t * 16384 + sd * 512 + (bit acq) * 256 + (bit rel) * 128 + scope * 16 + (bit ir) * 8 + sb,
      some (rnd + slot * 8 + (bit cv) * 64 + (bit hi) * 128)⟩
  | .tchain sh ch ir scope sb =>
    some ⟨2, 8 * 1048576 + sh * 32768 + ch * 4096 + (bit ir) * 2048 + scope * 256 + sb,
      none⟩
  | .tstore t sd acq rel scope ir sb rnd slot cv hi =>
    some ⟨2, 9 * 1048576 + t * 16384 + sd * 512 + (bit acq) * 256 + (bit rel) * 128 + scope * 16 + (bit ir) * 8 + sb,
      some (rnd + slot * 8 + (bit cv) * 64 + (bit hi) * 128)⟩
  | .tstoreHz sd acq rel scope ir sb hi r rows1 c0 =>
    some ⟨2, 9 * 1048576 + sd * 512 + (bit acq) * 256 + (bit rel) * 128 + scope * 16 + (bit ir) * 8 + sb,
      some (256 + (bit hi) * 128 + r * 512 + rows1 * 131072 + c0 * 33554432)⟩
  | .tfill t sv hi sb => some ⟨2, 10 * 1048576 + t * 16384 + sv * 512 + (bit hi) * 256 + sb, none⟩
  | .seqbar k => some ⟨2, 11 * 1048576 + k * 65536, none⟩
  | .seqbarArv k => some ⟨2, 11 * 1048576 + 16384 + k * 65536, none⟩
  | .seqbarWait k => some ⟨2, 11 * 1048576 + 32768 + k * 65536, none⟩
  | .accrd d a sb => some ⟨2, 12 * 1048576 + d * 16384 + a * 256 + sb, none⟩
  | .accwr s a sb => some ⟨2, 13 * 1048576 + s * 16384 + a * 256 + sb, none⟩
  | .awset sg sb0 sl last =>
    some ⟨2, 14 * 1048576 + sg * 32768 + sb0 * 1024 + sl * 32 + (bit last) * 16,
      none⟩
  | .txinit x c sb => some ⟨2, 15 * 1048576 + x * 32768 + c * 1024 + sb, none⟩
  | .txexp x cnt sb => some ⟨2, 16 * 1048576 + x * 32768 + cnt * 1024 + sb, none⟩
  | .txarv x cnt exp one sb =>
    some ⟨2, 17 * 1048576 + x * 32768 + cnt * 1024 + (bit exp) * 512 + (bit one) * 256 + sb,
      none⟩
  | .txwait x ph => some ⟨2, 18 * 1048576 + x * 32768 + ph * 1024, none⟩
  | .txtest p x ph sb => some ⟨2, 19 * 1048576 + p * 65536 + x * 2048 + ph * 64 + sb, none⟩
  | .twait t state => some ⟨2, 20 * 1048576 + t * 16384 + state * 4096, none⟩
  | .tstate d t sb => some ⟨2, 21 * 1048576 + d * 16384 + t * 256 + sb, none⟩
  | .srdp d rsel => some ⟨3, d * 16384 + rsel, none⟩
  | .swrp rsel s => some ⟨3, 1 * 1048576 + rsel * 16384 + s * 8, none⟩
  | .trapret => some ⟨3, 2 * 1048576, none⟩
  | .pdone s => some ⟨3, 3 * 1048576 + s * 8, none⟩
  | .tlbinv a all => some ⟨3, 4 * 1048576 + a * 256 + bit all, none⟩
  | .ctxwb => some ⟨3, 5 * 1048576, none⟩
  | .hzreclaim => some ⟨3, 6 * 1048576, none⟩
  | .dbgrd d a obj => some ⟨3, 7 * 1048576 + d * 16384 + a * 256 + obj, none⟩
  | .bypass => none
  | .idcode => none
  | .frzsel => none
  | .frzread => none
  | .clauseSkip _ _ => none
  | .memoryErrorTrap _ _ => none
  | .scoreboardDecrement _ => none
  | .groupRetire _ => none
  | .blockRetire _ => none
  | .gangRetire _ => none
  | .joinDecrement _ => none
  | .queuePop => none
  | .placementPass => none
  | .pendingEntryBlocks => none
  | .holdbackWindow => none
  | .trafficWindow => none
  | .slewWindow => none
  | .matrixBurstStart _ => none
  | .matrixBurstEnd _ => none
  | .tokenPass _ => none
  | .matrixWriteComplete _ => none
  | .mloopIteration _ _ => none
  | .copyEngineTransfer _ _ => none
  | .copySectorArrival _ _ => none
  | .chainRecord _ _ => none
  | .commandResume _ _ => none
  | .tileWaitTimeout _ _ => none
  | .seqTileWaitTimeout _ => none
  | .translationWalk _ _ _ => none
  | .arbitrationCycle _ _ => none
  | .packetArrival _ => none
  | .stopSignal _ _ _ => none
  | .goSignal _ _ _ => none
  | .rd _ _ => none
  | .rdh _ _ => none
  | .wt _ _ => none
  | .atomAtHome _ _ => none
  | .hzq _ _ => none
  | .tolerantLoadRequest _ _ => none
  | .drn _ _ => none
  | .hzd _ _ => none
  | .cpr _ _ => none
  | .cpw _ _ => none
  | .dataArrive _ _ => none
  | .ackArrive _ _ => none
  | .atr _ _ => none
  | .xgnt _ _ => none
  | .xret _ _ => none
  | .recall _ _ => none
  | .exclusiveLeaseEnd _ _ => none
  | .dreq _ _ => none
  | .ddone _ _ => none
  | .shreq _ _ => none
  | .shgnt _ _ => none
  | .splitShare _ _ => none
  | .spdone _ _ => none
  | .settle _ _ => none
  | .surr _ _ => none
  | .dopen _ _ => none
  | .dclose _ _ => none
  | .hazeIdleSurrender _ _ _ => none
  | .barArrival _ _ => none
  | .barRelease _ _ => none
  | .vrelesFlit _ _ _ _ _ => none
  | .nak _ _ => none
  | .portDown _ => none
  | .peerRequest _ => none
  | .hostMemoryRead _ _ => none
  | .hostMemoryWrite _ _ => none
  | .registerWrite _ _ _ => none
  | .wake _ _ _ _ => none
  | .mint _ _ _ => none
  | .qctl _ _ _ _ => none
  | .regionTable _ _ _ _ => none
  | .cgcfg _ => none
  | .pageans => none
  | .preempt => none
  | .preemptQuiesced _ => none
  | .preemptDeadline _ => none
  | .dbgrun => none
  | .dbgstep => none
  | .dbghalt => none
  | .freezeCmd => none
  | .unknownCommand _ => none
  | .freezePin => none
  | .packageReset => none
  | .hotReset => none
  | .powerOn _ _ _ _ _ => none
  | .attestationRequest _ _ => none
  | .storeChunk => none
  | .commitImage _ _ => none
  | .restart => none
  | .identify => none
  | .mailboxUnknown _ => none
  | .chipctlFence _ => none
  | .rejoin _ => none
  | .selfTestComplete _ _ => none
  | .livenessProbe _ => none
  | .probeTimeout _ => none
  | .backpressureTimeout _ => none
  | .fstepEnd _ => none
  | .rampEnd _ => none
  | .mheavySample _ => none
  | .budgetInterval _ => none
  | .telemetrySample _ _ => none
  | .earlyBite _ => none
  | .scrub _ _ => none
  | .linkCalibration _ => none
  | .limit _ => none
  | .heartbeat _ => none
  | .join _ => none
  | .leave _ => none
  | .emergency _ => none
  | .heartbeatDue => none
  | .applyInstant => none
  | .suspectTimeout => none
  | .expelTimeout => none
  | .expelled => none
  | .syncInterval => none
  | .sync _ _ _ _ => none
  | .followUp _ _ _ => none
  | .delayReq _ _ _ _ => none
  | .delayResp _ _ _ _ => none
  | .lockLoss => none
  | .gwctPassed _ => none
  | .pendingWriteLands _ => none
  | .operandReadsComplete _ => none
  | .probeAnswer _ => none
  | .portTrainsAgain _ => none

/-- The 8-bit code of a test-port instruction (R367). -/
def encodeTap : Instr → Option Nat
  | .bypass => some 255
  | .idcode => some 1
  | .frzsel => some 32
  | .frzread => some 33
  | _ => none

end Sys2Proof
end

