-- ==== Sys2Proof/Word.lean ====
section
/-!
DEFINITION. The word types of the FA16 and the sparse maps its state is held in.
-/
namespace Sys2Proof

/-- A byte of memory (R5). -/
abbrev Byte := BitVec 8
/-- A 32-bit register value or word (R61, R64). -/
abbrev W32 := BitVec 32
/-- A 64-bit value: a program counter, an address, a pair (R25, R63). -/
abbrev W64 := BitVec 64
/-- A 128-byte line (R18), little-endian. -/
abbrev LineData := BitVec 1024

/-- Sparse data by number: pairs of key and value, keys strictly rising. -/
abbrev SMap (β : Type) := List (Nat × β)

end Sys2Proof
end

