-- ==== Sys2Proof/Config.lean ====
section
/-!
DEFINITION. What an implementation fixes, and the values the spec leaves open.

Every `opaque` constant is a free value: nothing in Lean can evaluate it, so a theorem holds
whatever it is.  The constants with a body are figures of the spec.
-/
namespace Sys2Proof.Config

/-- Which of several events that may come next comes next: the argument is the step counter and the
number of candidates; the answer is reduced modulo that number (notes/assumptions/3). -/
opaque freePick : Nat → Nat → Nat

/-- A byte the spec leaves open, numbered by the step counter and a position
(notes/assumptions/4). -/
opaque freeByte : Nat → Nat → Byte

/-- The line of the first-level cache that is evicted among `n` (R114, notes/assumptions/4). -/
opaque freeVictim : Nat → Nat → Nat

/-- The order in which the lanes of one haze add perform, which the spec leaves open (R282, notes/assumptions/4). -/
opaque freeOrder : Nat → Nat

/-- The keyed hash of a capability's first 160 bits under the device-internal key (R416). -/
opaque capSeal : BitVec 160 → BitVec 64

/-- A byte of the identity data that IDENTIFY and attestation return (R466, R471). -/
opaque identityByte : Nat → Byte

/-- What a package outside the part answers at an address of space 4 (R124, R374): the byte at an
address, numbered by the step counter. -/
opaque outsideByte : Nat → Nat → Byte

/-- The step that Yeham has computed in advance for an early bite (R439). -/
opaque earlyBiteStep : Nat → Nat

/-- Whether the offsets of the last exchanges, in units of 2^-9 ns, bring LOCKED to 1 (R443, notes/assumptions/4). -/
opaque locks : List Int → Bool

/-- Whether Yeham finds that a COMMIT written to the recovery mailbox verifies, and whether the flash takes it
(R471): numbered by the step counter. -/
opaque imageVerifies : Nat → Bool × Bool

/-- The flits that a send queue of a unit holds before it is full, less one (R492). -/
opaque sendQueue : Nat → Nat

/-- The AUX field of a packet of a type as its header carries it, from the values that it stands for (R393). -/
opaque auxField : Nat → List Nat → Nat

/-- What FRZSEL shifts into the selector: numbered by the step counter (R367). -/
opaque scanIn : Nat → Nat

/-- What a thermal sensor of an isle reads at a telemetry sample: numbered by the step counter and the isle (R464). -/
opaque thermal : Nat → Nat → Nat

/-- The chiplets (16 to 31) and isles (0 to 15) whose storage has met a corrected error since the last telemetry sample
(R462): numbered by the step counter. -/
opaque correctedErrors : Nat → List Nat

/-- What Yeham attests (R466): the digests of its image, its configuration and the fused key, and the ordering number; and
the signature of a report by its fields, numbered by the step counter. -/
opaque imageDigest : Nat
opaque configDigest : Nat
opaque keyDigest : Nat
opaque orderingNumber : Nat
opaque attestSignature : Nat → List Nat → Nat

/-- The value of CGCFG with which Yeham's configuration makes the package join a ceiling group at bring-up, if it names one
(R467). -/
opaque bootGroup : Option Nat

/-- Whether a core answers the liveness probe of a step (R454, notes/assumptions/4). -/
opaque answers : Nat → Nat → Bool

/-- The corrected-error count past which Yeham raises source 72 (R469). -/
opaque errorThreshold : Nat

/-- The isle, unit and array that FRZREAD's selector names, and the number of bits and the SECDED check bits of a word of a
width (R367, R462). -/
opaque frozenArray : Nat → Nat × Nat × Nat
opaque checkWidth : Nat → Nat
opaque checkBits : Nat → Nat → Nat

/-- The base clocks, reduced modulo 17, between the assertion of the debug freeze and its effect (R367). -/
opaque freezeDelay : Nat → Nat

/-- Base clocks per nanosecond: the base runs at 2 GHz (R15). -/
def baseClocksPerNs : Nat := 2

/-- Base frequency in units of 25 MHz (R15). -/
def baseUnits : Nat := 80

/-- Cluster frequency of step `s` in units of 25 MHz: 400 MHz + 25 MHz s (R432). -/
def stepUnits (s : Nat) : Nat := 16 + s

/-- The bytes of a local-store bank (R105). -/
def bankBytes : Nat := 98304

/-- Lines of the first-level cache per cache-role bank (R108, R113). -/
def linesPerBank : Nat := 768

/-- The length of an exclusive lease in ns (R144). -/
def exclusiveNs : Nat := 2000

/-- The identification register of the test port (R367). -/
def idcode : Nat := 0x0FA16C5B

/-- The lines of 128 bytes that a slice of 512 KiB holds (R17). -/
def sliceLines : Nat := 4096

/-- The tile-wait watchdog in clocks (R292). -/
def watchdogClocks : Nat := 16777216

/-- The pre-emption deadline in ns (R358). -/
def preemptNs : Nat := 50000

/-- When a pending-list entry blocks, in ns (R420). -/
def pendingBlockNs : Nat := 100000

end Sys2Proof.Config
end

