-- ==== Sys2Proof/Machine/State.lean ====
section
/-!
DEFINITION. The state of the FA16 as plain data, its faults and refusals, and its reset.

Registers and arrays that are mostly at their reset value are sparse maps (`SMap`); the accessor
that reads one names the value an absent key stands for.  Groups, blocks and gangs are flat lists
that grow with placement; `live` says whether an entry still exists.
-/
namespace Sys2Proof.Machine

/-! ## Issue -/

/-- Who issues the instruction that `exec` runs: nobody, a group (R27, R28) or the tile sequencer of
a block (R295). -/
inductive Issuer where
  | idle
  | group
  | stream
deriving DecidableEq, Repr

/-- The issue context (notes/assumptions/3): the issuer, its active lanes (R193), the fibre set, the
clause header, the word index and length of the instruction, the clause's words, the port, the lanes of
the other port (R350), the lanes occupied and whether another PC was held when the slot began
(R42, R223), and whether the instruction has trapped. -/
structure Issue where
  kind : Issuer
  grp : Nat
  blk : Nat
  port : Nat
  lanes : W32
  set : W32
  hdr : W64
  idx : Nat
  len : Nat
  nwords : Nat
  other : W32
  occ : W32
  diverged : Bool
  trapped : Bool
deriving DecidableEq, Repr

/-- No instruction is being issued. -/
def Issue.none : Issue := ⟨.idle, 0, 0, 0, 0, 0, 0, 0, 0, 0, 0, 0, false, false⟩

/-! ## Fibres and groups -/

/-- A clause as fetched: its header's address, the header word and the words after it (R162). -/
structure Clause where
  addr : W64
  head : Nat
  words : List Nat
deriving DecidableEq, Repr

/-- Why a translation fails (R351, R380): the INFO code. -/
inductive XFault where
  | notPresent
  | permission
  | nonCanonical
  | poisoned
  | unsupported
  | unrouted
deriving DecidableEq, Repr

/-- What a fibre waits for because of an instruction it executed (R26); a block barrier with the phase for which the
fibre has arrived, once it has, or a repeated `bar.arv` until its arrival is made (R285). -/
inductive Wait where
  | none
  | mask (m : Nat)
  | bar (k : Nat) (phase : Option Nat)
  | arv (k : Nat)
  | tx (side : Nat) (addr : Nat) (phase : Nat)
  | tile (k : Nat) (st : Nat)
  | page (reqid : Nat)
deriving DecidableEq, Repr

/-- A fibre (R25): `code = none` while its PC is at a clause header; `next` is the word index of its
next instruction; `bkptCode` a breakpoint that takes effect after the clause (R233), `bkptHeld` one whose clause a
trap has interrupted; `bad` the fault with which the fetch of its clause has ended. -/
structure Fibre where
  occ : Bool
  pc : W64
  pred : BitVec 16
  wb : Nat
  age : Nat
  wait : Wait
  yielding : Bool
  isleMark : Bool
  code : Option Clause
  next : Nat
  waited : Bool
  bkptCode : Option Nat
  bkptHeld : Option Nat
  bad : Option (XFault × W64)
  wdog : Nat
deriving DecidableEq, Repr

/-- A vacant lane slot. -/
def Fibre.vacant : Fibre :=
  ⟨false, 0, 0, 0, 0, .none, false, false, none, 0, false, none, none, none, 0⟩

/-- Where a register write lands: an entry of a lane column, a scalar, a predicate bit, or the
low half of the tile table's answer (R176). -/
inductive Dst where
  | v (lane entry : Nat)
  | s (k : Nat)
  | p (lane k : Nat)
deriving DecidableEq, Repr

/-- A fixed-latency result on its way: the clock from which it is read, its issue order (port A
before port B), its value (R176), and whether it holds a conversion's part beside bits of the register as they were
(R265). -/
structure Pend where
  due : Nat
  port : Nat
  dst : Dst
  val : W32
  part : Bool
deriving DecidableEq, Repr

/-- What of a group pre-emption captures and restores (R359): fibres, masks, arrival sets, counters,
accumulator window, trap mode and trap record. -/
structure Control where
  fibs : List Fibre
  masks : SMap W32
  marr : SMap W32
  barArr : SMap W32
  gbarArr : SMap W32
  sb : SMap Nat
  awb : Nat
  awl : Nat
  trapMode : Bool
  tvec : W64
  tcause : W32
  tlanes : W32
  tolanes : W32
  tpc : W64
  tidx : Nat
  taddr : W64
  memErr : List (Nat × W64)
deriving DecidableEq, Repr

/-- Handler mode of a group (R359, R363). -/
inductive Handler where
  | none
  | preempt
  | resume
deriving DecidableEq, Repr

/-- A system instruction that has issued and not yet completed (R344 to R346): its issue context, and the
walks (`tlbinv`, with the page or all pages), drains (`ctxwb`) or cores and regions (`hzreclaim`) it waits for. -/
inductive SysWait where
  | tlbinv (c : Issue) (va : Option Nat) (walks : List Nat)
  | ctxwb (c : Issue) (drains : List Nat)
  | hzreclaim (c : Issue) (owed : List (Nat × Nat))
deriving DecidableEq, Repr

/-- A group (R48, R61 to R68): its place, its control state, its registers, the writes on their way,
its issue timing (R30, R40, R175) and its debug and pre-emption state. `stopNext` stops it with its next clock
(R348); `skipBp` names the lanes that an address breakpoint has halted at the header they stand at (R364). -/
structure Group where
  live : Bool
  blk : Nat
  num : Nat
  core : Nat
  sched : Nat
  pos : Nat
  n : Nat
  ctl : Control
  regs : SMap W32
  sregs : SMap W32
  pend : List Pend
  gage : Nat
  slotAt : Option Nat
  readyAt : Nat
  prstat : W32
  handler : Handler
  pdone : Option Nat
  stopped : Bool
  stopNext : Bool
  saved : Option Control
  hwsave : Bool
  halted : Bool
  haltReq : Bool
  stepping : Bool
  skipBp : W32
  walkHold : Bool
  sysWait : Option SysWait
  retired : Bool
deriving DecidableEq, Repr

/-! ## Blocks and gangs -/

/-- A tile-table entry (R70) with its hidden read count and waiting transition (R117): `goal` is the
state it takes when no read is pending. -/
structure Tile where
  state : Nat
  alloc : Bool
  bank : Nat
  off : Nat
  rows : Nat
  rowb : Nat
  fslot : Nat
  txb : Nat
  start : Nat
  reads : Nat
  goal : Option Nat
  copy : Bool
deriving DecidableEq, Repr

/-- The reset value of a tile-table entry (R70). -/
def Tile.empty : Tile := ⟨0, false, 0, 0, 0, 0, 0, 0, 0, 0, none, false⟩

/-- A block barrier (R75), the sequencer's phase count P_k and the phases of its held arrivals (R318), and the groups
that have arrived for the phase (R285). -/
structure BlockBar where
  expect : Nat
  arrived : Nat
  phase : Nat
  pk : Nat
  early : List Nat
  owners : List Nat
deriving DecidableEq, Repr

/-- The tile sequencer of a block (R295): whether it has a stream, its next word, the clause it is
in, whether it waits (R296), and the watchdog of R297. -/
structure Seq where
  active : Bool
  done : Bool
  off : Nat
  code : Option Clause
  next : Nat
  waitBar : Option Nat
  waiting : Bool
  wdog : Nat
  readyAt : Nat
  stopped : Bool
deriving DecidableEq, Repr

/-- A block (R48, R105, R106): `banks` and `accBase` hold one entry per core of the block, lower core
first. `gbarDone` lists the gang barriers at which the block has arrived for the phase, `gbarIn` the groups that have
arrived at each (R287). -/
structure Block where
  live : Bool
  gang : Nat
  num : Nat
  core : Nat
  pair : Bool
  groups : List Nat
  brole : W64
  banks : List (List Nat)
  accBase : List Nat
  accRows : Nat
  nTiles : Nat
  tiles : SMap Tile
  bars : List BlockBar
  allocOpen : Bool
  seq : Seq
  retired : Bool
  releasing : Bool
  gbarDone : List Nat
  gbarIn : SMap (List Nat)
deriving DecidableEq, Repr

/-- A continuation record (R412). -/
structure Record where
  code : W64
  frame : W64
  join : W64
  desc : W64
  image : W64
  resume : Bool
  restart : Bool
deriving DecidableEq, Repr

/-- A fault report (R356). -/
structure Report where
  kind : Nat
  code : Nat
  ctx : Nat
  core : Nat
  gang : Nat
  block : Nat
  group : Nat
  reqid : Nat
  iaddr : W64
  vaddr : W64
  iter : Nat
  aux : W64
deriving DecidableEq, Repr

/-- Pre-emption of a gang (R358): not asked for, quiescing with its deadline, in the handlers, or
saved. -/
inductive PreState where
  | none
  | quiesce (deadline : Nat)
  | handlers (deadline : Nat)
  | saving
  | resuming
deriving DecidableEq, Repr

/-! ## Memory operations in flight -/

/-- What a memory operation does at its coherence point (R125, R269); a `bar` with the phase whose completion ends it,
once its lanes have arrived; a `gbar` with whether its arrival counts for the phase after the one in progress (R287). -/
inductive OpKind where
  | load (width : Nat) (signed : Bool)
  | store (width : Nat)
  | lload (width : Nat) (signed : Bool)
  | lstore
  | atomic (op esz : Nat) (wide vec ret : Bool)
  | hzadd
  | ldt (eps : Nat)
  | settle
  | pref
  | wback (all : Bool)
  | fence
  | bar (k : Nat) (phase : Option Nat)
  | gbar (g : Nat) (next : Bool)
  | engine
deriving DecidableEq, Repr

/-- How far a part of an operation has come. -/
inductive PartSt where
  | todo
  | sent
  | done
deriving DecidableEq, Repr

/-- One lane's access (R126): its address, its home location, the space, and its data. -/
structure Part where
  lane : Nat
  va : W64
  pa : Nat
  loc : Nat
  isle : Nat
  slice : Nat
  space : Nat
  width : Nat
  data : Nat
  data2 : Nat
  st : PartSt
  poison : Bool
deriving DecidableEq, Repr

/-- The stage of an operation: waiting for its release action, running, acquiring, finished, or
waiting for a phase (R129 to R137, R285). -/
inductive OpStage where
  | held
  | releasing
  | running
  | acquiring
  | phase
  | finished
deriving DecidableEq, Repr

/-- A variable-latency operation of a group (R67, R179): its lanes' fibres, its counter, its kind,
ordering, parts, and the registers its data goes to (`dst` lists destinations, `parts` the data); `port` is the one it
issued on (R176); `again` names the lanes whose arrival waits for the phase of an earlier one (R285). -/
structure Op where
  id : Nat
  grp : Nat
  core : Nat
  ctx : Nat
  lanes : W32
  sb : Nat
  kind : OpKind
  strong : Bool
  acq : Bool
  rel : Bool
  scope : Nat
  parts : List Part
  dsts : List (Nat × Nat × Dst)
  stage : OpStage
  drain : Option Nat
  notBefore : Nat
  failed : Bool
  addr : W64
  mark : Bool
  port : Nat
  again : W32
deriving DecidableEq, Repr

/-- A write-back on its way to home (R130): DRN, CPW or HZD, with the line, and the core and context whose release
waits for it and the drains or commands that asked for it. -/
structure Flight where
  core : Nat
  ctx : Nat
  loc : Nat
  waiters : List Nat
deriving DecidableEq, Repr

/-- Who waits for a drain (R123, R130, R134, R139, R141, R345, R430). -/
inductive DrainOwner where
  | op (id : Nat)
  | home (isle slice loc pa : Nat)
  | ctxwb (grp : Nat)
  | block (b : Nat)
  | bar (b k phase : Nat)
  | saved (k : Nat)
  | ended (k : Nat)
  | cmd (id : Nat)
  | chan (key : Nat)
  | head (key op : Nat)
  | dreq (isle slice loc pa : Nat)
deriving DecidableEq, Repr

/-- A drain of a context's lines on a core (R130): the write-backs it waits for and the largest GWCT
they returned. -/
structure Drain where
  core : Nat
  ctx : Nat
  pend : List Nat
  gmax : Nat
  owner : DrainOwner
deriving DecidableEq, Repr

/-- An engine-class instruction that has issued and whose access the memory pipeline still holds, behind a fence or acquire
of its fibres or an earlier access that it follows (R112, R119, R277, R287): its place in issue order, the instruction, its
issue context, and the group's control state and registers as it read them. -/
structure HeldEng where
  id : Nat
  instr : Instr
  issue : Issue
  ctl : Control
  regs : SMap W32
  sregs : SMap W32
deriving DecidableEq, Repr

/-! ## The core -/

/-- A line of a first-level cache (R113): its context tag, home location and physical address, lease
expiry, dirty mask, bytes, and exclusive-lease end (R144). `xdata` is the line as the exclusive lease has it in coherence
order: atomics act on it, while the core's own dirty bytes wait in `data` to be drained after it (R147). -/
structure L1Line where
  ctx : Nat
  loc : Nat
  pa : Nat
  isle : Nat
  slice : Nat
  valid : Bool
  lease : Nat
  dirty : BitVec 128
  data : LineData
  poison : Nat
  excl : Option Nat
  recalled : Bool
  xdata : LineData
deriving DecidableEq, Repr

/-- A delta line of a haze region (R149): eight sums with status, by element, and poison marks by sector; `opened` once the filter
and directory have answered (R407). -/
structure Delta where
  ctx : Nat
  region : Nat
  loc : Nat
  pa : Nat
  isle : Nat
  slice : Nat
  sums : SMap (BitVec 96)
  stat : SMap Nat
  opened : Bool
  poison : Nat
deriving DecidableEq, Repr

/-- A core's share of a region (R149, R404): units held, tracker T (an FP32 pattern), the time of the
last add, and whether a request is
outstanding; `answer` holds the messages (type and units) that follow once the write-backs `drains` are
acknowledged. -/
structure Share where
  ctx : Nat
  region : Nat
  units : Nat
  tracker : W32
  lastAdd : Nat
  asked : Bool
  drains : List Nat
  answer : List (Nat × Nat)
deriving DecidableEq, Repr

/-- An operation of the matrix array (R301 to R305), with the cells it has computed once its operand
reads are complete. -/
inductive MatKind where
  | mma (a b k c0 : Nat) (z ea eb pair scaled : Bool)
  | zero
  | accOut (tile c0 rnd : Nat)
  | accIn (tile c0 rnd : Nat) (add : Bool)
  | fill (tile : Nat) (val : W32)
  | hzRows (cmd : Nat)
deriving DecidableEq, Repr

/-- A queued array operation: its block, the side of a pair it acts on, its rows, the clocks it
occupies the array, its progress, the counter it decrements, the `mloop` it belongs to with the iteration vector (R322), and
the instruction and the group (none for a stream) it comes from. `fails` counts the attempts at the atom in progress that
have failed (R463); `behind` names the issuing lanes while the memory pipeline holds the operation behind their fences
(R277). -/
structure MatOp where
  id : Nat
  blk : Nat
  side : Nat
  kind : MatKind
  row : Nat
  rows : Nat
  clocks : Nat
  done : Nat
  read : Bool
  endAt : Option Nat
  cells : List (Nat × W32)
  owner : Option (Nat × Nat)
  cmd : Option Nat
  iaddr : W64
  grp : Option Nat
  iter : Nat
  fails : Nat
  behind : W32
deriving DecidableEq, Repr

/-- A translation-cache entry (R381): a leaf of a page of 2^`log` bytes. -/
structure TlbEnt where
  ctx : Nat
  log : Nat
  vpn : Nat
  pa : Nat
  place : Nat
  r : Bool
  w : Bool
  x : Bool
deriving DecidableEq, Repr

/-- An uncorrectable error in storage outside the slices and the memory (R393, R462, R463): in a register of a group, a
tile-table entry of a block's side, a word of a core's local store, an accumulator cell, a sector of a line in the cache
role, a flit of the packet with a tag (0 the header), or one attempt of the matrix array at an operand atom. Errors come from
outside the machine (notes/assumptions/59). -/
inductive ErrAt where
  | reg (grp : Nat) (d : Dst)
  | tile (blk side k : Nat)
  | word (core w : Nat)
  | cell (core c : Nat)
  | sector (core ctx loc i : Nat)
  | flit (tag i : Nat)
  | parity (core : Nat)
deriving DecidableEq, Repr

/-- A core (R12, R105 to R119, R311, R440). Banks and accumulator cells are sparse, absent keys
reading as zero. -/
structure Core where
  held : SMap Nat
  bytes : SMap Byte
  lines : List L1Line
  deltas : List Delta
  shares : List Share
  acc : SMap W32
  busy : SMap Nat
  cq : List Nat
  mq : List MatOp
  burst : Nat
  bursting : Bool
  token : Bool
  admitted : Bool
  tlb : List TlbEnt
  ptr : SMap Nat
  hung : Bool
  probe : Option Nat
  pressed : Option Nat
deriving DecidableEq, Repr

/-! ## Engines -/

/-- The kind of an engine command (R311, R366). -/
inductive CmdKind where
  | tcopy
  | tstore
  | tstoreHz
  | mloop
deriving DecidableEq, Repr

/-- The iteration counts and strides of a command's runs (R312, R306). -/
structure Run where
  base : W64
  n0 : Nat
  n : List Nat
  stride : List Int
deriving DecidableEq, Repr

/-- How far an engine command has come: its core drains for `.ir` (R141), it has not read yet, it reads
and writes, or it waits for the GWCT of its writes (R141). -/
inductive CmdStage where
  | draining
  | waiting
  | running
  | releasing
deriving DecidableEq, Repr

/-- An engine command (R311 to R315, R306, R322): its issuer, operands and progress. `sent` counts the
sectors or cells asked for or written, or the iterations; `asked` the sectors of a loop's slabs that its iteration has
asked for; `words` is the instruction and `desc` the descriptor's registers (R362); `pend` lists the transfers in flight by tag and
first sector; `got` the source sectors that have come and `buf` their bytes; `arrived` the tile sectors that
are complete; `fault` is the code and address it stopped with (R323); `stopped` is set by a halt; `behind` names the
issuing lanes while the memory pipeline holds the command behind their fences (R277). -/
structure Cmd where
  id : Nat
  kind : CmdKind
  core : Nat
  blk : Nat
  grp : Option Nat
  sb : Nat
  side : Nat
  tile : Nat
  tileB : Nat
  run : Run
  runB : Run
  pitch : List Nat
  acc : List (Int × Int)
  row : Nat
  rows : Nat
  c0 : Nat
  kk : Nat
  acq : Bool
  rel : Bool
  scope : Nat
  cv : Bool
  slot : Nat
  rnd : Nat
  iaddr : W64
  words : Nat
  desc : List Nat
  stage : CmdStage
  sent : Nat
  asked : Nat
  pend : List (Nat × Nat)
  got : List Nat
  buf : SMap Byte
  arrived : List Nat
  gmax : Nat
  stopped : Bool
  fault : Option (Nat × W64)
  behind : W32
deriving DecidableEq, Repr

/-- A head in a channel's FIFO (R316): the context and the address of its record. -/
structure Head where
  ctx : Nat
  va : W64
deriving DecidableEq, Repr

/-- A chain channel of an isle (R316, R317): its FIFO of heads, the heads whose drain of `.ir` is not over or that then
found the FIFO full, with the operation whose counter their acceptance decrements and whether the drain is over (R141),
the sectors of the current record whose writes have left (`pos`) and whose reads have left (`rd`), the largest GWCT of its writes, whether the copy waits for that time (R141), whether the
record is to be given back, the address of a recoverable fault it has stopped with, and the code, address and iteration
vector of a fault that its record is still to be told of. -/
structure Chan where
  heads : List Head
  coming : List (Nat × Bool × Head)
  pos : Nat
  rd : Nat
  gmax : Nat
  releasing : Bool
  released : Bool
  fault : Option W64
  stop : Option (Nat × W64 × List Nat)
deriving DecidableEq, Repr

/-! ## Gangs -/

/-- What of a block pre-emption captures (R358, R359): its barriers, tile table, roles, allocation phase and sequencer,
its stopped commands, and the operations whose decrement stays owed. -/
structure Capture where
  block : Block
  cmds : List Cmd
  owed : List Op
deriving DecidableEq, Repr

/-- A gang (R51, R54, R76): its context, GANG number, record, descriptor bits, ring entry and queue,
blocks, barrier unit, and pre-emption state. `gph` holds, per gang barrier, the phase count and the
blocks arrived (R425); `captured` what pre-emption has captured of its blocks (R359); `original` is the record as it was before any resumption (R430); `ending` says that the release of
its termination has begun (R354). -/
structure Gang where
  live : Bool
  ctx : Nat
  gno : Nat
  record : Record
  original : Record
  desc : Nat
  task : W64
  queue : Nat
  pri : Nat
  blocks : List Nat
  unit : Nat
  nslots : Nat
  gph : SMap Nat
  gar : SMap (List Nat)
  pre : PreState
  img : W64
  imgLen : Nat
  captured : List Capture
  terminated : Bool
  ending : Bool
  lost : Bool
  why : Option Report
deriving DecidableEq, Repr

/-! ## Checkpoint images -/

/-- What a checkpoint image holds of a block (R359, R362): its barriers, tile table, roles, allocation phase
and sequencer; its groups; the saved bytes of its banks and cells of its rows, by side; its engine commands;
and the operations whose decrement is owed, with the group's number in the block in place of its index. -/
structure BlockImage where
  block : Block
  groups : List Group
  bytes : List (SMap Byte)
  cells : List (SMap W32)
  cmds : List Cmd
  owed : List Op
deriving DecidableEq, Repr

/-- A checkpoint image (R362): where it was written, the gang's number, its original record, its barrier phases and its
blocks. It is the model's own record of what the image's bytes stand for (notes/assumptions/20). -/
structure Image where
  addr : Nat
  gno : Nat
  original : Record
  gph : SMap Nat
  gar : SMap (List Nat)
  blocks : List BlockImage
deriving DecidableEq, Repr

/-! ## Translation -/

/-- Who of the base asks for lines by packets of its own (R394): a walk, a channel, a queue whose head is read, the join
decrement of a gang, the host port, a Vreles port, the clause fetch of a group or a sequencer, a record that is being
popped, the report that is being written, and a record that is being written into a queue's ring. -/
inductive Agent where
  | walk (id : Nat)
  | chan (key : Nat)
  | queue (n : Nat)
  | join (n : Nat)
  | host
  | peer (port : Nat)
  | clause (g : Nat)
  | stream (b : Nat)
  | pop (id : Nat)
  | report
  | ring (n : Nat)
deriving DecidableEq, Repr

/-- What an agent has asked for: its requests on their way by tag and key, the lines that have come by key, with their
poison marks, and the largest GWCT of its writes. -/
structure Ticket where
  agent : Agent
  pend : List (Nat × Nat)
  lines : List (Nat × LineData × Nat)
  gmax : Nat
deriving DecidableEq, Repr

/-- Who waits for a walk (R383): the access of a group's lane, a command, a channel, a sequencer or an agent. -/
inductive Waiter where
  | group (g lane : Nat)
  | cmd (id : Nat)
  | chan (key : Nat)
  | stream (b : Nat)
  | agent (a : Agent)
deriving DecidableEq, Repr

/-- A walk for a context's page on an isle: the levels it has passed and the table it has come to (R375, R384), who waits
for it and for which 64 KiB of the page, and its failure once it has ended without a leaf. -/
structure Walk where
  id : Nat
  isle : Nat
  ctx : Nat
  vpn : Nat
  startAt : Nat
  level : Nat
  table : Nat
  waiters : List (Waiter × Nat)
  failed : Option XFault
deriving DecidableEq, Repr

/-- An outstanding page request (R355): the fibres it holds (none for a sequencer, whose block the group names), the
header, word and port they wait at, whether it has been refused, whether its report has been written, and that
report. -/
structure PageReq where
  ctx : Nat
  id : Nat
  grp : Nat
  lanes : W32
  hdr : W64
  idx : Nat
  port : Nat
  refused : Bool
  reported : Bool
  rep : Report
deriving DecidableEq, Repr

/-- A context (R341, R379, R76). -/
structure Ctx where
  chk : Bool
  demand : Bool
  dbgatt : Bool
  dbgstop : Bool
  tlbi : Bool
  dbgr : Bool
  lease : Nat
  frlog : Nat
  frbase : Nat
  frtail : Nat
  frhead : Nat
  frdrop : Nat
  bp0en : Bool
  bp0 : Nat
  bp1en : Bool
  bp1 : Nat
  root : Nat
  part : Nat
  placed : Nat
  nextReq : Nat
deriving DecidableEq, Repr

/-- The reset value of a context's registers (R341, R379). -/
def Ctx.reset : Ctx :=
  ⟨false, false, false, false, false, false, 15, 0, 0, 0, 0, 0, false, 0, false, 0, 0, 0, 0, 0⟩

/-! ## The mesh -/

/-- A packet (R393) with its home location (model's own), its eligibility clock and its AGE (R392).
The fields of AUX stand in `aux` by position. -/
structure Packet where
  typ : Nat
  vc : Nat
  dlen : Nat
  sisle : Nat
  disle : Nat
  sunit : Nat
  dunit : Nat
  ctx : Nat
  tag : Nat
  pa : Nat
  loc : Nat
  time : Nat
  bmask : BitVec 128
  aux : List Nat
  data : LineData
  poison : Nat
  elig : Nat
  age : Nat
deriving DecidableEq, Repr

/-- A packet on a link: the base clock it arrives in, the isle, and the router input (`0` to `4`) or
the unit it is delivered to (R389). -/
structure Flying where
  at_ : Nat
  isle : Nat
  input : Option Nat
  pkt : Packet
deriving DecidableEq, Repr

/-- The mesh (R388 to R392, R492): router inputs, links, unit inputs and send queues, and the output
ports' credits, pointers and next free slots. `stops` holds, by buffer, the clocks from and to which a STOP
is in force at the sender, 0 standing for no end yet (R391). -/
structure Mesh where
  inputs : SMap (List Packet)
  links : List Flying
  units : SMap (List Packet)
  sendq : SMap (List Packet)
  credit : SMap Nat
  rr : SMap Nat
  slot : SMap Nat
  stops : SMap (List (Nat × Nat))
  util : SMap Nat
  utilLast : SMap Nat
  lreqLocal : SMap Nat
  lreqRemote : SMap Nat
  engLocal : SMap Nat
  engRemote : SMap Nat
deriving DecidableEq, Repr

/-! ## Homes -/

/-- The state a slice keeps for a line (R398, R400, R402): LEXP, RREC, XHOLD, the requests that wait,
the acquires that wait for a drain, whether
a record has been placed since the drain was asked for, the poison marks, and while the slice holds the line its isle, slice and physical address. -/
structure HomeLine where
  lexp : Nat
  rrec : Option (Nat × Nat)
  xhold : Option (Nat × Nat)
  recalled : Bool
  waited : Bool
  waiting : List Packet
  draining : Bool
  renewed : Bool
  acquires : List Packet
  poison : Nat
  site : Option (Nat × Nat × Nat)
deriving DecidableEq, Repr

/-- A line with no state. -/
def HomeLine.none : HomeLine := ⟨0, .none, .none, false, false, [], false, false, [], 0, .none⟩

/-- A contention-predictor entry (R402). -/
structure Predictor where
  cnt : Nat
  lcore : Nat
  ltime : Nat
deriving DecidableEq, Repr

/-- An entry of the region table (R403) with the region home's working state (R404, R406):
outstanding shares by core and context, the SPLIT in progress, requests that wait, and the tolerant
loads and settles being served. -/
structure Region where
  v : Bool
  log2sz : Nat
  w : Nat
  hisle : Nat
  hslice : Nat
  bound : W32
  base : Nat
  unalloc : Nat
  lost : W32
  shares : List (Nat × Nat × Nat)
  splitting : Option Nat
  asks : List Packet
  settling : List (Nat × Nat)
  loads : List (Nat × Packet)
deriving DecidableEq, Repr

/-- The reset value of a region-table entry (R403). -/
def Region.reset : Region := ⟨false, 0, 0, 0, 0, 0, 0, 0, 0, [], .none, [], [], []⟩

/-! ## Dispatch -/

/-- A queue control register QCTLn (R415). -/
structure Queue where
  en : Bool
  pri : Nat
  owner : Nat
  len : Nat
  base : Nat
  nonce : Nat
  head : Nat
  tail : Nat
  drops : Nat
deriving DecidableEq, Repr

/-- The reset value of QCTLn (R415). -/
def Queue.reset : Queue := ⟨false, 0, 0, 0, 0, 0, 0, 0, 0⟩

/-- An entry of the pending list (R420). -/
structure Pending where
  queue : Nat
  task : W64
  record : Record
  desc : Nat
  ctx : Nat
  pri : Nat
  since : Nat
  blocks : Bool
deriving DecidableEq, Repr

/-- Where a push stands (R427, R428): held while its ring is full, to be written, or its write on its way to home. -/
inductive PushAt where
  | held
  | due
  | sent
deriving DecidableEq, Repr

/-- A push (R427, R428): the queue and the record's bytes; a returned record goes to the front of the ring (R429). -/
structure HeldPush where
  queue : Nat
  bytes : List Nat
  front : Bool
  at_ : PushAt
deriving DecidableEq, Repr

/-- A record that has been popped and is being read (R414, R418): its queue, the address of its ring entry, and the owner
and the priority sampled at the pop. -/
structure Popping where
  id : Nat
  queue : Nat
  pa : Nat
  ctx : Nat
  pri : Nat
deriving DecidableEq, Repr

/-- A join decrement that has been sent (R55). -/
structure Join where
  gang : Nat
  va : W64
  ctx : Nat
deriving DecidableEq, Repr

/-- The global scheduler (R415 to R430): `popping` lists the records that have been popped and not read yet, in pop
order, and `held` the pushes that are not written yet. -/
structure Dispatch where
  queues : SMap Queue
  wake : SMap Nat
  mint : Nat
  hc : SMap Nat
  rr : SMap Nat
  popping : List Popping
  pending : List Pending
  passDue : Bool
  held : List HeldPush
  joins : List Join
  hot : SMap Nat
  mload : SMap Nat
  lastRemote : SMap Nat
  hbthr : Nat
  slewa : Nat
  slewptr : Nat
  slewAt : Option Nat
  slewGang : Option Nat
  slots : SMap Nat
deriving DecidableEq, Repr

/-! ## Clocks and power -/

/-- The ramp logic's state (R436). -/
inductive RampSt where
  | steady
  | fstep
  | ramp
deriving DecidableEq, Repr

/-- A cluster (R16, R433 to R436, R442): its clock, the registers of CLKCTL, the ramp logic with the step in force `cur` and
the one that its clock still runs at until its next boundary (`run`), the busy
samples of the last four intervals of 1,000 ns (busy clocks and clocks), and the byte count. -/
structure Cluster where
  clock : Nat
  phase : Nat
  req : Nat
  cur : Nat
  run : Nat
  ratio : Nat
  st : RampSt
  commitRatio : Nat
  commitStep : Nat
  pendStep : Option Nat
  endAt : Nat
  mheavy : Bool
  samples : List (Nat × Nat)
  busyNow : Nat
  clocksNow : Nat
  budget : Nat
  sentBytes : Nat
  waiting : List Packet
deriving DecidableEq, Repr

/-- A chiplet (R21, R441, R459). -/
structure Chip where
  tokens : Nat
  ring : List Nat
  state : Nat
  cause : Nat
  discard : Nat
  ftime : Nat
  inMap : Bool
deriving DecidableEq, Repr

/-- An exchange of the time agents whose DELAY_REQ is outstanding (R445): its sequence number, t1, t2, t3 once the message
has passed its port, and the correction of its SYNC. -/
structure Exchange where
  id : Nat
  t1 : Nat
  t2 : Nat
  t3 : Option Nat
  cs : Int
deriving DecidableEq, Repr

/-- The time agents (R443 to R445): TSYNC, the SYNC received last (its sequence number, t2 and correction), the exchanges
that wait for their DELAY_RESP, and the last offsets in units of 2^-9 ns. -/
structure Sync where
  master : Bool
  upport : Nat
  locked : Bool
  everLocked : Bool
  syncint : Nat
  tskew : Nat
  seqid : Nat
  t2 : Option (Nat × Nat × Int)
  exchanges : List Exchange
  offsets : List Int
  misses : Nat
  done : Bool
deriving DecidableEq, Repr

/-- A ceiling message that waits for its apply instant, with its KIND (R447, R448). -/
structure Waiting where
  at_ : Nat
  kind : Nat
  msg : CeilMsg
deriving DecidableEq, Repr

/-- A member-table entry (R446): `h` is the latest announce time; `gone` says that the member has left or been
expelled and must join again (R452), and `expelAt` is when C without it takes effect (R449). -/
structure Member where
  l : Nat
  present : Bool
  suspect : Bool
  h : Nat
  gone : Bool
  expelAt : Option Nat
deriving DecidableEq, Repr

/-- The absent member. -/
def Member.absent : Member := ⟨0, false, false, 0, false, none⟩

/-- The ceiling-group agent and the package limit (R437 to R439, R446 to R452); `powers` holds the samples of the last
millisecond (R439). -/
structure Ceil where
  en : Bool
  self : Nat
  nmem : Nat
  mcast : Nat
  hbint : Nat
  c : Nat
  expelled : Bool
  ebite : Nat
  late : Nat
  expels : Nat
  seq : Nat
  lastSent : Nat
  members : SMap Member
  waiting : List Waiting
  joinAt : Option Nat
  plim : Nat
  swcap : Nat
  pwr : Nat
  powers : List Nat
  mhfrac : Nat
  limit : Nat
deriving DecidableEq, Repr

/-! ## Ports and management -/

/-- A Vreles port (R397, R472): whether it is up or retraining until a time; as a sender the next sequence number,
the replay buffer with its newest messages that have not left yet (`unsent`), the flits of its first message that are
acknowledged (`acked`), the messages that wait for room in it (`queue`), and the NAKs in a row for one number; as
a receiver the number it expects, the flits of that message it has taken (`got`), whether it refuses flits after an error and
the NAKs in a row it has returned, and the messages that wait by channel; and the end of a calibration (R464). -/
structure VPort where
  up : Bool
  retraining : Option Nat
  nextSeq : Nat
  replay : List (Nat × Nat × PeerMsg)
  unsent : Nat
  acked : Nat
  queue : List (Nat × PeerMsg)
  expect : Nat
  got : Nat
  refusing : Bool
  rxNaks : Nat
  nakSeq : Nat
  naks : Nat
  bufs : SMap (List PeerMsg)
  calUntil : Nat
deriving DecidableEq, Repr

/-- A port before training. -/
def VPort.reset : VPort := ⟨false, none, 0, [], 0, 0, [], 0, 0, false, 0, 0, 0, [], 0⟩

/-- The supervisor command port (R368): its operand fields, and those that a running command was started with. -/
structure SvCmd where
  ctx : Nat
  arg : Nat
  gang : Nat
  act : Bool
  img : Nat
  imgLen : Nat
  busy : Bool
  cmd : Nat
  result : Nat
  ranCtx : Nat
  ranArg : Nat
  ranGang : Nat
deriving DecidableEq, Repr

/-- What the part sends outside (model's own, notes/assumptions/2): posted writes and reads to the
host, MSI-X messages, messages of the Vreles ports, a message but for its first flits (R397), event-log entries,
attestation reports with their digests, ordering number, nonce and signature, and test-port output. -/
inductive Out where
  | hostWrite (addr : Nat) (bytes : List Nat)
  | hostRead (addr len : Nat)
  | readData (bytes : List Nat)
  | unsupported
  | msix (vec : Nat)
  | peer (port : Nat) (m : PeerMsg)
  | peerRest (port skip : Nat) (m : PeerMsg)
  | nak (port seq : Nat)
  | flitAck (port seq : Nat)
  | attest (image config key order nonce signature : Nat)
  | refusedRequest
  | tap (bits value : Nat)
deriving DecidableEq, Repr

/-- A host request that the host port holds (R143): a read or a write through BAR2, or a register write or read through
BAR0. -/
inductive HostReq where
  | read (off len : Nat)
  | write (off : Nat) (bytes : List Nat)
  | reg (off len val : Nat)
  | regRead (off len : Nat)
deriving DecidableEq, Repr

/-- What the outside decides of a bring-up (R465, R467): whether the Yeham image verifies, every base passes its self-test
and the host port trains, and the chiplets that pass theirs and the Vreles ports that train. -/
structure Boot where
  yehamOk : Bool
  baseOk : Bool
  hostOk : Bool
  chips : Nat
  ports : Nat
deriving DecidableEq, Repr

/-- The management controller, host port, recovery mailbox and test port (R365 to R367, R465 to
R471). `outWait` holds the requests that peer packages have still to answer, by tag (R374), `reportQ` the reports that are
still to be written, in order (R356). `boot` is a bring-up that goes on (R467). `corrected` counts corrected errors by isle
(0 to 15) and by chiplet (16 to 31); `errorCounts` and `thermal` are what telemetry sampled last (R462, R464). `msixOn` and
`msixMask` are the function's MSI-X enable and mask (R469). -/
structure Mgmt where
  phase : Nat
  boot : Option Boot
  fail : Bool
  recovery : Bool
  flash : SMap Byte
  staging : SMap Byte
  mbState : Nat
  mbErr : Nat
  mbOff : Nat
  mbLen : Nat
  mbData : SMap Byte
  tapIr : Nat
  tapSel : Nat
  freezeAt : Option Nat
  frozen : Bool
  events : Nat
  corrected : SMap Nat
  errorCounts : SMap Nat
  thermal : List Nat
  intVec : SMap Nat
  intEn : SMap Nat
  intPend : SMap Nat
  msixTable : SMap Nat
  msixOn : Bool
  msixMask : Bool
  hwin : Nat
  dirsz : Nat
  parts : SMap Nat
  peerSelf : Nat
  pen : Bool
  pwin : Nat
  proute : SMap Nat
  sv : SvCmd
  hostQ : List HostReq
  outWait : SMap Packet
  reportQ : List Report
deriving DecidableEq, Repr

/-! ## The machine -/

/-- The state of the machine. `txDue` names, by block, side and index, the transaction barriers that were updated in
this clock of their core and are still to be tested (R73); `errs` lists the uncorrectable errors that storage holds
(R462). -/
structure State where
  agenda : List Instr
  cur : Issue
  tick : Nat
  bclk : Nat
  ptime : Nat
  slew : Int
  slewAcc : Nat
  timers : SMap Nat
  mem : List Host.Cell
  homes : SMap HomeLine
  hzn : SMap Nat
  predictors : SMap Predictor
  regions : SMap Region
  filters : SMap (List Nat)
  directory : SMap (List Nat)
  cores : SMap Core
  clusters : SMap Cluster
  chips : SMap Chip
  ctxs : SMap Ctx
  itlb : SMap (List TlbEnt)
  walks : List Walk
  pageReqs : List PageReq
  tickets : List Ticket
  mesh : Mesh
  groups : List Group
  blocks : List Block
  gangs : List Gang
  images : List Image
  ops : List Op
  heldEng : List HeldEng
  nextId : Nat
  flights : SMap Flight
  drains : SMap Drain
  txDue : List (Nat × Nat × Nat)
  errs : List ErrAt
  cmds : List Cmd
  chans : SMap Chan
  disp : Dispatch
  sync : Sync
  ceil : Ceil
  ports : SMap VPort
  mgmt : Mgmt
  out : List Out
deriving DecidableEq, Repr

/-- Why the machine stops. -/
inductive Fault where
  /-- Raised by `step` when the debug freeze has stopped every clock and no package reset is to come
  (R367). Safe: the part does nothing further. -/
  | clocksStopped
deriving DecidableEq, Repr

/-- Why an instruction has no meaning. -/
inductive Refusal where
  /-- Raised by an arm of `exec` whose instruction has no meaning yet. Safe: nothing is claimed. -/
  | notModelled (mnemonic : String)
  /-- Raised by the meaning of an instruction word when nobody issues it: `exec` was called outside
  an issue slot. Safe: `step` never does so. -/
  | noIssuer
deriving DecidableEq, Repr

/-! ## Reset -/

/-- A core at reset: every bank in the cache role and empty, accumulators zero (R77, R460). -/
def Core.reset : Core :=
  ⟨[], [], [], [], [], [], [], [], [], 0, false, false, true, [], [], false, none, none⟩

/-- A cluster at reset: REQ 54 and the step in force 54 in ratio H (R433, notes/assumptions/8). -/
def Cluster.reset : Cluster :=
  ⟨0, 0, 54, 54, 54, 2, .steady, 2, 54, none, 0, false, [], 0, 0, 0, 0, []⟩

/-- A chiplet before bring-up: sixteen tokens, one on each core, out of the map until phase 3
(R441, R459, R467). -/
def Chip.reset : Chip := ⟨16, [], 0, 0, 0, 0, false⟩

/-- A channel with nothing to walk. -/
def Chan.idle : Chan := ⟨[], [], 0, 0, 0, false, false, none, none⟩

/-- The machine right after base power-on: bring-up phase 0, package time 0 (R467). -/
def State.reset : State where
  agenda := []
  cur := Issue.none
  tick := 0
  bclk := 0
  ptime := 0
  slew := 0
  slewAcc := 0
  timers := []
  mem := []
  homes := []
  hzn := []
  predictors := []
  regions := []
  filters := []
  directory := []
  cores := []
  clusters := []
  chips := []
  ctxs := []
  itlb := []
  walks := []
  pageReqs := []
  tickets := []
  mesh := ⟨[], [], [], [], [], [], [], [], [], [], [], [], [], []⟩
  groups := []
  blocks := []
  gangs := []
  images := []
  ops := []
  heldEng := []
  nextId := 0
  flights := []
  drains := []
  txDue := []
  errs := []
  cmds := []
  chans := []
  disp := ⟨[], [], 0, [], [], [], [], false, [], [], [], [], [], 240000, 32, 0, none, none, []⟩
  sync := ⟨true, 0, false, false, 7, 0xFFFF, 0, none, [], [], 0, false⟩
  ceil := ⟨false, 0, 0, 0, 100, 68, false, 0, 0, 0, 0, 0, [], [], none, 68, 68, 0, [], 64, 68⟩
  ports := []
  mgmt := ⟨0, none, false, false, [], [], 0, 0, 0, 0, [], 1, 0, none, false, 0, [], [], [], [], [], [], [], true, false, 0,
    16, [], 0, false, 0, [], ⟨0, 0, 0, false, 0, 0, false, 0, 0, 0, 0, 0⟩, [], [], []⟩
  out := []

end Sys2Proof.Machine
end

