-- ==== Sys2Proof/Machine/Store.lean ====
section
/-!
DEFINITION. Sparse maps, lane sets, and memory as bytes: the one place where byte order is decided
(R5).
-/
namespace Sys2Proof.Machine

/-! ## Sparse maps -/

/-- The value at a key, `d` where the map lists none. -/
def look {β : Type} (d : β) : SMap β → Nat → β
  | [], _ => d
  | (a, b) :: t, k => if a = k then b else look d t k

/-- The map with a value at a key, keys kept in ascending order. -/
def place {β : Type} : SMap β → Nat → β → SMap β
  | [], k, v => [(k, v)]
  | (a, b) :: t, k, v =>
    if k < a then (k, v) :: (a, b) :: t
    else if a = k then (k, v) :: t
    else (a, b) :: place t k v

/-- The map without a key. -/
def drop {β : Type} (m : SMap β) (k : Nat) : SMap β := m.filter (fun e => e.1 != k)

/-- The map with a value at a key, listing nothing for the value `d` an absent key stands for. -/
def put {β : Type} [DecidableEq β] (d : β) (m : SMap β) (k : Nat) (v : β) : SMap β :=
  if v = d then drop m k else place (drop m k) k v

/-- Insertion into a list that a relation orders, after the elements it does not precede. -/
def insertBy {α : Type} (lt : α → α → Bool) (x : α) : List α → List α
  | [] => [x]
  | y :: t => if lt x y then x :: y :: t else y :: insertBy lt x t

/-- A list ordered by a relation; equal elements keep their order. -/
def sortBy {α : Type} (lt : α → α → Bool) (l : List α) : List α :=
  l.foldl (fun acc x => insertBy lt x acc) []

/-! ## Lane sets (R44) -/

/-- The lanes of a set in ascending order. -/
def lanesOf (b : W32) : List Nat := (List.range 32).filter (fun i => b.getLsbD i)

/-- The set that holds one lane. -/
def laneBit (i : Nat) : W32 := (1 : W32) <<< i

/-- The lanes below 32 that satisfy a condition. -/
def laneSet (p : Nat → Bool) : W32 :=
  (List.range 32).foldl (fun acc i => if p i then acc ||| laneBit i else acc) 0

/-! ## Memory -/

/-- The canonical form of memory: addresses strictly rising and no entry equal to what an unlisted
address reads as (notes/assumptions/10). -/
def Memory.wf : List Host.Cell → Bool
  | [] => true
  | (_, v) :: [] => v != 0
  | (a, v) :: (b, w) :: t => v != 0 && decide (a < b) && Memory.wf ((b, w) :: t)

/-- The byte at a location; an unlisted byte reads as 0 (notes/assumptions/10). -/
def Memory.read (m : List Host.Cell) (a : Nat) : Byte := look 0 m a

/-- Writing one byte. -/
def Memory.write (m : List Host.Cell) (a : Nat) (v : Byte) : List Host.Cell := put 0 m a v

/-- The number held little-endian in `n` bytes of a byte map (R5). -/
def readBytes (m : SMap Byte) (a : Nat) : Nat → Nat
  | 0 => 0
  | n + 1 => (look 0 m a).toNat + 256 * readBytes m (a + 1) n

/-- The low `n` bytes of a number, written little-endian (R5). -/
def writeBytes (m : SMap Byte) (a : Nat) : Nat → Nat → SMap Byte
  | 0, _ => m
  | n + 1, v => writeBytes (put 0 m a (BitVec.ofNat 8 v)) (a + 1) n (v / 256)

/-- A 128-byte line at a location (R18). -/
def readLine (m : SMap Byte) (loc : Nat) : LineData := BitVec.ofNat 1024 (readBytes m loc 128)

/-- The masked bytes of a line, written at a location. -/
def writeLine (m : SMap Byte) (loc : Nat) (mask : BitVec 128) (d : LineData) : SMap Byte :=
  (List.range 128).foldl
    (fun acc i => if mask.getLsbD i then put 0 acc (loc + i) (BitVec.ofNat 8 (d.toNat >>> (8 * i))) else acc) m

/-- The `n` bytes of a line at an offset, as a number. -/
def lineGet (d : LineData) (off n : Nat) : Nat := (d.toNat >>> (8 * off)) % 2 ^ (8 * n)

/-- A line with `n` bytes replaced at an offset. -/
def lineSet (d : LineData) (off n v : Nat) : LineData :=
  let m : LineData := BitVec.ofNat 1024 ((2 ^ (8 * n) - 1) <<< (8 * off))
  (d &&& ~~~m) ||| (BitVec.ofNat 1024 ((v % 2 ^ (8 * n)) <<< (8 * off)) &&& m)

/-- The mask of `n` bytes at an offset of a line. -/
def lineMask (off n : Nat) : BitVec 128 := BitVec.ofNat 128 ((2 ^ n - 1) <<< off)

/-- A line with the masked bytes taken from another. -/
def lineMerge (mask : BitVec 128) (new old : LineData) : LineData :=
  (List.range 128).foldl
    (fun acc i => if mask.getLsbD i then lineSet acc i 1 (lineGet new i 1) else acc) old

/-- The first `n` numbers of a list of bytes as one little-endian number. -/
def leNum : List Nat → Nat
  | [] => 0
  | b :: t => b % 256 + 256 * leNum t

/-- The `n` little-endian bytes of a number. -/
def leBytes : Nat → Nat → List Nat
  | 0, _ => []
  | n + 1, v => (v % 256) :: leBytes n (v / 256)

/-- A field of a word: `n` values from bit `lo`. -/
def bits (w lo wd : Nat) : Nat := w / 2 ^ lo % 2 ^ wd

/-- A word with a field replaced. -/
def setBits (w lo wd v : Nat) : Nat :=
  w - bits w lo wd * 2 ^ lo + (v % 2 ^ wd) * 2 ^ lo

/-- A two's-complement field read as a signed number. -/
def signedOf (wd v : Nat) : Int := if v < 2 ^ (wd - 1) then (v : Int) else (v : Int) - 2 ^ wd

end Sys2Proof.Machine
end

