-- ==== Sys2Proof/Machine/Places.lean ====
section
/-!
DEFINITION. Where things stand: accessors of groups, blocks, gangs, cores, contexts and clusters, and
the fixed numbering of the part (R10 to R12).
-/
namespace Sys2Proof.Machine

/-- The isle and chiplet of a core (R12). -/
def isleOf (core : Nat) : Nat := core / 16

/-- The cluster of a core (R12). -/
def clusterOf (core : Nat) : Nat := core / 4

/-- The unit code of a core on its isle (R393). -/
def unitOfCore (core : Nat) : Nat := 160 + core % 16

/-- Control state at launch (R77), without fibres. -/
def Control.empty : Control :=
  ⟨[], [], [], [], [], [], 0, 0, false, 0, 0, 0, 0, 0, 0, 0, []⟩

/-- A group that does not exist. -/
def Group.empty : Group :=
  ⟨false, 0, 0, 0, 0, 0, 0, Control.empty, [], [], [], 0, none, 0, 0, .none, none, false, false, none, false,
    false, false, false, 0, false, none, true⟩

/-- A sequencer without a stream. -/
def Seq.absent : Seq := ⟨false, true, 0, none, 0, none, false, 0, 0, false⟩

/-- A block that does not exist. -/
def Block.empty : Block :=
  ⟨false, 0, 0, 0, false, [], 0, [], [], 0, 0, [], [], false, Seq.absent, true, false, [], []⟩

/-- A record of zeros. -/
def Record.zero : Record := ⟨0, 0, 0, 0, 0, false, false⟩

/-- A gang that does not exist. -/
def Gang.empty : Gang :=
  ⟨false, 0, 0, Record.zero, Record.zero, 0, 0, 0, 0, [], 0, 0, [], [], .none, 0, 0, [], false, false, false, none⟩

/-- Group `g`. -/
def State.grp (s : State) (g : Nat) : Group := s.groups.getD g Group.empty

/-- The state with a change made to group `g`. -/
def State.updGrp (s : State) (g : Nat) (f : Group → Group) : State :=
  { s with groups := s.groups.modify g f }

/-- Block `b`. -/
def State.blk (s : State) (b : Nat) : Block := s.blocks.getD b Block.empty

/-- The state with a change made to block `b`. -/
def State.updBlk (s : State) (b : Nat) (f : Block → Block) : State :=
  { s with blocks := s.blocks.modify b f }

/-- Gang `k`. -/
def State.gang (s : State) (k : Nat) : Gang := s.gangs.getD k Gang.empty

/-- The state with a change made to gang `k`. -/
def State.updGang (s : State) (k : Nat) (f : Gang → Gang) : State :=
  { s with gangs := s.gangs.modify k f }

/-- Core `c`. -/
def State.core (s : State) (c : Nat) : Core := look Core.reset s.cores c

/-- The state with a change made to core `c`. -/
def State.updCore (s : State) (c : Nat) (f : Core → Core) : State :=
  { s with cores := place s.cores c (f (s.core c)) }

/-- Context `c`'s registers. -/
def State.ctx (s : State) (c : Nat) : Ctx := look Ctx.reset s.ctxs c

/-- The state with a change made to context `c`. -/
def State.updCtx (s : State) (c : Nat) (f : Ctx → Ctx) : State :=
  { s with ctxs := place s.ctxs c (f (s.ctx c)) }

/-- Cluster `n`. -/
def State.cluster (s : State) (n : Nat) : Cluster := look Cluster.reset s.clusters n

/-- The state with a change made to cluster `n`. -/
def State.updCluster (s : State) (n : Nat) (f : Cluster → Cluster) : State :=
  { s with clusters := place s.clusters n (f (s.cluster n)) }

/-- Chiplet `m`. -/
def State.chip (s : State) (m : Nat) : Chip := look Chip.reset s.chips m

/-- The state with a change made to chiplet `m`. -/
def State.updChip (s : State) (m : Nat) (f : Chip → Chip) : State :=
  { s with chips := place s.chips m (f (s.chip m)) }

/-- Vreles port `p`. -/
def State.port (s : State) (p : Nat) : VPort := look VPort.reset s.ports p

/-- The state with a change made to port `p`. -/
def State.updPort (s : State) (p : Nat) (f : VPort → VPort) : State :=
  { s with ports := place s.ports p (f (s.port p)) }

/-- The state with a change made to the management controller. -/
def State.updMgmt (s : State) (f : Mgmt → Mgmt) : State := { s with mgmt := f s.mgmt }

/-- The state with a change made to the mesh. -/
def State.updMesh (s : State) (f : Mesh → Mesh) : State := { s with mesh := f s.mesh }

/-- The state with a change made to the scheduler. -/
def State.updDisp (s : State) (f : Dispatch → Dispatch) : State := { s with disp := f s.disp }

/-- An operation in flight. -/
def State.op? (s : State) (id : Nat) : Option Op := s.ops.find? (fun o => o.id == id)

/-- The state with a change made to an operation. -/
def State.updOp (s : State) (id : Nat) (f : Op → Op) : State :=
  { s with ops := s.ops.map (fun o => if o.id = id then f o else o) }

/-- An engine command. -/
def State.cmd? (s : State) (id : Nat) : Option Cmd := s.cmds.find? (fun o => o.id == id)

/-- The state with a change made to an engine command. -/
def State.updCmd (s : State) (id : Nat) (f : Cmd → Cmd) : State :=
  { s with cmds := s.cmds.map (fun o => if o.id = id then f o else o) }

/-- The clock of a group's cluster (R16). -/
def State.clockOf (s : State) (g : Nat) : Nat := (s.cluster (clusterOf (s.grp g).core)).clock

/-- The gang index of a group. -/
def State.gangOf (s : State) (g : Nat) : Nat := (s.blk (s.grp g).blk).gang

/-- The context of a group. -/
def State.ctxOf (s : State) (g : Nat) : Nat := (s.gang (s.gangOf g)).ctx

/-- A fibre of a group. -/
def Group.fib (g : Group) (lane : Nat) : Fibre := g.ctl.fibs.getD lane Fibre.vacant

/-- A group with a change made to its control state. -/
def Group.updCtl (g : Group) (f : Control → Control) : Group := { g with ctl := f g.ctl }

/-- A group with a change made to one fibre. -/
def Group.updFib (g : Group) (lane : Nat) (f : Fibre → Fibre) : Group :=
  g.updCtl fun c => { c with fibs := c.fibs.modify lane f }

/-- A group with a change made to the fibres of a lane set. -/
def Group.updFibs (g : Group) (lanes : W32) (f : Nat → Fibre → Fibre) : Group :=
  g.updCtl fun c =>
    { c with fibs := c.fibs.mapIdx (fun i x => if lanes.getLsbD i then f i x else x) }

/-- The occupied lanes of a group (R45). -/
def Group.occupied (g : Group) : W32 := laneSet fun i => (g.fib i).occ

/-- A lane mask (R44). -/
def Group.mask (g : Group) (m : Nat) : W32 := look 0 g.ctl.masks m

/-- A mask's arrival set (R44). -/
def Group.marr (g : Group) (m : Nat) : W32 := look 0 g.ctl.marr m

/-- A block barrier's arrival set (R285). -/
def Group.barArr (g : Group) (k : Nat) : W32 := look 0 g.ctl.barArr k

/-- A gang barrier's arrival set (R287). -/
def Group.gbarArr (g : Group) (k : Nat) : W32 := look 0 g.ctl.gbarArr k

/-- A scoreboard counter, `k` from 1 for sb0 (R67, R174). -/
def Group.counter (g : Group) (k : Nat) : Nat := look 0 g.ctl.sb k

/-- A group with a counter increased by one; code 0 names none (R67, R174). -/
def Group.incCounter (g : Group) (k : Nat) : Group :=
  if k = 0 then g else g.updCtl fun c => { c with sb := put 0 c.sb k (look 0 c.sb k + 1) }

/-- A group with a counter decreased by one; code 0 names none (R67). -/
def Group.decCounter (g : Group) (k : Nat) : Group :=
  if k = 0 then g else g.updCtl fun c => { c with sb := put 0 c.sb k (look 0 c.sb k - 1) }

/-- The side of a block on which a group or core stands: 1 on the upper core of a pair (R49). -/
def Block.side (b : Block) (core : Nat) : Nat := if b.pair && core != b.core then 1 else 0

/-- The core of a side of a block (R49). -/
def Block.coreAt (b : Block) (side : Nat) : Nat := b.core + (if b.pair then side else 0)

/-- The first accumulator row of a block on a side (R118). -/
def Block.accFirst (b : Block) (side : Nat) : Nat := b.accBase.getD side 0

/-- The banks a block holds on a side, ascending (R105). -/
def Block.banksAt (b : Block) (side : Nat) : List Nat := b.banks.getD side []

/-- The cores of a block. -/
def Block.cores (b : Block) : List Nat := if b.pair then [b.core, b.core + 1] else [b.core]

/-- A tile-table entry of a block on a side (R70, R421). -/
def Block.tile (b : Block) (side k : Nat) : Tile := look Tile.empty b.tiles (side * 64 + k)

/-- A block with a tile-table entry changed. -/
def Block.updTile (b : Block) (side k : Nat) (f : Tile → Tile) : Block :=
  { b with tiles := place b.tiles (side * 64 + k) (f (b.tile side k)) }

/-- A block barrier that does not exist. -/
def BlockBar.none : BlockBar := ⟨1, 0, 0, 0, [], []⟩

/-- A block barrier (R75). -/
def Block.bar (b : Block) (k : Nat) : BlockBar := b.bars.getD k BlockBar.none

/-- A block with a barrier changed. -/
def Block.updBar (b : Block) (k : Nat) (f : BlockBar → BlockBar) : Block :=
  { b with bars := b.bars.modify k f }

/-- The role of the `i`-th held bank of a side: the roles of BROLE are those of the lower core's banks
and the upper core's follow in order (R49, R106, notes/assumptions/12). -/
def Block.roleOf (b : Block) (i : Nat) : Nat :=
  bits b.brole.toNat (2 * (b.banksAt 0).getD i 0) 2

/-- The held banks of a side with a role, ascending (R109, R115). -/
def Block.banksWith (b : Block) (side role : Nat) : List Nat :=
  (List.range (b.banksAt side).length).filterMap
    (fun i => if b.roleOf i = role then (b.banksAt side)[i]? else none)

/-- The scratchpad banks sp[0], sp[1], … of a side (R109). -/
def Block.spBanks (b : Block) (side : Nat) : List Nat := b.banksWith side 1

/-- The operand-buffer banks ob[0], ob[1], … of a side (R115). -/
def Block.obBanks (b : Block) (side : Nat) : List Nat := b.banksWith side 2

/-- The gang's launch descriptor field (R413). -/
def Gang.field (k : Gang) (lo wd : Nat) : Nat := bits k.desc lo wd

/-- A format slot of the gang (R92, R413). -/
def Gang.fslot (k : Gang) (i : Nat) : Nat := bits k.desc (64 * i) 64

/-- The base clock's next identifier. -/
def State.fresh (s : State) : Nat := s.nextId

/-- The state after an identifier has been taken. -/
def State.took (s : State) : State := { s with nextId := s.nextId + 1 }

/-- The number of cache-role banks of a core: every bank no block holds and every held bank with role
0b00 (R108). -/
def State.cacheBanks (s : State) (c : Nat) : Nat :=
  ((List.range 32).filter fun bank =>
    match look 0 (s.core c).held bank with
    | 0 => true
    | b + 1 =>
      let blk := s.blk b
      let i := (blk.banksAt (blk.side c)).idxOf bank
      blk.roleOf i == 0).length

/-- Whether a context has a resident gang (R341). -/
def State.resident (s : State) (c : Nat) : Bool := s.gangs.any fun k => k.live && k.ctx == c

/-- Whether a core runs a gang of a context (R346). -/
def State.runsOn (s : State) (core ctx : Nat) : Bool :=
  s.blocks.any fun b => b.live && (s.gang b.gang).ctx == ctx && b.cores.contains core

end Sys2Proof.Machine
end

