-- ==== Sys2Proof/Machine/Homes.lean ====
section
/-!
DEFINITION. Physical addresses, homes and slices (R369 to R373), and accesses to memory at home.

A DRAM location is the key of memory: the part of the part it lies in (direct, interleaved, far), the
isle and the offset, so that no two locations share a key.
-/
namespace Sys2Proof.Machine

/-- The space code PA[55:52] (R369). -/
def spaceOf (pa : Nat) : Nat := pa / 2 ^ 52 % 16

/-- One gibibyte. -/
def gib : Nat := 1073741824

/-- The six-nibble exclusive or of R371. -/
def foldPa (pa : Nat) : Nat :=
  (bits pa 12 4) ^^^ (bits pa 16 4) ^^^ (bits pa 20 4) ^^^ (bits pa 24 4) ^^^ (bits pa 28 4) ^^^ (bits pa 32 4)

/-- The slice of an address within its home isle (R371). -/
def slicePa (pa : Nat) : Nat := 32 * (bits pa 17 31 % 5) + ((bits pa 7 5) ^^^ (bits pa 12 5))

/-- A DRAM location: 0 direct, 1 interleaved, 2 far. -/
def locKey (kind isle off : Nat) : Nat := kind * 2 ^ 56 + isle * 2 ^ 48 + off

/-- A home: isle, slice and DRAM location. -/
structure Home where
  isle : Nat
  slice : Nat
  loc : Nat
deriving DecidableEq, Repr

/-- The home of an address under a placement field and a partition's isles (R371); `none` where the
address names no memory or breaks a condition of R371. -/
def homeOf (dirsz : Nat) (isles : List Nat) (place pa : Nat) : Option Home :=
  let sp := spaceOf pa
  let off := pa % 2 ^ 48
  let sl := slicePa pa
  if 2 ^ 56 ≤ pa then none
  else if place = 0 then
    if sp = 1 ∧ bits pa 48 4 = 0 ∧ off < 16 * (48 - dirsz) * gib then
      some ⟨foldPa pa, sl, locKey 1 (foldPa pa) (off / 65536 * 4096 + off % 4096)⟩
    else none
  else if place = 1 then
    if sp = 0 ∧ off < dirsz * gib then some ⟨bits pa 48 4, sl, locKey 0 (bits pa 48 4) off⟩ else none
  else if place = 2 then
    let p := isles.length
    if sp = 0 ∧ bits pa 48 4 = 0 ∧ (p = 1 ∨ p = 2 ∨ p = 4 ∨ p = 8 ∨ p = 16) ∧ off < p * dirsz * gib then
      let h := foldPa pa
      let i := isles.getD (h % p) 0
      some ⟨i, sl, locKey 0 i ((off / 65536 * (16 / p) + h / p) * 4096 + off % 4096)⟩
    else none
  else
    if sp = 2 ∧ bits pa 41 11 = 0 then some ⟨foldPa pa, sl, locKey 2 0 (pa % 2 ^ 41)⟩ else none

/-- The isles of a partition in ascending order (R385). -/
def State.partIsles (s : State) (n : Nat) : List Nat :=
  (List.range 16).filter fun i =>
    (look (if n = 0 then 0xFFFF else 0) s.mgmt.parts n).testBit i

/-- The home of an address reached without a leaf (R372). -/
def State.physHome (s : State) (pa : Nat) : Option Home :=
  let sp := spaceOf pa
  homeOf s.mgmt.dirsz [] (if sp = 0 then 1 else if sp = 1 then 0 else if sp = 2 then 3 else 4) pa

/-- Whether an address names memory (R369): a home, or a device register, or space 4. -/
def State.namesMemory (s : State) (pa : Nat) : Bool :=
  if spaceOf pa = 3 then bits pa 26 26 == 0 && decide (pa < 2 ^ 56)
  else if spaceOf pa = 4 then decide (pa < 2 ^ 56)
  else (s.physHome pa).isSome

/-- The entry of the horizon table for a line that requests name by a physical address (R398): of the 256 entries of
its slice the one of PA[14:7]. -/
def horizonOf (isle slice pa : Nat) : Nat := (isle * 160 + slice) * 256 + bits pa 7 8

/-- The state a slice keeps for a line; a line brought into the slice starts at its horizon (R398). -/
def State.homeLine (s : State) (isle slice loc pa : Nat) : HomeLine :=
  let h := look HomeLine.none s.homes (loc / 128)
  if h.site.isSome then h
  else { h with lexp := look 0 s.hzn (horizonOf isle slice pa), site := some (isle, slice, pa / 128 * 128) }

/-- The state with a line's home state changed. -/
def State.updHome (s : State) (isle slice loc pa : Nat) (f : HomeLine → HomeLine) : State :=
  { s with homes := place s.homes (loc / 128) (f (s.homeLine isle slice loc pa)) }

/-- The poison marks of a line: one per 32 bytes (R398). -/
def State.poisonAt (s : State) (loc : Nat) : Nat := (look HomeLine.none s.homes (loc / 128)).poison

/-- The sectors of a line of which every byte is in a mask (R462). -/
def fullSectors (mask : BitVec 128) : Nat :=
  (List.range 4).foldl
    (fun acc i => if (mask.extractLsb' (32 * i) 32) == BitVec.allOnes 32 then acc + 2 ^ i else acc) 0

/-- The masked bytes of a line written at home: a store that replaces all 32 bytes of a sector clears
its poison mark, and a poisoned source marks the sectors it writes (R267, R462). -/
def State.writeHome (s : State) (loc : Nat) (mask : BitVec 128) (d : LineData) (poison : Nat) : State :=
  let line := loc / 128 * 128
  let mem := writeLine s.mem line mask d
  let old := s.poisonAt loc
  let new := (List.range 4).foldl
    (fun acc i =>
      let touched := (mask.extractLsb' (32 * i) 32) != 0
      let p := (old.testBit i && !(fullSectors mask).testBit i) || (touched && poison.testBit i)
      if p then acc + 2 ^ i else acc) 0
  let s := { s with mem := mem }
  if new = old then s
  else { s with homes := place s.homes (loc / 128) { look HomeLine.none s.homes (loc / 128) with poison := new } }

/-- The line at a location, as it stands at home. -/
def State.lineAt (s : State) (loc : Nat) : LineData := readLine s.mem (loc / 128 * 128)

/-- Every packet on its way: in routers, on links, at units and in send queues. -/
def State.packets (s : State) : List Packet :=
  s.mesh.inputs.flatMap (·.2) ++ s.mesh.links.map (·.pkt) ++ s.mesh.units.flatMap (·.2) ++
  s.mesh.sendq.flatMap (·.2)

/-- Whether a core holds the line of a location exclusively (R144). -/
def State.lineHeld (s : State) (loc : Nat) : Bool := (look HomeLine.none s.homes (loc / 128)).xhold.isSome

/-- Whether a core holds a line of a range of physical addresses exclusively. -/
def State.heldWithin (s : State) (pa n : Nat) : Bool :=
  s.homes.any fun e => e.2.xhold.isSome && match e.2.site with
    | some (_, _, a) => decide (a < pa + n) && decide (pa < a + 128)
    | none => false

/-- The `n` bytes at a physical address reached without a leaf, as they stand at home; bytes that name no memory read as
zero. -/
def State.readPhys (s : State) (pa : Nat) : Nat → Nat
  | 0 => 0
  | n + 1 =>
    (match s.physHome pa with
      | some h => (look 0 s.mem h.loc).toNat
      | none => 0) + 256 * State.readPhys s (pa + 1) n

/-- The poison mark of the 32 bytes at a physical address cleared (R462). -/
def State.clearMark (s : State) (pa : Nat) : State :=
  match s.physHome pa with
  | some h =>
    let x := look HomeLine.none s.homes (h.loc / 128)
    if x.poison.testBit (h.loc % 128 / 32) then
      { s with homes := place s.homes (h.loc / 128) { x with poison := x.poison - 2 ^ (h.loc % 128 / 32) } }
    else s
  | none => s

/-- Little-endian bytes written at a physical address reached without a leaf; `left` of them lie in 32 bytes that are
written whole, whose poison mark is cleared with the last (R462). -/
def State.writeFrom (s : State) (pa left : Nat) : List Nat → State
  | [] => s
  | b :: t =>
    let left := if pa % 32 = 0 then (if 31 ≤ t.length then 32 else 0) else left
    let s := match s.physHome pa with
      | some h => { s with mem := Memory.write s.mem h.loc (BitVec.ofNat 8 b) }
      | none => s
    let s := if left = 1 then s.clearMark pa else s
    State.writeFrom s (pa + 1) (left - 1) t

/-- Little-endian bytes written at a physical address reached without a leaf. -/
def State.writePhys (s : State) (pa : Nat) (l : List Nat) : State := s.writeFrom pa 0 l

end Sys2Proof.Machine
end

