-- ==== Sys2Proof/Machine/Mesh.lean ====
section
/-!
DEFINITION. Packets and how units send them (R388 to R394, R410, R442, R492).
-/
namespace Sys2Proof.Machine

/-- Channel codes (R390). -/
def vcR : Nat := 0
def vcL : Nat := 1
def vcB : Nat := 2
def vcC : Nat := 3

/-- Unit codes (R393). -/
def unitWalker : Nat := 184
def unitBarrier : Nat := 185
def unitSched : Nat := 186
def unitMgmt : Nat := 187
def unitHost : Nat := 188
def unitVreles : Nat := 189
def unitFilter : Nat := 191

/-- A packet with its payload fields zero. -/
def Packet.basic (typ vc dlen sisle sunit disle dunit ctx tag : Nat) : Packet :=
  ⟨typ, vc, dlen, sisle, disle, sunit, dunit, ctx, tag, 0, 0, 0, 0, [], 0, 0, 0, 0⟩

/-- Flits of a packet (R393). -/
def Packet.flits (p : Packet) : Nat := 1 + p.dlen

/-- The data flits that carry the bytes of a mask: one where they lie in one half of the line (R393, R394). -/
def carried (mask : BitVec 128) : Nat :=
  if mask.extractLsb' 64 64 = 0 ∨ mask.extractLsb' 0 64 = 0 then 1 else 2

/-- The header flit of a packet (R393). -/
def Packet.header (p : Packet) : Nat :=
  p.vc % 4 + p.dlen % 4 * 2 ^ 2 + p.typ % 256 * 2 ^ 4 + p.sisle % 16 * 2 ^ 12 + p.disle % 16 * 2 ^ 16 +
  p.sunit % 512 * 2 ^ 20 + p.dunit % 512 * 2 ^ 29 + p.ctx % 64 * 2 ^ 38 + p.tag % 4096 * 2 ^ 44 + p.pa % 2 ^ 56 * 2 ^ 56 +
  p.time % 2 ^ 64 * 2 ^ 112 + p.bmask.toNat * 2 ^ 176 + Config.auxField p.typ p.aux % 2 ^ 64 * 2 ^ 304

/-- The key of a router input's buffer: inputs E, W, S, N, local are 0 to 4 (R391, R392). -/
def inKey (isle input vc : Nat) : Nat := (isle * 5 + input) * 4 + vc

/-- The key of a unit's input buffer or send queue (R492). -/
def unitKey (isle unit vc : Nat) : Nat := (isle * 512 + unit) * 4 + vc

/-- The key under which a unit's buffer is marked stopped. -/
def unitStopKey (isle unit vc : Nat) : Nat := 1000 + unitKey isle unit vc

/-- The flits in a list of packets. -/
def flitsOf (l : List Packet) : Nat := l.foldl (fun n p => n + p.flits) 0

/-- Whether a unit is a core of a chiplet whose vertical ports are closed (R455). -/
def State.closedUnit (s : State) (isle unit : Nat) : Bool :=
  decide (160 ≤ unit) && decide (unit < 176) && (s.chip isle).state != 0

/-- A response discarded at closed ports, counted in DISCARD (R455, R459). -/
def State.countDiscard (s : State) (isle n : Nat) : State :=
  s.updChip isle fun c => { c with discard := min (2 ^ 32 - 1) (c.discard + n) }

/-- Arrival order: the base clock, then SUNIT, then SISLE (R395). -/
def Packet.before (p q : Packet) : Bool :=
  decide (p.elig < q.elig) || (p.elig == q.elig &&
    (decide (p.sunit < q.sunit) || (p.sunit == q.sunit && decide (p.sisle < q.sisle))))

/-- A packet handed to a unit's input buffer, in arrival order. What is for a core behind closed ports is discarded, a response being
counted; a drain request stays, for the base answers it (R400, R455). -/
def State.toUnit (s : State) (isle unit : Nat) (p : Packet) (at_ : Nat) : State :=
  if s.closedUnit isle unit && p.typ != 0x20 then (if p.vc = 0 then s.countDiscard isle 1 else s)
  else
    let k := unitKey isle unit p.vc
    s.updMesh fun m => { m with units := place m.units k (insertBy Packet.before { p with elig := at_ } (look [] m.units k)) }

/-- Whether a STOP for a buffer is in force at its sender (R391). -/
def State.stopped (s : State) (k : Nat) : Bool :=
  (look [] s.mesh.stops k).any fun e => decide (e.1 ≤ s.bclk) && (e.2 == 0 || decide (s.bclk < e.2))

/-- A core whose packet waits at its vertical port: the port is under pressure since now, unless it was already
(R454). -/
def State.pressPort (s : State) (p : Packet) : State :=
  if 160 ≤ p.sunit ∧ p.sunit < 176 then
    s.updCore (p.sisle * 16 + (p.sunit - 160)) fun c => { c with pressed := some (c.pressed.getD s.ptime) }
  else s

/-- Whether flits find room in a router input's buffer of 128 flits (R391). -/
def State.inputTakes (s : State) (k flits : Nat) : Bool := decide (flitsOf (look [] s.mesh.inputs k) + flits ≤ 128)

/-- Whether a unit's send queue for a channel is full, so that the unit starts no work that would add to it (R492). -/
def State.sendFull (s : State) (isle unit vc : Nat) : Bool :=
  match look [] s.mesh.sendq (unitKey isle unit vc) with
  | [] => false
  | l => decide (Config.sendQueue unit < flitsOf l)

/-- A packet put into a router's local input, eligible two base clocks later (R389), or held in the
unit's send queue while the input signals STOP or has no room (R492). -/
def State.inject (s : State) (p : Packet) : State :=
  let k := inKey p.sisle 4 p.vc
  let q := unitKey p.sisle p.sunit p.vc
  if s.stopped k || !(look [] s.mesh.sendq q).isEmpty || !s.inputTakes k p.flits then
    (s.updMesh fun m => { m with sendq := place m.sendq q (look [] m.sendq q ++ [p]) }).pressPort p
  else
    s.updMesh fun m =>
      { m with inputs := place m.inputs k (look [] m.inputs k ++ [{ p with elig := s.bclk + 2, age := 0 }]) }

/-- Whether the one data flit of a packet carries the upper half of the line (R393, R394): of a write the half of its
mask, of a walk's data the half that the walk asked for, of a copy engine's data the half of the sectors it asked for. -/
def Packet.upperHalf (p : Packet) : Bool :=
  if p.typ = 0x10 then (if p.dunit = unitWalker then p.aux.getD 5 0 == 1 else decide (64 ≤ p.aux.getD 1 0))
  else p.bmask.extractLsb' 0 64 == 0

/-- The sectors that the `i`-th flit of a packet carries: all of them for the header and for the one flit of an atomic
or of an add, else a half of the line's (R393). -/
def Packet.flitMarks (p : Packet) (i : Nat) : Nat :=
  if i = 0 then 15
  else if p.dlen = 2 then (if i = 1 then 3 else 12)
  else if p.typ ∈ [0x03, 0x07, 0x0A, 0x10] then (if p.upperHalf then 12 else 3)
  else 15

/-- The flits of a packet with uncorrectable errors poison what they carry (R393, R462). -/
def State.markFlits (s : State) (p : Packet) : State × Packet :=
  if s.errs.isEmpty then (s, p)
  else
    let hit (e : ErrAt) : Bool := match e with
      | .flit tag i => tag == p.tag && decide (i ≤ p.dlen)
      | _ => false
    let mark (n : Nat) (e : ErrAt) : Nat := match e with
      | .flit _ i => n ||| p.flitMarks i
      | _ => n
    let poison := (s.errs.filter hit).foldl mark p.poison
    ({ s with errs := s.errs.filter fun e => !hit e }, { p with poison := poison })

/-- A unit sends a packet: a packet within an isle never enters the router (R388). -/
def State.send (s : State) (p : Packet) : State :=
  if p.sisle = p.disle then
    let (s, p) := s.markFlits p
    s.toUnit p.disle p.dunit p (s.bclk + 1)
  else s.inject p

/-- A line request of a core counted by its isle's LREQ (R410). -/
def State.countLine (s : State) (isle ctx disle : Nat) : State :=
  let k := isle * 64 + ctx
  s.updMesh fun m =>
    if isle = disle then { m with lreqLocal := place m.lreqLocal k ((look 0 m.lreqLocal k + 1) % 2 ^ 64) }
    else { m with lreqRemote := place m.lreqRemote k ((look 0 m.lreqRemote k + 1) % 2 ^ 64) }

/-- An engine access of 128 bytes counted by its isle's ENGREQ (R410; DEDUCED, notes/assumptions/62). -/
def State.countEngine (s : State) (isle ctx disle : Nat) : State :=
  let k := isle * 64 + ctx
  s.updMesh fun m =>
    if isle = disle then { m with engLocal := place m.engLocal k ((look 0 m.engLocal k + 1) % 2 ^ 64) }
    else { m with engRemote := place m.engRemote k ((look 0 m.engRemote k + 1) % 2 ^ 64) }

/-- A request of a core that R442 counts: it waits at the cluster's arbiter once the interval's budget
is used up, and leaves at once otherwise. -/
def State.sendCounted (s : State) (core bytes : Nat) (p : Packet) : State :=
  let n := clusterOf core
  let c := s.cluster n
  if c.budget ≠ 0 ∧ (c.budget * 1024 ≤ c.sentBytes ∨ c.waiting ≠ []) then
    s.updCluster n fun c => { c with waiting := c.waiting ++ [p] }
  else
    (s.updCluster n fun c => { c with sentBytes := c.sentBytes + bytes }).send p

/-- A line request of a core (R122, R410, R442). -/
def State.sendLine (s : State) (core : Nat) (p : Packet) : State :=
  (s.countLine (isleOf core) p.ctx p.disle).sendCounted core 128 p

/-- A core's work that would add to one of its send queues that is full is held (R492). -/
def State.unlessFull (s : State) (core : Nat) (f : State → State) : State :=
  let isle := isleOf core
  let unit := unitOfCore core
  let t := f s
  let key (vc : Nat) : Nat := unitKey isle unit vc
  if [0, 1, 2, 3].any fun vc => s.sendFull isle unit vc &&
      decide ((look [] s.mesh.sendq (key vc)).length < (look [] t.mesh.sendq (key vc)).length)
  then s else t

/-- The packet from a core to a home slice. -/
def Packet.toHome (typ vc dlen core ctx tag : Nat) (h : Home) (pa : Nat) : Packet :=
  { Packet.basic typ vc dlen (isleOf core) (unitOfCore core) h.isle h.slice ctx tag with
    pa := pa, loc := h.loc }

/-- The answer of a unit to a request: source and destination exchanged, the tag echoed (R393). -/
def Packet.reply (p : Packet) (typ vc dlen : Nat) : Packet :=
  { Packet.basic typ vc dlen p.disle p.dunit p.sisle p.sunit p.ctx p.tag with pa := p.pa, loc := p.loc }

/-- The core a packet's source names; 256 for a unit that is no core. -/
def Packet.srcCore (p : Packet) : Nat :=
  if 160 ≤ p.sunit ∧ p.sunit < 176 then p.sisle * 16 + (p.sunit - 160) else 256

/-- The core a packet's destination names; 256 for a unit that is no core. -/
def Packet.dstCore (p : Packet) : Nat :=
  if 160 ≤ p.dunit ∧ p.dunit < 176 then p.disle * 16 + (p.dunit - 160) else 256

end Sys2Proof.Machine
end

