-- ==== Sys2Proof/Machine/Report.lean ====
section
/-!
DEFINITION. What the base tells the supervisor: interrupt sources (R469), the event log, and fault
reports (R356, R357).
-/
namespace Sys2Proof.Machine

/-- Something leaves the part (notes/assumptions/2). -/
def State.emit (s : State) (o : Out) : State := { s with out := s.out ++ [o] }

/-- Vector control of an MSI-X table entry: masked until software unmasks it (R469,
notes/assumptions/9). -/
def State.msixMasked (s : State) (v : Nat) : Bool := (look 1 s.mgmt.msixTable (4 * v + 3)).testBit 0

/-- A message on a vector: sent, or pending while the vector or the function is masked; none while the function's MSI-X is
not enabled (R469). -/
def State.msix (s : State) (v : Nat) : State :=
  if !s.mgmt.msixOn then s
  else if s.mgmt.msixMask || s.msixMasked v then
    s.updMgmt fun m => { m with msixTable := place m.msixTable (1000 + v) 1 }
  else s.emit (.msix v)

/-- The vector of an interrupt source (R469). -/
def State.intVec (s : State) (src : Nat) : Nat := look (src % 64) s.mgmt.intVec src

/-- An event of an interrupt source sets PEND; when PEND goes from 0 to 1 with EN set, one message is
sent (R469). -/
def State.interrupt (s : State) (src : Nat) : State :=
  if look 0 s.mgmt.intPend src = 1 then s
  else
    let s' := s.updMgmt fun m => { m with intPend := put 0 m.intPend src 1 }
    if look 0 s.mgmt.intEn src = 1 then s'.msix (s.intVec src) else s'

/-- A corrected error of an isle's or a chiplet's storage is counted; a count past the threshold that Yeham sets raises
source 72 (R462, R469). -/
def State.countCorrected (s : State) (k : Nat) : State :=
  let n := look 0 s.mgmt.corrected k + 1
  let s := s.updMgmt fun m => { m with corrected := place m.corrected k n }
  if Config.errorThreshold < n then s.interrupt 72 else s

/-- What the storage of the part is found to have met at a telemetry sample (R462, R463): a free value. -/
opaque strayErrors : Nat → List ErrAt

/-- Yeham logs an event, which raises source 71 (R469). -/
def State.logEvent (s : State) : State :=
  (s.updMgmt fun m => { m with events := m.events + 1 }).interrupt 71

/-- The 512 bits of a report written now (R356). -/
def Report.bits (r : Report) (now : Nat) : Nat :=
  r.kind % 256 + r.code % 256 * 2 ^ 8 + r.ctx % 64 * 2 ^ 16 + r.core % 1024 * 2 ^ 22 +
  r.gang % 2 ^ 32 * 2 ^ 32 + r.block % 256 * 2 ^ 64 + r.group % 256 * 2 ^ 72 + r.reqid % 65536 * 2 ^ 80 +
  r.iaddr.toNat * 2 ^ 128 + r.vaddr.toNat * 2 ^ 192 + r.iter % 2 ^ 80 * 2 ^ 256 + r.aux.toNat * 2 ^ 384 +
  now % 2 ^ 64 * 2 ^ 448

/-- Whether a context has a fault ring (R357). -/
def State.hasRing (s : State) (c : Nat) : Bool :=
  let x := s.ctx c
  x.frbase != 0 && s.namesMemory x.frbase

/-- Whether a context's fault ring is full: it is exactly when FRTAIL − FRHEAD is the ring's size (R356); a report that is
still to be written takes its place already. -/
def State.ringFull (s : State) (c : Nat) : Bool :=
  let x := s.ctx c
  (x.frtail + 2 ^ 32 - x.frhead) % 2 ^ 32 + (s.mgmt.reportQ.filter fun r => r.ctx == c).length == 2 ^ (x.frlog + 4)

/-- A report dropped: FRDROP counts it and source `c` is raised (R356, R469). -/
def State.dropReport (s : State) (c : Nat) : State :=
  (s.updCtx c fun x => { x with frdrop := min 65535 (x.frdrop + 1) }).interrupt c

/-- The address at which a context's next report stands (R356). -/
def State.reportSlot (s : State) (c : Nat) : Nat :=
  let x := s.ctx c
  x.frbase + 64 * (x.frtail % 2 ^ (x.frlog + 4))

/-- A fault report: to be written at home behind the earlier ones, or dropped while the ring is full or absent
(R356, R357). -/
def State.report (s : State) (r : Report) : State :=
  if !s.hasRing r.ctx || s.ringFull r.ctx then s.dropReport r.ctx
  else s.updMgmt fun m => { m with reportQ := m.reportQ ++ [r] }

/-- A report about a gang with its fields of R356 that do not depend on the cause. -/
def State.reportOf (s : State) (kind : Nat) (k : Nat) : Report :=
  let g := s.gang k
  ⟨kind, 0, g.ctx, 1023, g.gno, 0, 255, 0, 0, 0, 0, 0⟩

end Sys2Proof.Machine
end

