-- ==== Sys2Proof/Machine/Asks.lean ====
section
/-!
DEFINITION. What agents of the base ask for by packets of their own (R382, R394): tickets, the requests on their way
and the lines that have come.
-/
namespace Sys2Proof.Machine

/-- An agent's ticket; an agent that has asked for nothing has an empty one. -/
def State.ticket (s : State) (a : Agent) : Ticket := (s.tickets.find? fun t => t.agent == a).getD ⟨a, [], [], 0⟩

/-- The state with an agent's ticket set. -/
def State.setTicket (s : State) (t : Ticket) : State :=
  { s with tickets := s.tickets.filter (fun x => x.agent != t.agent) ++ [t] }

/-- An agent has done with what it asked for. -/
def State.dropTicket (s : State) (a : Agent) : State := { s with tickets := s.tickets.filter fun t => t.agent != a }

/-- An agent has done with the lines of some keys. -/
def State.dropKeys (s : State) (a : Agent) (keys : List Nat) : State :=
  let t := s.ticket a
  s.setTicket { t with lines := t.lines.filter fun e => !keys.contains e.1 }

/-- Whether an agent waits for an answer. -/
def State.asking (s : State) (a : Agent) : Bool := !(s.ticket a).pend.isEmpty

/-- What asking comes to: a wait, or the line that has come with its poison marks. -/
inductive Reply where
  | wait (s : State)
  | got (d : LineData) (poison : Nat)
deriving DecidableEq, Repr

/-- An agent asks for what a packet brings: it is sent once, under a tag of its own, and its answer is kept under
`key`. While the unit's send queue is full the agent waits (R492). -/
def State.ask (s : State) (a : Agent) (key : Nat) (p : Packet) (send : State → Packet → State := State.send) : Reply :=
  let t := s.ticket a
  match t.lines.find? fun e => e.1 == key with
  | some e => .got e.2.1 e.2.2
  | none =>
    if (t.pend.any fun e => e.2 == key) || s.sendFull p.sisle p.sunit p.vc then .wait s
    else
      let id := s.fresh
      .wait (send (s.took.setTicket { t with pend := t.pend ++ [(id, key)] }) { p with tag := id })

/-- Whether a tag is that of some agent's request. -/
def State.isTicket (s : State) (tag : Nat) : Bool := s.tickets.any fun t => t.pend.any fun e => e.1 == tag

/-- The answer to an agent's request: data, or the GWCT of a write. -/
def Ticket.answer (t : Ticket) (tag : Nat) (d : LineData) (poison gwct : Nat) : Ticket :=
  match t.pend.find? fun e => e.1 == tag with
  | some e => { t with
      pend := t.pend.filter fun x => x.1 != tag
      lines := t.lines ++ [(e.2, d, poison)]
      gmax := max t.gmax gwct }
  | none => t

/-- An answer has come for an agent. -/
def State.answerTicket (s : State) (tag : Nat) (d : LineData) (poison gwct : Nat) : State :=
  { s with tickets := s.tickets.map fun t => t.answer tag d poison gwct }

/-- The unit of isle 0 that takes accesses to an address without a home: the device registers, the host port, or the
Vreles ports (R373, R374, R393, R491). -/
def outsideUnit (pa : Nat) : Nat :=
  if spaceOf pa = 3 then unitMgmt else if bits pa 51 1 = 0 then unitHost else unitVreles

/-- The key that stands for the place of an address without a home. -/
def outsideLoc (pa : Nat) : Nat := 2 ^ 60 + pa

/-- A request of a unit about the line of an address, to its home or to the unit that stands for it. -/
def linePacket (typ vc dlen isle unit ctx : Nat) (h : Option Home) (pa : Nat) : Packet :=
  match h with
  | some h => { Packet.basic typ vc dlen isle unit h.isle h.slice ctx 0 with
      pa := pa / 128 * 128, loc := h.loc / 128 * 128 }
  | none => { Packet.basic typ vc dlen isle unit 0 (outsideUnit pa) ctx 0 with
      pa := pa / 128 * 128, loc := outsideLoc (pa / 128 * 128) }

/-- The part of a range that lies in a line: its offset in the line, its offset in the range, and its bytes. -/
def rangeIn (pa n line : Nat) : Nat × Nat × Nat :=
  let first := max pa line
  (first - line, first - pa, min (pa + n) (line + 128) - first)

/-- Bytes that a core writes from an address without a home on: one WT for each line, to the unit that stands for it
(R373). -/
def State.writeOut (s : State) (core pa : Nat) (l : List Nat) : State :=
  (List.range ((pa % 128 + l.length + 127) / 128)).foldl
    (fun (s : State) i =>
      let line := pa / 128 * 128 + 128 * i
      let r := rangeIn pa l.length line
      let mask := lineMask r.1 r.2.2
      s.send { linePacket 0x03 vcL (carried mask) (isleOf core) (unitOfCore core) 0 none line with
        bmask := mask, data := lineSet 0 r.1 r.2.2 (leNum ((l.drop r.2.1).take r.2.2)), aux := [0] }) s

end Sys2Proof.Machine
end

