-- ==== Sys2Proof/Machine/Drain.lean ====
section
/-!
DEFINITION. Writing dirty bytes home: evictions, write-backs and the drains of releases (R114, R130,
R131, R139, R276, R345).
-/
namespace Sys2Proof.Machine

/-- The dirty bytes of a line leave for home as a DRN; the write-back is in flight until its GWCT
returns (R114, R130). An answer to an earlier fetch of the line is not kept when it comes: it may be older than these
bytes (R127). -/
def State.sendDirty (s : State) (core : Nat) (l : L1Line) (waiters : List Nat) : State :=
  let id := s.fresh
  let p : Packet := { Packet.toHome 0x07 vcB (carried l.dirty) core l.ctx id ⟨l.isle, l.slice, l.loc⟩ l.pa with
    bmask := l.dirty, data := l.data, poison := l.poison }
  let fetches (o : Op) : Bool := o.core == core && o.ctx == l.ctx &&
    o.parts.any fun x => x.st == .sent && x.loc / 128 * 128 == l.loc
  { (s.took.send p) with
    ops := s.ops.map fun o => if fetches o then { o with mark := true } else o
    flights := place s.flights id ⟨core, l.ctx, l.loc, waiters⟩ }

/-- The lines of a core with a change made to those that satisfy a condition. -/
def State.updLines (s : State) (core : Nat) (p : L1Line → Bool) (f : L1Line → L1Line) : State :=
  s.updCore core fun c => { c with lines := c.lines.map (fun l => if p l then f l else l) }

/-- The dirty lines of a context on a core (R130). -/
def State.dirtyLines (s : State) (core ctx : Nat) : List L1Line :=
  (s.core core).lines.filter (fun l => l.ctx == ctx && l.dirty != 0)

/-- Each dirty line of a list sent home, its dirty bits cleared, the line kept clean with its lease
(R130). -/
def State.cleanLines (s : State) (core : Nat) (waiters : List Nat) : List L1Line → State
  | [] => s
  | l :: t =>
    let s := s.sendDirty core l waiters
    let s := s.updLines core (fun x => x.ctx == l.ctx && x.loc == l.loc) (fun x => { x with dirty := 0 })
    s.cleanLines core waiters t

/-- A drain of a context's lines on a core (R130): it waits for the write-backs already in flight and
for every dirty line, and it is over once package time exceeds the largest GWCT they return. -/
def State.startDrain (s : State) (core ctx : Nat) (owner : DrainOwner) : State :=
  let id := s.fresh
  let s := s.took
  let flying := (s.flights.filter (fun e => e.2.core == core && e.2.ctx == ctx)).map (·.1)
  let dirty := s.dirtyLines core ctx
  let first := s.nextId
  let s := s.cleanLines core [id] dirty
  let sent := (List.range dirty.length).map (first + ·)
  { s with drains := place s.drains id ⟨core, ctx, flying ++ sent, 0, owner⟩ }

/-- Self-invalidation (R131): clean lines of the context are dropped, partly dirty lines keep their
dirty bytes and lose their lease. Exclusive lines stay: their holder's copy is the only one. A line that an
earlier load has asked for is not kept when it comes: it may be older than what was acquired. -/
def State.selfInvalidate (s : State) (core ctx : Nat) : State :=
  let marked (o : Op) : Op := if o.core = core ∧ o.ctx = ctx then { o with mark := true } else o
  let s := { s with ops := s.ops.map marked }
  s.updCore core fun c =>
    let kept := c.lines.filter (fun l => !(l.ctx == ctx && l.dirty == 0 && l.excl.isNone))
    let weaker (l : L1Line) : L1Line :=
      if l.ctx = ctx ∧ l.excl = none then { l with lease := 0, valid := false } else l
    { c with lines := kept.map weaker }

/-- A write-back's GWCT has come (R130): the drains that wait for it take the larger time. -/
def State.landed (s : State) (tag gwct : Nat) : State :=
  { s with
    flights := drop s.flights tag
    drains := s.drains.map fun e =>
      if e.2.pend.contains tag then
        (e.1, { e.2 with pend := e.2.pend.filter (· != tag), gmax := max e.2.gmax gwct })
      else e }

/-- Whether a write-back of a line by a core and context is still on its way. -/
def State.lineFlies (s : State) (core ctx loc : Nat) : Bool :=
  s.flights.any fun e => e.2.core == core && e.2.ctx == ctx && e.2.loc == loc

/-- A line leaves a core's first-level cache: one that is held exclusively returns to home as the lease has it (R402);
dirty bytes go home after it, which is no release (R114, R147). -/
def State.evict (s : State) (core : Nat) (l : L1Line) : State :=
  let s := if l.excl.isSome then
      s.send { Packet.toHome 0x14 vcR 2 core l.ctx 0 ⟨l.isle, l.slice, l.loc⟩ l.pa with data := l.xdata, poison := l.poison }
    else s
  let s := if l.dirty = 0 then s else s.sendDirty core l []
  s.updCore core fun c => { c with lines := c.lines.filter (fun x => !(x.ctx == l.ctx && x.loc == l.loc)) }

/-- Lines that a core's first-level cache can hold (R108, R113). -/
def State.lineRoom (s : State) (core : Nat) : Nat := s.cacheBanks core * Config.linesPerBank

/-- The eight elements of a delta line as an HZD carries them (R95, R394). -/
def Delta.line (d : Delta) : LineData :=
  (List.range 8).foldl
    (fun acc i => lineSet acc (16 * i) 16 ((look 0 d.sums i).toNat + look 0 d.stat i % 256 * 2 ^ 96)) 0

/-- The share record of a core for a context's region. -/
def State.share? (s : State) (core ctx region : Nat) : Option Share :=
  (s.core core).shares.find? fun h => h.ctx == ctx && h.region == region

/-- The state with a share record changed. -/
def State.updShare (s : State) (core ctx region : Nat) (f : Share → Share) : State :=
  s.updCore core fun c =>
    { c with shares := c.shares.map fun h => if h.ctx = ctx ∧ h.region = region then f h else h }

/-- A notice about a delta line to the core's cluster filter (R407): AUX names the line, the core and
the isle of the directory. -/
def State.sendNotice (s : State) (typ core : Nat) (d : Delta) (tag : Nat) : State :=
  s.send { Packet.basic typ vcC 0 (isleOf core) (unitOfCore core) (isleOf core) unitFilter d.ctx tag with
    pa := d.pa, loc := d.loc, aux := [d.loc, core, d.isle, core] }

/-- A delta line drains: it leaves for its element home as an HZD, and the filter and directory are told
(R149, R407). The flight carries no core of a context's releases, since releases never wait for deltas
(R155). -/
def State.drainDelta (s : State) (core : Nat) (d : Delta) : State :=
  let id := s.fresh
  let p : Packet := { Packet.toHome 0x08 vcB 2 core d.ctx id ⟨d.isle, d.slice, d.loc⟩ d.pa with
    aux := [d.region], data := d.line, poison := d.poison }
  let s := s.took.updCore core fun c =>
    { c with deltas := c.deltas.filter (fun x => !(x.ctx == d.ctx && x.region == d.region && x.loc == d.loc)) }
  if d.opened then
    let s := (s.send p).updShare core d.ctx d.region fun h => { h with drains := h.drains ++ [id] }
    { s with flights := place s.flights id ⟨8192 + core, d.ctx, d.loc, []⟩ }.sendNotice 0x2A core d 0
  else s

/-- Every delta line of a context's region drains, and the tracker starts again (R149). -/
def State.drainRegion (s : State) (core ctx region : Nat) : State :=
  let ds := (s.core core).deltas.filter fun d => d.ctx == ctx && d.region == region && d.opened
  (ds.foldl (fun s d => s.drainDelta core d) s).updShare core ctx region fun h => { h with tracker := 0 }

/-- Room for one more line: one line is evicted while the cache is full, which one being a free value
(R114, R149). Exclusive lines stay until they are returned. -/
def State.makeRoom (s : State) (core : Nat) : State :=
  let c := s.core core
  let cand := c.lines.filter (fun l => l.excl.isNone)
  let deltas := c.deltas.filter (·.opened)
  let n := cand.length + deltas.length
  if c.lines.length + c.deltas.length < s.lineRoom core then s
  else
    let k := Config.freeVictim s.tick n % n
    match cand[k]? with
    | some l => s.evict core l
    | none =>
      match deltas[k - cand.length]? with
      | some d => s.drainDelta core d
      | none => s

/-- The lines that a role change or a placement displaces leave a core's cache (R105, R107): ordinary lines are written
back, exclusive ones returned, delta lines drained (R149), until the rest fit. DESIGN CHOICE: which of them leave is a
free value (notes/assumptions/29). -/
def State.shrinkCache (s : State) (core : Nat) : Nat → State
  | 0 => s
  | n + 1 =>
    let lines := (s.core core).lines
    let deltas := (s.core core).deltas.filter (·.opened)
    let m := lines.length + deltas.length
    if m ≤ s.lineRoom core then s
    else
      let k := Config.freeVictim (s.tick + n) m % m
      let s := match lines[k]? with
        | some l => s.evict core l
        | none =>
          match deltas[k - lines.length]? with
          | some d => s.drainDelta core d
          | none => s
      s.shrinkCache core n

/-- The cache made to fit its banks. -/
def State.fitCache (s : State) (core : Nat) : State :=
  s.shrinkCache core ((s.core core).lines.length + (s.core core).deltas.length)

end Sys2Proof.Machine
end

