-- ==== Sys2Proof/Machine/Operands.lean ====
section
/-!
DEFINITION. Register operands (R61 to R65, R172, R195, R196, R243) and how register names resolve
through the window base (R62).
-/
namespace Sys2Proof

/-- A register name of an instruction: a vector register of the lane, a scalar register of the group,
or a predicate of the lane. -/
inductive Reg where
  | v (k : Nat)
  | s (k : Nat)
  | p (k : Nat)
deriving DecidableEq, Repr

/-- The registers operand B reads. -/
def Src.uses : Src → List Reg
  | .v k => [.v k]
  | .s k => [.s k]
  | .imm _ => []

/-- The registers a 64-bit operand B reads. -/
def Src.usesPair : Src → List Reg
  | .v k => [.v k, .v (k + 1)]
  | .s k => [.s k, .s (k + 1)]
  | .imm _ => []

end Sys2Proof

namespace Sys2Proof.Machine

/-- The entry of a lane column that a vector register names: WB + k (R62). -/
def Group.entry (g : Group) (lane k : Nat) : Nat := (g.fib lane).wb + k

/-- The value of a vector register of a lane. -/
def Group.v (g : Group) (lane k : Nat) : W32 := look 0 g.regs (lane * 64 + g.entry lane k)

/-- The value of a vector pair of a lane, low half in the even register (R63). -/
def Group.vp (g : Group) (lane k : Nat) : W64 := g.v lane (k + 1) ++ g.v lane k

/-- The value of a scalar register (R64). -/
def Group.s (g : Group) (k : Nat) : W32 := look 0 g.sregs k

/-- The value of a scalar pair (R64). -/
def Group.sp (g : Group) (k : Nat) : W64 := g.s (k + 1) ++ g.s k

/-- A predicate of a fibre; index 15 is pt and reads 1 (R65). -/
def Fibre.predBit (f : Fibre) (k : Nat) : Bool := k == 15 || f.pred.getLsbD k

/-- A predicate word with a predicate written; a write to pt is discarded (R65). -/
def setPred (w : BitVec 16) (k : Nat) (b : Bool) : BitVec 16 :=
  if k < 15 then (w &&& ~~~((1 : BitVec 16) <<< k)) ||| (if b then (1 : BitVec 16) <<< k else 0) else w

/-- A predicate of a lane. -/
def Group.p (g : Group) (lane k : Nat) : Bool := (g.fib lane).predBit k

/-- Operand B as a 32-bit value (R195, R196, R243). -/
def Group.src (g : Group) (lane : Nat) : Src → W32
  | .v k => g.v lane k
  | .s k => g.s k
  | .imm n => BitVec.ofNat 32 n

/-- Operand B as a 64-bit value: a pair, or a zero-extended immediate (R195). -/
def Group.srcp (g : Group) (lane : Nat) : Src → W64
  | .v k => g.vp lane k
  | .s k => g.sp k
  | .imm n => BitVec.ofNat 64 n

/-- The two registers of a vector pair. -/
def vpair (k : Nat) : List Reg := [.v k, .v (k + 1)]

/-- The two registers of a scalar pair. -/
def spair (k : Nat) : List Reg := [.s k, .s (k + 1)]

/-- The registers `k` to `k + n - 1` of the vector file. -/
def vregs (k n : Nat) : List Reg := (List.range n).map (fun i => .v (k + i))

/-- The registers `k` to `k + n - 1` of the scalar file. -/
def sregs (k n : Nat) : List Reg := (List.range n).map (fun i => .s (k + i))

/-- Where a write to a register lands; a write to pt lands nowhere (R65). -/
def Group.dst (g : Group) (lane : Nat) : Reg → Option Dst
  | .v k => some (.v lane (g.entry lane k))
  | .s k => some (.s k)
  | .p k => if k = 15 then none else some (.p lane k)

/-- The low half of a 64-bit result. -/
def lo32 (x : W64) : W32 := x.setWidth 32

/-- The high half of a 64-bit result. -/
def hi32 (x : W64) : W32 := (x >>> 32).setWidth 32

/-- The writes of a 64-bit result to a vector pair (R63). -/
def putPair (d : Nat) (x : W64) : List (Reg × W32) := [(.v d, lo32 x), (.v (d + 1), hi32 x)]

/-- A Boolean result as written to a predicate. -/
def boolWord (b : Bool) : W32 := if b then 1 else 0

/-- Whether a register name lies in every active lane's window: WB + k < n (R62). -/
def Group.inWindow (g : Group) (lanes : W32) : Reg → Bool
  | .v k => (lanesOf lanes).all (fun i => decide (g.entry i k < g.n))
  | _ => true

/-- A write that has landed (R176). -/
def Group.land (g : Group) (d : Dst) (x : W32) : Group :=
  match d with
  | .v lane e => { g with regs := put 0 g.regs (lane * 64 + e) x }
  | .s k => { g with sregs := put 0 g.sregs k x }
  | .p lane k => g.updFib lane fun f => { f with pred := setPred f.pred k (x != 0) }

/-- Several writes that land in order. -/
def Group.landAll (g : Group) (l : List (Dst × W32)) : Group :=
  l.foldl (fun g e => g.land e.1 e.2) g

end Sys2Proof.Machine
end

