-- ==== Sys2Proof/Machine/Ops.lean ====
section
/-!
DEFINITION. The shared operations of the instruction meanings: failing checks, taking a trap
(R347 to R351) and returning from one (R352), terminating a gang (R353, R354), register writes on
their way (R176 to R179), and moving on to the next instruction.
-/
namespace Sys2Proof.Machine

/-- The result of a meaning. -/
abbrev Result := Host.Outcome State Fault Refusal

/-! ## Interrupting a group -/

/-- A block's sequencer stops, and its commands at their next boundary (R364). -/
def State.stopBlock (s : State) (b : Nat) : State :=
  let stop (c : Cmd) : Cmd := if c.blk = b then { c with stopped := true } else c
  { s with cmds := s.cmds.map stop }.updBlk b fun x => { x with seq := { x.seq with stopped := true } }

/-- A fibre of a group that halts: a breakpoint whose fibre stands at its header has taken effect (R233). -/
def Fibre.broken (f : Fibre) : Fibre :=
  if f.code.isNone && f.next == 0 && f.wait == .none then { f with bkptCode := none } else f

/-- A group halts for the debugger (R364): interrupt source 66, and with DBGSTOP set every group of
the block halts at its next clause boundary, and the sequencer and the commands stop. -/
def State.haltGroup (s : State) (g : Nat) : State :=
  let b := (s.grp g).blk
  let s := s.updGrp g fun x => { (x.updCtl fun c => { c with fibs := c.fibs.map Fibre.broken }) with
    halted := true, haltReq := false, stepping := false }
  let s :=
    if (s.ctx (s.ctxOf g)).dbgstop then
      (((s.blk b).groups.filter (· != g)).foldl
        (fun (s : State) h => s.updGrp h fun x => { x with haltReq := !x.halted }) s).stopBlock b
    else s
  s.interrupt 66

/-! ## Ending a gang -/

/-- A supervisor command ends with a result (R368, R469). -/
def State.svDone (s : State) (result : Nat) : State :=
  (s.updMgmt fun m => { m with sv := { m.sv with busy := false, result := result } }).interrupt 65

/-- The groups of a gang. -/
def State.gangGroups (s : State) (k : Nat) : List Nat :=
  (s.gang k).blocks.flatMap fun b => (s.blk b).groups

/-- The cores a gang uses, each once. -/
def State.gangCores (s : State) (k : Nat) : List Nat :=
  ((s.gang k).blocks.flatMap fun b => (s.blk b).cores).dedup

/-- Banks given back by a block on a core: free, in the cache role, and zero (R105, R108). -/
def Core.freeBanks (c : Core) (banks : List Nat) : Core :=
  { c with
    held := c.held.filter (fun e => !banks.contains e.1)
    bytes := c.bytes.filter (fun e => !banks.contains (e.1 / Config.bankBytes)) }

/-- Banks and accumulator rows written with zeros hold no errors (R77, R462). -/
def State.zeroed (s : State) (core : Nat) (banks : List Nat) (row n : Nat) : State :=
  if s.errs.isEmpty then s
  else { s with errs := s.errs.filter fun e => match e with
    | .word c w => !(c == core && banks.contains (4 * w / Config.bankBytes))
    | .cell c k => !(c == core && decide (256 * row ≤ k) && decide (k < 256 * (row + n)))
    | _ => true }

/-- A block's lane slots, banks, rows and tile-table entries are freed (R354, R361, R58). -/
def State.freeBlock (s : State) (b : Nat) : State :=
  let x := s.blk b
  if x.live then
    let s := x.groups.foldl
      (fun (s : State) g => s.updGrp g fun y => { y with live := false, retired := true }) s
    let s := [0, 1].foldl
      (fun (s : State) side => if side = 0 ∨ x.pair then
          s.updCore (x.coreAt side) (fun c => c.freeBanks (x.banksAt side)) else s) s
    s.updBlk b fun y => { y with live := false, retired := true }
  else s

/-- A gang's barrier slots return to their unit (R422). -/
def State.freeSlots (s : State) (k : Nat) : State :=
  let g := s.gang k
  s.updDisp fun d => { d with slots := put 0 d.slots g.unit (look 0 d.slots g.unit - g.nslots) }

/-- A group or sequencer of a gang has asked for nothing any more. -/
def State.dropFetches (s : State) (k : Nat) : State :=
  let gs := s.gangGroups k
  let bs := (s.gang k).blocks
  let keep (t : Ticket) : Bool := match t.agent with
    | .clause g => !gs.contains g
    | .stream b => !bs.contains b
    | _ => true
  { s with tickets := s.tickets.filter keep }

/-- A gang's resources are freed: blocks, barrier slots, operations in flight and page requests; a
placement pass is due (R354, R420). -/
def State.freeGang (s : State) (k : Nat) : State :=
  let gs := s.gangGroups k
  let bs := (s.gang k).blocks
  let s := s.freeSlots k
  let s := bs.foldl (fun (s : State) b => s.freeBlock b) s
  let s : State := { s with
    ops := s.ops.filter (fun o => !gs.contains o.grp)
    heldEng := s.heldEng.filter (fun h => !gs.contains h.issue.grp)
    pageReqs := s.pageReqs.filter (fun r => !gs.contains r.grp) }
  let s := s.updDisp fun d => { d with passDue := true }
  let s : State := if s.disp.slewGang = some k then
      (s.gangCores k).foldl (fun (s : State) c => s.updCore c fun x => { x with admitted := true })
        (s.updDisp fun d => { d with slewGang := none, slewAt := none })
    else s
  (s.dropFetches k).updGang k fun g => { g with live := false, captured := [] }

/-- The release of a gang that ends (R59, R139, R354): one drain on every core it used that is still
in the logical map. -/
def State.releaseGang (s : State) (k : Nat) (owner : DrainOwner) : State :=
  let cores := (s.gangCores k).filter fun c => (s.chip (isleOf c)).state == 0
  cores.foldl (fun (s : State) c => s.startDrain c (s.gang k).ctx owner) s

/-- Array operations of a gang that have issued and not yet completed (R354, R358). -/
def State.arrayBusy (s : State) (k : Nat) : Bool :=
  (s.gangCores k).any fun c => (s.core c).mq.any fun m => (s.blk m.blk).gang == k

/-- Rows of a tile (R70). -/
def Tile.rowCount (t : Tile) : Nat := 16 * (t.rows + 1)

/-- The busy count of rows raised or lowered (R118). -/
def Core.markBusy (c : Core) (row rows : Nat) (up : Bool) : Core :=
  let step (m : SMap Nat) (i : Nat) : SMap Nat :=
    put 0 m (row + i) (if up then look 0 m (row + i) + 1 else look 0 m (row + i) - 1)
  { c with busy := (List.range rows).foldl step c.busy }

/-- The row offsets that the iterations start at, each once (R307): a dimension of stride 0 adds none. -/
def loopOffsets (counts : List Nat) (strides : List Int) (start : Int) : List Int :=
  (counts.zip strides).foldl
    (fun l e => if e.2 = 0 then l else (l.flatMap fun x => (List.range e.1).map fun (i : Nat) => x + (i : Int) * e.2).dedup) [start]

/-- The rows that an `mloop` writes, whose busy bits it holds until its last write (R118, R307). -/
def loopRows (c : Cmd) (first m : Nat) : List Nat :=
  ((loopOffsets c.run.n (c.acc.map (·.1)) c.row).flatMap fun r =>
    (List.range m).map fun i => first + r.toNat + i).dedup

/-- The iteration vector of item `i`, the first count changing fastest (R312, R322). -/
def vectorOf : List Nat → Nat → List Nat
  | [], _ => []
  | n :: t, i => (i % n) :: vectorOf t (i / n)

/-- The row offsets at which iterations after one start: a dimension as its count, its stride and the iteration's place
in it, the fastest first (R307). -/
def offsetsAfter : List (Nat × Int × Nat) → List Int
  | [] => []
  | (n, st, v) :: t =>
    let later := (offsetsAfter t).flatMap fun x => (List.range n).map fun (i : Nat) => x + (i : Int) * st
    let here := t.foldl (fun (acc : Int) e => acc + (e.2.2 : Int) * e.2.1) 0
    let rest := ((List.range n).drop (v + 1)).map fun (i : Nat) => here + (i : Int) * st
    (later ++ rest).dedup

/-- The rows that the iterations of an `mloop` from the `i`-th on write (R118, R307). -/
def loopRowsFrom (c : Cmd) (first m i : Nat) : List Nat :=
  if i = 0 then loopRows c first m
  else
    let v := vectorOf c.run.n (i - 1)
    let dims := (c.run.n.zip ((c.acc.map (·.1)).zip v)).map fun e => (e.1, e.2.1, e.2.2)
    if (c.run.n.foldl (· * ·) 1) ≤ i then []
    else ((offsetsAfter dims).flatMap fun (r : Int) => (List.range m).map fun k => first + (r + c.row).toNat + k).dedup

/-- The rows that no iteration of an `mloop` from the `i`-th on writes, among those that one from the `j`-th on does, are busy
no longer for its sake (R118). -/
def State.freeLoopRows (s : State) (c : Cmd) (j i : Nat) : State :=
  let b := s.blk c.blk
  let rows := loopRowsFrom c (b.accFirst 0) (b.tile 0 c.tile).rowCount
  let still := rows i
  s.updCore c.core fun x =>
    ((rows j).filter fun r => !still.contains r).foldl (fun x r => x.markBusy r 1 false) x

/-- The iterations of an `mloop`. -/
def Cmd.iterations (c : Cmd) : Nat := c.run.n.foldl (· * ·) 1

/-- The staging tiles of an `mloop` that ends become EMPTY (R116). -/
def State.emptyStaging (s : State) (c : Cmd) : State :=
  let empty (t : Tile) : Tile := { t with state := 0 }
  s.updBlk c.blk fun b => (b.updTile 0 c.tile empty).updTile 0 c.tileB empty

/-- The commands of a gang. -/
def State.gangCmds (s : State) (k : Nat) : List Cmd := s.cmds.filter fun c => (s.blk c.blk).gang == k

/-- A gang's engine commands leave their cores: their queue entries are free, and loops hold no rows (R354, R358). -/
def State.takeCommands (s : State) (k : Nat) : State :=
  let l := s.gangCmds k
  let ids := l.map (·.id)
  let s := (s.gangCores k).foldl
    (fun s c => s.updCore c fun x => { x with cq := x.cq.filter (fun i => !ids.contains i) }) s
  let s := l.foldl (fun (s : State) c => if c.kind = .mloop then s.freeLoopRows c c.sent c.iterations else s) s
  { s with cmds := s.cmds.filter (fun c => !ids.contains c.id) }

/-- A gang's engine commands are discarded; the staging tiles of loops become EMPTY (R116, R354). -/
def State.discardCommands (s : State) (k : Nat) : State :=
  ((s.gangCmds k).foldl (fun (s : State) c => if c.kind = .mloop then s.emptyStaging c else s) s).takeCommands k

/-- What the fibres of a gang have issued and not performed is dropped; what has left a core goes on (R354). -/
def State.dropUnsent (s : State) (k : Nat) : State :=
  let gs := s.gangGroups k
  let left (o : Op) : Op := { o with parts := o.parts.filter fun p => p.st != .todo }
  let keep (o : Op) : Bool := !gs.contains o.grp || o.parts.any fun p => p.st == .sent
  { s with
    ops := (s.ops.map fun o => if gs.contains o.grp then left o else o).filter keep
    heldEng := s.heldEng.filter fun h => !gs.contains h.issue.grp }

/-- Whether an access of a gang is on its way from a core that is in the logical map. -/
def State.accessFlies (s : State) (k : Nat) : Bool :=
  s.ops.any fun o => s.gangOf o.grp == k && (s.chip (isleOf o.core)).state == 0 && o.parts.any fun p => p.st == .sent

/-- Termination of a gang begins (R354): its blocks stop issuing, its commands are discarded, and once
its array operations and its performed stores have completed its release starts. `why` is the report that names the cause.
A pre-emption in progress ends with RESULT 0x02 (R368). -/
def State.terminate (s : State) (k : Nat) (why : Report) : State :=
  if (s.gang k).terminated then s
  else
    let preempting := decide ((s.gang k).pre ≠ .none ∧ (s.gang k).pre ≠ .resuming)
    let s := s.updGang k fun g => { g with terminated := true, why := some why, pre := .none }
    let s := (s.gangGroups k).foldl (fun s g => s.updGrp g fun x => { x with stopped := true }) s
    let s := (s.gang k).blocks.foldl
      (fun s b => s.updBlk b fun x => { x with seq := { x.seq with stopped := true } }) s
    let s := ((s.discardCommands k).dropUnsent k).dropFetches k
    if preempting then s.svDone 2 else s

/-- The report of kind 0x02 for a block that a trap terminates (R353). -/
def State.trapReport (s : State) (g cause : Nat) (iaddr vaddr : W64) : Report :=
  let k := s.gangOf g
  { s.reportOf 0x02 k with
    code := cause, core := (s.grp g).core, block := (s.blk (s.grp g).blk).num, group := (s.grp g).num,
    iaddr := iaddr, vaddr := vaddr }

/-! ## Traps -/

/-- A trap record's TCAUSE (R351). -/
def tcauseOf (cause port info : Nat) (hasAddr : Bool) : W32 :=
  BitVec.ofNat 32 (cause + port * 2 ^ 8 + (if hasAddr then 2 ^ 9 else 0) + info * 2 ^ 16)

/-- Taking a trap (R349): `set` is the trap set, `tolanes` the lanes of the other port.

In a pre-emption handler it ends the group's handler as if the deadline had passed (R360, R361); in a
resume handler it terminates the block (R363); where TVEC is 0 or misaligned or the group is already in
trap mode it terminates the block (R353). Otherwise the group enters trap mode: the record registers
are written and every lane of the trap set takes PC := TVEC. `iaddr` is the instruction that the trap names. A breakpoint
whose clause the trap interrupts is kept for the return (R233). -/
def State.takeTrapAt (s : State) (iaddr : W64) (g : Nat) (set : W32) (cause info port : Nat) (tolanes : W32)
    (tpc : W64) (tidx : Nat) (addr : Option W64) : State :=
  let x := s.grp g
  if x.handler = .preempt then
    s.updGrp g fun x => { x with stopped := true, hwsave := true }
  else if x.handler = .resume ∨ x.ctl.tvec = 0 ∨ x.ctl.tvec.toNat % 4 ≠ 0 ∨ x.ctl.trapMode = true then
    s.terminate (s.gangOf g) (s.trapReport g cause iaddr (addr.getD 0))
  else
    s.updGrp g fun x =>
      (x.updCtl fun c => { c with
        trapMode := true
        tcause := tcauseOf cause port info addr.isSome
        tlanes := set
        tolanes := tolanes
        tpc := tpc
        tidx := tidx
        taddr := addr.getD 0 }).updFibs set fun _ f =>
          { f with pc := x.ctl.tvec, code := none, next := 0, wait := .none,
                   waited := false, bkptCode := none, bkptHeld := f.bkptCode, bad := none, wdog := 0 }

/-- Taking a trap that names the instruction at which the record resumes (R347, R349). -/
def State.takeTrap (s : State) (g : Nat) (set : W32) (cause info port : Nat) (tolanes : W32)
    (tpc : W64) (tidx : Nat) (addr : Option W64) : State :=
  s.takeTrapAt (tpc + BitVec.ofNat 64 (4 * tidx)) g set cause info port tolanes tpc tidx addr

/-- The instruction being issued has trapped. -/
def State.markTrapped (s : State) : State := { s with cur := { s.cur with trapped := true } }

/-- Why a check of an instruction fails: the trap cause, its INFO class (R488), the code of a stream
fault (R297, R321), and the address for TADDR. -/
structure Fail where
  cause : Nat
  info : Nat
  code : Nat
  addr : Option W64
deriving DecidableEq, Repr

/-- An illegal-instruction trap of an INFO class (R488); in a stream, an encoding or issuer refusal or,
for class 3, a slot failure. -/
def Fail.illegal (info : Nat) : Fail := ⟨2, info, if info = 3 then 0x19 else 0x17, none⟩

/-- STALL_SHORT (R177). -/
def Fail.stallShort : Fail := ⟨3, 0, 0x17, none⟩

/-- A window fault without an address. -/
def Fail.window : Fail := ⟨4, 0, 0x18, none⟩

/-- A window fault for a scratchpad address (R347). -/
def Fail.windowAt (a : W64) : Fail := ⟨4, 0, 0x18, some a⟩

/-- A shape fault: a window fault of a group's instruction, CODE 0x15 in a stream (R297, R298). -/
def Fail.shape : Fail := ⟨4, 0, 0x15, none⟩

/-- A misalignment trap (R347). -/
def Fail.misaligned (a : W64) : Fail := ⟨5, 0, 0x15, some a⟩

/-- An unrecoverable translation fault (R347, R351). -/
def Fail.translation (info : Nat) (a : W64) : Fail := ⟨7, info, 0x11, some a⟩

/-- A recoverable translation fault that was refused (R355). -/
def Fail.refusedPage (info : Nat) (a : W64) : Fail := ⟨8, info, 0x11, some a⟩

/-- A haze-range trap (R148). -/
def Fail.hazeRange (a : W64) : Fail := ⟨6, 0, 0x16, some a⟩

/-- The address of the instruction being issued. -/
def State.iaddr (s : State) : W64 := s.cur.hdr + BitVec.ofNat 64 (4 * s.cur.idx)

/-- A fault met by a block's tile sequencer terminates the block and its gang (R297). -/
def State.streamFault (s : State) (b code : Nat) (iaddr : W64) : State :=
  let k := (s.blk b).gang
  s.terminate k { s.reportOf 0x03 k with
    code := code, core := (s.blk b).core, block := (s.blk b).num, iaddr := iaddr }

/-- A failed check of the instruction being issued: a trap of the issuing set, or a stream fault. The
instruction performs nothing (R193, R349). -/
def State.fail (s : State) (f : Fail) : State :=
  match s.cur.kind with
  | .stream =>
    (s.streamFault s.cur.blk f.code s.iaddr).markTrapped
  | _ =>
    (s.takeTrap s.cur.grp s.cur.lanes f.cause f.info s.cur.port s.cur.other s.cur.hdr s.cur.idx f.addr).markTrapped

/-- The first failure of a list of checks, in their order. -/
def firstFail : List (Bool × Fail) → Option Fail
  | [] => none
  | (true, f) :: _ => some f
  | (false, _) :: t => firstFail t

/-! ## Register hazards -/

/-- Whether a write to a register of a lane is still on its way: a fixed-latency result that has not
landed, or a result of a variable-latency operation (R177, R179). -/
def State.pendingOn (s : State) (g : Nat) (lane : Nat) (r : Reg) : Bool :=
  match (s.grp g).dst lane r with
  | none => false
  | some d =>
    ((s.grp g).pend.any fun p => p.dst == d && decide (s.clockOf g < p.due)) ||
    (s.ops.any fun o => o.grp == g && o.dsts.any fun e => e.2.2 == d)

/-- Whether a pending write to a register of a lane would land after a write that lands at clock `due` (R177), or with it
where it holds a conversion's part (R265). -/
def State.landsAfter (s : State) (g : Nat) (due lane : Nat) (r : Reg) : Bool :=
  match (s.grp g).dst lane r with
  | none => false
  | some d =>
    ((s.grp g).pend.any fun p => p.dst == d && (decide (due < p.due) || (p.part && due == p.due))) ||
    (s.ops.any fun o => o.grp == g && o.dsts.any fun e => e.2.2 == d)

/-- The checking scoreboard (R177): with the context's CHK bit set, an instruction may not read a
register with a write on its way, nor write one whose earlier write would land later. -/
def State.shortStall (s : State) (g : Nat) (lanes : W32) (rd wr : List Reg) (lat : Nat) : Bool :=
  (s.ctx (s.ctxOf g)).chk &&
  (lanesOf lanes).any fun i =>
    rd.any (s.pendingOn g i) || wr.any (s.landsAfter g (s.clockOf g + lat) i)

/-- The register checks of an instruction in the order of R348: STALL_SHORT, then the window fault of a
register name (R62). -/
def State.regFail (s : State) (rd wr : List Reg) (lat : Nat) : Option Fail :=
  if s.shortStall s.cur.grp s.cur.lanes rd wr lat then some Fail.stallShort
  else if (rd ++ wr).all ((s.grp s.cur.grp).inWindow s.cur.lanes) then none
  else some Fail.window

/-! ## Moving on -/

/-- The address of the header after a clause (R162). -/
def nextHeader (hdr : W64) (nwords : Nat) : W64 := hdr + BitVec.ofNat 64 (4 * (nwords + 1))

/-- A fibre at a clause header (R163). -/
def Fibre.atHeader (f : Fibre) (pc : W64) : Fibre :=
  { f with pc := pc, code := none, next := 0, waited := false, bad := none }

/-- A fibre past an instruction of `len` words: at the next word of the clause, or at the next header
after the clause's last word (R163). -/
def Fibre.pass (f : Fibre) (c : Issue) : Fibre :=
  if c.idx + c.len ≤ c.nwords then
    { f with pc := c.hdr + BitVec.ofNat 64 (4 * (c.idx + c.len)), next := c.idx + c.len }
  else f.atHeader (nextHeader c.hdr c.nwords)

/-- The sequencer past its instruction (R295). -/
def Seq.pass (q : Seq) (c : Issue) : Seq :=
  if c.idx + c.len ≤ c.nwords then { q with next := c.idx + c.len, waiting := false, wdog := 0 }
  else { q with off := q.off + c.nwords + 1, code := none, next := 0, waiting := false, wdog := 0 }

/-- The issuer moves past the instruction: each active lane of a group, or the sequencer. -/
def State.finish (s : State) : State :=
  match s.cur.kind with
  | .stream => s.updBlk s.cur.blk fun b => { b with seq := b.seq.pass s.cur }
  | _ => s.updGrp s.cur.grp fun g => g.updFibs s.cur.lanes fun _ f => f.pass s.cur

/-! ## Instructions with a fixed latency -/

/-- The meaning of an instruction that only a group issues: nothing without an issuer, and a stream
fault in a stream (R294). -/
def asGroup (s : State) (k : Group → Result) : Result :=
  match s.cur.kind with
  | .idle => .refused .noIssuer
  | .stream => .next (s.fail (Fail.illegal 4))
  | .group => k (s.grp s.cur.grp)

/-- Register writes that land `lat` clocks after issue (R176). -/
def State.queue (s : State) (lat : Nat) (ws : List (Dst × W32)) : State :=
  let due := s.clockOf s.cur.grp + lat
  s.updGrp s.cur.grp fun g =>
    { g with pend := g.pend ++ ws.map fun w => ⟨due, s.cur.port, w.1, w.2, false⟩ }

/-- Register writes of a conversion's part, which land `lat` clocks after issue (R176, R265). -/
def State.queuePart (s : State) (lat : Nat) (ws : List (Dst × W32)) : State :=
  let due := s.clockOf s.cur.grp + lat
  s.updGrp s.cur.grp fun g =>
    { g with pend := g.pend ++ ws.map fun w => ⟨due, s.cur.port, w.1, w.2, true⟩ }

/-- The writes of one lane with their places. -/
def Group.resolve (g : Group) (lane : Nat) (ws : List (Reg × W32)) : List (Dst × W32) :=
  ws.filterMap fun w => (g.dst lane w.1).map fun d => (d, w.2)

/-- The shape of every fixed-latency instruction (R176, R193): its register checks, then for each active
lane the writes `f` gives from the registers as they stand in the issue clock. -/
def laneOp (s : State) (lat : Nat) (rd wr : List Reg) (f : Group → Nat → List (Reg × W32)) : Result :=
  asGroup s fun g =>
    match s.regFail rd wr lat with
    | some e => .next (s.fail e)
    | none =>
      let ws := (lanesOf s.cur.lanes).flatMap fun i => g.resolve i (f g i)
      .next (s.queue lat ws).finish

/-- The shape of a conversion that writes part of a register (R253, R255, R265). -/
def partOp (s : State) (lat : Nat) (rd wr : List Reg) (f : Group → Nat → List (Reg × W32)) : Result :=
  asGroup s fun g =>
    match s.regFail rd wr lat with
    | some e => .next (s.fail e)
    | none => .next (s.queuePart lat ((lanesOf s.cur.lanes).flatMap fun i => g.resolve i (f g i))).finish

/-- The lowest-numbered active lane (R213). -/
def firstLane (lanes : W32) : Nat := (lanesOf lanes).headD 0

/-- The shape of a scalar instruction (R214): once for the set, with writes to scalar registers. -/
def scalarOp (s : State) (lat : Nat) (rd wr : List Reg) (f : Group → List (Reg × W32)) : Result :=
  asGroup s fun g =>
    match s.regFail rd wr lat with
    | some e => .next (s.fail e)
    | none => .next (s.queue lat (g.resolve (firstLane s.cur.lanes) (f g))).finish

/-- The checks of a cross-lane instruction (R259, R348): the registers `rd` are read in the lanes of
`use` alone, `own` and the destinations in every active lane; every name resolves in every active
lane. -/
def State.crossFail (s : State) (lat : Nat) (use : W32) (rd own wr : List Reg) : Option Fail :=
  let g := s.cur.grp
  if s.shortStall g use rd [] lat || s.shortStall g s.cur.lanes own wr lat then some Fail.stallShort
  else if (rd ++ own ++ wr).all ((s.grp g).inWindow s.cur.lanes) then none
  else some Fail.window

/-- The shape of a cross-lane instruction (R47, R259): `use` are the lanes whose registers `rd` it
reads. -/
def crossOp (s : State) (lat : Nat) (use : W32) (rd own wr : List Reg)
    (f : Group → Nat → List (Reg × W32)) : Result :=
  asGroup s fun g =>
    match s.crossFail lat use rd own wr with
    | some e => .next (s.fail e)
    | none =>
      let ws := (lanesOf s.cur.lanes).flatMap fun i => g.resolve i (f g i)
      .next (s.queue lat ws).finish

/-- The shape of an instruction whose effect is immediate: register checks, then `f`, then the next
instruction (R179). -/
def nowOp (s : State) (rd : List Reg) (f : State → State) : Result :=
  asGroup s fun _ =>
    match s.regFail rd [] 1 with
    | some e => .next (s.fail e)
    | none => .next (f s).finish

/-- The due writes of a group land in the order of their clocks, port B after port A (R176); DESIGN CHOICE: those of
one clock and port in the order of their issue (notes/assumptions/51). -/
def Group.landDue (g : Group) (clock : Nat) : Group :=
  let due := g.pend.filter fun p => decide (p.due ≤ clock)
  let inOrder := sortBy (fun a b => decide (a.due < b.due ∨ (a.due = b.due ∧ a.port < b.port))) due
  { (g.landAll (inOrder.map fun p => (p.dst, p.val))) with
    pend := g.pend.filter fun p => decide (clock < p.due) }

/-! ## Returning from a trap -/

/-- Whether an address is canonical: bits [63:57] all equal bit 56 (R20). -/
def canonical (a : W64) : Bool := a.toNat / 2 ^ 56 == 0 || a.toNat / 2 ^ 56 == 255

/-- `trapret` (R352): trap mode ends, and every held fibre is released. Each lane of TLANES goes to the header at
TPC, which is fetched and checked, with its WAIT; with TIDX not 0 issue then begins with that word. A breakpoint whose
clause the trap interrupted is pending again (R233). -/
def State.leaveTrap (s : State) (g : Nat) : State :=
  s.updGrp g fun x =>
    (x.updFibs (x.ctl.tlanes &&& x.occupied) fun _ f =>
        { f.atHeader x.ctl.tpc with next := x.ctl.tidx, bkptCode := f.bkptHeld, bkptHeld := none }).updCtl
      fun c => { c with trapMode := false }

end Sys2Proof.Machine
end

