-- ==== Sys2Proof/Machine/Flags.lean ====
section
/-!
DEFINITION. Computations that end in a predicate: carries (R202), relations (R210, R217), quorums
(R238) and truth tables (R207, R219).  Integer arithmetic sets no other flag (R194).
-/
namespace Sys2Proof.Machine

/-- The carry out of a + b + c: the exact sum reaches 2^32 (R202). -/
def carryOut (a b : W32) (c : Bool) : Bool := decide (2 ^ 32 ≤ a.toNat + b.toNat + c.toNat)

/-- The borrow out of a - b - c: the exact difference is below 0 (R202). -/
def borrowOut (a b : W32) (c : Bool) : Bool := decide (a.toNat < b.toNat + c.toNat)

/-- The relation of two numbers as R210's three cases. -/
inductive Relation where
  | less
  | equal
  | greater
deriving DecidableEq, Repr

/-- The relation of two words as signed or, with `.u`, unsigned numbers (R210). -/
def relation (unsigned : Bool) (a b : W32) : Relation :=
  if a = b then .equal
  else if (if unsigned then decide (a.toNat < b.toNat) else decide (a.toInt < b.toInt)) then .less
  else .greater

/-- Whether a relation code admits a relation: bit 2 admits less, bit 1 greater, bit 0 excludes equal
(R210). -/
def admits (code : Nat) : Relation → Bool
  | .less => code.testBit 2
  | .greater => code.testBit 1
  | .equal => !code.testBit 0

/-- An entry of an 8-bit truth table, A lowest in the index and C highest (R207, R219). -/
def tableBit (t : Nat) (a b c : Bool) : Bool := t.testBit (a.toNat + 2 * b.toNat + 4 * c.toNat)

/-- The quorum of a vote: T true of C contributing (R238). -/
def quorum (q t c : Nat) : Bool :=
  if q = 0 then decide (1 ≤ t)
  else if q = 1 then decide (c < 2 * t)
  else if q = 2 then t == c
  else t == 0 || t == c

end Sys2Proof.Machine
end

