-- ==== Sys2Proof/Machine/Integer.lean ====
section
/-!
DEFINITION. Integer arithmetic, logic, compares, selects and moves (R193 to R213).
-/
namespace Sys2Proof.Machine

/-! ## Functions of R198 to R209 -/

/-- Shift left; 0 from 32 places on (R199). -/
def shlWord (a n : W32) : W32 := if n.toNat < 32 then a <<< n.toNat else 0

/-- Unsigned shift right; 0 from 32 places on (R199). -/
def shrWord (a n : W32) : W32 := if n.toNat < 32 then a >>> n.toNat else 0

/-- Signed shift right, rounding toward minus infinity; the sign from 32 places on (R199). -/
def sarWord (a n : W32) : W32 := a.sshiftRight (min n.toNat 32)

/-- Rotate left by n mod 32 (R199). -/
def rolWord (a n : W32) : W32 := a.rotateLeft (n.toNat % 32)

/-- Bits [63:32] of the exact product, signed or unsigned (R200). -/
def mulHigh (u : Bool) (a b : W32) : W32 :=
  if u then BitVec.ofNat 32 (a.toNat * b.toNat / 2 ^ 32)
  else BitVec.ofInt 32 (a.toInt * b.toInt / 2 ^ 32)

/-- Whether a is at most b, signed or unsigned (R200). -/
def leWord (u : Bool) (a b : W32) : Bool :=
  if u then decide (a.toNat ≤ b.toNat) else decide (a.toInt ≤ b.toInt)

/-- The smaller operand (R200). -/
def minWord (u : Bool) (a b : W32) : W32 := if leWord u a b then a else b

/-- The larger operand (R200). -/
def maxWord (u : Bool) (a b : W32) : W32 := if leWord u a b then b else a

/-- -a, saturated at 0x7FFFFFFF for 0x80000000 with `.sat` (R201). -/
def negWord (sat : Bool) (a : W32) : W32 :=
  if sat && a == 0x80000000#32 then 0x7FFFFFFF#32 else -a

/-- |a|, saturated at 0x7FFFFFFF for 0x80000000 with `.sat` (R201). -/
def absWord (sat : Bool) (a : W32) : W32 := if a.msb then negWord sat a else a

/-- The number of set bits (R201). -/
def popCount (a : W32) : Nat := (lanesOf a).length

/-- The number of leading zero bits; 32 for 0 (R201). -/
def leadingZeros (a : W32) : Nat := if a = 0 then 32 else 31 - Nat.log2 a.toNat

/-- The number of trailing zero bits; 32 for 0 (R201). -/
def trailingZeros (a : W32) : Nat := (lanesOf a).headD 32

/-- Bit i of the result is bit 31 - i of a (R201). -/
def reverseWord (a : W32) : W32 := laneSet fun i => a.getLsbD (31 - i)

/-- One byte of a word as a number, signed or unsigned (R204). -/
def byteInt (u : Bool) (a : W32) (i : Nat) : Int :=
  let x := a.extractLsb' (8 * i) 8
  if u then (x.toNat : Int) else x.toInt

/-- The accumulated dot product of four bytes (R204). -/
def dot4 (ua ub : Bool) (acc a b : W32) : W32 :=
  BitVec.ofInt 32 ((List.range 4).foldl (fun sum i => sum + byteInt ua a i * byteInt ub b i) acc.toInt)

/-- The bitwise table lookup of three words (R207). -/
def lop3Word (t : Nat) (a b c : W32) : W32 :=
  laneSet fun i => tableBit t (a.getLsbD i) (b.getLsbD i) (c.getLsbD i)

/-- Bits [63:32] of the pair a:b shifted left by n mod 32 (R208). -/
def funnelShift (a b : W32) (n : Nat) : W32 :=
  BitVec.ofNat 32 ((a.toNat * 2 ^ 32 + b.toNat) * 2 ^ (n % 32) % 2 ^ 64 / 2 ^ 32)

/-- The width of a bit field, clipped at bit 31 (R209). -/
def fieldWidth (pos len : Nat) : Nat := min len (32 - pos)

/-- A bit field extracted, sign-extended with `.s` (R209). -/
def extractField (sx : Bool) (a : W32) (pos len : Nat) : W32 :=
  let w := fieldWidth pos len
  let f := a.toNat / 2 ^ pos % 2 ^ w
  if sx then BitVec.ofInt 32 (signedOf w f) else BitVec.ofNat 32 f

/-- A bit field replaced (R209). -/
def insertField (a b : W32) (pos len : Nat) : W32 :=
  let w := fieldWidth pos len
  laneSet fun i => if pos ≤ i ∧ i < pos + w then b.getLsbD (i - pos) else a.getLsbD i

/-! ## Shapes -/

/-- A result in a vector register from vA and operand B. -/
def binaryOp (s : State) (lat d a : Nat) (b : Src) (f : W32 → W32 → W32) : Result :=
  laneOp s lat (.v a :: b.uses) [.v d] fun g i => [(.v d, f (g.v i a) (g.src i b))]

/-- A result in a vector register from vA. -/
def unaryOp (s : State) (lat d a : Nat) (f : W32 → W32) : Result :=
  laneOp s lat [.v a] [.v d] fun g i => [(.v d, f (g.v i a))]

/-- A result in a vector register from vA and two further operands. -/
def ternaryOp (s : State) (lat d a : Nat) (b c : Src) (f : W32 → W32 → W32 → W32) : Result :=
  laneOp s lat (.v a :: b.uses ++ c.uses) [.v d] fun g i => [(.v d, f (g.v i a) (g.src i b) (g.src i c))]

/-! ## R198, R199 -/

/-- `iadd` (R198). -/
def execIadd (d a : Nat) (b : Src) (s : State) : Result := binaryOp s 4 d a b (· + ·)
/-- `isub` (R198). -/
def execIsub (d a : Nat) (b : Src) (s : State) : Result := binaryOp s 4 d a b (· - ·)
/-- `imul` (R198). -/
def execImul (d a : Nat) (b : Src) (s : State) : Result := binaryOp s 6 d a b (· * ·)
/-- `and` (R198). -/
def execAnd (d a : Nat) (b : Src) (s : State) : Result := binaryOp s 4 d a b (· &&& ·)
/-- `or` (R198). -/
def execOr (d a : Nat) (b : Src) (s : State) : Result := binaryOp s 4 d a b (· ||| ·)
/-- `xor` (R198). -/
def execXor (d a : Nat) (b : Src) (s : State) : Result := binaryOp s 4 d a b (· ^^^ ·)
/-- `andn` (R198). -/
def execAndn (d a : Nat) (b : Src) (s : State) : Result := binaryOp s 4 d a b fun x y => x &&& ~~~y
/-- `orn` (R198). -/
def execOrn (d a : Nat) (b : Src) (s : State) : Result := binaryOp s 4 d a b fun x y => x ||| ~~~y
/-- `shl` (R199). -/
def execShl (d a : Nat) (b : Src) (s : State) : Result := binaryOp s 4 d a b shlWord
/-- `shr` (R199). -/
def execShr (d a : Nat) (b : Src) (s : State) : Result := binaryOp s 4 d a b shrWord
/-- `sar` (R199). -/
def execSar (d a : Nat) (b : Src) (s : State) : Result := binaryOp s 4 d a b sarWord
/-- `rol` (R199). -/
def execRol (d a : Nat) (b : Src) (s : State) : Result := binaryOp s 4 d a b rolWord

/-! ## R200 to R206 -/

/-- `imulh` (R200). -/
def execImulh (d a : Nat) (b : Src) (u : Bool) (s : State) : Result := binaryOp s 6 d a b (mulHigh u)
/-- `imin` (R200). -/
def execImin (d a : Nat) (b : Src) (u : Bool) (s : State) : Result := binaryOp s 4 d a b (minWord u)
/-- `imax` (R200). -/
def execImax (d a : Nat) (b : Src) (u : Bool) (s : State) : Result := binaryOp s 4 d a b (maxWord u)
/-- `iabs` (R201). -/
def execIabs (d a : Nat) (sat : Bool) (s : State) : Result := unaryOp s 4 d a (absWord sat)
/-- `ineg` (R201). -/
def execIneg (d a : Nat) (sat : Bool) (s : State) : Result := unaryOp s 4 d a (negWord sat)
/-- `not` (R201). -/
def execNot (d a : Nat) (s : State) : Result := unaryOp s 4 d a fun x => ~~~x
/-- `popc` (R201). -/
def execPopc (d a : Nat) (s : State) : Result := unaryOp s 4 d a fun x => BitVec.ofNat 32 (popCount x)
/-- `clz` (R201). -/
def execClz (d a : Nat) (s : State) : Result := unaryOp s 4 d a fun x => BitVec.ofNat 32 (leadingZeros x)
/-- `ctz` (R201). -/
def execCtz (d a : Nat) (s : State) : Result := unaryOp s 4 d a fun x => BitVec.ofNat 32 (trailingZeros x)
/-- `brev` (R201). -/
def execBrev (d a : Nat) (s : State) : Result := unaryOp s 4 d a reverseWord

/-- `iaddc` (R202). -/
def execIaddc (d a c : Nat) (b : Src) (s : State) : Result :=
  laneOp s 4 (.v a :: .p c :: b.uses) [.v d, .p c] fun g i =>
    let x := g.v i a
    let y := g.src i b
    let k := g.p i c
    [(.v d, x + y + boolWord k), (.p c, boolWord (carryOut x y k))]

/-- `isubb` (R202). -/
def execIsubb (d a c : Nat) (b : Src) (s : State) : Result :=
  laneOp s 4 (.v a :: .p c :: b.uses) [.v d, .p c] fun g i =>
    let x := g.v i a
    let y := g.src i b
    let k := g.p i c
    [(.v d, x - y - boolWord k), (.p c, boolWord (borrowOut x y k))]

/-- `imad` (R203). -/
def execImad (d a : Nat) (b c : Src) (s : State) : Result := ternaryOp s 6 d a b c fun x y z => x * y + z

/-- `idot4` (R204). -/
def execIdot4 (d a b : Nat) (ua ub : Bool) (s : State) : Result :=
  laneOp s 6 [.v d, .v a, .v b] [.v d] fun g i => [(.v d, dot4 ua ub (g.v i d) (g.v i a) (g.v i b))]

/-- `iadd64` (R205). -/
def execIadd64 (d a : Nat) (b : Src) (s : State) : Result :=
  laneOp s 6 (vpair a ++ b.usesPair) (vpair d) fun g i => putPair d (g.vp i a + g.srcp i b)

/-- `shl64` (R205): the count is one 32-bit operand. -/
def execShl64 (d a : Nat) (b : Src) (s : State) : Result :=
  laneOp s 6 (vpair a ++ b.uses) (vpair d) fun g i =>
    let n := (g.src i b).toNat
    putPair d (if n < 64 then g.vp i a <<< n else 0)

/-- `lea` (R206). -/
def execLea (d a : Nat) (b : Src) (k : Nat) (u : Bool) (s : State) : Result :=
  laneOp s 4 (vpair a ++ b.uses) (vpair d) fun g i =>
    let x : W64 := if u then (g.src i b).setWidth 64 else (g.src i b).signExtend 64
    putPair d (g.vp i a + (x <<< k))

/-! ## R207 to R212 -/

/-- `lop3` (R207). -/
def execLop3 (d a b c t : Nat) (s : State) : Result := ternaryOp s 4 d a (.v b) (.v c) (lop3Word t)

/-- `fshl` (R208). -/
def execFshl (d a b : Nat) (c : Src) (s : State) : Result :=
  ternaryOp s 4 d a (.v b) c fun x y n => funnelShift x y n.toNat

/-- `bfx` (R209). -/
def execBfx (d a pos len : Nat) (sx : Bool) (s : State) : Result :=
  unaryOp s 4 d a fun x => extractField sx x pos len

/-- `bfi` (R209). -/
def execBfi (d a b pos len : Nat) (s : State) : Result :=
  binaryOp s 4 d a (.v b) fun x y => insertField x y pos len

/-- `isetp` (R210). -/
def execIsetp (p a code : Nat) (u : Bool) (b : Src) (s : State) : Result :=
  laneOp s 4 (.v a :: b.uses) [.p p] fun g i =>
    [(.p p, boolWord (admits code (relation u (g.v i a) (g.src i b))))]

/-- `sel` (R211). -/
def execSel (d a p : Nat) (b : Src) (s : State) : Result :=
  laneOp s 4 (.v a :: .p p :: b.uses) [.v d] fun g i =>
    [(.v d, if g.p i p then g.v i a else g.src i b)]

/-- `mov` (R212). -/
def execMov (d a : Nat) (w64 : Bool) (s : State) : Result :=
  if w64 then laneOp s 4 (vpair a) (vpair d) fun g i => putPair d (g.vp i a)
  else unaryOp s 4 d a fun x => x

/-- `movi` (R212). -/
def execMovi (d imm : Nat) (s : State) : Result :=
  laneOp s 4 [] [.v d] fun _ _ => [(.v d, BitVec.ofNat 32 imm)]

/-- `movs` (R212). -/
def execMovs (d k : Nat) (w64 : Bool) (s : State) : Result :=
  if w64 then laneOp s 4 (spair k) (vpair d) fun g _ => putPair d (g.sp k)
  else laneOp s 4 [.s k] [.v d] fun g _ => [(.v d, g.s k)]

/-! ## Special registers (R76, R213) -/

/-- The value of a special register for a lane, 64 bits wide (R76). -/
def State.special (s : State) (g lane n : Nat) : W64 :=
  let x := s.grp g
  let b := s.blk x.blk
  let k := s.gang b.gang
  let word (v : Nat) : W64 := BitVec.ofNat 64 v
  if n = 0 then word lane
  else if n = 1 then word x.num
  else if n = 2 then word b.num
  else if n = 3 then word (k.gno % 2 ^ 32)
  else if n = 4 then k.task
  else if n = 6 then word (isleOf x.core)
  else if n = 7 then word (clusterOf x.core)
  else if n = 8 then word x.core
  else if n = 9 then word k.ctx
  else if n = 10 then word (s.clockOf g)
  else if n = 12 then word s.ptime
  else if n = 14 then word x.sched
  else if n = 15 then word (k.field 521 5 + 1 + k.field 512 8 * 2 ^ 8 + x.n * 2 ^ 16)
  else if n < 32 then word (k.fslot ((n - 16) / 2))
  else if n < 64 then word (k.field (32 * (n - 32)) 32)
  else if n = 64 then word x.ctl.awb
  else if n = 65 then word x.ctl.awl
  else word (x.fib lane).wb

/-- The 64-bit selectors of `sread`: TASK, CLOCK, PTIME and the format slots (R76). -/
def special64 (n : Nat) : Bool :=
  n == 4 || n == 10 || n == 12 || (decide (16 ≤ n) && decide (n < 32))

/-- `sread` (R213): `kind` 0 and 1 write one register, 2 and 3 a pair; 1 and 3 are scalar, and take the
lowest-numbered active lane's value. -/
def execSread (d kind rsel : Nat) (s : State) : Result :=
  let hi (x : W64) : W32 := if special64 rsel then hi32 x else 0
  if kind = 0 then
    laneOp s 6 [] [.v d] fun _ i => [(.v d, lo32 (s.special s.cur.grp i rsel))]
  else if kind = 1 then
    scalarOp s 6 [] [.s d] fun _ => [(.s d, lo32 (s.special s.cur.grp (firstLane s.cur.lanes) rsel))]
  else if kind = 2 then
    laneOp s 6 [] (vpair d) fun _ i =>
      let x := s.special s.cur.grp i rsel
      [(.v d, lo32 x), (.v (d + 1), hi x)]
  else
    scalarOp s 6 [] (spair d) fun _ =>
      let x := s.special s.cur.grp (firstLane s.cur.lanes) rsel
      [(.s d, lo32 x), (.s (d + 1), hi x)]

end Sys2Proof.Machine
end

