-- ==== Sys2Proof/Machine/Scalar.lean ====
section
/-!
DEFINITION. Scalar and predicate instructions (R214 to R220).
-/
namespace Sys2Proof.Machine

/-- A scalar result from sA and operand B (R215). -/
def scalarBinary (s : State) (lat d a : Nat) (b : Src) (f : W32 → W32 → W32) : Result :=
  scalarOp s lat (.s a :: b.uses) [.s d] fun g => [(.s d, f (g.s a) (g.src 0 b))]

/-- `sadd` (R215). -/
def execSadd (d a : Nat) (b : Src) (s : State) : Result := scalarBinary s 4 d a b (· + ·)
/-- `ssub` (R215). -/
def execSsub (d a : Nat) (b : Src) (s : State) : Result := scalarBinary s 4 d a b (· - ·)
/-- `smul` (R215). -/
def execSmul (d a : Nat) (b : Src) (s : State) : Result := scalarBinary s 6 d a b (· * ·)
/-- `sand` (R215). -/
def execSand (d a : Nat) (b : Src) (s : State) : Result := scalarBinary s 4 d a b (· &&& ·)
/-- `sor` (R215). -/
def execSor (d a : Nat) (b : Src) (s : State) : Result := scalarBinary s 4 d a b (· ||| ·)
/-- `sxor` (R215). -/
def execSxor (d a : Nat) (b : Src) (s : State) : Result := scalarBinary s 4 d a b (· ^^^ ·)
/-- `sshl` (R215). -/
def execSshl (d a : Nat) (b : Src) (s : State) : Result := scalarBinary s 4 d a b shlWord
/-- `sshr` (R215): `sar` with `.a`. -/
def execSshr (d a : Nat) (b : Src) (ar : Bool) (s : State) : Result :=
  scalarBinary s 4 d a b (if ar then sarWord else shrWord)

/-- `smov` (R216). -/
def execSmov (d a : Nat) (w64 : Bool) (s : State) : Result :=
  if w64 then scalarOp s 4 (spair a) (spair d) fun g => [(.s d, g.s a), (.s (d + 1), g.s (a + 1))]
  else scalarOp s 4 [.s a] [.s d] fun g => [(.s d, g.s a)]

/-- `smovi` (R216). -/
def execSmovi (d imm : Nat) (s : State) : Result :=
  scalarOp s 4 [] [.s d] fun _ => [(.s d, BitVec.ofNat 32 imm)]

/-- `ssetp` (R217): one result, written to pD of every active lane. -/
def execSsetp (p a code : Nat) (u : Bool) (b : Src) (s : State) : Result :=
  laneOp s 4 (.s a :: b.uses) [.p p] fun g i =>
    [(.p p, boolWord (admits code (relation u (g.s a) (g.src i b))))]

/-- The checks of `slane`: its scalar operands for the set, its vector operand for the lane it reads
alone (R177, R218). -/
def State.slaneFail (s : State) (a d lane : Nat) (w64 : Bool) (b : Src) : Option Fail :=
  let g := s.cur.grp
  let one := if s.cur.lanes.getLsbD lane then laneBit lane else 0
  let rd := if w64 then vpair a else [.v a]
  let wr := if w64 then spair d else [.s d]
  if s.shortStall g s.cur.lanes b.uses wr 6 || s.shortStall g one rd [] 6 then some Fail.stallShort
  else if rd.all ((s.grp g).inWindow one) then none
  else some Fail.window

/-- `slane` (R218): a lane outside the active lanes supplies 0. -/
def execSlane (d a : Nat) (lane : Src) (w64 : Bool) (s : State) : Result :=
  asGroup s fun g =>
    let l := (g.src 0 lane).toNat % 32
    match s.slaneFail a d l w64 lane with
    | some e => .next (s.fail e)
    | none =>
      let active := s.cur.lanes.getLsbD l
      let lo : List (Reg × W32) := [(.s d, if active then g.v l a else 0)]
      let hi : List (Reg × W32) := if w64 then [(.s (d + 1), if active then g.v l (a + 1) else 0)] else []
      .next (s.queue 6 (g.resolve l (lo ++ hi))).finish

/-- `plop` (R219). -/
def execPlop (p pa pb pc t : Nat) (s : State) : Result :=
  laneOp s 2 [.p pa, .p pb, .p pc] [.p p] fun g i =>
    [(.p p, boolWord (tableBit t (g.p i pa) (g.p i pb) (g.p i pc)))]

/-- The predicates p0 to p14. -/
def allPreds : List Reg := (List.range 15).map .p

/-- `pmov` (R220): reads the predicate word, bit 15 reading 1, or sets p0 to p14 from vA[14:0]. -/
def execPmov (wr : Bool) (r : Nat) (s : State) : Result :=
  if wr then
    laneOp s 2 [.v r] allPreds fun g i =>
      (List.range 15).map fun k => (.p k, boolWord ((g.v i r).getLsbD k))
  else
    laneOp s 2 allPreds [.v r] fun g i =>
      [(.v r, ((g.fib i).pred ||| 0x8000#16).setWidth 32)]

end Sys2Proof.Machine
end

