-- ==== Sys2Proof/Machine/Barrier.lean ====
section
/-!
DEFINITION. Mask releases (R45), block barriers (R75, R285, R286, R318) and the blocks' side of gang
barriers (R287, R425).
-/
namespace Sys2Proof.Machine

/-! ## Lane masks -/

/-- Whether the release condition of a mask holds: every occupied lane of the mask has arrived
(R45). -/
def Group.maskFull (g : Group) (m : Nat) : Bool :=
  let need := g.mask m &&& g.occupied
  (g.marr m &&& need) == need

/-- The lanes that wait on a mask (R45). -/
def Group.maskWaiters (g : Group) (m : Nat) : W32 := laneSet fun i => (g.fib i).wait == .mask m

/-- The evaluation of one mask's release condition: when it holds, every fibre waiting on it is released
and its arrival set is cleared (R45). -/
def Group.releaseMask (g : Group) (m : Nat) : Group :=
  if g.maskFull m then
    (g.updCtl fun c => { c with marr := put 0 c.marr m 0 }).updCtl fun c =>
      { c with fibs := c.fibs.map fun f => if f.wait = .mask m then { f with wait := .none } else f }
  else g

/-- The evaluation of all twelve masks of a group (R45). -/
def Group.releaseMasks (g : Group) : Group := (List.range 12).foldl Group.releaseMask g

/-! ## Block barriers -/

/-- The groups of a block that have not retired. -/
def State.liveGroups (s : State) (b : Nat) : List Nat :=
  (s.blk b).groups.filter fun g => (s.grp g).live && !(s.grp g).retired

/-- Whether a group has arrived: its arrival set covers every occupied lane slot; a group with none has
arrived (R285). -/
def Group.covers (g : Group) (arr : W32) : Bool := (arr &&& g.occupied) == g.occupied

/-- Every group of the block that arrives at barrier `k` now is counted, and its arrival set cleared
(R285). -/
def State.barArrivals (s : State) (b k : Nat) : State :=
  (s.liveGroups b).foldl
    (fun s g =>
      let x := s.grp g
      if !((s.blk b).bar k).owners.contains g && x.covers (x.barArr k) then
        (s.updGrp g fun x => x.updCtl fun c => { c with barArr := put 0 c.barArr k 0 }).updBlk b fun y =>
          y.updBar k fun z => { z with arrived := z.arrived + 1, owners := z.owners ++ [g] }
      else s) s

/-- The phase after a phase. -/
def phaseAfter (p : Nat) : Nat := (p + 1) % 16

/-- A fibre released from phase `p` of barrier `k` (R285). -/
def Fibre.barReleased (f : Fibre) (k p : Nat) : Fibre :=
  if f.wait = .bar k (some p) then { f with wait := .none } else f

/-- The phase of barrier `k` for which a group's lanes arrive now: the one after PHASE once the group has arrived for
PHASE itself (R285). -/
def State.arrivalPhase (s : State) (g k : Nat) : Nat :=
  let z := (s.blk (s.grp g).blk).bar k
  if z.owners.contains g then phaseAfter z.phase else z.phase

/-- Whether an operation arrives at block barrier `k`. -/
def OpKind.atBar (o : OpKind) (k : Nat) : Bool :=
  match o with
  | .bar j _ => j == k
  | _ => false

/-- Whether an earlier arrival of a lane at barrier `k` still waits for its phase (R285). -/
def State.earlierArrival (s : State) (o : Op) (k i : Nat) : Bool :=
  s.ops.any fun p => decide (p.id < o.id) && p.grp == o.grp && p.kind.atBar k && p.stage != .finished && p.lanes.getLsbD i

/-- A fibre arrives at barrier `k` for phase `p`: in `bar` it waits for that phase, after a repeated `bar.arv` it goes
on (R285). -/
def Fibre.arrive (f : Fibre) (k p : Nat) : Fibre :=
  if f.wait = .bar k none then { f with wait := .bar k (some p) }
  else if f.wait = .arv k then { f with wait := .none }
  else f

/-- The lanes `go` of an operation arrive at barrier `k`, all of them but those of `again` whose earlier arrival still
waits for its phase (R285). -/
def State.arriveLanes (s : State) (o : Op) (k : Nat) (go : W32) : State :=
  let late := laneSet fun i => o.again.getLsbD i && s.earlierArrival o k i
  let go := go &&& ~~~late
  let p := s.arrivalPhase o.grp k
  let s := s.updGrp o.grp fun y =>
    (y.updCtl fun c => { c with barArr := put 0 c.barArr k (look 0 c.barArr k ||| go) }).updFibs go fun _ f => f.arrive k p
  s.updOp o.id fun o =>
    { o with stage := .phase, again := late, kind := .bar k (if late = 0 then some p else none) }

/-- The repeated arrivals at barrier `k` whose phase has completed are made (R285). -/
def State.arriveAgain (s : State) (b k : Nat) : State :=
  (s.ops.filter fun o => o.kind == .bar k none && o.stage == .phase && (s.blk b).groups.contains o.grp).foldl
    (fun (s : State) o => s.arriveLanes o k o.again) s

/-- The release of the fibres that wait for phase `p` of barrier `k`, each with its block-scope acquire (in a pair
block a self-invalidation, R123), the end of the `bar` instructions of the phase, and the arrivals that waited for it
(R285). -/
def State.barRelease (s : State) (b k p : Nat) : State :=
  let x := s.blk b
  let ctx := (s.gang x.gang).ctx
  let s := if x.pair then x.cores.foldl (fun s c => s.selfInvalidate c ctx) s else s
  let s := x.groups.foldl
    (fun s g => s.updGrp g fun y => y.updCtl fun c => { c with fibs := c.fibs.map fun f => f.barReleased k p }) s
  let ended (o : Op) : Op :=
    if o.kind = .bar k (some p) ∧ o.stage = .phase ∧ x.groups.contains o.grp then { o with stage := .finished } else o
  { s with ops := s.ops.map ended }.arriveAgain b k

/-- A phase of barrier `k` completes (R285, R318): PHASE advances, the sequencer's arrivals held for the new phase
count, the fibres of the phase are released, and repeated arrivals are made. A `bar` whose group has not arrived for
the phase goes on waiting for the next one (R269). In a pair block the acquire at isle scope first drains the cores
that the arrivals have recorded, both of the block (R123, R134). -/
def State.barComplete (s : State) (b k : Nat) : State :=
  let x := s.blk b
  let z := x.bar k
  let p := z.phase
  let q := phaseAfter p
  let s := s.updBlk b fun y => y.updBar k fun z =>
    { z with phase := q, arrived := z.early.count q, early := z.early.filter (· != q), owners := [] }
  let later (o : Op) : Op :=
    if o.kind = .bar k (some p) ∧ o.stage = .phase ∧ x.groups.contains o.grp ∧ z.owners.contains o.grp = false then
      { o with kind := .bar k (some q) }
    else o
  let s := { s with ops := s.ops.map later }
  if x.pair then
    let ctx := (s.gang x.gang).ctx
    x.cores.foldl (fun (s : State) c => s.startDrain c ctx (.bar b k p)) s
  else s.barRelease b k p

/-- The rule "when ARRIVED >= EXPECT", evaluated after a change of a block's barrier (R285, R286). DESIGN CHOICE: where
the arrivals of the new phase complete it at once, it completes in the core's next clock (notes/assumptions/56). -/
def State.barCheck (s : State) (b k : Nat) : State :=
  let s := s.barArrivals b k
  let z := (s.blk b).bar k
  if z.expect ≤ z.arrived then (s.barComplete b k).barArrivals b k else s

/-- The evaluation of all sixteen barriers of a block. -/
def State.barCheckAll (s : State) (b : Nat) : State :=
  if (s.blk b).live then (List.range 16).foldl (fun s k => s.barCheck b k) s else s

/-! ## Gang barriers: the blocks' side -/

/-- The barrier unit that counts a block's arrivals: the gang's, or in a device-wide gang the one of the
block's own isle (R422, R425). -/
def State.barUnit (s : State) (b : Nat) : Nat :=
  let k := s.gang (s.blk b).gang
  if k.field 540 1 = 1 then isleOf (s.blk b).core else k.unit

/-- The groups of a block that have arrived at gang barrier `g` for the phase in progress. -/
def Block.gbarGroups (b : Block) (g : Nat) : List Nat := look [] b.gbarIn g

/-- The groups of a block that arrive at gang barrier `g` now: their arrival is kept, and their arrival set cleared
(R285, R287). -/
def State.gbarArrivals (s : State) (b g : Nat) : State :=
  (s.liveGroups b).foldl
    (fun s i =>
      let x := s.grp i
      if !((s.blk b).gbarGroups g).contains i && x.covers (x.gbarArr g) then
        (s.updGrp i fun x => x.updCtl fun c => { c with gbarArr := put 0 c.gbarArr g 0 }).updBlk b fun y =>
          { y with gbarIn := put [] y.gbarIn g (y.gbarGroups g ++ [i]) }
      else s) s

/-- Whether a block arrives at gang barrier `g`: every non-retired group has arrived (R287). -/
def State.gbarArrives (s : State) (b g : Nat) : Bool :=
  (s.liveGroups b).all fun i => ((s.blk b).gbarGroups g).contains i

/-- A BAR packet of a block (R394): AUX names the gang, the barrier, the block and, in the last place, 0
for an arrival or 1 for a release. -/
def State.sendArrival (s : State) (b g : Nat) : State :=
  let x := s.blk b
  s.send { Packet.basic 0x30 vcC 0 (isleOf x.core) (unitOfCore x.core) (s.barUnit b) unitBarrier
      (s.gang x.gang).ctx 0 with aux := [x.gang, g, x.num, 0] }

/-- The evaluation of a block's arrival at gang barrier `g`, while it has not arrived for the phase in progress (R287). -/
def State.gbarCheck (s : State) (b g : Nat) : State :=
  if (s.blk b).live = false ∨ (s.blk b).gbarDone.contains g = true then s
  else
    let s := s.gbarArrivals b g
    if s.gbarArrives b g then
      (s.updBlk b fun x => { x with gbarDone := x.gbarDone ++ [g], gbarIn := put [] x.gbarIn g [] }).sendArrival b g
    else s

/-- The evaluation of a block's gang barriers after its groups have changed (R287). -/
def State.gbarCheckAll (s : State) (b : Nat) : State :=
  (List.range ((s.gang (s.blk b).gang).field 529 5)).foldl (fun s g => s.gbarCheck b g) s

end Sys2Proof.Machine
end

