-- ==== Sys2Proof/Machine/Control.lean ====
section
/-!
DEFINITION. Branches, calls, fibre creation and end, issue hints, breakpoints, masks and votes
(R221 to R240).
-/
namespace Sys2Proof.Machine

/-! ## Branches (R173, R221 to R228) -/

/-- The target of a branch: H + 4 × offset (R173). -/
def branchTarget (hdr : W64) (off : Int) : W64 := hdr + BitVec.ofInt 64 (4 * off)

/-- Each active lane goes to the address given for it (R163). -/
def State.goto (s : State) (f : Nat → W64) : State :=
  s.updGrp s.cur.grp fun g => g.updFibs s.cur.lanes fun i x => x.atHeader (f i)

/-- The header after the issuing clause. -/
def State.next (s : State) : W64 := nextHeader s.cur.hdr s.cur.nwords

/-- The shape of a predicated branch: `taken` says which active lanes go to the target. -/
def branchOp (s : State) (p : Nat) (off : Int) (taken : Group → Nat → Bool) : Result :=
  asGroup s fun g =>
    match s.regFail [.p p] [] 1 with
    | some e => .next (s.fail e)
    | none => .next (s.goto fun i => if taken g i then branchTarget s.cur.hdr off else s.next)

/-- The active lanes in which a predicate is true. -/
def State.trueLanes (s : State) (g : Group) (p : Nat) : List Nat :=
  (lanesOf s.cur.lanes).filter fun i => g.p i p

/-- `bra`: each lane decides for itself (R221). -/
def branchEach (s : State) (p : Nat) (off : Int) : Result := branchOp s p off fun g i => g.p i p

/-- `bany`: taken when the predicate is true in some active lane (R222). -/
def branchAny (s : State) (p : Nat) (off : Int) : Result :=
  branchOp s p off fun g _ => !(s.trueLanes g p).isEmpty

/-- `ball`: taken when it is true in every active lane (R222). -/
def branchAll (s : State) (p : Nat) (off : Int) : Result :=
  branchOp s p off fun g _ => (s.trueLanes g p).length == (lanesOf s.cur.lanes).length

/-- `bnone`: taken when it is true in no active lane (R222). -/
def branchNone (s : State) (p : Nat) (off : Int) : Result :=
  branchOp s p off fun g _ => (s.trueLanes g p).isEmpty

/-- `bdiv`: taken by the lanes whose predicate is true, while an occupied lane of the group held another
PC at the start of the clock (R223). -/
def branchDiverged (s : State) (p : Nat) (off : Int) : Result :=
  branchOp s p off fun g i => s.cur.diverged && g.p i p

/-- `bra`, short form. -/
def execBra (p : Nat) (off : Int) (s : State) : Result := branchEach s p off
/-- `bra`, long form. -/
def execBraLong (p : Nat) (off : Int) (s : State) : Result := branchEach s p off
/-- `bany`, short form. -/
def execBany (p : Nat) (off : Int) (s : State) : Result := branchAny s p off
/-- `bany`, long form. -/
def execBanyLong (p : Nat) (off : Int) (s : State) : Result := branchAny s p off
/-- `ball`, short form. -/
def execBall (p : Nat) (off : Int) (s : State) : Result := branchAll s p off
/-- `ball`, long form. -/
def execBallLong (p : Nat) (off : Int) (s : State) : Result := branchAll s p off
/-- `bnone`, short form. -/
def execBnone (p : Nat) (off : Int) (s : State) : Result := branchNone s p off
/-- `bnone`, long form. -/
def execBnoneLong (p : Nat) (off : Int) (s : State) : Result := branchNone s p off
/-- `bdiv`, short form. -/
def execBdiv (p : Nat) (off : Int) (s : State) : Result := branchDiverged s p off
/-- `bdiv`, long form. -/
def execBdivLong (p : Nat) (off : Int) (s : State) : Result := branchDiverged s p off

/-- The first active lane for which a condition on its target holds, with that target. -/
def badTarget (lanes : W32) (t : Nat → W64) (bad : W64 → Bool) : Option W64 :=
  ((lanesOf lanes).find? fun i => bad (t i)).map t

/-- The checks of a register-held target and of a window move (R226 to R228, R348): misalignment, then
the window fault of the move (DEDUCED, notes/assumptions/71), then the unrecoverable translation fault. -/
def targetFail (lanes : W32) (t : Nat → W64) (windowBad : Bool) : Option Fail :=
  match badTarget lanes t (fun x => x.toNat % 4 != 0) with
  | some x => some (Fail.misaligned x)
  | none =>
    if windowBad then some Fail.window
    else (badTarget lanes t (fun x => !canonical x)).map fun x => Fail.translation 3 x

/-- Whether moving the window base by F leaves its range 0 to 62 in some active lane (R225, R227). -/
def windowMoveBad (g : Group) (lanes : W32) (delta : Int) : Bool :=
  (lanesOf lanes).any fun i =>
    let w : Int := (g.fib i).wb + delta
    decide (w < 0) || decide (62 < w)

/-- Each active lane moves its window base by `delta` and goes to its target. -/
def State.jumpTo (s : State) (t : Nat → W64) (delta : Int) : State :=
  s.updGrp s.cur.grp fun g => g.updFibs s.cur.lanes fun i x =>
    { (x.atHeader (t i)) with wb := ((x.wb : Int) + delta).toNat }

/-- The shape of `jmp`, `call`, `calli` and `ret`. -/
def jumpOp (s : State) (rd : List Reg) (delta : Int) (t : Group → Nat → W64) : Result :=
  asGroup s fun g =>
    match s.regFail rd [] 1 with
    | some e => .next (s.fail e)
    | none =>
      match targetFail s.cur.lanes (t g) (windowMoveBad g s.cur.lanes delta) with
      | some e => .next (s.fail e)
      | none => .next (s.jumpTo (t g) delta)

/-- `jmp` (R224). -/
def execJmp (tgt : Src) (s : State) : Result := jumpOp s tgt.usesPair 0 fun g i => g.srcp i tgt

/-- `call` (R225): the target is not register-held, so only the window is checked. -/
def execCall (f : Nat) (off : Int) (s : State) : Result :=
  asGroup s fun g =>
    if windowMoveBad g s.cur.lanes f then .next (s.fail Fail.window)
    else .next (s.jumpTo (fun _ => branchTarget s.cur.hdr off) f)

/-- `calli` (R226). -/
def execCalli (f : Nat) (tgt : Src) (s : State) : Result := jumpOp s tgt.usesPair f fun g i => g.srcp i tgt

/-- `ret` (R227). -/
def execRet (link f : Nat) (s : State) : Result := jumpOp s (vpair link) (-(f : Int)) fun g i => g.vp i link

/-! ## Fibres (R229, R230) -/

/-- Lanes leave every mask and arrival set (R43). -/
def Group.leaveMasks (g : Group) (gone : W32) : Group :=
  let keep (m : SMap W32) : SMap W32 := (m.map fun e => (e.1, e.2 &&& ~~~gone)).filter fun e => e.2 != 0
  g.updCtl fun c =>
    { c with masks := keep c.masks, marr := keep c.marr, barArr := keep c.barArr, gbarArr := keep c.gbarArr }

/-- A group whose lanes `gone` end (R43): their slots become vacant and their bits leave every mask and
arrival set. DESIGN CHOICE: a register write still on its way lands in the lane's column or word all the same
(notes/assumptions/53). -/
def Group.endFibres (g : Group) (gone : W32) : Group :=
  (g.updFibs gone fun _ _ => Fibre.vacant).leaveMasks gone

/-- `exit` (R43, R229): the lanes whose predicate is true end, the others go to the next header; the
block's barriers are evaluated again (R285, R287). The instruction on the other port of the slot still sees the slots
occupied: it reads `cur.occ`, taken when the slot began. -/
def execExit (p : Nat) (s : State) : Result :=
  asGroup s fun g =>
    match s.regFail [.p p] [] 1 with
    | some e => .next (s.fail e)
    | none =>
      let gone := laneSet fun i => s.cur.lanes.getLsbD i && g.p i p
      let s' := (s.goto fun _ => s.next).updGrp s.cur.grp fun x => x.endFibres gone
      .next ((s'.barCheckAll g.blk).gbarCheckAll g.blk)

/-- The slots that a spawner may take: vacant now and when the slot began (R42). -/
def State.vacantSlots (s : State) : List Nat :=
  (List.range 32).filter fun i => !((s.grp s.cur.grp).fib i).occ && !s.cur.occ.getLsbD i

/-- A spawned fibre (R41). -/
def Fibre.spawned (target : W64) (pred : BitVec 16) (w : Nat) : Fibre :=
  { Fibre.vacant with occ := true, pc := target, pred := pred, wb := w }

/-- A fibre starts in a slot; its bit is clear in every mask and arrival set (R41). -/
def Group.spawn (g : Group) (slot : Nat) (f : Fibre) : Group := (g.leaveMasks (laneSet fun i => i == slot)).updFib slot fun _ => f

/-- The predicates of a word, which `fspawn` reads to copy it (R41, R177; DEDUCED: the copy reads p0 to p14). -/
def wholeWord : List Reg := (List.range 15).map .p

/-- The lanes of `fspawn` with the slots they receive, in ascending order (R42). -/
def spawnPairs (lanes slots : List Nat) : List (Nat × Option Nat) :=
  lanes.mapIdx fun i lane => (lane, slots[i]?)

/-- `fspawn` (R41, R42, R230). -/
def execFspawn (d p w : Nat) (off : Int) (s : State) : Result :=
  asGroup s fun g =>
    match s.regFail wholeWord [.v d, .p p] 6 with
    | some e => .next (s.fail e)
    | none =>
      let pairs := spawnPairs (lanesOf s.cur.lanes) s.vacantSlots
      let writes := pairs.flatMap fun e =>
        match e.2 with
        | some slot => g.resolve e.1 [(.v d, BitVec.ofNat 32 slot), (.p p, 1)]
        | none => g.resolve e.1 [(.p p, 0)]
      let s := s.queue 6 writes
      let s := pairs.foldl
        (fun s e =>
          match e.2 with
          | some slot => s.updGrp s.cur.grp fun x => x.spawn slot
              (Fibre.spawned (branchTarget s.cur.hdr off) (g.fib e.1).pred w)
          | none => s) s
      .next s.finish

/-! ## Hints, breakpoints and user traps (R231 to R234) -/

/-- `yield` marks every active lane (R231). -/
def execYield (s : State) : Result :=
  nowOp s [] fun s => s.updGrp s.cur.grp fun g => g.updFibs s.cur.lanes fun _ f => { f with yielding := true }

/-- `nop` changes no state but the PC (R232). -/
def execNop (s : State) : Result := nowOp s [] id

/-- `bkpt` takes effect at the end of its clause: the lanes remember the code (R233). DESIGN CHOICE: of two in one clause
the code of the later stands (notes/assumptions/67). -/
def execBkpt (code : Nat) (s : State) : Result :=
  nowOp s [] fun s =>
    s.updGrp s.cur.grp fun g => g.updFibs s.cur.lanes fun _ f => { f with bkptCode := some code }

/-- `utrap` completes and then raises the user trap: the record resumes at the next word, or at the next
header when `utrap` ends its clause (R234, R347). -/
def execUtrap (code : Nat) (s : State) : Result :=
  asGroup s fun _ =>
    let c := s.cur
    let iaddr := s.iaddr
    let s := s.finish
    let tpc := if c.idx + 1 ≤ c.nwords then c.hdr else nextHeader c.hdr c.nwords
    let tidx := if c.idx + 1 ≤ c.nwords then c.idx + 1 else 0
    .next (s.takeTrapAt iaddr c.grp c.lanes 0x0B code c.port c.other tpc tidx none).markTrapped

/-- Whether a lane's fibre is neither vacant, waiting, held by trap mode, nor at its entry in the allocation
phase (R26, R69, R349). -/
def State.laneFree (s : State) (g : Nat) (i : Nat) : Bool :=
  let x := s.grp g
  let f := x.fib i
  f.occ && f.wait == .none &&
  !(x.ctl.trapMode && !x.ctl.tlanes.getLsbD i) &&
  !((s.blk x.blk).allocOpen && x.num != 0 && x.handler == .none)

/-- The lanes of a group whose breakpoint takes effect: they executed `bkpt`, wait for nothing, are not held, and stand
at the lowest header that such a lane stands at (R233). DESIGN CHOICE: where a branch has sent the fibres of one `bkpt` to
different headers, those at the lowest trap first, with the code of the lowest lane, and the others later
(notes/assumptions/67). -/
def State.bkptLanes (s : State) (g : Nat) : W32 :=
  let x := s.grp g
  let at_ (i : Nat) : Bool :=
    s.laneFree g i && (x.fib i).bkptCode.isSome && (x.fib i).code.isNone && (x.fib i).next == 0
  let pcs := ((List.range 32).filter at_).map fun i => (x.fib i).pc.toNat
  match pcs.min? with
  | none => 0
  | some pc => laneSet fun i => at_ i && (x.fib i).pc.toNat == pc

/-- The effect of a breakpoint at the header its fibres have reached (R233, R353, R364): with a debugger
attached the group halts; otherwise those fibres take the breakpoint trap. DESIGN CHOICE: the record of a trap at a
header that no slot has issued has PORT 0 and TOLANES 0 (notes/assumptions/52). -/
def State.breakAt (s : State) (g : Nat) : State :=
  let x := s.grp g
  let lanes := s.bkptLanes g
  if lanes = 0 then s
  else
    let f := x.fib (firstLane lanes)
    if (s.ctx (s.ctxOf g)).dbgatt then s.haltGroup g
    else (s.updGrp g fun y => y.updFibs lanes fun _ f => { f with bkptCode := none }).takeTrap g lanes 0x0C (f.bkptCode.getD 0) 0 0 f.pc 0 none

/-! ## Masks (R235 to R237) -/

/-- A change made to a lane mask (R44). -/
def Group.updMask (g : Group) (m : Nat) (f : W32 → W32) : Group :=
  g.updCtl fun c => { c with masks := put 0 c.masks m (f (look 0 c.masks m)) }

/-- `mjoin` (R44). -/
def execMjoin (m : Nat) (s : State) : Result :=
  nowOp s [] fun s => s.updGrp s.cur.grp fun g => g.updMask m fun x => x ||| s.cur.lanes

/-- `mleave` (R44). -/
def execMleave (m : Nat) (s : State) : Result :=
  nowOp s [] fun s => s.updGrp s.cur.grp fun g => g.updMask m fun x => x &&& ~~~s.cur.lanes

/-- `mwait` (R45): a lane whose bit is set arrives and waits; a lane whose bit is clear completes. -/
def execMwait (m : Nat) (s : State) : Result :=
  nowOp s [] fun s =>
    s.updGrp s.cur.grp fun g =>
      let arriving := s.cur.lanes &&& g.mask m
      (g.updCtl fun c => { c with marr := put 0 c.marr m (look 0 c.marr m ||| arriving) }).updFibs arriving
        fun _ f => { f with wait := .mask m }

/-- `mset` (R236). -/
def execMset (m k mode : Nat) (s : State) : Result :=
  nowOp s [.s k] fun s =>
    s.updGrp s.cur.grp fun g => g.updMask m fun x =>
      if mode = 0 then g.s k else if mode = 1 then x ||| g.s k else x &&& ~~~g.s k

/-- `mget` (R237): a slot that `exit` vacates in this issue slot still counts as occupied (R43). -/
def execMget (d m mode : Nat) (s : State) : Result :=
  scalarOp s 6 [] [.s d] fun g =>
    [(.s d, if mode = 0 then g.mask m else if mode = 1 then g.marr m
      else if mode = 2 then s.cur.lanes else s.cur.occ)]

/-! ## Votes (R47, R238, R239) -/

/-- The lanes that contribute to a cross-lane instruction under a mask: in the mask, in the issuing set,
guard true (R47). -/
def State.contributors (s : State) (m : Nat) : W32 := s.cur.lanes &&& (s.grp s.cur.grp).mask m

/-- `vote` (R238). -/
def execVote (d pa m q mode : Nat) (s : State) : Result :=
  let c := s.contributors m
  let yes (g : Group) : W32 := laneSet fun i => c.getLsbD i && g.p i pa
  let t (g : Group) : Nat := popCount (yes g)
  if mode = 0 then crossOp s 6 c [.p pa] [] [.v d] fun g _ => [(.v d, yes g)]
  else if mode = 1 then
    crossOp s 6 c [.p pa] [] [.v d] fun g _ => [(.v d, BitVec.ofNat 32 (t g + popCount c * 256))]
  else crossOp s 6 c [.p pa] [] [.p d] fun g _ => [(.p d, boolWord (quorum q (t g) (popCount c)))]

/-- `match` (R239): an active lane that does not contribute receives 0. -/
def execMatchl (d a m : Nat) (w64 : Bool) (s : State) : Result :=
  let c := s.contributors m
  let rd := if w64 then vpair a else [.v a]
  crossOp s 6 c rd [] [.v d] fun g i =>
    let same (j : Nat) : Bool := g.v i a == g.v j a && (!w64 || g.v i (a + 1) == g.v j (a + 1))
    [(.v d, if c.getLsbD i then laneSet fun j => c.getLsbD j && same j else 0)]

end Sys2Proof.Machine
end

