-- ==== Sys2Proof/Machine/Translate.lean ====
section
/-!
DEFINITION. Address translation (R369 to R387): page-table walks, translation caches, the checks of an
instruction's addresses, and page requests (R355).
-/
namespace Sys2Proof.Machine

/-- What an access needs of its leaf (R380). -/
inductive Access where
  | read
  | write
  | both
  | fetch
deriving DecidableEq, Repr

/-- Whether a leaf permits an access (R380). -/
def TlbEnt.permits (e : TlbEnt) : Access → Bool
  | .read => e.r
  | .write => e.w
  | .both => e.r && e.w
  | .fetch => e.x

/-! ## Walks (R375 to R378, R382) -/

/-- A level of the tables: the lowest index bit, the index width, the page size of a leaf at this level,
and the alignment of the table in address bits (R375). -/
structure Level where
  lo : Nat
  wd : Nat
  align : Nat
  leaf : Bool
  last : Bool
deriving DecidableEq, Repr

/-- The four levels (R375). -/
def levels : List Level :=
  [⟨43, 14, 17, false, false⟩, ⟨30, 13, 16, true, false⟩, ⟨21, 9, 12, true, false⟩, ⟨16, 5, 8, true, true⟩]

/-- The home of a physical address under a leaf's placement (R371, R387). -/
def State.homeFor (s : State) (ctx place pa : Nat) : Option Home :=
  homeOf s.mgmt.dirsz (s.partIsles (s.ctx ctx).part) place pa

/-- Whether a physical address may stand in a leaf of a placement: the space agrees and the address
names memory (R369, R371, R378). -/
def State.placed (s : State) (ctx place pa : Nat) : Bool :=
  let sp := spaceOf pa
  if place = 0 ∧ (sp = 3 ∨ sp = 4) then s.namesMemory pa
  else (s.homeFor ctx place pa).isSome

/-- The leaf of an entry for a page of 2^log bytes, unless the entry is malformed (R377, R378). -/
def State.leafOf (s : State) (ctx log vpn w : Nat) : Option TlbEnt :=
  let place := bits w 6 2
  let pa := bits w 16 40 * 2 ^ 16
  if bits w 5 1 = 0 ∧ bits w 8 8 = 0 ∧ bits w 56 8 = 0 ∧ pa % 2 ^ log = 0 ∧
      s.placed ctx place pa = true ∧ s.placed ctx place (pa + 2 ^ log - 1) = true then
    some ⟨ctx, log, vpn, pa, place, w.testBit 2, w.testBit 3, w.testBit 4⟩
  else none

/-- The next table of a table entry, unless the entry is malformed (R376, R378). -/
def nextTable (align w : Nat) : Option Nat :=
  let pa := bits w 8 48 * 2 ^ 8
  if bits w 2 6 = 0 ∧ bits w 56 8 = 0 ∧ pa % 2 ^ align = 0 then some pa else none

/-- What an entry of a table comes to (R376 to R378): a malformed one counts as not present. -/
inductive Entry where
  | leaf (e : TlbEnt)
  | table (pa : Nat)
  | absent
deriving DecidableEq, Repr

/-- An entry `w` read at the first of the levels that are left. -/
def State.entryOf (s : State) (ctx va : Nat) : List Level → Nat → Entry
  | [], _ => .absent
  | l :: t, w =>
    if w.testBit 0 = false then .absent
    else if w.testBit 1 then
      match l.leaf, s.leafOf ctx l.lo (va / 2 ^ l.lo) w with
      | true, some e => .leaf e
      | _, _ => .absent
    else if l.last then .absent
    else
      match t with
      | [] => .absent
      | n :: _ => (nextTable n.align w).elim .absent .table

/-- What a walk ends with. -/
inductive Walked where
  | leaf (e : TlbEnt)
  | absent
  | poisoned
deriving DecidableEq, Repr

/-- The place of an address's entry in a table (R375). -/
def Level.entryAt (l : Level) (table va : Nat) : Nat := table + 8 * bits va l.lo l.wd

/-- What a walk from a table through the levels that are left would end with now (R375, R382), as far as memory tells: an
entry that has no home counts as not present. -/
def State.walkFrom (s : State) (ctx va : Nat) : List Level → Nat → Walked
  | [], _ => .absent
  | l :: t, table =>
    match s.physHome (l.entryAt table va) with
    | none => .absent
    | some h =>
      if (s.poisonAt h.loc).testBit (h.loc % 128 / 32) then .poisoned
      else
        match s.entryOf ctx va (l :: t) (readBytes s.mem h.loc 8) with
        | .leaf e => .leaf e
        | .table p => s.walkFrom ctx va t p
        | .absent => .absent

/-- The low 57 bits of a virtual address (R375). -/
def vaBits (va : W64) : Nat := va.toNat % 2 ^ 57

/-- What a walk of a context for an address would end with now (R379). -/
def State.walk (s : State) (ctx va : Nat) : Walked :=
  let root := (s.ctx ctx).root
  if root = 0 then .absent else s.walkFrom ctx va levels root

/-! ## Translation caches (R381) -/

/-- Whether an entry translates a context's address. -/
def TlbEnt.hits (e : TlbEnt) (ctx va : Nat) : Bool := e.ctx == ctx && e.vpn == va / 2 ^ e.log

/-- The leaf that the core's cache or its isle's shared cache holds; engines use the isle's alone. -/
def State.tlbFind (s : State) (core : Option Nat) (isle ctx va : Nat) : Option TlbEnt :=
  let own := match core with
    | some c => (s.core c).tlb.find? fun e => e.hits ctx va
    | none => none
  match own with
  | some e => some e
  | none => (look [] s.itlb isle).find? fun e => e.hits ctx va

/-- A leaf put into an isle's shared cache of 8,192 entries. DESIGN CHOICE: a full cache drops its oldest entry; the
replacement order is not visible to programs (R381, notes/assumptions/58). -/
def State.fillIsle (s : State) (isle : Nat) (e : TlbEnt) : State :=
  { s with itlb := place s.itlb isle ((e :: look [] s.itlb isle).take 8192) }

/-- A leaf put into a core's cache of 128 entries, once. DESIGN CHOICE: a full cache drops its oldest entry
(notes/assumptions/58). -/
def State.fillCore (s : State) (core : Nat) (e : TlbEnt) : State :=
  if (s.core core).tlb.contains e then s
  else s.updCore core fun c => { c with tlb := (e :: c.tlb).take 128 }

/-! ## Translating one address -/

/-- Where an access goes: its physical address and placement. -/
structure Xl where
  pa : Nat
  place : Nat
deriving DecidableEq, Repr

/-- The outcome of a lookup: a translation, a miss that needs a walk, or a failure. -/
inductive Lookup where
  | ok (x : Xl)
  | miss
  | bad (f : XFault)
deriving DecidableEq, Repr

/-- Whether a space-4 address can be routed: to the host, or to another package through a valid route
whose port is up (R374). -/
def State.routable (s : State) (pa : Nat) : Bool :=
  if bits pa 51 1 = 0 then true
  else
    let pid := bits pa 39 12
    let r := look 0 s.mgmt.proute pid
    pid != s.mgmt.peerSelf && r.testBit 5 && (s.port (r % 32)).up

/-- The failure that a walk has left for a waiter's access (R383). -/
def State.walkFailure (s : State) (w : Waiter) (isle ctx va : Nat) : Option XFault :=
  (s.walks.find? fun k => k.isle == isle && k.ctx == ctx && k.failed.isSome &&
    k.waiters.contains (w, va / 2 ^ 16)).bind (·.failed)

/-- Whether some walk in flight has a waiter that satisfies a condition. -/
def State.walkFor (s : State) (p : Waiter → Bool) : Bool := s.walks.any fun k => k.failed.isNone && k.waiters.any fun e => p e.1

/-- Whether a waiter is an access of a group. -/
def Waiter.ofGroup (g : Nat) : Waiter → Bool
  | .group h _ => h == g
  | _ => false

/-- Whether a waiter is an access of one of some lanes of a group. -/
def Waiter.ofLanes (g : Nat) (lanes : W32) : Waiter → Bool
  | .group h i => h == g && lanes.getLsbD i
  | _ => false

/-- The lookup of an address for an access (R380 to R383). -/
def State.lookup (s : State) (w : Waiter) (core : Option Nat) (isle ctx : Nat) (va : W64) (a : Access) :
    Lookup :=
  if canonical va = false then .bad .nonCanonical
  else
    let v := vaBits va
    match s.tlbFind core isle ctx v with
    | some e =>
      let pa := e.pa + v % 2 ^ e.log
      if e.permits a = false then .bad .permission
      else if spaceOf pa = 4 ∧ s.routable pa = false then .bad .unrouted
      else .ok ⟨pa, e.place⟩
    | none =>
      match s.walkFailure w isle ctx v with
      | some f => .bad f
      | none => .miss

/-- Whether the walk for a 64 KiB piece of a context's addresses is a walk for the page of an address: the piece is the
address's own, or the tables give both one leaf (R383). -/
def State.samePage (s : State) (ctx vpn va : Nat) : Bool :=
  vpn == va / 2 ^ 16 || match s.walk ctx (vpn * 2 ^ 16) with
    | .leaf e => e.hits ctx va
    | _ => false

/-- A walk started for a waiter, or the walk in flight for the same page joined (R383). -/
def State.startWalk (s : State) (w : Waiter) (isle ctx : Nat) (va : W64) : State :=
  let vpn := vaBits va / 2 ^ 16
  let same (k : Walk) : Bool := k.isle == isle && k.ctx == ctx && k.failed.isNone && s.samePage ctx k.vpn (vaBits va)
  if s.walks.any same then
    { s with walks := s.walks.map fun k =>
        if same k ∧ k.waiters.contains (w, vpn) = false then { k with waiters := k.waiters ++ [(w, vpn)] } else k }
  else { s.took with walks := s.walks ++ [⟨s.fresh, isle, ctx, vpn, s.bclk, 0, (s.ctx ctx).root, [(w, vpn)], none⟩] }

/-- The waiters that satisfy a condition have taken their answers: they leave every walk that has ended (R383). -/
def State.walksTaken (s : State) (p : Waiter → Bool) : State :=
  { s with walks := s.walks.filterMap fun k =>
      if k.failed.isNone then some k
      else
        let rest := k.waiters.filter fun e => !p e.1
        if rest.isEmpty then none else some { k with waiters := rest } }

/-- A waiter has taken its answers (R383). -/
def State.tookWalks (s : State) (w : Waiter) : State := s.walksTaken (· == w)

/-- The accesses of some lanes of a group have taken their answers (R383). -/
def State.tookLanes (s : State) (g : Nat) (lanes : W32) : State := s.walksTaken (Waiter.ofLanes g lanes)

/-- INFO of a translation fault (R351). -/
def XFault.info : XFault → Nat
  | .notPresent => 1
  | .permission => 2
  | .nonCanonical => 3
  | .poisoned => 4
  | .unsupported => 5
  | .unrouted => 1

/-- The code of R321 for a translation fault. -/
def XFault.code : XFault → Nat
  | .permission => 0x12
  | .poisoned => 0x13
  | _ => 0x11

/-! ## Translating the addresses of an instruction (R121, R348, R355) -/

/-- An address to translate: its lane, what it needs, and the spaces that do not support the access
(R279, R283). -/
structure Want where
  lane : Nat
  va : W64
  acc : Access
  refuse : List Nat
deriving DecidableEq, Repr

/-- What an instruction's translation comes to: all addresses, a wait for walks by lane and address, a trap, or a
recoverable fault. -/
inductive Xlated where
  | all (l : List (Want × Xl))
  | wait (l : List (Nat × W64))
  | trap (f : Fail)
  | demand (va : W64)
deriving DecidableEq, Repr

/-- Whether a fault is recoverable in a context: a not-present translation under DEMAND (R355). -/
def State.recoverable (s : State) (ctx : Nat) (f : XFault) : Bool :=
  f == .notPresent && (s.ctx ctx).demand

/-- The lookup of an address with the spaces its access does not support. -/
def State.lookupWant (s : State) (w : Waiter) (core : Option Nat) (isle ctx : Nat) (x : Want) : Lookup :=
  match s.lookup w core isle ctx x.va x.acc with
  | .ok y => if x.refuse.contains (spaceOf y.pa) then .bad .unsupported else .ok y
  | r => r

/-- The addresses of a group's instruction looked up: misses first, then the unrecoverable fault of the lowest
lane, then the recoverable one (R266, R348). DESIGN CHOICE: all its lanes look up at one instant
(notes/assumptions/58). -/
def State.xlateAll (s : State) (g : Nat) (core : Option Nat) (isle ctx : Nat) (l : List Want) : Xlated :=
  let r := l.map fun x => (x, s.lookupWant (.group g x.lane) core isle ctx x)
  let misses := r.filterMap fun e => match e.2 with
    | .miss => some (e.1.lane, e.1.va)
    | _ => none
  let bad (rec_ : Bool) := r.findSome? fun e => match e.2 with
    | .bad f => if s.recoverable ctx f == rec_ then some (e.1.va, f) else none
    | _ => none
  if misses ≠ [] then .wait misses
  else
    match bad false with
    | some (va, f) => .trap (Fail.translation f.info va)
    | none =>
      match bad true with
      | some (va, _) => .demand va
      | none => .all (r.filterMap fun e => match e.2 with
          | .ok x => some (e.1, x)
          | _ => none)

/-- The report of kind 0x08 of a page request (R355, R356). -/
def State.pageReport (s : State) (k : Nat) (core block group id : Nat) (iaddr va : W64) : Report :=
  { s.reportOf 0x08 k with
    core := core, block := block, group := group, reqid := id, iaddr := iaddr, vaddr := va }

/-- The first number at or after `n` that none of the outstanding requests has (R356). -/
def freeReq (used : List Nat) (n : Nat) : Nat → Nat
  | 0 => n
  | k + 1 => if used.contains n then freeReq used ((n + 1) % 65536) k else n

/-- A page request is recorded and reported, unless the ring is full: its report then waits for room
(R355). -/
def State.askPage (s : State) (ctx grp : Nat) (lanes : W32) (hdr : W64) (idx port : Nat) (r : Report) :
    State × Nat :=
  let used := (s.pageReqs.filter (·.ctx == ctx)).map (·.id)
  let id := freeReq used (s.ctx ctx).nextReq used.length
  let full := s.ringFull ctx
  let s := s.updCtx ctx fun c => { c with nextReq := (id + 1) % 65536 }
  let s := { s with pageReqs := s.pageReqs ++ [⟨ctx, id, grp, lanes, hdr, idx, port, false, !full, { r with reqid := id }⟩] }
  (if full then s else s.report { r with reqid := id }, id)

/-- The reports of page requests that wait for room in a context's ring are written as far as there is room
(R355). -/
def State.reportPages (s : State) (ctx : Nat) : State :=
  s.pageReqs.foldl
    (fun (s : State) (r : PageReq) =>
      let mark (x : PageReq) : PageReq := if x.ctx = ctx ∧ x.id = r.id then { x with reported := true } else x
      if r.ctx = ctx ∧ r.reported = false ∧ s.ringFull ctx = false then
        { s with pageReqs := s.pageReqs.map mark }.report r.rep
      else s) s

/-- Fibres held on a page request (R355), or the trap of a refused one in a context without a ring
(R357). -/
def State.demandPage (s : State) (g : Nat) (lanes : W32) (hdr : W64) (idx port : Nat) (other : W32)
    (va : W64) : State :=
  let ctx := s.ctxOf g
  if s.hasRing ctx = false then
    (s.dropReport ctx).takeTrap g lanes 8 1 port other hdr idx (some va)
  else
    let x := s.grp g
    let iaddr := hdr + BitVec.ofNat 64 (4 * idx)
    let r := s.pageReport (s.gangOf g) x.core (s.blk x.blk).num x.num 0 iaddr va
    let (s, id) := s.askPage ctx g lanes hdr idx port r
    s.updGrp g fun y => y.updFibs lanes fun _ f => { f with wait := .page id }

/-- The group's issue is held until its walks have ended (R383). -/
def State.holdForWalk (s : State) (g : Nat) (l : List (Nat × W64)) : State :=
  let core := (s.grp g).core
  let ctx := s.ctxOf g
  let s := l.foldl (fun s e => s.startWalk (.group g e.1) (isleOf core) ctx e.2) s
  s.updGrp g fun x => { x with walkHold := true }

/-- The shape of an instruction with global addresses (R121, R266): register checks and alignment, then
every address translated, then `k` on the translations. The instruction that waits for a walk, or whose
page is requested, has not performed and issues again. -/
def withAddresses (s : State) (wants : Group → List Want) (k : State → List (Want × Xl) → State) : State :=
  let g := s.cur.grp
  let core := (s.grp g).core
  match s.xlateAll g (some core) (isleOf core) (s.ctxOf g) (wants (s.grp g)) with
  | .wait l => s.holdForWalk g l
  | .trap f => (s.tookLanes g s.cur.lanes).fail f
  | .demand va =>
    ((s.tookLanes g s.cur.lanes).demandPage g s.cur.lanes s.cur.hdr s.cur.idx s.cur.port s.cur.other va).markTrapped
  | .all l =>
    let ctx := s.ctxOf g
    let s := s.tookLanes g s.cur.lanes
    let s := l.foldl
      (fun s e => match s.tlbFind (some core) (isleOf core) ctx (vaBits e.1.va) with
        | some ent => s.fillCore core ent
        | none => s) s
    k s l

/-- A walk ends (R382, R383): a leaf goes into the isle's cache; anything else is left as the failure of
its waiters; groups that wait for nothing else may issue again. -/
def State.endWalk (s : State) (w : Walk) (r : Walked) : State :=
  let s := s.dropTicket (.walk w.id)
  let rest := s.walks.filter (· != w)
  let s := match r with
    | .leaf e => { s with walks := rest }.fillIsle w.isle e
    | .absent => { s with walks := rest ++ [{ w with failed := some .notPresent }] }
    | .poisoned => { s with walks := rest ++ [{ w with failed := some .poisoned }] }
  w.waiters.foldl
    (fun s x => match x.1 with
      | .group g _ =>
        if s.walkFor (Waiter.ofGroup g) then s
        else s.updGrp g fun y => { y with walkHold := false }
      | _ => s) s

/-- A walk goes on at its level (R375, R382, R384): it reads the entry at home, or where its space goes (R373), by a packet
of its isle's walkers, as a strong load, and takes what has come. A root of 0 or an address that names no memory is not
present (R379). -/
def State.stepWalk (s : State) (w : Walk) : State :=
  let va := w.vpn * 2 ^ 16
  let left := levels.drop w.level
  match left with
  | [] => s.endWalk w .absent
  | l :: _ =>
    let at_ := l.entryAt w.table va
    if (w.level = 0 ∧ w.table = 0) ∨ s.namesMemory at_ = false then s.endWalk w .absent
    else
      let p := { linePacket 0x02 vcL 0 w.isle unitWalker w.ctx (s.physHome at_) at_ with aux := [0, 0, 0, 0, at_ % 128 / 64] }
      match s.ask (.walk w.id) w.level p with
      | .wait s => s
      | .got d poison =>
        if poison.testBit (at_ % 128 / 32) then s.endWalk w .poisoned
        else
          match s.entryOf w.ctx va left (lineGet d (at_ % 128) 8) with
          | .leaf e => s.endWalk w (.leaf e)
          | .absent => s.endWalk w .absent
          | .table p =>
            { s with walks := s.walks.map fun k =>
                if k.id = w.id then { k with level := w.level + 1, table := p } else k }

/-- The walks that have a walker: the first 64 in flight of each isle (R381, R383). -/
def State.walking (s : State) (isle : Nat) : List Walk :=
  (s.walks.filter fun k => k.isle == isle && k.failed.isNone).take 64

/-- The walks with a walker that wait for no answer, while the walkers can send (R492). -/
def State.walksReady (s : State) (isle : Nat) : List Walk :=
  if s.sendFull isle unitWalker vcL then [] else (s.walking isle).filter fun k => !s.asking (.walk k.id)

/-- TRANSLATION_WALK: one of the isle's walkers goes on with its walk for a context's page. -/
def execTranslationWalk (isle ctx vpn : Nat) (s : State) : Result :=
  match (s.walksReady isle).find? fun k => k.ctx == ctx && k.vpn == vpn with
  | some w => .next (s.stepWalk w)
  | none => .next s

/-- The walks that may go on. -/
def State.dueWalks (s : State) : List Instr :=
  ((s.walks.map (·.isle)).dedup.flatMap s.walksReady).map fun k => .translationWalk k.isle k.ctx k.vpn

end Sys2Proof.Machine
end

