-- ==== Sys2Proof/Machine/Regs.lean ====
section
/-!
DEFINITION. The device-register map (R6, R369) and what its registers read as.
-/
namespace Sys2Proof.Machine

/-- A register of the map, by what it belongs to. -/
inductive DevReg where
  | nearcfg
  | ctxBlock (c : Nat)
  | ctxt (c : Nat)
  | part (n : Nat)
  | region (i : Nat)
  | strutil (isle : Nat)
  | lreq (isle c : Nat)
  | engreq (isle c : Nat)
  | wake (port : Nat)
  | mint
  | schedcfg
  | qctl (n : Nat)
  | clkctl (n : Nat)
  | chippwr (m : Nat)
  | pkgpwr
  | ptime
  | tsync
  | cgcfg
  | cgstat
  | member (j : Nat)
  | chipctl (m : Nat)
  | bootstat
  | hwin
  | intsrc (k : Nat)
  | msix (v : Nat)
  | msixPending
  | svcmd
  | peercfg
  | pwin
  | proute (pid : Nat)
deriving DecidableEq, Repr

/-- A register's place: its first byte and its bytes. -/
structure DevPlace where
  reg : DevReg
  base : Nat
  size : Nat
deriving DecidableEq, Repr

/-- The element of an array of registers that holds an offset. -/
def arrayAt (off base size n : Nat) (f : Nat → DevReg) : Option DevPlace :=
  let i := (off - base) / size
  if base ≤ off ∧ i < n then some ⟨f i, base + size * i, size⟩ else none

/-- The register that holds a byte of an isle's counter block (R409, R410). -/
def countersAt (off : Nat) : Option DevPlace :=
  if 0x50000 ≤ off ∧ off < 0x60000 then
    let isle := (off - 0x50000) / 0x1000
    let base := 0x50000 + 0x1000 * isle
    (arrayAt off base 16 1 fun _ => .strutil isle).orElse fun _ =>
    (arrayAt off (base + 0x40) 16 64 fun c => .lreq isle c).orElse fun _ =>
    arrayAt off (base + 0x440) 16 64 fun c => .engreq isle c
  else none

/-- An array of registers of one kind: its first byte, a register's bytes and their number. -/
structure DevArray where
  base : Nat
  size : Nat
  n : Nat
  reg : Nat → DevReg

/-- The arrays of registers of the map (R369), in the order of their addresses. -/
def devArrays : List DevArray :=
  [⟨0x100, 8, 1, fun _ => .nearcfg⟩, ⟨0x10000, 64, 64, .ctxBlock⟩, ⟨0x20000, 16, 64, .ctxt⟩,
   ⟨0x30000, 8, 16, .part⟩, ⟨0x40000, 32, 1024, .region⟩, ⟨0x60000, 64, 64, .wake⟩,
   ⟨0x61000, 64, 1, fun _ => .wake 64⟩, ⟨0x62000, 32, 1, fun _ => .mint⟩, ⟨0x63000, 8, 1, fun _ => .schedcfg⟩,
   ⟨0x70000, 32, 1024, .qctl⟩] ++
  [⟨0x80000, 16, 64, .clkctl⟩, ⟨0x80800, 8, 16, .chippwr⟩, ⟨0x81000, 8, 1, fun _ => .pkgpwr⟩,
   ⟨0x82000, 8, 1, fun _ => .ptime⟩, ⟨0x82008, 8, 1, fun _ => .tsync⟩, ⟨0x83000, 8, 1, fun _ => .cgcfg⟩,
   ⟨0x83008, 8, 1, fun _ => .cgstat⟩, ⟨0x84000, 8, 4096, .member⟩, ⟨0x90000, 16, 16, .chipctl⟩,
   ⟨0x91000, 8, 1, fun _ => .bootstat⟩] ++
  [⟨0x92000, 8, 1, fun _ => .hwin⟩, ⟨0x93000, 8, 96, .intsrc⟩, ⟨0x94000, 16, 64, .msix⟩,
   ⟨0x95000, 8, 1, fun _ => .msixPending⟩, ⟨0x98000, 64, 1, fun _ => .svcmd⟩,
   ⟨0xA0000, 8, 1, fun _ => .peercfg⟩, ⟨0xA0008, 8, 1, fun _ => .pwin⟩, ⟨0xA1000, 4, 4096, .proute⟩]

/-- The register that holds a byte of the map; `none` where no register is defined (R369). -/
def devAt (off : Nat) : Option DevPlace :=
  match devArrays.findSome? (fun a => arrayAt off a.base a.size a.n a.reg) with
  | some p => some p
  | none => countersAt off

/-- Bits [31:0] of a context control block (R341). -/
def Ctx.control (c : Ctx) : Nat :=
  bit c.chk + bit c.demand * 2 + bit c.dbgatt * 4 + bit c.dbgstop * 8 + bit c.tlbi * 16 + bit c.dbgr * 32 +
  c.lease % 256 * 256 + c.frlog % 16 * 65536

/-- A context control block (R341). -/
def Ctx.word (c : Ctx) : Nat :=
  c.control + c.frbase * 2 ^ 64 + c.frtail * 2 ^ 128 + c.frhead * 2 ^ 160 + c.frdrop * 2 ^ 192 +
  bit c.bp0en * 2 ^ 256 + c.bp0 * 2 ^ 258 + bit c.bp1en * 2 ^ 320 + c.bp1 * 2 ^ 322

/-- A region-table entry (R403). -/
def Region.word (r : Region) : Nat :=
  bit r.v + r.log2sz * 2 + r.w * 2 ^ 8 + r.hisle * 2 ^ 16 + r.hslice * 2 ^ 20 + r.bound.toNat * 2 ^ 32 +
  r.base * 2 ^ 64 + r.unalloc * 2 ^ 128 + r.lost.toNat * 2 ^ 192

/-- A queue control register (R415). -/
def Queue.word (q : Queue) : Nat :=
  bit q.en + q.pri * 2 + q.owner * 2 ^ 5 + q.len * 2 ^ 32 + q.base * 2 ^ 64 + q.nonce * 2 ^ 128 +
  q.head * 2 ^ 160 + q.tail * 2 ^ 192 + q.drops * 2 ^ 224

/-- A cluster control register (R433). -/
def Cluster.word (c : Cluster) : Nat :=
  c.req + c.cur * 2 ^ 8 + c.ratio * 2 ^ 16 + bit (c.st != .steady) * 2 ^ 18 + bit c.pendStep.isSome * 2 ^ 19 +
  bit c.mheavy * 2 ^ 20 + c.budget * 2 ^ 32

/-- A member-table entry (R446). -/
def Member.word (m : Member) : Nat :=
  m.l + bit m.present * 2 ^ 7 + bit m.suspect * 2 ^ 8 + m.h % 2 ^ 48 * 2 ^ 16

/-- The supervisor command port (R368). -/
def SvCmd.word (c : SvCmd) : Nat :=
  c.ctx * 2 ^ 8 + c.arg * 2 ^ 16 + c.gang * 2 ^ 32 + bit c.act * 2 ^ 64 + c.img * 2 ^ 128 + c.imgLen * 2 ^ 192 +
  bit c.busy * 2 ^ 256 + c.result * 2 ^ 264

/-- What a register reads as, as one number (R6). -/
def State.readReg (s : State) : DevReg → Nat
  | .nearcfg => s.mgmt.dirsz
  | .ctxBlock c => (s.ctx c).word
  | .ctxt c => (s.ctx c).root + (s.ctx c).part * 2 ^ 64
  | .part n => look (if n = 0 then 0xFFFF else 0) s.mgmt.parts n
  | .region i => (look Region.reset s.regions i).word
  | .strutil isle =>
    let u (d : Nat) : Nat := look 0 s.mesh.utilLast (4 * isle + d)
    u 0 + u 1 * 2 ^ 32 + u 2 * 2 ^ 64 + u 3 * 2 ^ 96
  | .lreq isle c => look 0 s.mesh.lreqLocal (isle * 64 + c) + look 0 s.mesh.lreqRemote (isle * 64 + c) * 2 ^ 64
  | .engreq isle c => look 0 s.mesh.engLocal (isle * 64 + c) + look 0 s.mesh.engRemote (isle * 64 + c) * 2 ^ 64
  | .wake p => look 0 s.disp.wake p
  | .mint => s.disp.mint + (Config.capSeal (BitVec.ofNat 160 s.disp.mint)).toNat * 2 ^ 160
  | .schedcfg => s.disp.hbthr + s.disp.slewa * 2 ^ 19 + s.disp.slewptr * 2 ^ 32
  | .qctl n => (look Queue.reset s.disp.queues n).word
  | .clkctl n => (s.cluster n).word
  | .chippwr m => (s.chip m).tokens
  | .pkgpwr => s.ceil.plim + s.ceil.swcap * 2 ^ 8 + s.ceil.pwr * 2 ^ 16 + s.ceil.mhfrac * 2 ^ 32
  | .ptime => s.ptime
  | .tsync => bit s.sync.master + s.sync.upport * 2 + bit s.sync.locked * 2 ^ 6 + s.sync.syncint * 2 ^ 8 +
      s.sync.tskew * 2 ^ 16
  | .cgcfg => bit s.ceil.en + s.ceil.self * 2 + s.ceil.nmem * 2 ^ 13 + s.ceil.mcast * 2 ^ 32 + s.ceil.hbint * 2 ^ 56
  | .cgstat => s.ceil.c + bit s.ceil.expelled * 2 ^ 7 + s.ceil.ebite * 2 ^ 8 + s.ceil.late * 2 ^ 24 +
      s.ceil.expels * 2 ^ 40
  | .member j => (look Member.absent s.ceil.members j).word
  | .chipctl m =>
    let c := s.chip m
    c.state * 4 + c.cause * 16 + c.discard * 2 ^ 32 + c.ftime * 2 ^ 64
  | .bootstat => s.mgmt.phase + bit s.mgmt.fail * 16
  | .hwin => s.mgmt.hwin
  | .intsrc k => look (k % 64) s.mgmt.intVec k + look 0 s.mgmt.intEn k * 2 ^ 6 + look 0 s.mgmt.intPend k * 2 ^ 7
  | .msix v =>
    let w (i : Nat) : Nat := look (if i = 3 then 1 else 0) s.mgmt.msixTable (4 * v + i)
    w 0 + w 1 * 2 ^ 32 + w 2 * 2 ^ 64 + w 3 * 2 ^ 96
  | .msixPending => (List.range 64).foldl (fun acc v => acc + look 0 s.mgmt.msixTable (1000 + v) * 2 ^ v) 0
  | .svcmd => s.mgmt.sv.word
  | .peercfg => s.mgmt.peerSelf + bit s.mgmt.pen * 2 ^ 12
  | .pwin => s.mgmt.pwin
  | .proute pid => look 0 s.mgmt.proute pid

/-- A byte of the register map (R369): zero where no register is defined. -/
def State.devByte (s : State) (off : Nat) : Nat :=
  match devAt off with
  | some p => s.readReg p.reg / 256 ^ (off - p.base) % 256
  | none => 0

/-- `n` bytes of the register map, little-endian. -/
def State.devRead (s : State) (off : Nat) : Nat → Nat
  | 0 => 0
  | n + 1 => s.devByte off + 256 * State.devRead s (off + 1) n

end Sys2Proof.Machine
end

