-- ==== Sys2Proof/Machine/Float.lean ====
section
/-!
DEFINITION. Floating-point formats, exact values and rounding (R79 to R91, R95 to R97).

A finite value is held exactly as sign, mantissa and exponent of two, so that a result is formed
exactly and rounded once by `roundF`.  A value whose tail is not representable carries it as the
Boolean `sticky`: the exact magnitude lies strictly between m and m + 1 units.
-/
namespace Sys2Proof.Machine

/-- A floating-point format (R79): exponent bits, fraction bits, bias, and whether the all-ones exponent
holds numbers (E4M3). -/
structure Fmt where
  eb : Nat
  fb : Nat
  bias : Nat
  e4m3 : Bool
deriving DecidableEq, Repr

/-- FP32. -/
def fp32 : Fmt := ⟨8, 23, 127, false⟩
/-- FP64. -/
def fp64 : Fmt := ⟨11, 52, 1023, false⟩
/-- FP16. -/
def fp16 : Fmt := ⟨5, 10, 15, false⟩
/-- BF16. -/
def bf16 : Fmt := ⟨8, 7, 127, false⟩
/-- E4M3. -/
def fmtE4m3 : Fmt := ⟨4, 3, 7, true⟩
/-- E5M2. -/
def fmtE5m2 : Fmt := ⟨5, 2, 15, false⟩

/-- The format of a code of R253 and of R92's FMT. -/
def fmtOf (code : Nat) : Fmt :=
  if code = 0 then fp32 else if code = 1 then fp64 else if code = 2 then fp16
  else if code = 3 then bf16 else if code = 4 then fmtE4m3 else fmtE5m2

/-- The bits of a format. -/
def Fmt.width (f : Fmt) : Nat := 1 + f.eb + f.fb

/-- The default NaN (R79, R81). -/
def Fmt.nan (f : Fmt) : Nat :=
  if f.e4m3 then 0x7F else (2 ^ f.eb - 1) * 2 ^ f.fb + 2 ^ (f.fb - 1)

/-- A value: NaN, a signed infinity, a signed zero, or a finite non-zero number (-1)^neg × m × 2^e. -/
inductive Num where
  | nan
  | inf (neg : Bool)
  | zero (neg : Bool)
  | fin (neg : Bool) (m : Nat) (e : Int)
deriving DecidableEq, Repr

/-- The value of a bit pattern (R79, R80). -/
def Fmt.decode (f : Fmt) (x : Nat) : Num :=
  let neg := x.testBit (f.eb + f.fb)
  let e := x / 2 ^ f.fb % 2 ^ f.eb
  let m := x % 2 ^ f.fb
  if e = 2 ^ f.eb - 1 ∧ f.e4m3 = false then (if m = 0 then .inf neg else .nan)
  else if e = 2 ^ f.eb - 1 ∧ m = 2 ^ f.fb - 1 then .nan
  else if e = 0 then (if m = 0 then .zero neg else .fin neg m (1 - f.bias - f.fb))
  else .fin neg (m + 2 ^ f.fb) ((e : Int) - f.bias - f.fb)

/-- The sign bit of a format. -/
def Fmt.sign (f : Fmt) (neg : Bool) : Nat := if neg then 2 ^ (f.eb + f.fb) else 0

/-- Zero with a sign. -/
def Fmt.zero (f : Fmt) (neg : Bool) : Nat := f.sign neg

/-- The pattern of infinity (not in E4M3). -/
def Fmt.infinity (f : Fmt) (neg : Bool) : Nat := f.sign neg + (2 ^ f.eb - 1) * 2 ^ f.fb

/-- The pattern of the largest finite magnitude (R79). -/
def Fmt.maxFinite (f : Fmt) (neg : Bool) : Nat :=
  f.sign neg + (if f.e4m3 then 0x7E else (2 ^ f.eb - 1) * 2 ^ f.fb - 1)

/-- The exponent of a finite magnitude's leading bit. -/
def topExp (m : Nat) (e : Int) : Int := e + (Nat.log2 m : Int)

/-- Whether rounding moves a magnitude away from zero (R83): `n` is the truncated magnitude in units of
the grid, `rem` of `2^k` the discarded part, `sticky` a further tail. Mode codes are those of R83. -/
def roundsUp (mode : Nat) (neg : Bool) (n rem k : Nat) (sticky : Bool) : Bool :=
  let inexact := rem != 0 || sticky
  if mode = 0 then
    let twice := 2 * rem
    decide (2 ^ k < twice) || (twice == 2 ^ k && decide (0 < k) && (sticky || n % 2 == 1))
  else if mode = 1 then false
  else if mode = 2 then inexact && !neg
  else if mode = 3 then inexact && neg
  else inexact && n % 2 == 0

/-- A magnitude m × 2^e (and a tail) rounded to a multiple of 2^q, in units of 2^q. -/
def roundGrid (mode : Nat) (neg : Bool) (m : Nat) (e q : Int) (sticky : Bool) : Nat :=
  if q ≤ e then m * 2 ^ (e - q).toNat
  else
    let k := (q - e).toNat
    let n := m / 2 ^ k
    if roundsUp mode neg n (m % 2 ^ k) k sticky then n + 1 else n

/-- The result of an overflow (R84). -/
def Fmt.overflow (f : Fmt) (mode : Nat) (neg sat : Bool) : Nat :=
  if sat then f.maxFinite neg
  else if f.e4m3 then f.nan
  else if mode = 0 then f.infinity neg
  else if mode = 1 ∨ mode = 4 then f.maxFinite neg
  else if mode = 2 then (if neg then f.maxFinite neg else f.infinity neg)
  else (if neg then f.infinity neg else f.maxFinite neg)

/-- The pattern of a rounded magnitude n × 2^q: overflow above the largest finite number, otherwise the
subnormal or normal encoding (R79, R84). -/
def Fmt.encodeMag (f : Fmt) (mode : Nat) (neg sat : Bool) (n : Nat) (q : Int) : Nat :=
  if n = 0 then f.zero neg
  else
    let minQ : Int := 1 - f.bias - f.fb
    let body := if n < 2 ^ f.fb then n else
      let n' := if n = 2 ^ (f.fb + 1) then 2 ^ f.fb else n
      let q' := if n = 2 ^ (f.fb + 1) then q + 1 else q
      ((q' - minQ).toNat + 1) * 2 ^ f.fb + (n' - 2 ^ f.fb)
    if f.maxFinite false < body then f.overflow mode neg sat else f.sign neg + body

/-- RoundF (R84), for a value with a possible tail. -/
def roundFs (x : Num) (sticky : Bool) (f : Fmt) (mode : Nat) (sat : Bool) : Nat :=
  match x with
  | .nan => f.nan
  | .inf neg => if f.e4m3 then (if sat then f.maxFinite neg else f.nan) else f.infinity neg
  | .zero neg => f.zero neg
  | .fin neg m e =>
    let minQ : Int := 1 - f.bias - f.fb
    let q := max minQ (topExp m e - f.fb)
    f.encodeMag mode neg sat (roundGrid mode neg m e q sticky) q

/-- RoundF (R84). -/
def roundF (x : Num) (f : Fmt) (mode : Nat) (sat : Bool) : Nat := roundFs x false f mode sat

/-- The integer nearest a value under a mode (R86). -/
def Num.toInt (mode : Nat) : Num → Int
  | .nan => 0
  | .inf _ => 0
  | .zero _ => 0
  | .fin neg m e =>
    let n : Int := roundGrid mode neg m e 0 false
    if neg then -n else n

/-- RoundInt (R86). -/
def roundInt (x : Num) (mode : Nat) (lo hi : Int) : Int :=
  match x with
  | .nan => 0
  | .inf neg => if neg then lo else hi
  | _ => max lo (min hi (x.toInt mode))

/-- An integer as a value. -/
def numOfInt (n : Int) : Num := if n = 0 then .zero false else .fin (decide (n < 0)) n.natAbs 0

/-- A value scaled by a power of two. -/
def Num.scale (k : Int) : Num → Num
  | .fin neg m e => .fin neg m (e + k)
  | x => x

/-- A value with its sign changed. -/
def Num.neg : Num → Num
  | .nan => .nan
  | .inf s => .inf (!s)
  | .zero s => .zero (!s)
  | .fin s m e => .fin (!s) m e

/-- The exact product (R85): NaN for Inf × 0, the sign the exclusive OR of the signs. -/
def Num.mul : Num → Num → Num
  | .nan, _ => .nan
  | _, .nan => .nan
  | .inf s, .inf t => .inf (s != t)
  | .inf s, .fin t _ _ => .inf (s != t)
  | .fin s _ _, .inf t => .inf (s != t)
  | .inf _, .zero _ => .nan
  | .zero _, .inf _ => .nan
  | .zero s, .zero t => .zero (s != t)
  | .zero s, .fin t _ _ => .zero (s != t)
  | .fin s _ _, .zero t => .zero (s != t)
  | .fin s m e, .fin t n f => .fin (s != t) (m * n) (e + f)

/-- Whether a value is NaN. -/
def Num.isNan : Num → Bool
  | .nan => true
  | _ => false

/-- Whether a value is an infinity of a sign. -/
def Num.isInf (s : Bool) : Num → Bool
  | .inf t => s == t
  | _ => false

/-- Whether a value is negative zero. -/
def Num.isNegZero : Num → Bool
  | .zero true => true
  | _ => false

/-- The least exponent among finite terms. -/
def minExp : List Num → Option Int
  | [] => none
  | .fin _ _ e :: t => some (match minExp t with
    | some f => min e f
    | none => e)
  | _ :: t => minExp t

/-- A term as an integer in units of 2^q, for q at most its exponent. -/
def Num.units (q : Int) : Num → Int
  | .fin s m e => let n : Int := m * 2 ^ (e - q).toNat
    if s then -n else n
  | _ => 0

/-- The exact sum of terms (R85): NaN for a NaN or infinities of both signs; a zero sum is -0 when every
term is -0, and otherwise +0, or -0 under RDN. -/
def sumNums (mode : Nat) (l : List Num) : Num :=
  if l.any Num.isNan || (l.any (Num.isInf false) && l.any (Num.isInf true)) then .nan
  else if l.any (Num.isInf false) then .inf false
  else if l.any (Num.isInf true) then .inf true
  else
    let q := (minExp l).getD 0
    let s : Int := l.foldl (fun acc x => acc + x.units q) 0
    if s = 0 then .zero (l.all Num.isNegZero || mode == 3)
    else .fin (decide (s < 0)) s.natAbs q

/-- The sum of two values. -/
def Num.add (mode : Nat) (a b : Num) : Num := sumNums mode [a, b]

/-- The order of two numbers as exact values, -0 equal to +0; `none` when either is NaN (R247). -/
def Num.compare (a b : Num) : Option Relation :=
  if a.isNan || b.isNan then none
  else if a.isInf false && b.isInf false then some .equal
  else if a.isInf true && b.isInf true then some .equal
  else if a.isInf false || b.isInf true then some .greater
  else if b.isInf false || a.isInf true then some .less
  else
    match sumNums 0 [a, b.neg] with
    | .fin true _ _ => some .less
    | .fin false _ _ => some .greater
    | _ => some .equal

/-- Whether a condition of R247 holds. -/
def fcond (c : Nat) (r : Option Relation) : Bool :=
  match r with
  | none => decide (8 ≤ c)
  | some r =>
    let k := c % 8
    if k = 0 then r == .equal
    else if k = 1 then r != .equal
    else if k = 2 then r == .less
    else if k = 3 then r != .greater
    else if k = 4 then r == .greater
    else if k = 5 then r != .less
    else decide (c < 8)

/-- Whether one number precedes another, with -0 before +0 (R246). -/
def Num.before (a b : Num) : Bool :=
  match a.compare b with
  | some .less => true
  | some .equal => a.isNegZero && !b.isNegZero
  | _ => false

/-- The minimum or maximum of two patterns (R246): an operand unchanged, or the default NaN. -/
def minMax (f : Fmt) (max nanForm : Bool) (x y : Nat) : Nat :=
  let a := f.decode x
  let b := f.decode y
  if a.isNan && b.isNan then f.nan
  else if a.isNan then (if nanForm then f.nan else y)
  else if b.isNan then (if nanForm then f.nan else x)
  else if max then (if a.before b then y else x)
  else (if b.before a then y else x)

/-- The class word of a pattern (R248). -/
def classWord (f : Fmt) (x : Nat) : Nat :=
  let e := x / 2 ^ f.fb % 2 ^ f.eb
  match f.decode x with
  | .nan => 256
  | .inf true => 1
  | .inf false => 128
  | .zero true => 8
  | .zero false => 16
  | .fin true _ _ => if e = 0 then 4 else 2
  | .fin false _ _ => if e = 0 then 32 else 64

/-! ## FB4 codes (R88 to R91) -/

/-- The magnitudes of a code type's index k in halves, or for P2 a power of two (R89). -/
def fb4Mag (ty k : Nat) : Nat × Int :=
  if ty = 1 then ([0, 1, 2, 3, 4, 6, 8, 12].getD k 0, -1)
  else if ty = 2 then (if k = 0 then (0, 0) else (1, (k : Int) - 7))
  else ([0, 1, 2, 3, 4, 6, 8, 12].getD k 0, 0)

/-- The value of a code before its scale (R89); a code with sign 1 and k = 0 reads as +0. -/
def fb4Value (ty c : Nat) : Num :=
  if ty = 0 then numOfInt (signedOf 4 c)
  else
    let (m, e) := fb4Mag ty (c % 8)
    if m = 0 then .zero false else .fin (decide (8 ≤ c)) m e

/-- An E8M0 scale (R90): NaN for 0xFF. -/
def e8m0 (b : Nat) : Num := if b = 255 then .nan else .fin false 1 ((b : Int) - 127)

/-- The scale of an FB4 scale byte (R88). -/
def fb4Scale (b : Nat) : Num := .fin false 1 ((b % 64 : Nat) - 32 : Int)

/-- The index of the greatest magnitude of a type that is at most y, in ascending order of index. -/
def fb4Below (ty : Nat) (y : Num) : Nat :=
  (List.range 8).foldl
    (fun best k =>
      let (m, e) := fb4Mag ty k
      let g : Num := if m = 0 then .zero false else .fin false m e
      if g.compare y = some .greater then best else k) 0

/-- The magnitude of an index as a value. -/
def fb4Num (ty k : Nat) : Num :=
  let (m, e) := fb4Mag ty k
  if m = 0 then .zero false else .fin false m e

/-- EncodeFB4 for a scaled value y (R91). -/
def encodeFb4 (y : Num) (ty mode : Nat) : Nat :=
  match y with
  | .nan => 0
  | .zero _ => 0
  | .inf neg => if ty = 0 then (if neg then 8 else 7) else (if neg then 15 else 7)
  | .fin neg m e =>
    if ty = 0 then
      let n := max (-8) (min 7 ((Num.fin neg m e).toInt mode))
      (n % 16).toNat
    else
      let mag := Num.fin false m e
      let k := fb4Below ty mag
      let exact := (fb4Num ty k).compare mag == some .equal
      let up : Bool :=
        if exact || k == 7 then false
        else
          let mid := (Num.add 0 (fb4Num ty k) (fb4Num ty (k + 1))).scale (-1)
          if mode = 0 then
            match mag.compare mid with
            | some .greater => true
            | some .equal => k % 2 == 1
            | _ => false
          else if mode = 1 then false
          else if mode = 2 then !neg
          else if mode = 3 then neg
          else k % 2 == 0
      let r := if up then k + 1 else k
      if r = 0 then 0 else r + (if neg then 8 else 0)

/-! ## W96 elements (R95 to R97) -/

/-- Status bits of a W96 element (R95). -/
def stOvf : Nat := 1
def stNan : Nat := 2
def stLoss : Nat := 4

/-- Quantise96 (R96): the quantised amount and its status. -/
def quantise96 (a : W32) (w : Int) : Int × Nat :=
  match fp32.decode a.toNat with
  | .nan => (0, stNan)
  | .inf _ => (0, stNan)
  | x =>
    let q := roundInt (x.scale (64 - w)) 0 (-(2 ^ 200)) (2 ^ 200)
    if 2 ^ 95 ≤ q.natAbs then ((if q < 0 then -(2 ^ 95 - 1) else 2 ^ 95 - 1), stOvf) else (q, 0)

/-- SatAdd96 (R96). -/
def satAdd96 (x : Int) (st : Nat) (q : Int) (sq : Nat) : Int × Nat :=
  let s := x + q
  let st := st ||| sq
  if 2 ^ 95 ≤ s then (2 ^ 95 - 1, st ||| stOvf)
  else if s ≤ -(2 ^ 95) then (-(2 ^ 95 - 1), st ||| stOvf)
  else (s, st)

/-- ReadW96 (R97). -/
def readW96 (x : Int) (st : Nat) (w : Int) : W32 :=
  if st.testBit 1 then 0x7FC00000
  else if st.testBit 0 then (if 0 ≤ x then 0x7F800000 else 0xFF800000)
  else BitVec.ofNat 32 (roundF ((numOfInt x).scale (w - 64)) fp32 0 false)

/-- X of an element's 16 bytes (R95). -/
def elemX (n : Nat) : Int := signedOf 96 (n % 2 ^ 96)

/-- The status byte of an element's 16 bytes (R95). -/
def elemSt (n : Nat) : Nat := n / 2 ^ 96 % 256

/-- The 16 bytes of an element (R95). -/
def elemBytes (x : Int) (st : Nat) : Nat := (x % 2 ^ 96).toNat + st % 256 * 2 ^ 96

end Sys2Proof.Machine
end

