-- ==== Sys2Proof/Machine/Trans.lean ====
section
/-!
DEFINITION. The special functions (R103): quotients and roots exact to a tail, the transcendental ones
in fixed point of 512 bits with a tail (notes/assumptions/13).
-/
namespace Sys2Proof.Machine

/-- The integer square root, bit by bit from bit `b - 1`. -/
def isqrtFrom (n : Nat) : Nat → Nat → Nat
  | 0, r => r
  | b + 1, r => if (r + 2 ^ b) * (r + 2 ^ b) ≤ n then isqrtFrom n b (r + 2 ^ b) else isqrtFrom n b r

/-- The integer square root. -/
def isqrt (n : Nat) : Nat := isqrtFrom n (Nat.log2 n / 2 + 1) 0

/-- A quotient of finite numbers to `2 × guard` bits and its tail. -/
def quotient (sa : Bool) (ma : Nat) (ea : Int) (sb : Bool) (mb : Nat) (eb : Int) : Num × Bool :=
  let k := 130 + Nat.log2 mb
  let n := ma * 2 ^ k
  (.fin (sa != sb) (n / mb) (ea - eb - k), n % mb != 0)

/-- `fdiv`, `ddiv` and `frcp` (R103). -/
def divNum (f : Fmt) (a b : Num) : Nat :=
  match a, b with
  | .nan, _ => f.nan
  | _, .nan => f.nan
  | .inf _, .inf _ => f.nan
  | .inf s, .zero t => f.infinity (s != t)
  | .inf s, .fin t _ _ => f.infinity (s != t)
  | .zero _, .zero _ => f.nan
  | .fin s _ _, .zero t => f.infinity (s != t)
  | .zero s, .inf t => f.zero (s != t)
  | .zero s, .fin t _ _ => f.zero (s != t)
  | .fin s _ _, .inf t => f.zero (s != t)
  | .fin s m e, .fin t n g =>
    let (q, sticky) := quotient s m e t n g
    roundFs q sticky f 0 false

/-- The square root of m × 2^e to 128 bits and its tail. -/
def rootOf (m : Nat) (e : Int) : Num × Bool :=
  let m' := if e % 2 = 0 then m else 2 * m
  let e' := if e % 2 = 0 then e else e - 1
  let n := m' * 2 ^ 260
  let r := isqrt n
  (.fin false r (e' / 2 - 130), r * r != n)

/-- `fsqrt` (R103). -/
def sqrtNum (x : Num) : Nat :=
  match x with
  | .nan => fp32.nan
  | .inf true => fp32.nan
  | .inf false => fp32.infinity false
  | .zero s => fp32.zero s
  | .fin true _ _ => fp32.nan
  | .fin false m e => let (r, st) := rootOf m e
    roundFs r st fp32 0 false

/-- `frsq` (R103): the square root of the reciprocal, floors of floors being exact. -/
def rsqrtNum (x : Num) : Nat :=
  match x with
  | .nan => fp32.nan
  | .inf true => fp32.nan
  | .inf false => fp32.zero false
  | .zero s => fp32.infinity s
  | .fin true _ _ => fp32.nan
  | .fin false m e =>
    let m' := if e % 2 = 0 then m else 2 * m
    let e' := if e % 2 = 0 then e else e - 1
    let k := 2 * (130 + Nat.log2 m')
    let r := isqrt (2 ^ k / m')
    roundFs (.fin false r (-(e' / 2) - (k / 2 : Nat))) (r * r * m' != 2 ^ k) fp32 0 false

/-- Fraction bits of the fixed-point numbers. -/
def fixBits : Nat := 512

/-- ln 2 in fixed point, rounded down. -/
def ln2Fix : Nat :=
  0xb17217f7d1cf79abc9e3b39803f2f6af40f343267298b62d8a0d175b8baafa2be7b876206debac98559552fb4afa1b10ed2eae35c138214427573b291169b825

/-- Pi in fixed point, rounded down. -/
def piFix : Nat :=
  0x3243f6a8885a308d313198a2e03707344a4093822299f31d0082efa98ec4e6c89452821e638d01377be5466cf34e90c6cc0ac29b7c97c50dd3f84d5b5b5470917

/-- The terms x^j / j! of e^x from term `j` on, summed while fuel lasts. -/
def expTerms (x : Nat) : Nat → Nat → Nat → Nat → Nat
  | 0, _, _, acc => acc
  | n + 1, j, t, acc => expTerms x n (j + 1) (t * x / 2 ^ fixBits / j) (acc + t)

/-- e^x in fixed point, for 0 ≤ x < 1. -/
def expFix (x : Nat) : Nat := expTerms x 140 1 (2 ^ fixBits) 0

/-- `fexp2` (R103). -/
def exp2Num (x : Num) : Nat :=
  match x with
  | .nan => fp32.nan
  | .inf true => fp32.zero false
  | .inf false => fp32.infinity false
  | .zero _ => roundF (.fin false 1 0) fp32 0 false
  | .fin s m e =>
    if 9 < topExp m e then (if s then fp32.zero false else fp32.infinity false)
    else
      -- x in units of 2^-q, split into its floor n and a fraction below 1
      let q := (-(min e 0)).toNat
      let v : Int := if s then -((m * 2 ^ (e + q).toNat : Nat) : Int) else ((m * 2 ^ (e + q).toNat : Nat) : Int)
      let n := v / 2 ^ q
      let frac := (v % 2 ^ q).toNat
      if frac = 0 then roundF (.fin false 1 n) fp32 0 false
      else
        let y := expFix (frac * ln2Fix / 2 ^ q)
        roundFs (.fin false y (n - fixBits)) true fp32 0 false

/-- The terms z^(2j+1) / (2j+1) of artanh z, summed while fuel lasts. -/
def atanhTerms (z2 : Nat) : Nat → Nat → Nat → Nat → Nat
  | 0, _, _, acc => acc
  | n + 1, j, t, acc => atanhTerms z2 n (j + 2) (t * z2 / 2 ^ fixBits) (acc + t / j)

/-- `flog2` (R103): log2 of m × 2^e from the exponent and 2 artanh((y - 1) / (y + 1)) of the mantissa
y in [1, 2), the difference taken toward the nearer power of two. -/
def log2Num (x : Num) : Nat :=
  match x with
  | .nan => fp32.nan
  | .inf true => fp32.nan
  | .inf false => fp32.infinity false
  | .zero _ => fp32.infinity true
  | .fin true _ _ => fp32.nan
  | .fin false m e =>
    let t := Nat.log2 m
    let hi := decide (3 * 2 ^ t ≤ 2 * m)
    let n : Int := e + t + (if hi then 1 else 0)
    let base := if hi then 2 ^ (t + 1) else 2 ^ t
    if m = base then roundF (numOfInt n) fp32 0 false
    else
      let diff := if hi then base - m else m - base
      let z := diff * 2 ^ fixBits / (m + base)
      let ln := 2 * atanhTerms (z * z / 2 ^ fixBits) 200 1 z 0
      let lg : Int := (ln * 2 ^ fixBits / ln2Fix : Nat)
      let v : Int := n * 2 ^ fixBits + (if hi then -lg else lg)
      roundFs (.fin (decide (v < 0)) v.natAbs (-(fixBits : Int))) true fp32 0 false

/-- The alternating terms of sine or cosine from a first term, each the last times x² / (j (j + 1)). -/
def trigTerms (x2 : Nat) : Nat → Nat → Int → Int → Int
  | 0, _, _, acc => acc
  | n + 1, j, t, acc => trigTerms x2 n (j + 2) (-(t * x2 / 2 ^ fixBits / (j * (j + 1) : Nat))) (acc + t)

/-- sin x in fixed point, for 0 ≤ x ≤ 1. -/
def sinFix (x : Nat) : Nat := (trigTerms (x * x / 2 ^ fixBits) 80 2 x 0).toNat

/-- cos x in fixed point, for 0 ≤ x ≤ 1. -/
def cosFix (x : Nat) : Nat := (trigTerms (x * x / 2 ^ fixBits) 80 1 (2 ^ fixBits) 0).toNat

/-- A fraction of a turn's eighth: |sin(π r)| for r = a / 2^q, 0 ≤ r ≤ 1/2, in fixed point. -/
def sinPiFix (a q : Nat) : Nat :=
  if 4 * a ≤ 2 ^ q then sinFix (a * piFix / 2 ^ q)
  else cosFix ((2 ^ q - 2 * a) * piFix / 2 ^ (q + 1))

/-- sin(π v) for a non-negative v = a / 2^q that is no multiple of 1/2, rounded. -/
def sinPiRound (neg : Bool) (a q : Nat) : Nat :=
  let b := a % 2 ^ (q + 1)
  let s := neg != decide (2 ^ q ≤ b)
  let r := b % 2 ^ q
  let r := if 2 * r ≤ 2 ^ q then r else 2 ^ q - r
  roundFs (.fin s (sinPiFix r q) (-(fixBits : Int))) true fp32 0 false

/-- `fsinpi` (R103). -/
def sinpiNum (x : Num) : Nat :=
  match x with
  | .nan => fp32.nan
  | .inf _ => fp32.nan
  | .zero s => fp32.zero s
  | .fin s m e =>
    let q := (-(min e 0)).toNat
    let a := m * 2 ^ (e + q).toNat
    if a % 2 ^ q = 0 then fp32.zero s
    else if 2 * a % 2 ^ q = 0 then
      roundF (.fin (s != decide (2 ^ q < a % 2 ^ (q + 1))) 1 0) fp32 0 false
    else sinPiRound s a q

/-- `fcospi` (R103): cos(π x) = sin(π (|x| + 1/2)). -/
def cospiNum (x : Num) : Nat :=
  match x with
  | .nan => fp32.nan
  | .inf _ => fp32.nan
  | .zero _ => roundF (.fin false 1 0) fp32 0 false
  | .fin _ m e =>
    let q := (-(min e 0)).toNat + 1
    let a := m * 2 ^ (e + q).toNat + 2 ^ (q - 1)
    if a % 2 ^ q = 0 then fp32.zero false
    else if 2 * a % 2 ^ q = 0 then
      roundF (.fin (decide (2 ^ q < a % 2 ^ (q + 1))) 1 0) fp32 0 false
    else sinPiRound false a q

end Sys2Proof.Machine
end

