-- ==== Sys2Proof/Machine/Vector.lean ====
section
/-!
DEFINITION. Floating-point arithmetic on the vector datapaths and the special functions (R241 to
R252).
-/
namespace Sys2Proof.Machine

/-- A register's FP32 value. -/
def num32 (x : W32) : Num := fp32.decode x.toNat

/-- A pair's FP64 value. -/
def num64 (x : W64) : Num := fp64.decode x.toNat

/-- RoundFP32 as a register value (R84). -/
def round32 (x : Num) (mode : Nat) : W32 := BitVec.ofNat 32 (roundF x fp32 mode false)

/-- RoundF to FP64 as a pair (R84). -/
def round64 (x : Num) (mode : Nat) : W64 := BitVec.ofNat 64 (roundF x fp64 mode false)

/-- The product of R245, negated with `.np`. -/
def productOf (np : Bool) (a b : Num) : Num := if np then (a.mul b).neg else a.mul b

/-! ## FP32 (R245 to R248) -/

/-- The sum of two FP32 patterns, one rounding (R245). -/
def addWord (rnd : Nat) (a b : W32) : W32 := round32 (Num.add rnd (num32 a) (num32 b)) rnd

/-- The difference of two FP32 patterns (R245). -/
def subWord (rnd : Nat) (a b : W32) : W32 := round32 (Num.add rnd (num32 a) (num32 b).neg) rnd

/-- The product of two FP32 patterns (R245). -/
def mulWord (rnd : Nat) (a b : W32) : W32 := round32 ((num32 a).mul (num32 b)) rnd

/-- The fused product and sum of FP32 patterns, one rounding (R101, R245). -/
def fmaWord (rnd : Nat) (np : Bool) (a b c : W32) : W32 :=
  round32 (Num.add rnd (productOf np (num32 a) (num32 b)) (num32 c)) rnd

/-- `fadd` (R245). -/
def execFadd (d a rnd : Nat) (b : Src) (s : State) : Result := binaryOp s 5 d a b (addWord rnd)
/-- `fsub` (R245). -/
def execFsub (d a rnd : Nat) (b : Src) (s : State) : Result := binaryOp s 5 d a b (subWord rnd)
/-- `fmul` (R245). -/
def execFmul (d a rnd : Nat) (b : Src) (s : State) : Result := binaryOp s 5 d a b (mulWord rnd)
/-- `ffma` (R245). -/
def execFfma (d a : Nat) (b c : Src) (rnd : Nat) (np : Bool) (s : State) : Result :=
  ternaryOp s 5 d a b c (fmaWord rnd np)

/-- `fmin` (R246). -/
def execFmin (d a : Nat) (b : Src) (nanForm : Bool) (s : State) : Result :=
  binaryOp s 4 d a b fun x y => BitVec.ofNat 32 (minMax fp32 false nanForm x.toNat y.toNat)
/-- `fmax` (R246). -/
def execFmax (d a : Nat) (b : Src) (nanForm : Bool) (s : State) : Result :=
  binaryOp s 4 d a b fun x y => BitVec.ofNat 32 (minMax fp32 true nanForm x.toNat y.toNat)

/-- `fsetp` (R247). -/
def execFsetp (p a cond : Nat) (b : Src) (s : State) : Result :=
  laneOp s 4 (.v a :: b.uses) [.p p] fun g i =>
    [(.p p, boolWord (fcond cond ((num32 (g.v i a)).compare (num32 (g.src i b)))))]

/-- `fclass` (R248). -/
def execFclass (d a : Nat) (w64 : Bool) (s : State) : Result :=
  if w64 then
    laneOp s 4 (vpair a) [.v d] fun g i => [(.v d, BitVec.ofNat 32 (classWord fp64 (g.vp i a).toNat))]
  else unaryOp s 4 d a fun x => BitVec.ofNat 32 (classWord fp32 x.toNat)

/-! ## Special functions (R103, R249) -/

/-- The shape of a special function of one operand. -/
def specialOp (s : State) (d a : Nat) (f : Num → Nat) : Result :=
  unaryOp s 16 d a fun x => BitVec.ofNat 32 (f (num32 x))

/-- `frcp` (R103). -/
def execFrcp (d a : Nat) (s : State) : Result := specialOp s d a (divNum fp32 (numOfInt 1))
/-- `frsq` (R103). -/
def execFrsq (d a : Nat) (s : State) : Result := specialOp s d a rsqrtNum
/-- `fsqrt` (R103). -/
def execFsqrt (d a : Nat) (s : State) : Result := specialOp s d a sqrtNum
/-- `fexp2` (R103). -/
def execFexp2 (d a : Nat) (s : State) : Result := specialOp s d a exp2Num
/-- `flog2` (R103). -/
def execFlog2 (d a : Nat) (s : State) : Result := specialOp s d a log2Num
/-- `fsinpi` (R103). -/
def execFsinpi (d a : Nat) (s : State) : Result := specialOp s d a sinpiNum
/-- `fcospi` (R103). -/
def execFcospi (d a : Nat) (s : State) : Result := specialOp s d a cospiNum
/-- `fdiv` (R103). -/
def execFdiv (d a : Nat) (b : Src) (s : State) : Result :=
  binaryOp s 24 d a b fun x y => BitVec.ofNat 32 (divNum fp32 (num32 x) (num32 y))

/-! ## FP64 (R250) -/

/-- The shape of an FP64 result of two pairs. -/
def binaryPair (s : State) (lat d a : Nat) (b : Src) (f : W64 → W64 → W64) : Result :=
  laneOp s lat (vpair a ++ b.usesPair) (vpair d) fun g i => putPair d (f (g.vp i a) (g.srcp i b))

/-- `dadd` (R250). -/
def execDadd (d a : Nat) (b : Src) (rnd : Nat) (s : State) : Result :=
  binaryPair s 8 d a b fun x y => round64 (Num.add rnd (num64 x) (num64 y)) rnd
/-- `dmul` (R250). -/
def execDmul (d a : Nat) (b : Src) (rnd : Nat) (s : State) : Result :=
  binaryPair s 8 d a b fun x y => round64 ((num64 x).mul (num64 y)) rnd
/-- `dfma` (R250). -/
def execDfma (d a : Nat) (b c : Src) (rnd : Nat) (np : Bool) (s : State) : Result :=
  laneOp s 8 (vpair a ++ b.usesPair ++ c.usesPair) (vpair d) fun g i =>
    putPair d (round64
      (Num.add rnd (productOf np (num64 (g.vp i a)) (num64 (g.srcp i b))) (num64 (g.srcp i c))) rnd)
/-- `dmin` (R246). -/
def execDmin (d a : Nat) (b : Src) (nanForm : Bool) (s : State) : Result :=
  binaryPair s 5 d a b fun x y => BitVec.ofNat 64 (minMax fp64 false nanForm x.toNat y.toNat)
/-- `dmax` (R246). -/
def execDmax (d a : Nat) (b : Src) (nanForm : Bool) (s : State) : Result :=
  binaryPair s 5 d a b fun x y => BitVec.ofNat 64 (minMax fp64 true nanForm x.toNat y.toNat)
/-- `ddiv` (R103). -/
def execDdiv (d a : Nat) (b : Src) (s : State) : Result :=
  binaryPair s 48 d a b fun x y => BitVec.ofNat 64 (divNum fp64 (num64 x) (num64 y))

/-- An FP64 operand B: a pair, or an FP32 immediate widened exactly (R244). -/
def Group.srcDouble (g : Group) (lane : Nat) : Src → Num
  | .v k => num64 (g.vp lane k)
  | .s k => num64 (g.sp k)
  | .imm n => fp32.decode n

/-- `dsetp` (R247). -/
def execDsetp (p a cond : Nat) (b : Src) (s : State) : Result :=
  laneOp s 5 (vpair a ++ b.usesPair) [.p p] fun g i =>
    [(.p p, boolWord (fcond cond ((num64 (g.vp i a)).compare (g.srcDouble i b))))]

/-! ## Packed halves and complex pairs (R251, R252) -/

/-- The format of packed halves. -/
def halfFmt (bf : Bool) : Fmt := if bf then bf16 else fp16

/-- A function of halves applied to both halves of three words (R251). -/
def eachHalf (bf : Bool) (rnd : Nat) (f : Num → Num → Num → Num) (a b c : W32) : W32 :=
  let fm := halfFmt bf
  let half (x : W32) (h : Nat) : Num := fm.decode (x.toNat / 2 ^ (16 * h) % 2 ^ 16)
  let r (h : Nat) : Nat := roundF (f (half a h) (half b h) (half c h)) fm rnd false
  BitVec.ofNat 32 (r 0 + r 1 * 2 ^ 16)

/-- `hadd2` (R251). -/
def execHadd2 (d a : Nat) (b : Src) (rnd : Nat) (bf : Bool) (s : State) : Result :=
  binaryOp s 5 d a b fun x y => eachHalf bf rnd (fun p q _ => Num.add rnd p q) x y 0
/-- `hmul2` (R251). -/
def execHmul2 (d a : Nat) (b : Src) (rnd : Nat) (bf : Bool) (s : State) : Result :=
  binaryOp s 5 d a b fun x y => eachHalf bf rnd (fun p q _ => p.mul q) x y 0
/-- `hfma2` (R251). -/
def execHfma2 (d a : Nat) (b c : Src) (rnd : Nat) (bf : Bool) (s : State) : Result :=
  ternaryOp s 5 d a b c (eachHalf bf rnd fun p q r => Num.add rnd (p.mul q) r)

/-- The two components of the complex product, each with its further terms, each rounded once (R101,
R252). -/
def complexPair (rnd : Nat) (cj : Bool) (d : Nat) (ar ai br bi : Num) (cr ci : List Num) :
    List (Reg × W32) :=
  let bi := if cj then bi.neg else bi
  [(.v d, round32 (sumNums rnd ([ar.mul br, (ai.mul bi).neg] ++ cr)) rnd),
   (.v (d + 1), round32 (sumNums rnd ([ar.mul bi, ai.mul br] ++ ci)) rnd)]

/-- `cmul` (R252). -/
def execCmul (d a b rnd : Nat) (cj : Bool) (s : State) : Result :=
  laneOp s 7 (vpair a ++ vpair b) (vpair d) fun g i =>
    complexPair rnd cj d (num32 (g.v i a)) (num32 (g.v i (a + 1))) (num32 (g.v i b)) (num32 (g.v i (b + 1)))
      [] []

/-- `cfma` (R252). -/
def execCfma (d a b c rnd : Nat) (cj : Bool) (s : State) : Result :=
  laneOp s 7 (vpair a ++ vpair b ++ vpair c) (vpair d) fun g i =>
    complexPair rnd cj d (num32 (g.v i a)) (num32 (g.v i (a + 1))) (num32 (g.v i b)) (num32 (g.v i (b + 1)))
      [num32 (g.v i c)] [num32 (g.v i (c + 1))]

end Sys2Proof.Machine
end

