-- ==== Sys2Proof/Machine/Convert.lean ====
section
/-!
DEFINITION. Format slots (R92 to R94), conversions (R253 to R257) and W96 readout and quantisation
(R258).
-/
namespace Sys2Proof.Machine

/-! ## Format slots -/

/-- FMT of a slot (R92). -/
def slotFmt (w : Nat) : Nat := bits w 0 8
/-- BLK of a slot (R92). -/
def slotBlk (w : Nat) : Nat := bits w 8 2
/-- SFORM of a slot (R92). -/
def slotForm (w : Nat) : Nat := bits w 10 2
/-- ETYPE of a slot (R92). -/
def slotEtype (w : Nat) : Nat := bits w 12 2
/-- SAT of a slot (R92). -/
def slotSat (w : Nat) : Bool := bits w 14 1 == 1
/-- SSTRIDE of a slot (R92). -/
def slotStride (w : Nat) : Nat := bits w 16 16
/-- SOFF of a slot (R92). -/
def slotOff (w : Nat) : Int := signedOf 32 (bits w 32 32)

/-- Codes per block of a slot (R92). -/
def slotBlock (w : Nat) : Nat := if slotBlk w = 1 then 16 else if slotBlk w = 2 then 32 else 0

/-- The conditions of R94. -/
def slotOk (w : Nat) : Bool :=
  let f := slotFmt w
  let sf := slotForm w
  decide (f < 10) && slotBlk w != 3 && ((slotBlk w == 0) == (sf == 0)) && (f != 8 || sf != 0) &&
  (!(sf == 1 || sf == 2) || f == 8) && (sf != 3 || f == 8 || f == 4 || f == 5 || f == 6) && bits w 15 1 == 0

/-- The format slot of the issuing gang. -/
def State.slot (s : State) (i : Nat) : Nat :=
  (s.gang (match s.cur.kind with
    | .stream => (s.blk s.cur.blk).gang
    | _ => s.gangOf s.cur.grp)).fslot i

/-! ## Floating formats and integers (R253 to R255) -/

/-- Whether a format code names FP64. -/
def isDouble (code : Nat) : Bool := code == 1

/-- The registers that hold an operand of a format. -/
def fmtRegs (code k : Nat) : List Reg := if isDouble code then vpair k else [.v k]

/-- The bit pattern of part `part` of a register in a format (R253). -/
def Group.partOf (g : Group) (lane code k part : Nat) : Nat :=
  let f := fmtOf code
  if isDouble code then (g.vp lane k).toNat else (g.v lane k).toNat / 2 ^ (f.width * part) % 2 ^ f.width

/-- The writes of a pattern into part `part` of a destination, other bits kept (R253). -/
def Group.putPart (g : Group) (lane code d part y : Nat) : List (Reg × W32) :=
  if isDouble code then putPair d (BitVec.ofNat 64 y)
  else if code = 0 then [(.v d, BitVec.ofNat 32 y)]
  else [(.v d, BitVec.ofNat 32 (setBits (g.v lane d).toNat ((fmtOf code).width * part) (fmtOf code).width y))]

/-- A narrow destination is read at issue (R253). -/
def narrowReads (code d : Nat) : List Reg := if code ≤ 1 then [] else [.v d]

/-- The shape of a conversion to a format: one to a narrow format writes part of its register (R253, R265). -/
def conversion (code : Nat) (s : State) (rd wr : List Reg) (f : Group → Nat → List (Reg × W32)) : Result :=
  if code ≤ 1 then laneOp s 6 rd wr f else partOp s 6 rd wr f

/-- `cvtff` (R253): a conversion that R87 calls exact is RoundF of a value of the format. -/
def execCvtff (d a rnd : Nat) (sat : Bool) (df sf dp sp : Nat) (s : State) : Result :=
  conversion df s (fmtRegs sf a ++ narrowReads df d) (fmtRegs df d) fun g i =>
    g.putPart i df d dp (roundF ((fmtOf sf).decode (g.partOf i sf a sp)) (fmtOf df) rnd sat)

/-- The bounds of an integer type code (R254). -/
def intBounds (t : Nat) : Int × Int :=
  if t = 0 then (-(2 ^ 31), 2 ^ 31 - 1)
  else if t = 1 then (0, 2 ^ 32 - 1)
  else if t = 2 then (-(2 ^ 63), 2 ^ 63 - 1)
  else (0, 2 ^ 64 - 1)

/-- The registers of an integer of a type code. -/
def intRegs (t k : Nat) : List Reg := if t < 2 then [.v k] else vpair k

/-- `cvtfi` (R254). -/
def execCvtfi (d a rnd sf sp dt : Nat) (s : State) : Result :=
  laneOp s 6 (fmtRegs sf a) (intRegs dt d) fun g i =>
    let n := roundInt ((fmtOf sf).decode (g.partOf i sf a sp)) rnd (intBounds dt).1 (intBounds dt).2
    if dt < 2 then [(.v d, BitVec.ofInt 32 n)] else putPair d (BitVec.ofInt 64 n)

/-- The integer of a type code in a register or pair (R255). -/
def Group.intOf (g : Group) (lane t k : Nat) : Int :=
  if t = 0 then (g.v lane k).toInt
  else if t = 1 then (g.v lane k).toNat
  else if t = 2 then (g.vp lane k).toInt
  else (g.vp lane k).toNat

/-- `cvtif` (R255). -/
def execCvtif (d a rnd : Nat) (sat : Bool) (df ty dp : Nat) (s : State) : Result :=
  conversion df s (intRegs ty a ++ narrowReads df d) (fmtRegs df d) fun g i =>
    g.putPart i df d dp (roundF (numOfInt (g.intOf i ty a)) (fmtOf df) rnd sat)

/-! ## FB4 blocks (R256, R257) -/

/-- The magnitude of a number. -/
def Num.abs : Num → Num
  | .inf _ => .inf false
  | .zero _ => .zero false
  | .fin _ m e => .fin false m e
  | .nan => .nan

/-- The largest magnitude among numbers, NaNs left out; zero for none (R256). -/
def largest (l : List Num) : Num :=
  l.foldl (fun m x => if x.isNan then m else if m.compare x.abs = some .less then x.abs else m)
    (.zero false)

/-- Gmax of a code type (R256). -/
def gmaxOf (ty : Nat) : Int := if ty = 0 then 7 else if ty = 1 then 6 else if ty = 2 then 1 else 12

/-- The smallest exponent below `n` with M at most Gmax × 2^(e - bias), or `n - 1` (R256). -/
def smallestExp (m : Num) (ty : Nat) (bias : Int) (n : Nat) : Nat :=
  ((List.range n).find? fun (e : Nat) =>
    m.compare ((numOfInt (gmaxOf ty)).scale ((e : Int) - bias)) != some .greater).getD (n - 1)

/-- The scale byte of a block and its exponent of two; `none` for a NaN scale (R256). -/
def blockScale (sform ty : Nat) (l : List Num) : Nat × Option Int :=
  let m := largest l
  if sform = 3 then
    if l.any Num.isNan then (255, none)
    else
      let e := smallestExp m ty 127 255
      (e, some ((e : Int) - 127))
  else
    let e := smallestExp m ty 32 64
    (ty * 64 + e, some ((e : Int) - 32))

/-- A code of a block: EncodeFB4 under the block's scale (R91, R256). -/
def blockCode (ty rnd : Nat) (k : Option Int) (x : Option Num) : Nat :=
  match k, x with
  | some k, some x => encodeFb4 (x.scale (-k)) ty rnd
  | _, _ => 0

/-- What a lane receives from `cvtpk` (R256): `vals` are the values of the contributing lanes of its
block by position, `w` its position in the block of `n` codes. -/
def packWord (sform ty rnd n : Nat) (vals : List (Option Num)) (w : Nat) : W32 :=
  let (sbyte, k) := blockScale sform ty (vals.filterMap id)
  if w < n / 8 then
    BitVec.ofNat 32 ((List.range 8).foldl
      (fun acc t => acc + blockCode ty rnd k (vals.getD (8 * w + t) none) * 16 ^ t) 0)
  else if w = n / 8 then BitVec.ofNat 32 sbyte
  else 0

/-- Whether `cvtpk` takes a slot (R256). -/
def packSlotOk (w ty : Nat) : Bool :=
  slotOk w && slotFmt w == 8 && (slotBlk w == 1 || slotBlk w == 2) && (slotForm w != 3 || slotEtype w == ty)

/-- An instruction that names a format slot: an illegal-instruction trap where the slot fails its checks
(R94, R488). -/
def withSlot (s : State) (ok : Bool) (k : Result) : Result :=
  asGroup s fun _ => if ok then k else .next (s.fail (Fail.illegal 3))

/-- `cvtpk` (R256). -/
def execCvtpk (d a rnd ty slot m : Nat) (s : State) : Result :=
  let w := s.slot slot
  let n := slotBlock w
  let c := s.contributors m
  withSlot s (packSlotOk w ty) <|
    crossOp s 6 c [.v a] [] [.v d] fun g i =>
      let first := i / n * n
      let vals := (List.range n).map fun j =>
        if c.getLsbD (first + j) then some (num32 (g.v (first + j) a)) else none
      [(.v d, packWord (slotForm w) ty rnd n vals (i - first))]

/-- Whether `cvtunpk` takes a slot and an element number (R257). -/
def unpackSlotOk (w k : Nat) : Bool :=
  slotOk w && (slotFmt w == 8 || (slotForm w == 3 && decide (k < 4)))

/-- The element `k` of packed elements under its scale byte (R257). -/
def unpackNum (w a scale k : Nat) : Num :=
  let f := slotFmt w
  if f = 8 then
    let c := a / 2 ^ (4 * k) % 16
    if slotForm w = 3 then (fb4Value (slotEtype w) c).mul (e8m0 scale)
    else (fb4Value (scale / 64) c).mul (fb4Scale scale)
  else
    let b := a / 2 ^ (8 * k) % 256
    (if f = 6 then numOfInt (signedOf 8 b) else (fmtOf f).decode b).mul (e8m0 scale)

/-- `cvtunpk` (R257). -/
def execCvtunpk (d a b k slot : Nat) (s : State) : Result :=
  let w := s.slot slot
  withSlot s (unpackSlotOk w k) <|
    binaryOp s 6 d a (.v b) fun x y => round32 (unpackNum w x.toNat (y.toNat % 256) k) 0

/-! ## W96 (R258) -/

/-- A quad's 96-bit integer. -/
def Group.quadX (g : Group) (lane k : Nat) : Int :=
  signedOf 96 ((g.v lane k).toNat + (g.v lane (k + 1)).toNat * 2 ^ 32 + (g.v lane (k + 2)).toNat * 2 ^ 64)

/-- The writes of an element into a quad (R258). -/
def putQuad (d : Nat) (x : Int) (st : Nat) : List (Reg × W32) :=
  let n := (x % 2 ^ 96).toNat
  [(.v d, BitVec.ofNat 32 n), (.v (d + 1), BitVec.ofNat 32 (n / 2 ^ 32)),
   (.v (d + 2), BitVec.ofNat 32 (n / 2 ^ 64)), (.v (d + 3), BitVec.ofNat 32 (st % 256))]

/-- `cvtw` (R258): W is a signed byte. -/
def execCvtw (d a : Nat) (q : Bool) (w : Nat) (s : State) : Result :=
  let e := signedOf 8 w
  if q then
    laneOp s 6 [.v a] (vregs d 4) fun g i =>
      let r := quantise96 (g.v i a) e
      putQuad d r.1 r.2
  else
    laneOp s 6 (vregs a 4) [.v d] fun g i =>
      [(.v d, readW96 (g.quadX i a) ((g.v i (a + 3)).toNat % 256) e)]

end Sys2Proof.Machine
end

