-- ==== Sys2Proof/Machine/Pipeline.lean ====
section
/-!
DEFINITION. The memory pipeline of a core: how operations in flight wait for one another (R127 to R137),
perform in the first-level cache or leave for home (R113, R114, R125, R149), and complete.
-/
namespace Sys2Proof.Machine

/-! ## Scopes and places -/

/-- The scope that a scope acts as for a group: block scope acts as isle scope in a pair block
(R123). -/
def State.effScope (s : State) (g scope : Nat) : Nat :=
  if scope = 3 ∧ (s.blk (s.grp g).blk).pair = true then 4 else scope

/-- Whether a scope's coherence point is home: isle, package and system (R123). -/
def atHome (scope : Nat) : Bool := scope == 0 || scope == 4 || scope == 5

/-- Whether a scope's release action drains: package and system (R130). -/
def drainsAt (scope : Nat) : Bool := scope == 0 || scope == 5

/-- The haze region that a physical address lies in (R148, R403). -/
def State.regionAt (s : State) (pa : Nat) : Option Nat :=
  (s.regions.find? fun e => e.2.v && pa / 2 ^ e.2.log2sz == e.2.base / 2 ^ e.2.log2sz).map (·.1)

/-- A region's table entry (R403). -/
def State.region (s : State) (r : Nat) : Region := look Region.reset s.regions r

/-- W of a region (R95). -/
def Region.exponent (r : Region) : Int := signedOf 8 r.w

/-- The home of an access that has translated; device registers and space 4 have none, and take a key of
their own (R373). -/
def State.homeOfX (s : State) (ctx : Nat) (x : Xl) : Home :=
  if 3 ≤ spaceOf x.pa then ⟨0, 0, outsideLoc x.pa⟩ else (s.homeFor ctx x.place x.pa).getD ⟨0, 0, outsideLoc x.pa⟩

/-- The home of an access that has translated, where it has one. -/
def State.homeOfXl (s : State) (ctx : Nat) (x : Xl) : Option Home :=
  if 3 ≤ spaceOf x.pa then none else s.homeFor ctx x.place x.pa

/-- One lane's access. -/
def State.partOf (s : State) (ctx : Nat) (lane : Nat) (va : W64) (x : Xl) (width data data2 : Nat) : Part :=
  let h := s.homeOfX ctx x
  ⟨lane, va, x.pa, h.loc, h.isle, h.slice, spaceOf x.pa, width, data, data2, .todo, false⟩

/-- A part of the local store: its key lies beyond every location of memory. -/
def localPart (core lane a width data : Nat) : Part :=
  ⟨lane, BitVec.ofNat 64 a, a, 2 ^ 61 + core * 2 ^ 24 + a, 0, 0, 5, width, data, 0, .todo, false⟩

/-- The line of a part. -/
def Part.line (p : Part) : Nat := p.loc / 128 * 128

/-- The offset of a part in its line. -/
def Part.off (p : Part) : Nat := p.loc % 128

/-- Whether two accesses share a byte. -/
def Part.meets (p q : Part) : Bool := decide (p.loc < q.loc + q.width) && decide (q.loc < p.loc + p.width)

/-- The poison sectors that a part touches, as a mask. -/
def Part.poisoned (p : Part) (poison : Nat) : Bool :=
  (List.range 4).any fun i => poison.testBit i && decide (p.off < 32 * (i + 1)) && decide (32 * i < p.off + p.width)

/-! ## Operations -/

/-- An operation with nothing to do. -/
def Op.blank (grp core ctx : Nat) (lanes : W32) (sb : Nat) (kind : OpKind) : Op :=
  ⟨0, grp, core, ctx, lanes, sb, kind, false, false, false, 0, [], [], .held, none, 0, false, 0, false, 0, 0⟩

/-- The operations that count as accesses for R129: loads, stores, atomics, tolerant loads and settles (R284). -/
def OpKind.isAccess : OpKind → Bool
  | .load _ _ => true
  | .store _ => true
  | .lload _ _ => true
  | .lstore => true
  | .atomic _ _ _ _ _ => true
  | .ldt _ => true
  | .settle => true
  | _ => false

/-- Whether an operation accesses the local store (R274). -/
def OpKind.isLocal : OpKind → Bool
  | .lload _ _ => true
  | .lstore => true
  | _ => false

/-- Whether an operation accesses bytes of memory: all accesses but a settle, which names regions. -/
def OpKind.isMemory (k : OpKind) : Bool := k.isAccess && k != .settle

/-- Whether an operation stores or updates bytes of memory. -/
def OpKind.writes : OpKind → Bool
  | .store _ => true
  | .atomic _ _ _ _ _ => true
  | _ => false

/-- Whether an operation is a load. -/
def OpKind.isLoad : OpKind → Bool
  | .load _ _ => true
  | _ => false

/-- Whether an operation is a store. -/
def OpKind.isStore : OpKind → Bool
  | .store _ => true
  | _ => false

/-- Whether an operation is an atomic. -/
def OpKind.isAtomic : OpKind → Bool
  | .atomic _ _ _ _ _ => true
  | _ => false

/-- Whether two accesses of a group to one byte keep their order even by different fibres: two stores (R122) and two
atomics (R145). -/
def OpKind.ordersWith (p o : OpKind) : Bool := (p.isStore && o.isStore) || (p.isAtomic && o.isAtomic)

/-- Whether an operation is a fence. -/
def OpKind.isFence : OpKind → Bool
  | .fence => true
  | _ => false

/-- Whether an operation arrives at a barrier. -/
def OpKind.isBar : OpKind → Bool
  | .bar .. => true
  | .gbar .. => true
  | _ => false

/-- Whether two operations arrive at one gang barrier. -/
def OpKind.sameGbar (a b : OpKind) : Bool :=
  match a, b with
  | .gbar g _, .gbar h _ => g == h
  | _, _ => false

/-- Whether an operation has performed (R129): it is past its accesses and its acquire. -/
def Op.performed (o : Op) : Bool := o.stage == .finished

/-- Whether an operation holds later memory-class and engine-class accesses of its fibres: a fence, an
acquire, or a `gbar` whose arrival is held (R272, R277, R287). -/
def Op.holdsLater (o : Op) : Bool :=
  match o.kind with
  | .fence => !o.performed
  | .gbar .. => o.stage == .held
  | _ => o.acq && !o.performed

/-- Whether an operation performs the wait of R129: releases, fences and barrier arrivals. -/
def Op.waitsAll (o : Op) : Bool := o.rel || o.kind.isFence || o.kind.isBar

/-- Whether a release action waits for an access: fences and barrier arrivals wait for every one, a release store or
atomic not for those of the local store (R129, R137, R274). -/
def Op.awaits (o : Op) (k : OpKind) : Bool := k.isAccess && (o.kind.isFence || o.kind.isBar || !k.isLocal)

/-- Whether a write-back by address or of every line meets a line of an earlier store (R276). -/
def Op.behindStore (p o : Op) : Bool :=
  p.kind.writes && match o.kind with
    | .wback true => true
    | .wback false => p.parts.any fun a => o.parts.any fun b => a.line == b.line
    | _ => false

/-- Whether the earlier operation `p` of the same group keeps `o` from starting (R112, R122, R127 to R129, R137, R274,
R276, R287): of accesses to one byte by different fibres only two stores, and two atomics (R145), are kept in slot
order. -/
def Op.blocks (p o : Op) : Bool :=
  let shared := (p.lanes &&& o.lanes) != 0
  (shared && p.holdsLater) ||
  (shared && o.waitsAll && o.awaits p.kind && !p.performed) ||
  (p.kind.isLocal && o.kind.isLocal && !p.performed) ||
  (shared && p.behindStore o && !p.performed) ||
  (o.strong && p.strong && !p.performed && o.kind.isLoad && p.kind.isLoad) ||
  (o.strong && p.strong && !p.performed && o.kind.isStore && (p.kind.isLoad || p.kind.isStore)) ||
  (p.kind.isMemory && o.kind.isMemory && !p.performed && (shared || p.kind.ordersWith o.kind) &&
    p.parts.any fun a => o.parts.any fun b => a.meets b) ||
  (shared && p.kind.sameGbar o.kind && !p.performed)

/-- Whether an instruction accesses a transaction barrier in the scratchpad (R72, R289, R290). -/
def accessesBarrier : Instr → Bool
  | .txinit .. | .txexp .. | .txarv .. | .txwait .. | .txtest .. => true
  | _ => false

/-- Whether a held access is one of lanes of a group. -/
def HeldEng.meets (h : HeldEng) (g : Nat) (lanes : W32) : Bool := h.issue.grp == g && (h.issue.lanes &&& lanes) != 0

/-- Whether the bytes of an operation meet a barrier that hardware has updated in this clock and not tested yet: the
operation falls behind the update and its test (R73, R74). -/
def State.meetsUpdate (s : State) (o : Op) : Bool :=
  s.txDue.any fun e => e.1 == (s.grp o.grp).blk && e.2.1 == (s.blk e.1).side o.core &&
    o.parts.any fun p => decide (p.pa < 16 * e.2.2 + 16) && decide (16 * e.2.2 < p.pa + p.width)

/-- Whether a scratchpad access waits: for an earlier access of one of its fibres to a transaction barrier (R112), or for
the test of a barrier (R74). -/
def State.localHeld (s : State) (o : Op) : Bool :=
  o.kind.isLocal &&
    ((s.heldEng.any fun h => decide (h.id < o.id) && h.meets o.grp o.lanes && accessesBarrier h.instr) || s.meetsUpdate o)

/-- Whether a held operation may start; a release at system scope also waits for the acknowledgement of
earlier space-4 writes (R132). -/
def State.mayStart (s : State) (o : Op) : Bool :=
  !(s.ops.any fun p => decide (p.id < o.id) && p.grp == o.grp && p.blocks o) &&
  !(o.rel && o.scope == 5 && s.flights.any fun f => f.2.core == 4096 + o.grp) && !s.localHeld o

/-- The parts of an operation changed. -/
def State.updParts (s : State) (id : Nat) (p : Part → Bool) (f : Part → Part) : State :=
  s.updOp id fun o => { o with parts := o.parts.map fun x => if p x then f x else x }

/-- An operation that has done all its parts performs its acquire action and is finished (R131). -/
def State.completeOp (s : State) (id : Nat) : State :=
  match s.op? id with
  | none => s
  | some o =>
    if o.stage = .running ∧ o.parts.all (fun p => p.st == .done) = true then
      let s := if o.acq && atHome o.scope then s.selfInvalidate o.core o.ctx else s
      s.updOp id fun o => { o with stage := .finished }
    else s

/-! ## Lines of the first-level cache (R113) -/

/-- The line of a context in a core's cache. -/
def State.l1 (s : State) (core ctx line : Nat) : Option L1Line :=
  (s.core core).lines.find? fun l => l.ctx == ctx && l.loc == line

/-- Whether every byte of a part is dirty in a line. -/
def L1Line.allDirty (l : L1Line) (p : Part) : Bool :=
  let m := lineMask p.off p.width
  (l.dirty &&& m) == m

/-- Whether a load hits a line (R113); a strong load at a scope inside the core ignores the lease
(R125). -/
def L1Line.hit (l : L1Line) (strong : Bool) (now : Nat) (p : Part) : Bool :=
  l.allDirty p || (l.valid && (strong || decide (now < l.lease)))

/-- A line changed, or allocated without a fetch where it is absent (R114). -/
def State.touchLine (s : State) (core ctx : Nat) (p : Part) (f : L1Line → L1Line) : State :=
  match s.l1 core ctx p.line with
  | some _ => s.updLines core (fun l => l.ctx == ctx && l.loc == p.line) f
  | none =>
    let s := s.makeRoom core
    s.updCore core fun c => { c with lines := c.lines ++
      [f ⟨ctx, p.line, p.pa / 128 * 128, p.isle, p.slice, false, 0, 0, 0, 0, none, false, 0⟩] }

/-- A part's data taken from a line (R267). -/
def Part.take (p : Part) (d : LineData) (poison : Nat) : Part :=
  { p with data := lineGet d p.off p.width, st := .done, poison := p.poison || p.poisoned poison }

/-- Parts grouped by line, in the order of their first lane (R122). -/
def byLine (ps : List Part) : List (List Part) :=
  (ps.map Part.line).dedup.map fun l => ps.filter fun p => p.line == l

/-- The merged bytes of the parts of one line, the highest lane's bytes standing (R122). -/
def mergedBytes (ps : List Part) : BitVec 128 × LineData :=
  ps.foldl (fun acc p => (acc.1 ||| lineMask p.off p.width, lineSet acc.2 p.off p.width p.data)) (0, 0)

/-! ## Requests -/

/-- A request of a core to the home of a part, or to the unit that stands for it. -/
def Op.request (o : Op) (typ dlen : Nat) (p : Part) : Packet :=
  { linePacket typ vcL dlen (isleOf o.core) (unitOfCore o.core) o.ctx
      (if 3 ≤ p.space then none else some ⟨p.isle, p.slice, p.line⟩) p.pa with tag := o.id }

/-- A request sent, counted as a line request unless its address has no home (R410, R442). -/
def State.request (s : State) (o : Op) (p : Part) (k : Packet) : State :=
  if 3 ≤ p.space then s.sendCounted o.core 0 k else s.sendLine o.core k

/-- The parts of an operation in a list marked as sent. -/
def State.markSent (s : State) (id : Nat) (ps : List Part) : State :=
  s.updParts id (fun x => ps.contains x) fun x => { x with st := .sent }

/-- The parts of an operation in a list marked as done. -/
def State.markDone (s : State) (id : Nat) (ps : List Part) : State :=
  s.updParts id (fun x => ps.contains x) fun x => { x with st := .done }

/-- The lease length of a context in ns (R341). -/
def State.leaseOf (s : State) (ctx : Nat) : Nat := 256 * ((s.ctx ctx).lease + 1)

/-! ## Space 4 (R124, R374) -/

/-- The port toward the package a space-4 address names. -/
def State.peerPort (s : State) (pa : Nat) : Nat := look 0 s.mgmt.proute (bits pa 39 12) % 32

/-- Whether a port sends now: it is up and neither retrains nor calibrates (R464, R472). -/
def State.portSends (s : State) (port : Nat) : Bool :=
  let p := s.port port
  p.up && p.retraining.isNone && !decide (s.ptime < p.calUntil)

/-- The flits of a message: a header and its data (R397). -/
def peerFlits : PeerMsg → Nat
  | .write _ l _ => 1 + (l.length + 63) / 64
  | .readReply _ l _ => 1 + (l.length + 63) / 64
  | _ => 1

/-- The flits in a port's replay buffer. -/
def VPort.used (p : VPort) : Nat := p.replay.foldl (fun n e => n + peerFlits e.2.2) 0 - p.acked

/-- A message takes the next sequence numbers, stays in the replay buffer until it is acknowledged, and leaves as soon as
the port sends (R397). -/
def State.putPeer (s : State) (port vc : Nat) (m : PeerMsg) : State :=
  let now := s.portSends port && (s.port port).unsent == 0
  let s := s.updPort port fun p => { p with
    nextSeq := (p.nextSeq + peerFlits m) % 4096
    unsent := if now then 0 else p.unsent + 1
    replay := p.replay ++ [(p.nextSeq, vc, m)] }
  if now then s.emit (.peer port m) else s

/-- Whether a message finds room in a port's replay buffer of 512 flits (R397). -/
def VPort.roomFor (p : VPort) (m : PeerMsg) : Bool := decide (p.used + peerFlits m ≤ 512)

/-- A message handed to a Vreles port: it enters the replay buffer, or waits in order while the buffer is full
(R397). -/
def State.sendPeer (s : State) (port vc : Nat) (m : PeerMsg) : State :=
  let p := s.port port
  if p.queue.isEmpty && p.roomFor m then s.putPeer port vc m
  else s.updPort port fun p => { p with queue := p.queue ++ [(vc, m)] }

/-- The bytes a host answers a read with: free values (notes/assumptions/4). -/
def outsideData (tick pa n : Nat) : Nat :=
  (List.range n).foldl (fun acc i => acc + (Config.outsideByte tick (pa + i)).toNat * 256 ^ i) 0

/-! ## Loads -/

/-- The parts of one line of a load perform or leave for home (R113, R122, R125, R151, R373). A line of which the core's
own write-back is on its way is not read before that is applied, so that no weak load reads behind its own store (R127).
DESIGN CHOICE: an ordinary load of a region's element, which is read at home (R151), does not join the order of strong
loads of R128 (notes/assumptions/66). -/
def State.loadLine (s : State) (id : Nat) (ps : List Part) : State :=
  match s.op? id, ps with
  | some o, p :: _ =>
    if 3 ≤ p.space then (s.request o p { o.request 0x02 0 p with aux := [0, 0, 0, 0] }).markSent id ps
    else
      let home := (o.strong && atHome o.scope) || (s.regionAt p.pa).isSome || s.lineRoom o.core == 0
      let line := if home then none else s.l1 o.core o.ctx p.line
      let hits (x : Part) : Bool := match line with
        | some l => l.hit o.strong s.ptime x
        | none => false
      let now := ps.filter hits
      let later := ps.filter fun x => !hits x
      let s := match line with
        | some l => s.updParts id (fun x => now.contains x) fun x => x.take l.data l.poison
        | none => s
      if later.isEmpty || (!o.strong && s.lineFlies o.core o.ctx p.line) then s
      else
        let s := s.markSent id later
        if home then s.request o p { o.request 0x02 0 p with
          aux := [if o.acq && atHome o.scope then 1 else 0, 0, 0, 0] }
        else s.request o p { o.request 0x01 0 p with aux := [s.leaseOf o.ctx] }
  | _, _ => s

/-! ## Stores -/

/-- Whether the parts of one line of a store place the release record of R133: a release at isle scope, or a strong
access with a lane whose fibre carries the mark of a release fence (R137). -/
def State.recordsAt (s : State) (o : Op) (ps : List Part) : Bool :=
  (o.rel && o.scope == 4) ||
  (o.strong && atHome o.scope && ps.any fun p => ((s.grp o.grp).fib p.lane).isleMark)

/-- A write of one line to space 4 (R124, R374): it is in flight until its destination has acknowledged it, and a strong
store has performed then; a weak one has once the port has accepted it. AUX: the flight, and whether acceptance is
answered too. -/
def State.storeOutside (s : State) (o : Op) (ps : List Part) (k : Packet) : State :=
  match ps with
  | [] => s
  | p :: _ =>
    let id := s.fresh
    let s := s.took.request o p { k with aux := [id, if o.strong then 0 else 1] }
    let s := { s with flights := place s.flights id ⟨4096 + o.grp, o.ctx, p.line, []⟩ }
    s.updParts o.id (fun x => ps.contains x) fun x => { x with st := .sent, data2 := if o.strong then id else 0 }

/-- The parts of one line of a store perform in the line or leave for home (R114, R125, R151); a weak one that leaves waits
for the core's own write-backs of the line (R122, R127). -/
def State.storeLine (s : State) (id : Nat) (ps : List Part) : State :=
  match s.op? id, ps with
  | some o, p :: _ =>
    let (mask, data) := mergedBytes ps
    let wt := { o.request 0x03 (carried mask) p with bmask := mask, data := data }
    if p.space = 4 then s.storeOutside o ps wt
    else
      let home := p.space == 3 || (o.strong && atHome o.scope) || (s.regionAt p.pa).isSome ||
        s.lineRoom o.core == 0
      if home && !o.strong && s.lineFlies o.core o.ctx p.line then s
      else if home then
        let rec_ := if s.recordsAt o ps then 1 else 0
        (s.request o p { wt with aux := [rec_] }).markSent id ps
      else
        (s.touchLine o.core o.ctx p fun l =>
          { l with dirty := l.dirty ||| mask, data := lineMerge mask data l.data,
                   poison := l.poison &&& (15 - fullSectors mask) }).markDone id ps
  | _, _ => s

/-! ## Atomics (R278 to R281) -/

/-- The new value of an element of `w` bits; `none` where the operation writes nothing (R278). Code 15, which no instruction
has, is the decrement of a join counter, which leaves zero at zero (R55, R56). -/
def atomicNew (op w m v c : Nat) : Option Nat :=
  let sm := signedOf w m
  let sv := signedOf w v
  let k := op % 16
  if k = 0 then some ((m + v) % 2 ^ w)
  else if k = 1 then some (m &&& v)
  else if k = 2 then some (m ||| v)
  else if k = 3 then some (m ^^^ v)
  else if k = 4 then some (if sm ≤ sv then m else v)
  else if k = 5 then some (min m v)
  else if k = 6 then some (if sv ≤ sm then m else v)
  else if k = 7 then some (max m v)
  else if k = 8 then some v
  else if k = 9 then (if m = c then some v else none)
  else if k = 10 then some (if v ≤ m then 0 else m + 1)
  else if k = 11 then some (if m = 0 ∨ v < m then v else m - 1)
  else if k = 12 then some (roundF (Num.add 0 (fp32.decode m) (fp32.decode v)) fp32 0 false)
  else if k = 13 then none
  else if k = 15 then (if m = 0 then none else some (m - 1))
  else some (roundF (Num.add 0 (fp32.decode m) ((fp32.decode v).mul (fp32.decode c))) fp32 0 false)

/-- An atomic on the bytes of a line: the new line and the old value, element by element for the vector
form (R278, R280). -/
def atomicLine (op w : Nat) (count : Nat) (d : LineData) (off v c : Nat) : LineData × Nat :=
  (List.range count).foldl
    (fun acc i =>
      let sz := w / 8
      let m := lineGet acc.1 (off + sz * i) sz
      let x := v / 2 ^ (w * i) % 2 ^ w
      let d := match atomicNew op w m x c with
        | some n => lineSet acc.1 (off + sz * i) sz n
        | none => acc.1
      (d, acc.2 + m * 2 ^ (w * i))) (d, 0)

/-- The element width in bits and the number of elements of an atomic (R278, R280). -/
def atomicShape (esz : Nat) (wide vec : Bool) : Nat × Nat :=
  if vec then (8 * 2 ^ esz, 32 / 2 ^ esz) else (if wide then 64 else 32, 1)

/-- Whether an atomic returns the old value; one that does not and meets poison is discarded, which is logged (R401). -/
def Op.returns (o : Op) : Bool :=
  match o.kind with
  | .atomic _ _ _ _ ret => ret
  | _ => true

/-- The parts of one line of an atomic, performed in a line that the core holds exclusively (R144). -/
def State.atomicHere (s : State) (o : Op) (op w count : Nat) (ps : List Part) : State :=
  ps.foldl
    (fun s p =>
      match s.l1 o.core o.ctx p.line with
      | some l =>
        if p.poisoned l.poison then
          let s := if o.returns then s else s.logEvent
          s.updParts o.id (· == p) fun x => { x with st := .done, poison := true }
        else
          let r := atomicLine op w count l.xdata p.off p.data p.data2
          (s.updLines o.core (fun x => x.ctx == o.ctx && x.loc == p.line) fun x =>
            { x with xdata := r.1, data := lineMerge x.dirty x.data r.1 }).updParts o.id (· == p) fun x =>
              { x with data := r.2, st := .done }
      | none => s) s

/-- Whether a core holds a line exclusively for a context and has not begun to return it (R144, R402). -/
def State.holdsExclusive (s : State) (core ctx line : Nat) : Bool :=
  match s.l1 core ctx line with
  | some l => match l.excl with
    | some e => decide (s.ptime < e) && !l.recalled
    | none => false
  | none => false

/-- Whether an atomic may run under an exclusive lease: not an acquire or release at isle scope or wider (R136), nor
one that places the release record of a fence (R137). -/
def State.plainAtomic (s : State) (o : Op) (ps : List Part) : Bool :=
  !((o.acq || o.rel) && atHome o.scope) && !s.recordsAt o ps

/-- The parts of one line of an atomic perform under an exclusive lease, in ascending lane order, or leave for home
(R144, R279), after the core's own write-backs of the line (R127). AUX: operation, element bits, elements, whether data return, the record mark, the acquire mark,
whether it is a plain atomic, whether the core has no cache; then lane, offset and operands of each
lane. -/
def State.atomicLineReq (s : State) (id : Nat) (ps : List Part) : State :=
  match s.op? id, ps with
  | some o, p :: _ =>
    match o.kind with
    | .atomic op esz wide vec ret =>
      let (w, count) := atomicShape esz wide vec
      if s.lineFlies o.core o.ctx p.line then s
      else if s.plainAtomic o ps && s.holdsExclusive o.core o.ctx p.line then s.atomicHere o op w count ps
      else
        let b (x : Bool) : Nat := if x then 1 else 0
        let head := [op, w, count, b ret, b (s.recordsAt o ps), b (o.acq && atHome o.scope), b (s.plainAtomic o ps),
          b (s.lineRoom o.core == 0)]
        (s.request o p { o.request 0x04 1 p with
          aux := head ++ ps.flatMap fun x => [x.lane, x.off, x.data, x.data2] }).markSent id ps
    | _ => s
  | _, _ => s

/-! ## Haze accesses (R149, R152, R153) -/

/-- A core's share of a region as an FP32 bound: RoundFP32(s × B × 2^-40, RDN) (R404). -/
def Region.shareBound (r : Region) (units : Nat) : Num :=
  fp32.decode (roundF (((numOfInt units).mul (num32 r.bound)).scale (-40)) fp32 3 false)

/-- One quantised add sent to the element's home (R149, R394); it is an add of the core to the region (R150). -/
def State.sendHzq (s : State) (o : Op) (p : Part) (region : Nat) (q : Int) (st : Nat) : State :=
  ((s.updShare o.core o.ctx region fun h => { h with lastAdd := s.ptime }).sendLine o.core { o.request 0x05 1 p with
    aux := [region, p.off, (q % 2 ^ 96).toNat, st, p.lane] }).updParts o.id (· == p) fun x =>
      { x with st := .sent }

/-- A new share record of a core that has asked the region home for a share (R404). -/
def State.askShare (s : State) (core ctx region : Nat) : State :=
  let r := s.region region
  let s := match s.share? core ctx region with
    | some _ => s.updShare core ctx region fun h => { h with asked := true }
    | none =>
      let h : Share := ⟨ctx, region, 0, 0, s.ptime, true, [], []⟩
      s.updCore core fun c => { c with shares := c.shares ++ [h] }
  s.send { Packet.basic 0x22 vcC 0 (isleOf core) (unitOfCore core) r.hisle r.hslice ctx 0 with
    aux := [region, core] }

/-- An add into an open delta line (R149). -/
def State.addDelta (s : State) (core ctx region : Nat) (p : Part) (q : Int) (st : Nat) (t : W32) : State :=
  let i := p.off / 16
  let s := s.updCore core fun c => { c with deltas := c.deltas.map fun d =>
    if d.ctx = ctx ∧ d.region = region ∧ d.loc = p.line then
      let r := satAdd96 (look 0 d.sums i).toInt (look 0 d.stat i) q st
      { d with sums := place d.sums i (BitVec.ofInt 96 r.1), stat := place d.stat i r.2 }
    else d }
  s.updShare core ctx region fun h => { h with tracker := t, lastAdd := s.ptime }

/-- The delta line of an element. -/
def State.delta? (s : State) (core ctx region line : Nat) : Option Delta :=
  (s.core core).deltas.find? fun d => d.ctx == ctx && d.region == region && d.loc == line

/-- A delta line asked for: the core sends DOPEN and waits for the directory's answer (R407). -/
def State.openDelta (s : State) (core ctx region : Nat) (p : Part) : State :=
  let s := s.makeRoom core
  let d : Delta := ⟨ctx, region, p.line, p.pa / 128 * 128, p.isle, p.slice, [], [], false, 0⟩
  let id := s.fresh
  (s.took.updCore core fun c => { c with deltas := c.deltas ++ [d] }).sendNotice 0x29 core d id

/-- A list in an order that free choices name (notes/assumptions/4). -/
def permute {α : Type} (key : Nat) : Nat → List α → List α
  | 0, l => l
  | n + 1, l =>
    let i := Config.freeOrder (key * 64 + n) % l.length
    match l[i]? with
    | some x => x :: permute key n (l.eraseIdx i)
    | none => l

/-- One lane's `hzadd` (R149): withheld, sent to home, or left waiting for a share or a delta line. -/
def State.hazeAdd (s : State) (o : Op) (p : Part) : State :=
  match s.regionAt p.pa with
  | none => s.markDone o.id [p]
  | some region =>
    let r := s.region region
    let (q, st) := quantise96 (BitVec.ofNat 32 p.data) r.exponent
    let m := roundF ((numOfInt q.natAbs).scale (r.exponent - 64)) fp32 2 false
    if s.lineRoom o.core = 0 then s.sendHzq o p region q st
    else
      match s.share? o.core o.ctx region with
      | none => s.askShare o.core o.ctx region
      | some h =>
        if h.asked then s
        else if h.units = 0 then s.askShare o.core o.ctx region
        else
          let bound := r.shareBound h.units
          let sum (t : W32) : Nat := roundF (Num.add 2 (num32 t) (fp32.decode m)) fp32 2 false
          let exceeds := (fp32.decode (sum h.tracker)).compare bound == some .greater
          let s := if exceeds then s.drainRegion o.core o.ctx region else s
          let t : W32 := if exceeds then 0 else h.tracker
          if (fp32.decode m).compare bound = some .greater then s.sendHzq o p region q st
          else
            match s.delta? o.core o.ctx region p.line with
            | some d =>
              if d.opened then
                (s.addDelta o.core o.ctx region p q st (BitVec.ofNat 32 (sum t))).markDone o.id [p]
              else s
            | none => s.openDelta o.core o.ctx region p

/-- The parts of one line of a tolerant load, sent to the region home in one request (R122, R406, R410): AUX
names the region, the code, the home of the elements and the first lane. -/
def State.sendLdt (s : State) (o : Op) (ps : List Part) (code : Nat) : State :=
  match ps with
  | [] => s
  | p :: _ =>
    match s.regionAt p.pa with
    | none => s.markDone o.id ps
    | some region =>
      let r := s.region region
      let k : Packet := { Packet.basic 0x06 vcL 0 (isleOf o.core) (unitOfCore o.core) r.hisle r.hslice o.ctx o.id
        with pa := p.pa, loc := p.loc, aux := [region, code, p.isle, p.slice, p.lane] }
      ((s.countLine (isleOf o.core) o.ctx p.isle).sendCounted o.core 128 k).markSent o.id ps

/-- A settle sent to a region home; the part's address field names the region (R406), and AUX tells with how many regions
it belongs together (R153). -/
def State.sendSettle (s : State) (o : Op) (p : Part) : State :=
  let r := s.region p.pa
  (s.sendCounted o.core 0
    { Packet.basic 0x06 vcL 0 (isleOf o.core) (unitOfCore o.core) r.hisle r.hslice o.ctx o.id with
      aux := [p.pa, 256, 0, 0, p.lane, o.parts.length] }).markSent o.id [p]

/-! ## Prefetch and write-back (R275, R276) -/

/-- The parts of one line of a `pref`: a line fetched under a lease unless the line hits (R275), after the core's own
write-backs of it (R127). -/
def State.prefLine (s : State) (id : Nat) (ps : List Part) : State :=
  match s.op? id, ps with
  | some o, p :: _ =>
    let hit := match s.l1 o.core o.ctx p.line with
      | some l => l.valid && decide (s.ptime < l.lease)
      | none => false
    if s.lineRoom o.core = 0 ∨ hit = true then s.markDone id ps
    else if s.lineFlies o.core o.ctx p.line then s
    else (s.request o p { o.request 0x01 0 p with aux := [s.leaseOf o.ctx] }).markSent id ps
  | _, _ => s

/-- The parts of one line of a `wback`: its dirty bytes leave for home; bytes of it on their way are waited for
(R276). -/
def State.wbackLine (s : State) (id : Nat) (ps : List Part) : State :=
  match s.op? id, ps with
  | some o, p :: _ =>
    match s.l1 o.core o.ctx p.line with
    | some l =>
      if l.dirty = 0 then (if s.lineFlies o.core o.ctx p.line then s else s.markDone id ps)
      else
        let tag := s.fresh
        let s := s.sendDirty o.core l []
        let s := s.updLines o.core (fun x => x.ctx == l.ctx && x.loc == l.loc) fun x => { x with dirty := 0 }
        s.updParts id (fun x => ps.contains x) fun x => { x with st := .sent, data2 := tag }
    | none => if s.lineFlies o.core o.ctx p.line then s else s.markDone id ps
  | _, _ => s

/-- What `wback.all` writes back (R276): the dirty lines of the context when it begins, and those on their way. -/
def State.wbackAll (s : State) (id : Nat) : State :=
  match s.op? id with
  | none => s
  | some o =>
    let own := s.flights.filter fun e => e.2.core == o.core && e.2.ctx == o.ctx
    let locs := ((s.dirtyLines o.core o.ctx).map (·.loc) ++ own.map (·.2.loc)).dedup
    s.updOp id fun o => { o with
      kind := .wback false
      parts := locs.map fun l => ⟨firstLane o.lanes, 0, 0, l, 0, 0, 0, 1, 0, 0, .todo, false⟩ }

/-! ## The local store (R109 to R112) -/

/-- The bank and the offset in it of a scratchpad byte (R109); `none` beyond the scratchpad. -/
def scratchAt (sp : List Nat) (a : Nat) : Option Nat :=
  let n := sp.length
  if a < n * Config.bankBytes then
    some (sp.getD (a / 4 % n) 0 * Config.bankBytes + 4 * (a / 4 / n) + a % 4)
  else none

/-- Whether some of the local store's bytes `l` of a core lie in a word with an uncorrectable error (R462). -/
def State.wordsBad (s : State) (core : Nat) (l : List Nat) : Bool :=
  s.errs.any fun e => match e with
    | .word c w => c == core && l.any fun k => k / 4 == w
    | _ => false

/-- A byte of a core's local store written, with `more` bytes to follow: a word written whole is free of errors
(R462). -/
def State.writeLocal (s : State) (core k v more : Nat) : State :=
  let s := s.updCore core fun c => { c with bytes := put 0 c.bytes k (BitVec.ofNat 8 v) }
  if k % 4 = 0 ∧ 3 ≤ more then { s with errs := s.errs.filter fun e => e != ErrAt.word core (k / 4) } else s

/-- The `n` bytes at a scratchpad address of a block's side. -/
def State.scratchRead (s : State) (b side a : Nat) : Nat → Nat
  | 0 => 0
  | n + 1 =>
    let x := s.blk b
    let v := match scratchAt (x.spBanks side) a with
      | some k => (look 0 (s.core (x.coreAt side)).bytes k).toNat
      | none => 0
    v + 256 * State.scratchRead s b side (a + 1) n

/-- Bytes written at a scratchpad address of a block's side. -/
def State.scratchWrite (s : State) (b side a : Nat) : List Nat → State
  | [] => s
  | v :: t =>
    let x := s.blk b
    let s' := match scratchAt (x.spBanks side) a with
      | some k => s.writeLocal (x.coreAt side) k v t.length
      | none => s
    State.scratchWrite s' b side (a + 1) t

/-- The clocks an access takes in the local store: the largest number of distinct words its lanes touch
in one bank (R111). -/
def bankClocks (sp : List Nat) (ps : List Part) : Nat :=
  let words := (ps.flatMap fun p => (List.range ((p.width + 3) / 4)).map fun i => p.pa / 4 + i).dedup
  ((sp.mapIdx fun j _ => (words.filter fun w => w % sp.length == j).length).max?).getD 0

/-- A local-store operation performs (R112): loads take their bytes, which are poisoned where their word has an
uncorrectable error (R267, R462), stores write them in lane order; the extra clocks of R111 delay the decrement. DESIGN CHOICE: without bank conflicts it takes one clock
(notes/assumptions/57). -/
def State.runLocal (s : State) (o : Op) (store : Bool) : State :=
  let x := s.grp o.grp
  let side := (s.blk x.blk).side x.core
  let extra := bankClocks ((s.blk x.blk).spBanks side) o.parts - 1
  let s := if store then
      o.parts.foldl (fun s p => s.scratchWrite x.blk side p.pa (leBytes p.width p.data)) s
    else s
  let s := s.updParts o.id (fun _ => true) fun p =>
    { p with
      st := .done, data := if store then p.data else s.scratchRead x.blk side p.pa p.width
      poison := !store && s.wordsBad x.core ((List.range p.width).filterMap fun i =>
        scratchAt ((s.blk x.blk).spBanks side) (p.pa + i)) }
  s.updOp o.id fun o => { o with notBefore := s.clockOf o.grp + 1 + extra }

/-! ## Starting and running -/

/-- The parts of an operation perform or leave (R125, R129). Only parts that have not left are tried, and those that
would add to a full send queue are held (R492). -/
def State.runOp (s : State) (id : Nat) : State :=
  match s.op? id with
  | none => s
  | some o =>
    let todo := o.parts.filter fun p => p.st == .todo
    let lines := byLine todo
    let each (f : State → List Part → State) : State :=
      lines.foldl (fun (s : State) ps => s.unlessFull o.core fun s => f s ps) s
    let single (f : State → Part → State) (l : List Part) : State :=
      l.foldl (fun (s : State) p => s.unlessFull o.core fun s => f s p) s
    let s := match o.kind with
      | .load _ _ => each fun s ps => s.loadLine id ps
      | .store _ => each fun s ps => s.storeLine id ps
      | .atomic _ _ _ _ _ => each fun s ps => s.atomicLineReq id ps
      | .lload _ _ => s.runLocal o false
      | .lstore => s.runLocal o true
      | .hzadd => single (fun s p => s.hazeAdd o p) (permute s.tick todo.length todo)
      | .ldt code => each fun s ps => s.sendLdt o ps code
      | .settle => single (fun s p => s.sendSettle o p) todo
      | .pref => each fun s ps => s.prefLine id ps
      | .wback _ => each fun s ps => s.wbackLine id ps
      | _ => s
    s.completeOp id

/-- The lanes of an operation that arrive at a block barrier (R285). -/
def State.arriveBar (s : State) (o : Op) (k : Nat) : State :=
  (s.arriveLanes o k o.lanes).barCheck (s.grp o.grp).blk k

/-- The lanes of an operation arrive at a gang barrier: for the phase in progress, or for the next one once their group has
arrived (R287). -/
def State.arriveGbar (s : State) (o : Op) (g : Nat) : State :=
  let b := s.blk (s.grp o.grp).blk
  let next := b.gbarDone.contains g || (b.gbarGroups g).contains o.grp
  let s := s.updGrp o.grp fun y =>
    y.updCtl fun c => { c with gbarArr := put 0 c.gbarArr g (look 0 c.gbarArr g ||| o.lanes) }
  let s := s.updOp o.id fun o => { o with stage := .phase, kind := .gbar g next }
  s.gbarCheck (s.grp o.grp).blk g

/-- What follows the release action of an operation (R129, R130, R137, R285, R287): its accesses, its
acquire, or its arrival. A release action at package or system scope ends the isle-record mark. -/
def State.afterRelease (s : State) (id : Nat) : State :=
  match s.op? id with
  | none => s
  | some o =>
    let lift (s : State) : State :=
      if drainsAt o.scope && (o.rel || o.kind.isBar) then
        s.updGrp o.grp fun g => g.updFibs o.lanes fun _ f => { f with isleMark := false }
      else s
    match o.kind with
    | .bar k _ => s.arriveBar o k
    | .gbar g _ => (lift s).arriveGbar o g
    | .fence =>
      let s := lift s
      let s := if o.acq && atHome o.scope then s.selfInvalidate o.core o.ctx else s
      s.updOp id fun o => { o with stage := .finished }
    | .wback true => ((s.wbackAll id).updOp id fun o => { o with stage := .running }).runOp id
    | _ => ((lift s).updOp id fun o => { o with stage := .running }).runOp id

/-- The release action of an operation that may start (R123, R129): a drain at package and system scope;
at isle scope a fence, or a `bar` of a pair block, leaves the isle-record mark (R137). -/
def State.startOp (s : State) (id : Nat) : State :=
  match s.op? id with
  | none => s
  | some o =>
    let releases := o.rel || o.kind.isBar
    if releases && drainsAt o.scope then
      (s.updOp id fun o => { o with stage := .releasing }).startDrain o.core o.ctx (.op id)
    else
      let s := if (o.rel && o.kind.isFence || o.kind.isBar) && o.scope == 4 then
          s.updGrp o.grp fun g => g.updFibs o.lanes fun _ f => { f with isleMark := true }
        else s
      s.afterRelease id

/-- The words of a part's data in its registers: zero- or sign-extended (R272). -/
def OpKind.extend (k : OpKind) (p : Part) : Nat :=
  match k with
  | .load w true => (signedOf (8 * w) p.data % 2 ^ 32).toNat
  | .lload w true => (signedOf (8 * w) p.data % 2 ^ 32).toNat
  | _ => p.data

/-- The register writes of a finished operation: word `w` of a lane's data (R269). -/
def Op.writes (o : Op) : List (Dst × W32) :=
  o.dsts.filterMap fun d =>
    (o.parts.find? fun p => p.lane == d.1).map fun p =>
      (d.2.2, BitVec.ofNat 32 (o.kind.extend p / 2 ^ (32 * d.2.1)))

/-- Whether an operation ends without writing its registers (R267). -/
def Op.fails (o : Op) : Bool := o.failed || (!o.dsts.isEmpty && o.parts.any (·.poison))

/-- The data of a finished operation are on their way to its registers: they land with the end of the group's clock, in
the order of the ports with other writes of that clock (R176), and its counter follows (R67). -/
def State.landData (s : State) (o : Op) : State :=
  let due := s.clockOf o.grp + 1
  (s.updGrp o.grp fun g => { g with pend := g.pend ++ o.writes.map fun w => ⟨due, o.port, w.1, w.2, false⟩ }).updOp o.id
    fun o => { o with dsts := [], notBefore := max o.notBefore due }

/-- One operation of the pipeline moves on: a held one that nothing blocks starts, a running one tries the
parts that have not left, the data of a finished one go to its registers. -/
def State.pumpOp (s : State) (id : Nat) : State :=
  match s.op? id with
  | none => s
  | some o =>
    if o.stage = .held then (if s.mayStart o then s.unlessFull o.core fun s => s.startOp id else s)
    else if o.stage = .running then (if o.parts.any (fun p => p.st == .todo) then s.runOp id else s.completeOp id)
    else if o.stage = .finished ∧ o.fails = false ∧ o.dsts ≠ [] then s.landData o
    else s

/-- The pipelines move on: every operation in issue order. -/
def State.pump (s : State) : State := (s.ops.map (·.id)).foldl (fun s id => s.pumpOp id) s

/-- An operation joins the pipeline: it takes the next number and its counter increases (R67, R269). -/
def State.addOp (s : State) (o : Op) : State :=
  let s := s.updGrp o.grp fun g => g.incCounter o.sb
  { s.took with ops := s.ops ++ [{ o with id := s.fresh }] }

/-! ## Completion -/

/-- A finished operation leaves the pipeline (R67, R267): its registers are written, unless some lane's
data was poisoned, its counter decreases, and a failure is recorded with its counter. -/
def State.retireOp (s : State) (o : Op) : State :=
  let failed := o.fails
  let s := s.updGrp o.grp fun g =>
    let g := if failed then g else g.landAll o.writes
    let g := g.decCounter o.sb
    if failed then g.updCtl fun c => { c with memErr := c.memErr ++ [(o.id * 8 + o.sb, o.addr)] } else g
  { s with ops := s.ops.filter fun x => x.id != o.id }

/-- Whether an operation may retire now. -/
def State.mayRetire (s : State) (o : Op) : Bool :=
  o.stage == .finished && decide (o.notBefore ≤ s.clockOf o.grp)

/-- SCOREBOARD_DECREMENT: a variable-latency operation completes and decrements its counter (R67). -/
def execScoreboardDecrement (op : Nat) (s : State) : Result :=
  match s.op? op with
  | some o => .next (if s.mayRetire o then s.retireOp o else s)
  | none => .next s

/-- The operations that may retire. -/
def State.dueOps (s : State) : List Instr :=
  (s.ops.filter s.mayRetire).map fun o => .scoreboardDecrement o.id

end Sys2Proof.Machine
end

