-- ==== Sys2Proof/Machine/Arrays.lean ====
section
/-!
DEFINITION. The operand buffer and the tiles in it (R70, R115 to R117), the matrix array and its rows (R99,
R118, R300 to R305, R489), and the events that carry array operations out.
-/
namespace Sys2Proof.Machine

/-! ## The operand buffer (R115) -/

/-- Where an operand-buffer address lies in the core's local store (R115); `none` beyond the block's
operand-buffer banks. -/
def obAt (ob : List Nat) (o : Nat) : Option Nat :=
  let m := ob.length
  if o < m * Config.bankBytes then
    some (ob.getD (o / 64 % m) 0 * Config.bankBytes + 64 * (o / 64 / m) + o % 64)
  else none

/-- A byte of the operand buffer of a block's side. -/
def State.obByte (s : State) (b side o : Nat) : Nat :=
  match obAt ((s.blk b).obBanks side) o with
  | some k => (look 0 (s.core ((s.blk b).coreAt side)).bytes k).toNat
  | none => 0

/-- The `n` bytes at an operand-buffer address, little-endian. -/
def State.obRead (s : State) (b side o : Nat) : Nat → Nat
  | 0 => 0
  | n + 1 => s.obByte b side o + 256 * s.obRead b side (o + 1) n

/-- Bytes written at an operand-buffer address of a block's side. -/
def State.obWrite (s : State) (b side o : Nat) : List Nat → State
  | [] => s
  | v :: t =>
    let s' := match obAt ((s.blk b).obBanks side) o with
      | some k => s.writeLocal ((s.blk b).coreAt side) k v t.length
      | none => s
    State.obWrite s' b side (o + 1) t

/-! ## Tiles (R70, R71, R116, R117) -/

/-- Bytes of a row of a tile (R70). -/
def Tile.rowBytes (t : Tile) : Nat := 64 * (t.rowb + 1)

/-- Bytes of a tile. -/
def Tile.bytes (t : Tile) : Nat := t.rowCount * t.rowBytes

/-- The 64 bits of a tile-table entry (R70). -/
def Tile.bits (t : Tile) : Nat :=
  t.state + (if t.alloc then 4 else 0) + t.bank * 8 + t.off * 2 ^ 8 + t.rows * 2 ^ 19 + t.rowb * 2 ^ 23 +
  t.fslot * 2 ^ 27 + t.txb * 2 ^ 30

/-- Whether a tile index is one of the block's reserved entries and is allocated (R71). -/
def Block.named (b : Block) (side k : Nat) : Bool := decide (k < b.nTiles) && (b.tile side k).alloc

/-- Whether a tile can be read as an operand: READY, with no transition waiting (R71, R117). -/
def Tile.readable (t : Tile) : Bool := t.state == 2 && t.goal.isNone

/-- A change made to a tile of a block. -/
def State.updTile (s : State) (b side k : Nat) (f : Tile → Tile) : State :=
  s.updBlk b fun x => x.updTile side k f

/-- A tile moves to a state, or waits to do so until no operand read is pending (R117). -/
def Tile.toward (t : Tile) (st : Nat) : Tile :=
  if t.reads = 0 then { t with state := st, goal := none } else { t with goal := some st }

/-- One operand read of a tile has completed; a waiting transition takes effect when it was the last
(R117). -/
def Tile.readDone (t : Tile) : Tile :=
  let n := t.reads - 1
  match t.goal with
  | some st => if n = 0 then { t with reads := 0, state := st, goal := none } else { t with reads := n }
  | none => { t with reads := n }

/-- The last read of a `tstore` of the tile: DRAINING ends in EMPTY (R116); while other reads are pending
the tile waits for EMPTY (R117). -/
def Tile.drained (t : Tile) : Tile :=
  if t.state = 3 then { t with state := 0 } else { t with goal := some 0 }

/-! ## Elements (R300) -/

/-- The format slot of a tile's block. -/
def State.slotFor (s : State) (b i : Nat) : Nat := (s.gang (s.blk b).gang).fslot i

/-- The bits of an element of a format (R92). -/
def fmtBits (f : Nat) : Nat :=
  if f = 0 ∨ f = 7 then 32 else if f = 1 then 64 else if f = 2 ∨ f = 3 then 16 else if f = 8 then 4
  else if f = 9 then 128 else 8

/-- The class of an operand's slot: 0 F32, 1 H16, 2 B8, 3 Q4; `none` for a format that no matrix
instruction takes (R300). -/
def slotClass (w : Nat) : Option Nat :=
  let f := slotFmt w
  if f = 0 then some 0 else if f = 2 ∨ f = 3 then some 1 else if f = 4 ∨ f = 5 ∨ f = 6 then some 2
  else if f = 8 then some 3 else none

/-- Whether `mma` (or `mmas`, `scaled`) accepts the slots of its operands (R300). -/
def pairOk (scaled : Bool) (wa wb : Nat) : Bool :=
  slotOk wa && slotOk wb && (slotClass wa).isSome && slotClass wa == slotClass wb &&
  (if scaled then (slotClass wa == some 2 || slotClass wa == some 3) && (slotForm wa != 0 || slotForm wb != 0)
   else slotForm wa == 0 && slotForm wb == 0)

/-- The K-atom size of a format (R99). -/
def atomOf (f : Nat) : Nat := if f = 0 then 1 else if f = 2 ∨ f = 3 then 4 else if f = 8 then 16 else 8

/-- The K-atom size of a pair of slots: the smaller one (R99). -/
def pairAtom (wa wb : Nat) : Nat := min (atomOf (slotFmt wa)) (atomOf (slotFmt wb))

/-- The array clocks of K elements of a class (R300, R303). -/
def classClocks (c k : Nat) : Nat :=
  if c = 0 then 8 * k else if c = 1 then 2 * k else if c = 2 then k else (k + 1) / 2

/-- The address of the scale byte of block `j` of row `r`: trailing the row's codes, or in a separate array
at the tile's start (R93, R300). -/
def scaleAt (w : Nat) (t : Tile) (k r j : Nat) : Int :=
  if slotForm w = 1 then (t.start + r * t.rowBytes + k / 2 + j : Nat)
  else (t.start : Int) + slotOff w + (r * slotStride w + j : Nat)

/-- Element `i` of row `r` of a tile in an operation of K elements (R300). -/
def State.element (s : State) (b side : Nat) (t : Tile) (w k r i : Nat) : Num :=
  let f := slotFmt w
  let row := t.start + r * t.rowBytes
  let scale := if slotForm w = 0 then 0
    else s.obByte b side (scaleAt w t k r (i / slotBlock w)).toNat
  if f = 8 then
    let c := s.obByte b side (row + i / 2) / 16 ^ (i % 2) % 16
    if slotForm w = 3 then (fb4Value (slotEtype w) c).mul (e8m0 scale)
    else (fb4Value (scale / 64) c).mul (fb4Scale scale)
  else
    let n := fmtBits f / 8
    let x := s.obRead b side (row + n * i) n
    let v := if f = 6 then numOfInt (signedOf 8 x) else if f = 7 then numOfInt (signedOf 32 x)
      else (fmtOf f).decode x
    if slotForm w = 3 then v.mul (e8m0 scale) else v

/-- Whether K elements fit in a row of a tile and K fits the slot's blocks (R301). -/
def rowFits (w : Nat) (t : Tile) (k : Nat) : Bool :=
  let f := slotFmt w
  let b := slotBlock w
  (b == 0 || k % b == 0) &&
  (if f = 8 then
     (if slotForm w = 1 then decide (k / 2 + k / b ≤ t.rowBytes) else decide (k / 2 ≤ t.rowBytes))
   else decide (k * fmtBits f ≤ 8 * t.rowBytes))

/-- Whether every scale byte of a separate array lies in the block's operand-buffer banks (R300). -/
def State.scalesFit (s : State) (b side : Nat) (w : Nat) (t : Tile) (k rows : Nat) : Bool :=
  if slotForm w < 2 then true
  else
    let size := ((s.blk b).obBanks side).length * Config.bankBytes
    (List.range rows).all fun r => (List.range (k / slotBlock w)).all fun j =>
      let a := scaleAt w t k r j
      decide (0 ≤ a) && decide (a < size)

/-! ## Multiplication (R99, R301) -/

/-- The K-atom sum of one output element, rounded once (R99). -/
def atomSum (ps : List (Num × Num)) : W32 :=
  BitVec.ofNat 32 (roundF (sumNums 0 (ps.map fun p => p.1.mul p.2)) fp32 0 false)

/-- RoundFP32 of a sum of two FP32 patterns, ties to even. -/
def fpSum (a b : W32) : W32 :=
  BitVec.ofNat 32 (roundF (Num.add 0 (fp32.decode a.toNat) (fp32.decode b.toNat)) fp32 0 false)

/-- The rounded atom sums of an operation, cell by cell and in ascending K: the key is
(row × 256 + column) × 4096 + atom (R99, R301). -/
def State.products (s : State) (b sideA sideB : Nat) (ta tb : Tile) (wa wb k c0 : Nat) : List (Nat × W32) :=
  let n := pairAtom wa wb
  (List.range ta.rowCount).flatMap fun m => (List.range tb.rowCount).flatMap fun col =>
    (List.range (k / n)).map fun j =>
      ((m * 256 + 16 * c0 + col) * 4096 + j,
       atomSum ((List.range n).map fun i =>
         (s.element b sideA ta wa k m (j * n + i), s.element b sideB tb wb k col (j * n + i))))

/-- The products of one operation folded into the accumulators of a core: the first atom of a cell starts
from zero with `.z` (R99, R301). -/
def foldCells (acc : SMap W32) (first : Nat) (z : Bool) (l : List (Nat × W32)) : SMap W32 :=
  l.foldl
    (fun acc e =>
      let cell := first * 256 + e.1 / 4096
      let old := if z && e.1 % 4096 == 0 then 0 else look 0 acc cell
      put 0 acc cell (fpSum old e.2)) acc

/-! ## Array operations -/

/-- A change made to an array operation of a core. -/
def State.updMat (s : State) (core id : Nat) (f : MatOp → MatOp) : State :=
  s.updCore core fun c => { c with mq := c.mq.map fun m => if m.id = id then f m else m }

/-- Whether a row of a core is busy (R118). -/
def Core.isBusy (c : Core) (row : Nat) : Bool := look 0 c.busy row != 0

/-- Whether an array operation writes accumulator rows, and so holds their busy bits (R118). -/
def MatKind.writesRows : MatKind → Bool
  | .mma _ _ _ _ _ _ _ _ _ => true
  | .zero => true
  | .accIn _ _ _ _ => true
  | _ => false

/-- An array operation with its place, its rows and the clocks it occupies the array. -/
def MatOp.mk' (blk side : Nat) (kind : MatKind) (row rows clocks : Nat) (read : Bool) : MatOp :=
  ⟨0, blk, side, kind, row, rows, clocks, 0, read, none, [], none, none, 0, none, 0, 0, 0⟩

/-- An array operation joins a core's queue: the busy bits of the rows it writes are set (R118). An
operation of an `mloop` stands where its command does in issue order (R301); the others name the instruction being
issued. -/
def State.addMat (s : State) (m : MatOp) : State :=
  let core := (s.blk m.blk).coreAt m.side
  let grp := if s.cur.kind = .group then some s.cur.grp else none
  let m := if m.cmd.isSome then { m with id := s.fresh } else { m with id := s.fresh, iaddr := s.iaddr, grp := grp }
  let later (x : MatOp) : Bool := match m.cmd with
    | some k => x.blk == m.blk && decide (k < x.id)
    | none => false
  s.took.updCore core fun c =>
    let c := if m.kind.writesRows then c.markBusy m.row m.rows true else c
    { c with mq := c.mq.filter (fun x => !later x) ++ [m] ++ c.mq.filter later }

/-- Whether an earlier `mloop` of the same block still has iterations to run, so that the operation waits
its turn (R301, R307). -/
def State.behindLoop (s : State) (m : MatOp) : Bool :=
  s.cmds.any fun c => c.kind == .mloop && c.blk == m.blk && m.cmd.isNone && decide (c.id < m.id)

/-- Whether an operation runs on the array; a `tfill` does not (R489). -/
def MatKind.onArray : MatKind → Bool
  | .fill _ _ => false
  | _ => true

/-- The operation that occupies the array: the first that has array clocks left, is not behind a loop, and that the memory
pipeline does not hold (R277). -/
def State.arrayHead (s : State) (core : Nat) : Option MatOp :=
  (s.core core).mq.find? fun m => m.kind.onArray && m.endAt.isNone && m.behind == 0 && !s.behindLoop m

/-! ## Errors (R321, R462, R463) -/

/-- An uncorrectable error in what an array operation reads terminates the gang (R321). -/
def State.matFault (s : State) (m : MatOp) : State :=
  let b := s.blk m.blk
  s.terminate b.gang { s.reportOf (if m.grp.isNone then 0x03 else 0x01) b.gang with
    code := 0x13, core := b.coreAt m.side, block := b.num, iaddr := m.iaddr, iter := m.iter
    group := match m.grp with
      | some g => (s.grp g).num
      | none => 255 }

/-- Whether a tile's bytes have an uncorrectable error (R462). -/
def State.tileBad (s : State) (b side : Nat) (t : Tile) : Bool :=
  !s.errs.isEmpty && s.wordsBad ((s.blk b).coreAt side)
    ((List.range (t.bytes / 4)).filterMap fun i => obAt ((s.blk b).obBanks side) (t.start + 4 * i))

/-- Whether some accumulator cell of a core among `n` rows has an uncorrectable error (R462). -/
def State.rowsBad (s : State) (core row n : Nat) : Bool :=
  s.errs.any fun e => match e with
    | .cell c k => c == core && decide (row * 256 ≤ k) && decide (k < (row + n) * 256)
    | _ => false

/-- Whether an array operation reads the rows that it names (R301, R305, R315). -/
def MatKind.readsRows : MatKind → Bool
  | .mma _ _ _ _ z _ _ _ _ => !z
  | .accOut _ _ _ => true
  | .accIn _ _ _ add => add
  | .hzRows _ => true
  | _ => false

/-- The errors in the cells that an array operation has written are gone. -/
def State.cellsWritten (s : State) (core : Nat) (m : MatOp) : State :=
  let written (k : Nat) : Bool := match m.kind with
    | .zero => decide (m.row * 256 ≤ k) && decide (k < (m.row + m.rows) * 256)
    | _ => m.cells.any fun e => m.row * 256 + e.1 / 4096 == k
  { s with errs := s.errs.filter fun e => match e with
    | .cell c k => !(c == core && written k)
    | _ => true }

/-- The array clocks of one K-atom of an operation (R99, R463). -/
def State.atomClocks (s : State) (m : MatOp) : Nat :=
  match m.kind with
  | .mma a bt k _ _ _ _ pair _ =>
    let b := s.blk m.blk
    let n := pairAtom (s.slotFor m.blk (b.tile (if pair then 0 else m.side) a).fslot)
      (s.slotFor m.blk (b.tile m.side bt).fslot)
    max 1 (m.clocks * n / k)
  | _ => 1

/-- Whether the array of a core is to find a parity error on an operand path in its next busy clock (R463). -/
def State.parityError (s : State) (core : Nat) : Bool := s.errs.contains (.parity core)

/-- A parity error on an operand path (R463): the atom in progress is discarded and repeated; after three failures of one
atom in a row the operation fails. -/
def State.parityRetry (s : State) (core : Nat) (m : MatOp) : State :=
  let s := { s with errs := s.errs.erase (.parity core) }
  if 2 ≤ m.fails then s.matFault m
  else
    let n := s.atomClocks m
    s.updMat core m.id fun x => { x with done := x.done / n * n, fails := x.fails + 1 }

/-- An array operation one clock on: behind the end of an atom the failures count anew (R463). -/
def MatOp.advance (m : MatOp) (n clock : Nat) : MatOp :=
  { m with done := m.done + 1, fails := if (m.done + 1) % n = 0 then 0 else m.fails
           endAt := if m.clocks ≤ m.done + 1 then some (clock + 24) else none }

/-- A busy clock of the array (R303, R489): the operation at its head advances, or repeats an atom (R463); the last write
lands 24 clocks after its last array clock. -/
def State.arrayClock (s : State) (core clock : Nat) : State :=
  match s.arrayHead core with
  | none => s
  | some m =>
    let s := if s.parityError core then s.parityRetry core m
      else s.updMat core m.id fun x => x.advance (s.atomClocks m) clock
    s.updCore core fun c => { c with burst := c.burst + 1 }

/-- Whether an operation's operands are still to be read once it has run its clocks. -/
def MatOp.readsDue (m : MatOp) : Bool := m.kind.onArray && !m.read && m.endAt.isSome

/-- Whether an operand tile of an operation has an uncorrectable error (R321). -/
def State.operandsBad (s : State) (m : MatOp) : Bool :=
  let b := s.blk m.blk
  match m.kind with
  | .mma a bt _ _ _ _ _ pair _ =>
    let sideA := if pair then 0 else m.side
    s.tileBad m.blk sideA (b.tile sideA a) || s.tileBad m.blk m.side (b.tile m.side bt)
  | .accIn tile _ _ _ => s.tileBad m.blk m.side (b.tile m.side tile)
  | _ => false

/-- The operand reads of an operation complete (R117): its operands are captured, and each tile's pending
count falls. -/
def State.captureReads (s : State) (m : MatOp) : State :=
  let b := s.blk m.blk
  let core := b.coreAt m.side
  match m.kind with
  | .mma a bt k c0 _ _ _ pair _ =>
    let sideA := if pair then 0 else m.side
    let ta := b.tile sideA a
    let tb := b.tile m.side bt
    let cells := s.products m.blk sideA m.side ta tb (s.slotFor m.blk ta.fslot) (s.slotFor m.blk tb.fslot) k c0
    let s := s.updMat core m.id fun x => { x with read := true, cells := cells }
    (s.updTile m.blk sideA a Tile.readDone).updTile m.blk m.side bt Tile.readDone
  | .accIn tile c0 rnd _ =>
    let t := b.tile m.side tile
    let w := s.slotFor m.blk t.fslot
    let cols := t.rowBytes * 8 / fmtBits (slotFmt w)
    let cells := (List.range t.rowCount).flatMap fun r => (List.range cols).map fun j =>
      ((r * 256 + 16 * c0 + j) * 4096,
       BitVec.ofNat 32 (roundF (s.element m.blk m.side t w cols r j) fp32 rnd false))
    let s := s.updMat core m.id fun x => { x with read := true, cells := cells }
    s.updTile m.blk m.side tile Tile.readDone
  | _ => s.updMat core m.id fun x => { x with read := true }

/-- OPERAND_READS_COMPLETE: the last operand read of the first operation with reads due completes
(R117). -/
def execOperandReadsComplete (core : Nat) (s : State) : Result :=
  match (s.core core).mq.find? MatOp.readsDue with
  | some m => .next ((if s.operandsBad m then s.matFault m else s).captureReads m)
  | none => .next s

/-- The bytes that `macc.out` writes for a cell (R305). -/
def accOutBytes (w rnd : Nat) (x : W32) : List Nat :=
  let f := slotFmt w
  let v := fp32.decode x.toNat
  let n := fmtBits f / 8
  if f = 6 then leBytes n (roundInt v rnd (-128) 127 % 2 ^ 8).toNat
  else if f = 7 then leBytes n (roundInt v rnd (-(2 ^ 31)) (2 ^ 31 - 1) % 2 ^ 32).toNat
  else leBytes n (roundF v (fmtOf f) rnd (slotSat w))

/-- A finished engine command or array operation decrements the counter it named (R67, R269). -/
def State.oweDecrement (s : State) (grp sb : Nat) : State :=
  if sb = 0 then s
  else
    let o := Op.blank grp (s.grp grp).core (s.ctxOf grp) 0 sb .engine
    { s.took with ops := s.ops ++ [{ o with id := s.fresh, stage := .finished }] }

/-- A tile's last write completes: FILLING becomes READY (R116). -/
def Tile.filled (t : Tile) : Tile := if t.state = 1 then { t with state := 2 } else t

/-- The last write of an array operation lands (R118, R301 to R305, R310): results, busy bits, tile states
and the counter. An uncorrectable error in the cells it reads terminates the gang (R321). -/
def State.landMat (s : State) (m : MatOp) : State :=
  let b := s.blk m.blk
  let core := b.coreAt m.side
  let s := if m.kind.readsRows && s.rowsBad core m.row m.rows then s.matFault m else s
  let s := match m.kind with
    | .mma _ _ _ _ z _ _ _ _ => s.updCore core fun c => { c with acc := foldCells c.acc m.row z m.cells }
    | .zero => s.updCore core fun c =>
        { c with acc := c.acc.filter fun e => !(decide (m.row * 256 ≤ e.1) && decide (e.1 < (m.row + m.rows) * 256)) }
    | .accIn _ _ rnd add =>
      let step (acc : SMap W32) (e : Nat × W32) : SMap W32 :=
        let cell := m.row * 256 + e.1 / 4096
        let v := if add then BitVec.ofNat 32 (roundF (Num.add rnd
            (fp32.decode (look 0 acc cell).toNat) (fp32.decode e.2.toNat)) fp32 rnd false) else e.2
        put 0 acc cell v
      s.updCore core fun c => { c with acc := m.cells.foldl step c.acc }
    | .accOut tile c0 rnd =>
      let t := b.tile m.side tile
      let w := s.slotFor m.blk t.fslot
      let n := fmtBits (slotFmt w) / 8
      let cols := t.rowBytes / n
      let acc := (s.core core).acc
      let s := (List.range t.rowCount).foldl
        (fun (s : State) r => (List.range cols).foldl
          (fun (s : State) j => s.obWrite m.blk m.side (t.start + r * t.rowBytes + n * j)
            (accOutBytes w rnd (look 0 acc ((m.row + r) * 256 + 16 * c0 + j)))) s) s
      s.updTile m.blk m.side tile Tile.filled
    | .fill tile val =>
      let t := b.tile m.side tile
      let s := (List.range (t.bytes / 4)).foldl
        (fun (s : State) i => s.obWrite m.blk m.side (t.start + 4 * i) (leBytes 4 val.toNat)) s
      s.updTile m.blk m.side tile Tile.filled
    | .hzRows id =>
      let acc := (s.core core).acc
      s.updCmd id fun c =>
        let n := c.kk
        let step (buf : SMap Byte) (i : Nat) : SMap Byte :=
          writeBytes buf (4 * i) 4 (look 0 acc ((m.row + i / n) * 256 + 16 * c.c0 + i % n)).toNat
        { c with got := [0], buf := (List.range (m.rows * n)).foldl step c.buf }
  let s := (if m.kind.writesRows then s.cellsWritten core m else s).updCore core fun c =>
    let c := if m.kind.writesRows then c.markBusy m.row m.rows false else c
    { c with mq := c.mq.filter fun x => x.id != m.id }
  match m.owner with
  | some (g, sb) => s.oweDecrement g sb
  | none => s

/-- Whether the last write of an operation may land now: array operations in their order (R118), a fill at
the end of its last clock (R489). -/
def State.mayLand (s : State) (core : Nat) (m : MatOp) : Bool :=
  let clock := (s.cluster (clusterOf core)).clock
  let due := match m.endAt with
    | some e => decide (e ≤ clock)
    | none => false
  due && (!m.kind.onArray || (m.read && ((s.core core).mq.find? fun x => x.kind.onArray && x.endAt.isSome) == some m))

/-! ## Bursts and tokens (R440, R441) -/

/-- Whether a core has array work to do. -/
def State.wantsArray (s : State) (core : Nat) : Bool := (s.arrayHead core).isSome

/-- The array events of a core that may come next. -/
def State.dueArray (s : State) (core : Nat) : List Instr :=
  (if (s.core core).mq.any MatOp.readsDue then [.operandReadsComplete core] else []) ++
  (if (s.core core).mq.any (s.mayLand core) then [.matrixWriteComplete core] else [])

end Sys2Proof.Machine
end

