-- ==== Sys2Proof/Machine/Tx.lean ====
section
/-!
DEFINITION. Transaction barriers in the scratchpad (R72 to R74), and the shape of the engine-class
instructions (R294 to R298).
-/
namespace Sys2Proof.Machine

/-! ## The issuer of an engine instruction -/

/-- The block that an engine instruction acts for (R295, R298). -/
def State.engBlk (s : State) : Nat :=
  match s.cur.kind with
  | .stream => s.cur.blk
  | _ => (s.grp s.cur.grp).blk

/-- The side of the block whose tiles, rows and barriers an engine instruction names: the group's core; in
a stream the lower core, or the upper one with `.hi` (R295). -/
def State.engSide (s : State) (hi : Bool) : Nat :=
  match s.cur.kind with
  | .stream => if hi then 1 else 0
  | _ => (s.blk (s.grp s.cur.grp).blk).side (s.grp s.cur.grp).core

/-- The group that issues an engine instruction, if it is no stream. -/
def State.engGrp (s : State) : Option Nat :=
  match s.cur.kind with
  | .stream => none
  | _ => some s.cur.grp

/-- A scalar operand of an engine instruction: the group's, or in a stream that of group 0 of the block,
0 once it has retired (R296). -/
def State.engS (s : State) (k : Nat) : W32 :=
  match s.cur.kind with
  | .stream =>
    let g := s.grp ((s.blk s.cur.blk).groups.headD 0)
    if g.retired then 0 else g.s k
  | _ => (s.grp s.cur.grp).s k

/-- A scalar pair of an engine instruction. -/
def State.engPair (s : State) (k : Nat) : W64 := s.engS (k + 1) ++ s.engS k

/-- Whether `.hi` is not allowed: outside a stream of a pair block (R299). -/
def State.hiBad (s : State) (hi : Bool) : Bool :=
  match s.cur.kind with
  | .stream => hi && !(s.blk s.cur.blk).pair
  | _ => hi

/-- A failed check of an engine instruction, in its order (R348, R488): the launch check of its slots, the
mode of `.hi`, the register checks of a group, and the tile and descriptor checks. -/
def State.engFail (s : State) (slotBad hiBad : Bool) (rd wr : List Reg) (checks : List (Bool × Fail)) :
    Option Fail :=
  let regs (s : State) : Option Fail :=
    match s.cur.kind with
    | .stream => none
    | _ => s.regFail rd wr 4096
  match firstFail [(slotBad, Fail.illegal 3), (hiBad, Fail.illegal 4)] with
  | some f => some f
  | none =>
    match regs s with
    | some f => some f
    | none => firstFail checks

/-- The shape of an engine instruction (R296, R298): where its mode allows it at all (R294, R299, R302) it waits while
`ready` does not hold, then makes its checks, and then acts. -/
def engineOp (s : State) (ready slotBad hiBad : Bool) (rd wr : List Reg) (checks : List (Bool × Fail))
    (act : State → State) : Result :=
  match s.cur.kind with
  | .idle => .refused .noIssuer
  | _ =>
    if !ready && !hiBad then .next s
    else
      match s.engFail slotBad hiBad rd wr checks with
      | some f => .next (s.fail f)
      | none => .next (act s).finish

/-- An instruction that only a stream issues (R294). -/
def streamOp (s : State) (k : Result) : Result :=
  match s.cur.kind with
  | .idle => .refused .noIssuer
  | .group => .next (s.fail (Fail.illegal 4))
  | .stream => k

/-- An engine instruction that has its effect at once, with the counter it names (R67, R269). -/
def State.countNow (s : State) (sb : Nat) : State :=
  match s.cur.kind with
  | .stream => s
  | _ =>
    let o := Op.blank s.cur.grp (s.grp s.cur.grp).core (s.ctxOf s.cur.grp) 0 sb .engine
    s.addOp { o with stage := .finished, port := s.cur.port }

/-- The result of an engine instruction on its way to the registers `dsts`: the operation is finished and
its counter follows (R67); `data` gives each lane's data. -/
def State.addResult (s : State) (sb : Nat) (dsts : List (Nat × Nat × Dst)) (data : Nat → Nat) : State :=
  let g := s.cur.grp
  let o := Op.blank g (s.grp g).core (s.ctxOf g) s.cur.lanes sb .engine
  s.addOp { o with
    stage := .finished
    port := s.cur.port
    dsts := dsts
    parts := (lanesOf s.cur.lanes).map fun i => ⟨i, 0, 0, 0, 0, 0, 0, 0, data i, 0, .done, false⟩ }

/-! ## Transaction barriers (R72 to R74, R289) -/

/-- A transaction barrier's fields (R72). -/
structure TxBar where
  phase : Nat
  arrPend : Nat
  arrInit : Nat
  secPend : Int
  err : Nat
deriving DecidableEq, Repr

/-- The fields of a barrier's 16 bytes; reserved bits are ignored (R72, R73). -/
def TxBar.ofBits (n : Nat) : TxBar :=
  ⟨bits n 0 4, bits n 8 16, bits n 24 16, signedOf 32 (bits n 40 32), bits n 72 8⟩

/-- The 16 bytes of a barrier; reserved bits are written as zero (R72, R73). -/
def TxBar.toBits (x : TxBar) : Nat :=
  x.phase + x.arrPend * 2 ^ 8 + x.arrInit * 2 ^ 24 + (x.secPend % 2 ^ 32).toNat * 2 ^ 40 + x.err * 2 ^ 72

/-- One arrival: beyond ARR_PEND = 0 it is discarded with ERR 0x01 (R74). -/
def TxBar.arrive (x : TxBar) : TxBar :=
  if x.arrPend = 0 then { x with err := 1 } else { x with arrPend := x.arrPend - 1 }

/-- `n` arrivals. -/
def TxBar.arrivals (x : TxBar) : Nat → TxBar
  | 0 => x
  | n + 1 => x.arrive.arrivals n

/-- A change of SEC_PEND; outside the signed range it is dropped with ERR 0x02 (R74). -/
def TxBar.addSectors (x : TxBar) (d : Int) : TxBar :=
  let n := x.secPend + d
  if -(2 ^ 31) ≤ n ∧ n < 2 ^ 31 then { x with secPend := n } else { x with err := 2 }

/-- Whether a barrier's phase completes (R73). -/
def TxBar.complete (x : TxBar) : Bool := x.arrPend == 0 && x.secPend == 0

/-- A barrier at index `x` of a block's side. -/
def State.txBar (s : State) (b side x : Nat) : TxBar := TxBar.ofBits (s.scratchRead b side (16 * x) 16)

/-- Whether a barrier index names 16 bytes of the scratchpad (R289, R313). -/
def State.txInside (s : State) (b side x : Nat) : Bool :=
  decide (16 * x + 16 ≤ ((s.blk b).spBanks side).length * Config.bankBytes)

/-- One update of a barrier (R73); the test for completion follows at the end of the clock, after all its updates. -/
def State.txUpdate (s : State) (b side x : Nat) (f : TxBar → TxBar) : State :=
  let s := s.scratchWrite b side (16 * x) (leBytes 16 (f (s.txBar b side x)).toBits)
  if s.txDue.contains (b, side, x) then s else { s with txDue := s.txDue ++ [(b, side, x)] }

/-- The test for completion (R73): when the phase completes, every tile that names the barrier and fills under a
`tcopy` becomes READY. -/
def State.txTest (s : State) (b side x : Nat) : State :=
  let y := s.txBar b side x
  if (s.blk b).live && y.complete then
    let s := s.scratchWrite b side (16 * x)
      (leBytes 16 { y with phase := (y.phase + 1) % 16, arrPend := y.arrInit }.toBits)
    (List.range 64).foldl
      (fun (s : State) k =>
        let t := (s.blk b).tile side k
        if t.copy && t.state == 1 && t.txb == x then
          s.updTile b side k fun t => { t with state := 2, copy := false }
        else s) s
  else s

/-- The tests of a cluster's barriers at the end of a clock (R73). -/
def State.txTests (s : State) (cluster : Nat) : State :=
  let mine (e : Nat × Nat × Nat) : Bool := clusterOf ((s.blk e.1).coreAt e.2.1) == cluster
  let l := s.txDue.filter mine
  l.foldl (fun (s : State) e => s.txTest e.1 e.2.1 e.2.2) { s with txDue := s.txDue.filter fun e => !mine e }

/-- The error code of a copy written to its barrier (R74). -/
def State.txError (s : State) (b side x code : Nat) : State :=
  let y := s.txBar b side x
  s.scratchWrite b side (16 * x) (leBytes 16 { y with err := code }.toBits)

/-- The window fault of a barrier index (R289). -/
def State.txFail (s : State) (x : W32) : Bool × Fail :=
  (decide (2 ^ 18 ≤ x.toNat) || !s.txInside s.engBlk (s.engSide false) (x.toNat % 2 ^ 18), Fail.window)

/-- The shape of a barrier update (R289). -/
def txOp (x : Nat) (rd : List Reg) (sb : Nat) (last : List (Bool × Fail)) (f : State → TxBar → TxBar)
    (s : State) : Result :=
  let sx := s.engS x
  engineOp s true false false (.s x :: rd) [] (s.txFail sx :: last) fun s =>
    (s.txUpdate s.engBlk (s.engSide false) (sx.toNat % 2 ^ 18) (f s)).countNow sb

/-- `txinit` (R289): a count of 0 or above 65,535 is refused. -/
def execTxinit (x c sb : Nat) (s : State) : Result :=
  let n := (s.engS c).toNat
  let bad := decide (n = 0 ∨ 65535 < n)
  asGroup s fun _ =>
    txOp x [.s c] sb [(bad, Fail.illegal 5)] (fun _ _ => ⟨0, n, n, 0, 0⟩) s

/-- `txexp` (R289). -/
def execTxexp (x cnt sb : Nat) (s : State) : Result :=
  txOp x [.s cnt] sb [] (fun s y => y.addSectors (s.engS cnt).toNat) s

/-- `txarv` (R289): one arrival per active lane, or one with `.one` or from a stream. -/
def execTxarv (x cnt : Nat) (exp one : Bool) (sb : Nat) (s : State) : Result :=
  txOp x (if exp then [.s cnt] else []) sb []
    (fun s y =>
      let n := if one ∨ s.cur.kind = .stream then 1 else popCount s.cur.lanes
      let y := y.arrivals n
      if exp then y.addSectors (s.engS cnt).toNat else y) s

/-- The issuing lanes stay at their instruction and wait, from the state `s0` before it moved them on: a wait
that ends in a time-out names the instruction itself (R292). -/
def State.stay (s0 s : State) (w : Wait) : State :=
  let c := s0.cur
  s.updGrp c.grp fun g => g.updFibs c.lanes fun i _ =>
    { (s0.grp c.grp).fib i with
      wait := w, pc := c.hdr + BitVec.ofNat 64 (4 * c.idx), next := c.idx }

/-- A fibre whose wait in `txwait` or `twait` is over: the instruction is complete and the fibre goes on. -/
def Fibre.resume (f : Fibre) : Fibre :=
  let f := { f with wait := .none, wdog := 0 }
  match f.code with
  | some c => f.pass ⟨.group, 0, 0, 0, 0, 0, c.addr, max f.next 1, 1, c.head / 2 ^ 26 % 16, 0, 0, false, false⟩
  | none => f

/-- The result of an instruction whose lanes wait unless `come` holds. -/
def waitUnless (s : State) (come : State → Bool) (w : Wait) (r : Result) : Result :=
  match r with
  | .next s' => .next (if s'.cur.trapped || come s then s' else s.stay s' w)
  | r => r

/-- `txwait` (R290): each active lane waits until PHASE differs from sP[3:0]. -/
def execTxwait (x ph : Nat) (s : State) : Result :=
  let sx := s.engS x
  let p := (s.engS ph).toNat % 16
  let idx := sx.toNat % 2 ^ 18
  asGroup s fun _ =>
    let side := s.engSide false
    waitUnless s (fun s => (s.txBar s.engBlk side idx).phase != p) (.tx side idx p)
      (engineOp s true false false [.s x, .s ph] [] [s.txFail sx] id)

/-- `txtest` (R290): the phase sampled once, into a predicate of every active lane. -/
def execTxtest (pd x ph sb : Nat) (s : State) : Result :=
  let sx := s.engS x
  let p := (s.engS ph).toNat % 16
  asGroup s fun g =>
    engineOp s true false false [.s x, .s ph] [.p pd] [s.txFail sx] fun s =>
      let differs := (s.txBar s.engBlk (s.engSide false) (sx.toNat % 2 ^ 18)).phase != p
      let dsts := (lanesOf s.cur.lanes).filterMap fun i => (g.dst i (.p pd)).map fun d => (i, 0, d)
      s.addResult sb dsts fun _ => if differs then 1 else 0

/-! ## Tile states (R291) -/

/-- `twait` (R291): each active lane waits until the tile is in the state. -/
def execTwait (t state : Nat) (s : State) : Result :=
  asGroup s fun _ =>
    let b := s.blk s.engBlk
    let side := s.engSide false
    waitUnless s (fun _ => (b.tile side t).state == state) (.tile t state)
      (engineOp s true false false [] [] [(!b.named side t, Fail.window)] id)

/-- `tstate` (R291): the entry's 64 bits, of any reserved entry. -/
def execTstate (d t sb : Nat) (s : State) : Result :=
  asGroup s fun g =>
    let b := s.blk s.engBlk
    engineOp s true false false [] (vpair d) [(decide (b.nTiles ≤ t), Fail.window)] fun s =>
      let n := (b.tile (s.engSide false) t).bits
      let dsts := (lanesOf s.cur.lanes).flatMap fun i =>
        [(i, 0, Dst.v i (g.entry i d)), (i, 1, Dst.v i (g.entry i (d + 1)))]
      s.addResult sb dsts fun _ => n

/-! ## Waiting on barriers and tiles -/

/-- Whether what a fibre of a group waits for in `txwait` or `twait` has come (R290, R291). -/
def State.waitOver (s : State) (g : Nat) : Wait → Bool
  | .tx side x p => (s.txBar (s.grp g).blk side x).phase != p
  | .tile k st =>
    let x := s.grp g
    let b := s.blk x.blk
    (b.tile (b.side x.core) k).state == st
  | _ => false

/-- The fibres of a group whose wait in `txwait` or `twait` is over are released. -/
def State.wakeGroup (s : State) (g : Nat) : State :=
  if (s.grp g).ctl.fibs.any fun f => s.waitOver g f.wait then
    s.updGrp g fun x => x.updCtl fun c =>
      { c with fibs := c.fibs.map fun f => if s.waitOver g f.wait then f.resume else f }
  else s

end Sys2Proof.Machine
end

