-- ==== Sys2Proof/Machine/Engine.lean ====
section
/-!
DEFINITION. The engine-class instructions (R301 to R320): when they may issue, their checks, and what they
hand to the matrix array, the copy queue and the chain channels.
-/
namespace Sys2Proof.Machine

/-! ## When an engine instruction may issue (R71, R296, R311) -/

/-- The block of the issuer. -/
def State.engBlock (s : State) : Block := s.blk s.engBlk

/-- A tile operand is READY and waits for no transition (R71, R117). A tile that the block has not reserved is left to the
checks, and so is one with ALLOC = 0 where a group names it; a stream waits for it as for any other that is not READY
(R296, notes/assumptions/22). -/
def State.operandReady (s : State) (side k : Nat) : Bool :=
  let b := s.engBlock
  (if s.cur.kind = .stream then decide (b.nTiles ≤ k) else !b.named side k) || (b.tile side k).readable

/-- A destination tile is EMPTY (R71); one that is not named is left to the checks. -/
def State.destReady (s : State) (side k : Nat) : Bool :=
  let b := s.engBlock
  !b.named side k || (b.tile side k).state == 0

/-- The core whose copy queue and array an issuer's commands enter: the group's, or in a stream that of the
lower core or, with `.hi`, the upper one. -/
def State.engCore (s : State) (hi : Bool) : Nat := s.engBlock.coreAt (s.engSide hi)

/-- A free entry in the copy queue (R311). -/
def State.queueRoom (s : State) (core : Nat) : Bool := decide ((s.core core).cq.length < 16)

/-- Whether none of a core's rows is busy (R118). -/
def State.rowsFree (s : State) (core : Nat) (rows : List Nat) : Bool :=
  rows.all fun r => !(s.core core).isBusy r

/-- Whether an array operation of the group that reads rows is still to run: a group's own accesses to a cell
perform in program order (R119). -/
def State.ownReads (s : State) (core g : Nat) (rows : List Nat) : Bool :=
  (s.core core).mq.any fun m =>
    (match m.owner with
      | some (o, _) => o == g
      | none => false) && !m.kind.writesRows && m.kind.onArray &&
    rows.any fun r => decide (m.row ≤ r) && decide (r < m.row + m.rows)

/-- The rows that the active lanes of `accrd` and `accwr` name (R319). -/
def State.namedRows (s : State) (a : Nat) : List Nat :=
  (lanesOf s.cur.lanes).map fun i => ((s.grp s.cur.grp).v i a).toNat / 256 % 256

/-- The free entry and the FIFO of a chain channel (R316). -/
def chanKey (isle ch : Nat) : Nat := isle * 8 + ch

/-- A chain channel. -/
def State.chan (s : State) (key : Nat) : Chan := look Chan.idle s.chans key

/-- The state with a chain channel changed. -/
def State.updChan (s : State) (key : Nat) (f : Chan → Chan) : State :=
  { s with chans := place s.chans key (f (s.chan key)) }

/-! ## Rows -/

/-- The first absolute row that a row field names: an offset in the allocation in a stream, an absolute row
number in a group (R304). -/
def State.firstRow (s : State) (side r : Nat) : Nat :=
  match s.cur.kind with
  | .stream => s.engBlock.accFirst side + r
  | _ => r

/-- Whether `n` rows from a row field lie in the allocation, or in the group's window (R68, R304). -/
def State.rowsInside (s : State) (r n : Nat) : Bool :=
  match s.cur.kind with
  | .stream => decide (r + n ≤ s.engBlock.accRows)
  | _ =>
    let c := (s.grp s.cur.grp).ctl
    decide (c.awb ≤ r) && decide (r + n ≤ c.awb + c.awl)

/-! ## Multiplication (R301, R302) -/

/-- The shape checks of R301 for one side. -/
def State.mmaShape (s : State) (side : Nat) (ta tb : Tile) (wa wb k r c0 : Nat) : Bool :=
  let n := pairAtom wa wb
  decide (ta.rowCount ≤ 128) && decide (tb.rowCount ≤ 256) && decide (16 * c0 + tb.rowCount ≤ 256) &&
  decide (n ≤ k) && k % n == 0 && rowFits wa ta k && rowFits wb tb k &&
  decide (r + ta.rowCount ≤ s.engBlock.accRows) && decide (side < 2)

/-- The matrix operation of one side joins the array: the tiles' read counts increase, and the requested
transitions wait for them (R116, R117, R301). -/
def State.issueMma (s : State) (side a b r k c0 : Nat) (z ea eb pair scaled : Bool) : State :=
  let bk := s.engBlk
  let sideA := if pair then 0 else side
  let ta := (s.blk bk).tile sideA a
  let tb := (s.blk bk).tile side b
  let wa := s.slotFor bk ta.fslot
  let clocks := max (classClocks ((slotClass wa).getD 0) k)
    (classClocks ((slotClass (s.slotFor bk tb.fslot)).getD 0) k)
  let row := (s.blk bk).accFirst side + r
  let s := s.addMat (MatOp.mk' bk side (.mma a b k c0 z ea eb pair scaled) row ta.rowCount clocks false)
  let s := s.updTile bk sideA a fun t => { t with reads := t.reads + 1 }
  s.updTile bk side b fun t => { t with reads := t.reads + 1 }

/-- A READY → EMPTY transition requested with `.ea` or `.eb` (R116). -/
def State.askEmpty (s : State) (side k : Nat) (want : Bool) : State :=
  if want then s.updTile s.engBlk side k fun t => t.toward 0 else s

/-- Whether an `mma` may issue: both operands, on both sides with `.p`, are READY (R71, R302). -/
def State.mmaReady (s : State) (ta tb : Nat) (pr : Bool) : Bool :=
  s.operandReady 0 ta && s.operandReady 0 tb && (!pr || s.operandReady 1 tb)

/-- `mma` and `mmas` (R301, R302). -/
def mmaOp (ta tb r k c0 : Nat) (z ea eb pr scaled : Bool) (s : State) : Result :=
  streamOp s <|
    let b := s.engBlock
    let sides := if pr then [0, 1] else [0]
    let wa := s.slotFor s.engBlk (b.tile 0 ta).fslot
    let wb (side : Nat) := s.slotFor s.engBlk (b.tile side tb).fslot
    let named := sides.all fun side => b.named 0 ta && b.named side tb
    let equal := !pr || ((b.tile 0 tb).rows == (b.tile 1 tb).rows && (b.tile 0 tb).rowb == (b.tile 1 tb).rowb &&
      (b.tile 0 tb).fslot == (b.tile 1 tb).fslot)
    engineOp s (s.mmaReady ta tb pr) (named && !(sides.all fun side => pairOk scaled wa (wb side)))
      (pr && !b.pair) [] []
      [(!named, Fail.window),
       (!equal || !(sides.all fun side => s.mmaShape side (b.tile 0 ta) (b.tile side tb) wa (wb side) k r c0),
         Fail.shape),
       (!(sides.all fun side => s.scalesFit s.engBlk 0 wa (b.tile 0 ta) k (b.tile 0 ta).rowCount &&
           s.scalesFit s.engBlk side (wb side) (b.tile side tb) k (b.tile side tb).rowCount), Fail.window)]
      fun s =>
        let s := sides.foldl (fun (s : State) side => s.issueMma side ta tb r k c0 z ea eb pr scaled) s
        let s := s.askEmpty 0 ta ea
        sides.foldl (fun (s : State) side => s.askEmpty side tb eb) s

/-- `mma` (R301). -/
def execMma (ta tb r k c0 : Nat) (z ea eb pr : Bool) (s : State) : Result :=
  mmaOp ta tb r k c0 z ea eb pr false s

/-- `mmas` (R301). -/
def execMmas (ta tb r k c0 : Nat) (z ea eb pr : Bool) (s : State) : Result :=
  mmaOp ta tb r k c0 z ea eb pr true s

/-! ## Clearing and moving accumulator rows (R304, R305) -/

/-- A group's counter increased for a command or array operation it hands over (R67). -/
def State.countGrp (s : State) (sb : Nat) : State :=
  match s.cur.kind with
  | .stream => s
  | _ => s.updGrp s.cur.grp fun g => g.incCounter sb

/-- The counter that follows an operation of the issuer. -/
def State.engOwner (s : State) (sb : Nat) : Option (Nat × Nat) := s.engGrp.map fun g => (g, sb)

/-- `mzero` (R304): in a stream of a pair block, the rows on both cores. -/
def execMzero (r n1 sb : Nat) (s : State) : Result :=
  let n := n1 + 1
  engineOp s true false false [] [] [(!s.rowsInside r n, Fail.window)] fun s =>
    let sides := if s.cur.kind = .stream ∧ s.engBlock.pair = true then [0, 1] else [s.engSide false]
    let op (s : State) (side : Nat) (last : Bool) : MatOp :=
      { MatOp.mk' s.engBlk side .zero (s.firstRow side r) n ((n + 15) / 16) true with
        owner := if last then s.engOwner sb else none }
    let s := s.countGrp sb
    sides.foldl (fun (s : State) side => s.addMat (op s side (side == sides.getLastD 0))) s

/-- Whether `macc` accepts a slot (R305). -/
def maccSlot (w : Nat) : Bool :=
  slotOk w && slotForm w == 0 && (let f := slotFmt w; f == 0 || decide (2 ≤ f ∧ f ≤ 7))

/-- Elements per row of a tile under `macc` (R305). -/
def maccCols (w : Nat) (t : Tile) : Nat := t.rowBytes * 8 / fmtBits (slotFmt w)

/-- The shape of `macc` (R305): `reads` tells that the tile is an operand. -/
def maccOp (t r sb c0 : Nat) (hi reads ready : Bool) (kind : MatKind) (s : State) : Result :=
  let b := s.engBlock
  let side := s.engSide hi
  let tile := b.tile side t
  let w := s.slotFor s.engBlk tile.fslot
  engineOp s ready (b.named side t && !maccSlot w) (s.hiBad hi) [] []
    [(!b.named side t, Fail.window), (!s.rowsInside r tile.rowCount, Fail.window),
     (decide (256 < 16 * c0 + maccCols w tile), Fail.shape)]
    fun s =>
      let s := s.countGrp sb
      let m := { MatOp.mk' s.engBlk side kind (s.firstRow side r) tile.rowCount tile.rowCount (!reads) with
        owner := s.engOwner sb }
      let s := s.addMat m
      if reads then s.updTile s.engBlk side t fun t => { t with reads := t.reads + 1 }
      else s.updTile s.engBlk side t fun t => { t with state := 1, copy := false }

/-- Whether a group's `macc` finds its rows free (R118); a stream's waits for its turn in the array. -/
def State.maccRows (s : State) (t r : Nat) : Bool :=
  match s.cur.kind with
  | .stream => true
  | _ =>
    let n := (s.engBlock.tile (s.engSide false) t).rowCount
    let rows := (List.range n).map (r + ·)
    let inside := s.rowsInside r n
    !inside || (s.rowsFree (s.engCore false) rows && !s.ownReads (s.engCore false) s.cur.grp rows)

/-- Whether `macc.out` may issue. -/
def State.maccOutReady (s : State) (t r : Nat) (hi : Bool) : Bool :=
  s.destReady (s.engSide hi) t && s.maccRows t r

/-- Whether `macc.in` may issue. -/
def State.maccInReady (s : State) (t r : Nat) (hi : Bool) : Bool :=
  s.operandReady (s.engSide hi) t && s.maccRows t r

/-- `macc.out` (R305). -/
def execMaccOut (t r sb rnd : Nat) (hi : Bool) (c0 : Nat) (s : State) : Result :=
  maccOp t r sb c0 hi false (s.maccOutReady t r hi) (.accOut t c0 rnd) s

/-- `macc.in` (R305). -/
def execMaccIn (t r sb rnd : Nat) (add hi : Bool) (c0 : Nat) (s : State) : Result :=
  maccOp t r sb c0 hi true (s.maccInReady t r hi) (.accIn t c0 rnd add) s

/-! ## Tile allocation and filling (R308 to R310) -/

/-- The first operand-buffer address, a multiple of 64, of a free range of `n` bytes (R115, R308). -/
def Block.findRange (b : Block) (side n : Nat) : Option Nat :=
  let taken := ((List.range 64).map (b.tile side)).filter (·.alloc)
  let size := (b.obBanks side).length * Config.bankBytes
  let fits (o : Nat) : Bool :=
    decide (o + n ≤ size) && taken.all fun t => decide (o + n ≤ t.start) || decide (t.start + t.bytes ≤ o)
  let starts := sortBy (fun x y => decide (x < y)) (0 :: taken.map fun t => t.start + t.bytes)
  starts.find? fits

/-- The entry that `talloc` makes (R308). -/
def Block.newTile (b : Block) (side o g : Nat) : Tile :=
  let ob := b.obBanks side
  { Tile.empty with
    alloc := true, bank := ob.getD (o / 64 % ob.length) 0, off := o / 64 / ob.length
    rows := bits g 0 4, rowb := bits g 4 4, fslot := bits g 8 3, txb := bits g 14 18, start := o }

/-- `talloc` (R308). -/
def execTalloc (pd t sg sb : Nat) (s : State) : Result :=
  asGroup s fun x =>
    let b := s.engBlock
    let side := s.engSide false
    let g := (s.engS sg).toNat
    engineOp s true false false [.s sg] [.p pd]
      [(decide (b.nTiles ≤ t) || (b.tile side t).alloc, Fail.window), (bits g 11 3 != 0, Fail.window)] fun s =>
      let found := b.findRange side ((16 * (bits g 0 4 + 1)) * (64 * (bits g 4 4 + 1)))
      let dsts := (lanesOf s.cur.lanes).filterMap fun i => (x.dst i (.p pd)).map fun d => (i, 0, d)
      let s := match found with
        | some o => s.updTile s.engBlk side t fun _ => b.newTile side o g
        | none => s
      s.addResult sb dsts fun _ => if found.isSome then 1 else 0

/-- Whether `tfree` may issue: the tile is EMPTY, or READY with no read pending (R117). -/
def State.tfreeReady (s : State) (t : Nat) : Bool :=
  let b := s.engBlock
  let side := s.engSide false
  let x := b.tile side t
  !b.named side t || ((x.state == 0 || x.state == 2) && x.reads == 0)

/-- `tfree` (R309). -/
def execTfree (t sb : Nat) (s : State) : Result :=
  asGroup s fun _ =>
    engineOp s (s.tfreeReady t) false false [] [] [(!s.engBlock.named (s.engSide false) t, Fail.window)] fun s =>
      (s.updTile s.engBlk (s.engSide false) t fun _ => Tile.empty).countNow sb

/-- The clock in which the operand-buffer banks of a block's side are free of the fills issued so far (R489). -/
def State.fillsEnd (s : State) (b side now : Nat) : Nat :=
  (s.core ((s.blk b).coreAt side)).mq.foldl
    (fun t m => if m.blk = b ∧ m.side = side ∧ m.kind.onArray = false then max t (m.endAt.getD 0) else t) now

/-- `tfill` (R310): beside the array, in the clocks of R489; the fills of a block occupy its banks in turn. -/
def execTfill (t sv : Nat) (hi : Bool) (sb : Nat) (s : State) : Result :=
  let b := s.engBlock
  let side := s.engSide hi
  engineOp s (s.destReady side t) false (s.hiBad hi) [.s sv] [] [(!b.named side t, Fail.window)] fun s =>
    let tile := b.tile side t
    let core := b.coreAt side
    let m := (b.obBanks side).length
    let clocks := (tile.bytes + 4 * m - 1) / (4 * m)
    let s := s.countGrp sb
    let o := { MatOp.mk' s.engBlk side (.fill t (s.engS sv)) 0 0 clocks true with
      endAt := some (s.fillsEnd s.engBlk side (s.cluster (clusterOf core)).clock + clocks), owner := s.engOwner sb }
    (s.addMat o).updTile s.engBlk side t fun t => { t with state := 1, copy := false }

/-! ## Copies (R312 to R315) -/

/-- The run descriptor of a copy (R312). -/
def State.runOf (s : State) (sd : Nat) : Run :=
  let n (k : Nat) : Nat := (s.engS (sd + k)).toNat
  ⟨s.engPair sd, n 2, [n 3, n 5, n 7, n 9], [4, 6, 8, 10].map fun k => (s.engS (sd + k)).toInt⟩

/-- Whether the counts of a descriptor are 1 to 65,535 with zero upper halves (R312). -/
def Run.countsOk (r : Run) : Bool := (r.n0 :: r.n).all fun x => decide (1 ≤ x ∧ x < 65536)

/-- The sectors of a descriptor's runs (R312). -/
def Run.sectors (r : Run) : Nat := r.n.foldl (· * ·) r.n0

/-- Whether the base and the strides are multiples of 32 (R298, R312). -/
def Run.aligned (r : Run) : Bool := r.base.toNat % 32 == 0 && r.stride.all fun x => x % 32 == 0

/-- The address of sector `i` of a descriptor's runs (R312). -/
def Run.sector (r : Run) (i : Nat) : W64 :=
  let v := vectorOf r.n (i / r.n0)
  let off := ((v.zip r.stride).foldl (fun (acc : Int) e => acc + e.1 * e.2) 0)
  r.base + BitVec.ofInt 64 (off + 32 * (i % r.n0 : Nat))

/-- Whether a copy with `.cv` accepts a slot (R313). -/
def copySlot (w : Nat) : Bool :=
  slotOk w && slotBlk w == 0 && (let f := slotFmt w; f == 0 || decide (2 ≤ f ∧ f ≤ 5))

/-- Whether a copy's sizes match its tile: `w` is the slot outside, `wt` the tile's (R313). -/
def copySize (cv : Bool) (w wt : Nat) (r : Run) (t : Tile) : Bool :=
  if cv then r.sectors * 32 * fmtBits (slotFmt wt) == t.bytes * fmtBits (slotFmt w)
  else r.sectors * 32 == t.bytes

/-- The registers of a descriptor. -/
def descRegs (sd n : Nat) : List Reg := sregs sd n

/-- The clause whose instruction is being issued. -/
def State.curClause (s : State) : Option Clause :=
  match s.cur.kind with
  | .stream => (s.blk s.cur.blk).seq.code
  | _ => ((s.grp s.cur.grp).fib (firstLane s.cur.lanes)).code

/-- The words of the instruction being issued, the first lowest. -/
def State.instrWords (s : State) : Nat :=
  match s.curClause with
  | some c => c.words.getD (s.cur.idx - 1) 0 + (if s.cur.len = 2 then c.words.getD s.cur.idx 0 * 2 ^ 32 else 0)
  | none => 0

/-- A command of the issuer with nothing done; `n` registers from `sd` on are its descriptor (R362). -/
def State.newCmd (s : State) (kind : CmdKind) (hi : Bool) (sb sd n : Nat) (run : Run) : Cmd :=
  { id := s.fresh, kind := kind, core := s.engCore hi, blk := s.engBlk, grp := s.engGrp, sb := sb,
    side := s.engSide hi, tile := 0, tileB := 0, run := run, runB := ⟨0, 0, [], []⟩, pitch := [], acc := [],
    row := 0, rows := 0, c0 := 0, kk := 0, acq := false, rel := false, scope := 0, cv := false, slot := 0,
    rnd := 0, iaddr := s.iaddr, words := s.instrWords, desc := (List.range n).map fun k => (s.engS (sd + k)).toNat,
    stage := .waiting, sent := 0, asked := 0, pend := [], got := [], buf := [], arrived := [],
    gmax := 0, stopped := false, fault := none, behind := 0 }

/-- A command enters the copy queue (R311); with `.ir` its core first drains the issuer's context (R141). -/
def State.addCmd (s : State) (c : Cmd) (ir : Bool) : State :=
  let s := s.countGrp c.sb
  let c := { c with stage := if ir then .draining else c.stage }
  let s := { s.took with cmds := s.cmds ++ [c] }
  let s := s.updCore c.core fun x => { x with cq := x.cq ++ [c.id] }
  if ir then s.startDrain (s.blk c.blk |>.coreAt (if s.cur.kind = .stream then 0 else c.side))
      (s.gang (s.blk c.blk).gang).ctx (.cmd c.id)
  else s

/-- The checks of a copy's descriptor in their order (R298, R348). -/
def runChecks (r : Run) (named size : Bool) : List (Bool × Fail) :=
  [(!r.aligned, Fail.misaligned r.base), (!named, Fail.window), (!r.countsOk || !size, Fail.shape)]

/-- Whether a `tcopy` may issue (R71, R311). -/
def State.tcopyReady (s : State) (t : Nat) (hi : Bool) : Bool :=
  s.destReady (s.engSide hi) t && s.queueRoom (s.engCore hi)

/-- `tcopy` (R313). -/
def execTcopy (t sd : Nat) (acq rel : Bool) (scope : Nat) (ir : Bool) (sb rnd slot : Nat) (cv hi : Bool)
    (s : State) : Result :=
  let b := s.engBlock
  let side := s.engSide hi
  let tile := b.tile side t
  let wt := s.slotFor s.engBlk tile.fslot
  let w := s.slotFor s.engBlk slot
  let r := s.runOf sd
  engineOp s (s.tcopyReady t hi) (cv && b.named side t && !(copySlot w && copySlot wt)) (s.hiBad hi)
    (descRegs sd 11) []
    (runChecks r (b.named side t) (copySize cv w wt r tile) ++ [(!s.txInside s.engBlk side tile.txb, Fail.window)])
    fun s =>
      let c := { s.newCmd .tcopy hi sb sd 11 r with
        tile := t, acq := acq, rel := rel, scope := scope, cv := cv, slot := slot, rnd := rnd }
      (s.addCmd c ir).updTile s.engBlk side t fun t => { t with state := 1, copy := true }

/-- Whether a `tstore` may issue (R71, R311). -/
def State.tstoreReady (s : State) (t : Nat) (hi : Bool) : Bool :=
  s.operandReady (s.engSide hi) t && s.queueRoom (s.engCore hi)

/-- `tstore` (R314): the tile moves toward DRAINING. -/
def execTstore (t sd : Nat) (acq rel : Bool) (scope : Nat) (ir : Bool) (sb rnd slot : Nat) (cv hi : Bool)
    (s : State) : Result :=
  let b := s.engBlock
  let side := s.engSide hi
  let tile := b.tile side t
  let wt := s.slotFor s.engBlk tile.fslot
  let w := s.slotFor s.engBlk slot
  let r := s.runOf sd
  engineOp s (s.tstoreReady t hi) (cv && b.named side t && !(copySlot w && copySlot wt)) (s.hiBad hi)
    (descRegs sd 11) [] (runChecks r (b.named side t) (copySize cv w wt r tile)) fun s =>
      let c := { s.newCmd .tstore hi sb sd 11 r with
        tile := t, acq := acq, rel := rel, scope := scope, cv := cv, slot := slot, rnd := rnd }
      (s.addCmd c ir).updTile s.engBlk side t fun t => t.toward 3

/-- The cells that `tstore.hz` reads from each row (R315). -/
def hzCells (r : Run) (rows : Nat) : Nat := r.sectors * 2 / rows

/-- Whether a `tstore.hz` may issue: a queue entry, and for a group no busy row (R118, R315). -/
def State.tstoreHzReady (s : State) (hi : Bool) (r rows : Nat) : Bool :=
  s.queueRoom (s.engCore hi) &&
  (match s.cur.kind with
    | .stream => true
    | _ => !s.rowsInside r rows || s.rowsFree (s.engCore false) ((List.range rows).map (r + ·)))

/-- `tstore.hz` (R315): the rows are read in array order, and the adds follow. -/
def execTstoreHz (sd : Nat) (acq rel : Bool) (scope : Nat) (ir : Bool) (sb : Nat) (hi : Bool) (r rows1 c0 : Nat)
    (s : State) : Result :=
  let rows := rows1 + 1
  let side := s.engSide hi
  let d := s.runOf sd
  let n := hzCells d rows
  let size := d.sectors * 2 % rows == 0 && decide (16 * c0 + n ≤ 256)
  engineOp s (s.tstoreHzReady hi r rows) false (s.hiBad hi) (descRegs sd 11) []
    (runChecks d true true ++ [(!size, Fail.window), (!s.rowsInside r rows, Fail.window)]) fun s =>
      let c := { s.newCmd .tstoreHz hi sb sd 11 d with
        acq := acq, rel := rel, scope := scope, row := s.firstRow side r, rows := rows, c0 := c0, kk := n }
      let m := MatOp.mk' s.engBlk side (.hzRows c.id) c.row rows rows true
      (s.addCmd c ir).addMat { m with owner := s.engGrp.map fun g => (g, 0) }

/-! ## The streaming matrix loop (R306, R307) -/

/-- The descriptor of an `mloop` (R306): the runs of A and B with their five counts, the pitches and the
accumulator strides. -/
def State.loopCmd (s : State) (ta tb sd : Nat) : Cmd :=
  let w (k : Nat) : Nat := (s.engS (sd + k)).toNat
  let dims := List.range 5
  let counts := dims.map fun d => bits (w (7 + 3 * d)) 0 16
  let stride (k : Nat) : List Int := dims.map fun d => (s.engS (sd + k + 3 * d)).toInt
  { s.newCmd .mloop false 0 sd 22 ⟨s.engPair sd, 0, counts, stride 8⟩ with
    tile := ta, tileB := tb
    runB := ⟨s.engPair (sd + 2), 0, counts, stride 9⟩
    pitch := [w 5, w 6]
    acc := dims.map fun d => (signedOf 8 (bits (w (7 + 3 * d)) 16 8), signedOf 8 (bits (w (7 + 3 * d)) 24 8))
    row := bits (w 4) 12 8, c0 := bits (w 4) 20 4, kk := bits (w 4) 0 12 }

/-- The lowest and the highest value of a start plus signed multiples below the counts (R307). -/
def spanOf (start : Nat) (counts : List Nat) (strides : List Int) : Int × Int :=
  (counts.zip strides).foldl
    (fun acc e =>
      let d := ((e.1 : Int) - 1) * e.2
      (acc.1 + min 0 d, acc.2 + max 0 d)) ((start : Int), (start : Int))

/-- Whether every iteration's rows and columns lie in the allocation and the 256 columns (R307). -/
def State.loopSpan (s : State) (c : Cmd) (m n : Nat) : Bool :=
  let rows := spanOf c.row c.run.n (c.acc.map (·.1))
  let cols := spanOf c.c0 c.run.n (c.acc.map (·.2))
  decide (0 ≤ rows.1) && decide (rows.2 + m ≤ s.engBlock.accRows) && decide (0 ≤ cols.1) &&
  decide (16 * cols.2 + n ≤ 256)

/-- Whether an `mloop` may issue: both staging tiles EMPTY and a queue entry (R307, R311). -/
def State.mloopReady (s : State) (ta tb : Nat) : Bool :=
  s.destReady 0 ta && s.destReady 0 tb && s.queueRoom (s.engCore false)

/-- `mloop` (R306, R307). -/
def execMloop (ta tb sd : Nat) (s : State) : Result :=
  streamOp s <|
    let b := s.engBlock
    let a := b.tile 0 ta
    let t := b.tile 0 tb
    let wa := s.slotFor s.engBlk a.fslot
    let wb := s.slotFor s.engBlk t.fslot
    let scaled := slotForm wa != 0 || slotForm wb != 0
    let c := s.loopCmd ta tb sd
    let named := b.named 0 ta && b.named 0 tb
    let aligned := c.run.base.toNat % 32 == 0 && c.runB.base.toNat % 32 == 0 && (c.pitch.all fun x => x % 32 == 0) &&
      (c.run.stride ++ c.runB.stride).all fun x => x % 32 == 0
    let shape := (c.run.n.all fun n => decide (1 ≤ n)) && bits (s.engS (sd + 4)).toNat 24 8 == 0 &&
      s.mmaShape 0 a t wa wb c.kk 0 0 && s.loopSpan c a.rowCount t.rowCount
    engineOp s (s.mloopReady ta tb) (named && !pairOk scaled wa wb) false (descRegs sd 22) []
      [(!aligned, Fail.misaligned c.run.base), (!named, Fail.window), (!shape, Fail.shape),
       (!(s.scalesFit s.engBlk 0 wa a c.kk a.rowCount && s.scalesFit s.engBlk 0 wb t c.kk t.rowCount), Fail.window)]
      fun s =>
        let s := s.addCmd c false
        let first := b.accFirst 0
        let s := s.updCore (b.coreAt 0) fun x =>
          (loopRows c first a.rowCount).foldl (fun x r => x.markBusy r 1 true) x
        (s.updTile s.engBlk 0 ta fun t => { t with state := 1, copy := false }).updTile s.engBlk 0 tb
          fun t => { t with state := 1, copy := false }

/-! ## Chains (R316) -/

/-- Whether a channel's FIFO has room for a head (R316). -/
def Chan.room (c : Chan) : Bool := decide (c.heads.length < 16)

/-- Whether a `tchain` may issue: the channel's FIFO has room (R316). -/
def State.tchainReady (s : State) (ch : Nat) : Bool := (s.chan (chanKey (isleOf (s.engCore false)) ch)).room

/-- The heads whose drain is over enter a channel's FIFO while it has room, in order: the operations of `tchain`s that
are then complete (R141, R316). -/
def State.acceptHeads (s : State) (key : Nat) : List (Nat × Bool × Head) → State
  | [] => s
  | (id, passed, h) :: t =>
    if passed && (s.chan key).room then
      let s := s.updChan key fun c => { c with heads := c.heads ++ [h], coming := c.coming.filter fun e => e.1 != id }
      State.acceptHeads (s.updOp id fun o => { o with stage := .finished }) key t
    else State.acceptHeads s key t

/-- The drain of a `tchain` with `.ir` is over (R141); one whose gang has ended since hands nothing over. -/
def State.headPassed (s : State) (key id : Nat) : State :=
  let mark (e : Nat × Bool × Head) : Nat × Bool × Head := if e.1 = id then (id, true, e.2.2) else e
  let s := s.updChan key fun c => { c with
    coming := (c.coming.filter fun e => e.1 != id || (s.op? id).isSome).map mark }
  s.acceptHeads key (s.chan key).coming

/-- `tchain` (R316): the head is handed to the channel, and its counter decrements, when the FIFO accepts it: at once, or
after the drain of `.ir` (R141). -/
def execTchain (sh ch : Nat) (ir : Bool) (_scope sb : Nat) (s : State) : Result :=
  asGroup s fun _ =>
    let head := s.engPair sh
    engineOp s (s.tchainReady ch) false false (spair sh) [] [(head.toNat % 64 != 0, Fail.misaligned head)] fun s =>
      let core := s.engCore false
      let key := chanKey (isleOf core) ch
      let ctx := s.ctxOf s.cur.grp
      if ir then
        let id := s.fresh
        let o := Op.blank s.cur.grp core ctx 0 sb .engine
        let s := s.addOp { o with stage := .releasing, port := s.cur.port }
        let s := s.updChan key fun c => { c with coming := c.coming ++ [(id, false, ⟨ctx, head⟩)] }
        s.startDrain core ctx (.head key id)
      else (s.updChan key fun c => { c with heads := c.heads ++ [⟨ctx, head⟩] }).countNow sb

/-! ## Meeting points (R318) -/

/-- An arrival of the sequencer for phase P_k of barrier `k` (R318): counted at once, or held until the barrier comes to
that phase. -/
def State.seqArrive (s : State) (b k : Nat) : State :=
  let z := (s.blk b).bar k
  if z.pk = z.phase then
    (s.updBlk b fun x => x.updBar k fun z => { z with arrived := z.arrived + 1 }).barCheck b k
  else s.updBlk b fun x => x.updBar k fun z => { z with early := z.early ++ [z.pk] }

/-- P_k goes on to the next phase (R318). -/
def State.nextPhase (s : State) (b k : Nat) : State :=
  s.updBlk b fun x => x.updBar k fun z => { z with pk := (z.pk + 1) % 16 }

/-- Whether the barrier is past a phase: (PHASE − p) mod 16 ≥ 1 (R318). -/
def BlockBar.past (z : BlockBar) (p : Nat) : Bool := (z.phase + 16 - p) % 16 != 0

/-- `seqbar` (R318): the sequencer arrives, and its next instruction waits for the phase. -/
def execSeqbar (k : Nat) (s : State) : Result :=
  streamOp s <|
    let b := s.cur.blk
    let p := ((s.blk b).bar k).pk
    let s := (s.seqArrive b k).nextPhase b k
    .next (s.updBlk b fun x => { x with seq := { x.seq with waitBar := some (k * 16 + p) } }).finish

/-- `seqbar.arv` (R318). -/
def execSeqbarArv (k : Nat) (s : State) : Result :=
  streamOp s <| .next ((s.seqArrive s.cur.blk k).nextPhase s.cur.blk k).finish

/-- `seqbar.wait` (R318): it issues once the barrier is past phase P_k. -/
def execSeqbarWait (k : Nat) (s : State) : Result :=
  streamOp s <|
    let z := (s.blk s.cur.blk).bar k
    if z.past z.pk then .next (s.nextPhase s.cur.blk k).finish else .next s

/-! ## Accumulator access and windows (R319, R320) -/

/-- Whether every row that the lanes name is free, or some lane's row is refused anyway (R118). -/
def State.accReady (s : State) (a : Nat) : Bool :=
  let rows := s.namedRows a
  let c := (s.grp s.cur.grp).ctl
  let refused := rows.any fun r => decide (r < c.awb) || decide (c.awb + c.awl ≤ r)
  refused || (s.rowsFree (s.engCore false) rows && !s.ownReads (s.engCore false) s.cur.grp rows)

/-- The window fault of a lane's accumulator address (R68, R319). -/
def State.accFail (s : State) (a : Nat) : Bool × Fail :=
  let g := s.grp s.cur.grp
  ((lanesOf s.cur.lanes).any (fun i =>
      let x := (g.v i a).toNat
      decide (65536 ≤ x) || decide (x / 256 < g.ctl.awb) || decide (g.ctl.awb + g.ctl.awl ≤ x / 256)),
   Fail.window)

/-- An uncorrectable error in an accumulator cell that a group reads terminates the gang (R321, R462). -/
def State.accError (s : State) : State :=
  let b := s.engBlock
  s.terminate b.gang { s.reportOf 0x01 b.gang with
    code := 0x13, core := (s.grp s.cur.grp).core, block := b.num, group := (s.grp s.cur.grp).num, iaddr := s.iaddr }

/-- `accrd` (R319). -/
def execAccrd (d a sb : Nat) (s : State) : Result :=
  asGroup s fun g =>
    engineOp s (s.accReady a) false false [.v a] [.v d] [s.accFail a] fun s =>
      let acc := (s.core g.core).acc
      let s := if (lanesOf s.cur.lanes).any fun i => s.errs.contains (.cell g.core ((g.v i a).toNat % 65536)) then
          s.accError
        else s
      s.addResult sb ((lanesOf s.cur.lanes).map fun i => (i, 0, Dst.v i (g.entry i d))) fun i =>
        (look 0 acc ((g.v i a).toNat % 65536)).toNat

/-- `accwr` (R319): a higher lane's value stands. -/
def execAccwr (vs a sb : Nat) (s : State) : Result :=
  asGroup s fun g =>
    engineOp s (s.accReady a) false false [.v vs, .v a] [] [s.accFail a] fun s =>
      let step (acc : SMap W32) (i : Nat) : SMap W32 := put 0 acc ((g.v i a).toNat % 65536) (g.v i vs)
      let cells := (lanesOf s.cur.lanes).map fun i => ErrAt.cell g.core ((g.v i a).toNat % 65536)
      ({ s with errs := s.errs.filter fun e => !cells.contains e }.updCore g.core fun c =>
        { c with acc := (lanesOf s.cur.lanes).foldl step c.acc }).countNow sb

/-- `awset` (R320): by group 0 in the allocation phase (R69); `.last` ends the phase. A window of no rows may begin one row
past the allocation's last (DESIGN CHOICE, notes/assumptions/69). -/
def execAwset (sg sb0 sl : Nat) (last : Bool) (s : State) : Result :=
  asGroup s fun x =>
    let b := s.engBlock
    let g := (s.engS sg).toNat
    let first := (s.engS sb0).toNat
    let len := (s.engS sl).toNat
    let target := b.groups.getD g 0
    let base := b.accFirst (b.side (s.grp target).core)
    let bad := decide (b.groups.length ≤ g) || decide (256 < len) || decide (first < base) ||
      decide (base + b.accRows < first + len)
    engineOp s true false (!b.allocOpen || x.num != 0) [.s sg, .s sb0, .s sl] [] [(bad, Fail.window)] fun s =>
      let s := s.updGrp target fun y => y.updCtl fun c => { c with awb := first, awl := len }
      if last then s.updBlk s.engBlk fun b => { b with allocOpen := false } else s

end Sys2Proof.Machine
end

