-- ==== Sys2Proof/Machine/Slices.lean ====
section
/-!
DEFINITION. The slices: requests at home (R395 to R402), release records (R133, R134, R400), exclusive
leases and the predictor (R144, R402), and adds into haze elements (R149, R401).
-/
namespace Sys2Proof.Machine

/-! ## Unit inputs (R395, R492) -/

/-- The packets that wait at a unit, in arrival order. -/
def State.waitingAt (s : State) (isle unit : Nat) : List Packet :=
  sortBy Packet.before ([0, 1, 2, 3].flatMap fun vc => look [] s.mesh.units (unitKey isle unit vc))

/-- Whether a packet asks a slice for a line. -/
def Packet.forLine (p : Packet) : Bool := decide (1 ≤ p.typ) && decide (p.typ ≤ 0x0A) && p.typ != 0x06

/-- Whether a packet needs the arithmetic unit of a slice (R401). -/
def Packet.needsAlu (p : Packet) : Bool := p.typ == 0x04 || p.typ == 0x05 || p.typ == 0x08

/-- What keeps packets at one unit in their order: at a slice those for one line, responses apart, and the control
messages; elsewhere all (R390, R395). -/
def Packet.order (p : Packet) (unit : Nat) : Nat :=
  if 160 ≤ unit ∨ 0x20 ≤ p.typ then 0 else 1 + 2 * (p.loc / 128) + (if p.vc = vcR then 1 else 0)

/-- The first packet of each order. -/
def firstOfEach (unit : Nat) : List Nat → List Packet → List Packet
  | _, [] => []
  | seen, p :: t =>
    if seen.contains (p.order unit) then firstOfEach unit seen t
    else p :: firstOfEach unit (p.order unit :: seen) t

/-- The base clocks between a packet's arrival and its service: ten at a slice, with those of the memory for a line that
the slice does not hold; none elsewhere (R389). -/
def State.serviceDelay (s : State) (unit : Nat) (p : Packet) : Nat :=
  if 160 ≤ unit then 0
  else if p.forLine && (look HomeLine.none s.homes (p.loc / 128)).site.isNone then
    10 + if p.loc / 2 ^ 56 = 2 then 240 else 110
  else 10

/-- The timer of a slice's arithmetic unit: the base clock from which it is free (R401). -/
def aluTimer (isle unit : Nat) : Nat := 7000 + isle * 160 + unit

/-- The arithmetic unit of a packet's slice occupied for `n` base clocks (R401). -/
def State.occupy (s : State) (p : Packet) (n : Nat) : State :=
  let k := aluTimer p.disle p.dunit
  { s with timers := place s.timers k (max s.bclk (look 0 s.timers k) + n) }

/-- The places of the list of held pushes that are taken (R428): by pushes it holds, and by decrements that have reached
zero, whose push is still to come. -/
def State.pushPlaces (s : State) : Nat :=
  let reached (t : Ticket) : Bool := match t.agent with
    | .join _ => t.lines.any fun e => e.1 == 0 && e.2.1 == 1
    | _ => false
  let coming (p : Packet) : Bool := p.typ == 0x12 && p.dunit == unitSched && p.aux.getD 1 0 == 1
  (s.disp.held.filter fun h => h.at_ == .held).length + (s.tickets.filter reached).length + (s.packets.filter coming).length

/-- Whether a join decrement that would reach zero waits, since the list of held pushes is full (R428). -/
def State.joinWaits (s : State) (p : Packet) : Bool :=
  p.typ == 0x04 && p.aux.headD 0 == 15 && decide (1024 ≤ s.pushPlaces) &&
  lineGet (s.lineAt p.loc) (p.aux.getD 9 0) 4 == 1

/-- Whether a packet is one that its taker answers by packets of its own on a channel: responses to what it asks for
(R394), control messages of slices, filters, barrier units and cores, write-backs of cores that drain, and the requests that
follow a grant or a tolerant load. -/
def Packet.addsTo (p : Packet) (isle unit vc : Nat) : Bool :=
  if p.vc = vcR then false
  else if vc = vcR then p.sisle != isle
  else if vc = vcC then true
  else if vc = vcB then decide (160 ≤ unit) && decide (unit < 176)
  else p.typ == 0x06 || p.typ == 0x23

/-- Whether a unit holds a packet at its input, since serving it would add to a send queue that is full (R492). -/
def State.heldBySends (s : State) (isle unit : Nat) (p : Packet) : Bool :=
  [vcR, vcL, vcB, vcC].any fun vc => p.addsTo isle unit vc && s.sendFull isle unit vc

/-- Whether a unit is a core that answers nothing any more: its vertical port takes no flit (R454, R455). -/
def State.hungUnit (s : State) (isle unit : Nat) : Bool :=
  decide (160 ≤ unit) && decide (unit < 176) && (s.core (16 * isle + (unit - 160))).hung

/-- Whether a packet may be served now. -/
def State.mayServe (s : State) (isle unit : Nat) (p : Packet) : Bool :=
  decide (p.elig + s.serviceDelay unit p ≤ s.bclk) && !s.heldBySends isle unit p && !s.hungUnit isle unit &&
  (decide (160 ≤ unit) ||
    ((!p.needsAlu || decide (look 0 s.timers (aluTimer isle unit) ≤ s.bclk)) && !s.joinWaits p))

/-- The packets that a unit may take now. -/
def State.servable (s : State) (isle unit : Nat) : List Packet :=
  (firstOfEach unit [] (s.waitingAt isle unit)).filter (s.mayServe isle unit)

/-- The packet of a type that a unit takes next. -/
def State.nextOf (s : State) (isle unit typ : Nat) : Option Packet :=
  (s.servable isle unit).find? fun p => p.typ == typ

/-- A unit's input without a packet. -/
def State.popUnit (s : State) (isle unit : Nat) (p : Packet) : State :=
  let k := unitKey isle unit p.vc
  s.updMesh fun m => { m with units := put [] m.units k ((look [] m.units k).erase p) }

/-- The shape of a message's event: the packet of its type that the unit may take is taken and handled. -/
def onPacket (s : State) (isle unit typ : Nat) (f : State → Packet → State) : Result :=
  match s.nextOf isle unit typ with
  | some p => .next (f (s.popUnit isle unit p) p)
  | none => .next s

/-! ## Answers -/

/-- The time at which a write applied now is visible everywhere: max(a, LEXP) (R399). -/
def State.gwct (s : State) (p : Packet) : Nat :=
  max s.ptime (s.homeLine p.disle p.dunit p.loc p.pa).lexp

/-- The data flits that answer a read: one where what is read lies in one half of the line (R393, R394). -/
def Packet.answerFlits (p : Packet) : Nat :=
  if p.typ = 0x09 then carried (lineMask (p.aux.headD 0) (32 * p.aux.getD 1 4))
  else if p.sunit = unitWalker then 1 else 2

/-- DATA with the line as it stands at home (R394). -/
def State.answerData (s : State) (p : Packet) (time : Nat) (lease : Bool) : State :=
  s.send { p.reply 0x10 vcR p.answerFlits with
    time := time, data := s.lineAt p.loc, poison := s.poisonAt p.loc, aux := (if lease then 1 else 0) :: p.aux }

/-- ACK with a GWCT; AUX echoes the request's (R394). -/
def State.answerAck (s : State) (p : Packet) (time : Nat) : State :=
  s.send { p.reply 0x11 vcR 0 with time := time, aux := p.aux }

/-- The masked bytes of a write applied at home and acknowledged (R399). -/
def State.applyWrite (s : State) (p : Packet) : State :=
  let s := s.writeHome p.loc p.bmask p.data p.poison
  s.answerAck p (s.gwct p)

/-- The release record of a write or atomic that carries the mark (R133). -/
def State.placeRecord (s : State) (p : Packet) (mark : Bool) : State :=
  if mark then s.updHome p.disle p.dunit p.loc p.pa fun h =>
    { h with rrec := some (p.srcCore, p.ctx), renewed := h.draining }
  else s

/-! ## Atomics at home (R278, R401, R402) -/

/-- The lanes of an ATOM: lane, offset and operands. -/
def atomLanes : List Nat → List (Nat × Nat × Nat × Nat)
  | a :: b :: c :: d :: t => (a, b, c, d) :: atomLanes t
  | _ => []

/-- The lanes of an atomic applied one after the other to a line; a lane whose bytes carry a poison mark, or whose
operands came poisoned, writes nothing and returns poisoned data (R393, R401). The answer lists lane, old value and poison. -/
def State.atomAtLine (s : State) (p : Packet) (op w count : Nat) (l : List (Nat × Nat × Nat × Nat)) :
    State × List Nat :=
  l.foldl
    (fun acc e =>
      let (lane, off, v, c) := e
      let s := acc.1
      let n := w * count / 8
      let bad := p.poison != 0 || (List.range 4).any fun i =>
        (s.poisonAt p.loc).testBit i && decide (off < 32 * (i + 1)) && decide (32 * i < off + n)
      if bad then (s, acc.2 ++ [lane, 0, 1])
      else
        let r := atomicLine op w count (s.lineAt p.loc) off v c
        (s.writeHome p.loc (lineMask off n) r.1 0, acc.2 ++ [lane, r.2, 0])) (s, [])

/-- Whether some lane of an atomic's answer is poisoned. -/
def anyPoisoned : List Nat → Bool
  | _ :: _ :: c :: t => c == 1 || anyPoisoned t
  | _ => false

/-- The key of a line's predictor entry (R402). -/
def predKey (p : Packet) : Nat := (p.disle * 160 + p.dunit) * 1024 + bits p.pa 7 10

/-- The predictor entry of a line (R402). -/
def State.predictor (s : State) (p : Packet) : Predictor := look ⟨0, 256, 0⟩ s.predictors (predKey p)

/-- The state with a line's predictor entry changed. -/
def State.updPred (s : State) (p : Packet) (f : Predictor → Predictor) : State :=
  { s with predictors := place s.predictors (predKey p) (f (s.predictor p)) }

/-- The predictor's update when an atomic runs at home (R402). -/
def Predictor.atHome (x : Predictor) (core now : Nat) : Predictor :=
  let cnt := if core = x.lcore then (if x.ltime + 2000 ≤ now then x.cnt - 1 else x.cnt) else min (x.cnt + 1) 3
  ⟨cnt, core, now⟩

/-- An atomic runs at the slice's arithmetic unit, its lanes in ascending order, each for one base clock, and is answered
(R279, R401). -/
def State.atomHere (s : State) (p : Packet) : State :=
  let at_ (i : Nat) : Nat := p.aux.getD i 0
  let lanes := atomLanes (p.aux.drop 8)
  let s := s.occupy p lanes.length
  let s := if p.srcCore < 256 then s.updPred p fun x => x.atHome p.srcCore s.ptime else s
  let (s, old) := s.atomAtLine p (at_ 0) (at_ 1) (at_ 2) lanes
  let s := s.placeRecord p (at_ 4 == 1)
  if at_ 3 = 1 then s.send { p.reply 0x12 vcR 1 with aux := old }
  else
    let s := if anyPoisoned old then s.logEvent else s
    s.answerAck { p with aux := [] } (s.gwct p)

/-- Whether an atomic is granted an exclusive lease: a plain atomic of a core with a cache-role bank, outside
every region, whose predictor counter is below 2 (R144, R402). -/
def State.mayGrant (s : State) (p : Packet) : Bool :=
  p.aux.getD 6 0 == 1 && p.aux.getD 7 0 == 0 && decide ((s.predictor p).cnt < 2) &&
  (s.regionAt p.pa).isNone && decide (p.srcCore < 256) && (s.chip p.sisle).state == 0

/-- An exclusive lease granted with the line (R144, R402). -/
def State.grant (s : State) (p : Packet) : State :=
  let last := s.ptime + Config.exclusiveNs
  let s := s.updHome p.disle p.dunit p.loc p.pa fun h =>
    { h with xhold := some (p.srcCore, last), recalled := false, waited := false }
  s.send { p.reply 0x13 vcR 2 with time := last, data := s.lineAt p.loc, poison := s.poisonAt p.loc, aux := p.aux }

/-! ## Haze elements at home (R95, R96, R401) -/

/-- One add applied to the element at a location; a poisoned element stays poisoned, and an addend that came poisoned
poisons it (R393, R401). -/
def State.addElement (s : State) (loc : Nat) (q : Int) (st : Nat) (bad : Bool) : State :=
  let off := loc % 128
  if (s.poisonAt loc).testBit (off / 32) then s
  else
    let n := lineGet (s.lineAt loc) off 16
    let r := if bad then (elemX n, elemSt n) else satAdd96 (elemX n) (elemSt n) q st
    s.writeHome loc (lineMask off 16) (lineSet 0 off 16 (elemBytes r.1 r.2)) (if bad then 15 else 0)

/-- An HZQ applied and acknowledged: AUX is region, offset, q, status and lane (R149). -/
def State.applyHzq (s : State) (p : Packet) : State :=
  let at_ (i : Nat) : Nat := p.aux.getD i 0
  let s := (s.occupy p 1).addElement (p.loc + at_ 1) (signedOf 96 (at_ 2)) (at_ 3) (p.poison != 0)
  s.answerAck { p with aux := [at_ 4] } (s.gwct p)

/-- A delta line applied, its elements in ascending order in eight base clocks, and acknowledged (R401). -/
def State.applyHzd (s : State) (p : Packet) : State :=
  let s := (List.range 8).foldl
    (fun (s : State) i =>
      let n := lineGet p.data (16 * i) 16
      if n = 0 then s else s.addElement (p.loc + 16 * i) (elemX n) (elemSt n) (p.poison.testBit (i / 2))) (s.occupy p 8)
  s.answerAck { p with aux := [] } (s.gwct p)

/-! ## Records and acquires (R134, R400) -/

/-- Whether a request reads as an acquire at isle scope or wider (R134). -/
def Packet.isAcquire (p : Packet) : Bool :=
  (p.typ == 0x02 && p.aux.getD 0 0 == 1) || (p.typ == 0x04 && p.aux.getD 5 0 == 1)

/-- A drain request to the recorded core; for a core whose chiplet has left the map the base answers with
DDONE itself (R400). -/
def State.askDrain (s : State) (p : Packet) (core ctx : Nat) : State :=
  let q : Packet := { Packet.basic 0x20 vcC 0 p.disle p.dunit (isleOf core) (unitOfCore core) ctx 0 with
    pa := p.pa, loc := p.loc }
  if (s.chip (isleOf core)).state = 0 then s.send q
  else s.toUnit p.disle p.dunit { q.reply 0x21 vcC 0 with time := s.ptime } (s.bclk + 1)

/-- A request served at home, with no exclusive lease on the line. -/
def State.serve (s : State) (p : Packet) : State :=
  let h := s.homeLine p.disle p.dunit p.loc p.pa
  let foreign := match h.rrec with
    | some r => r != (p.srcCore, p.ctx)
    | none => false
  if p.isAcquire && (foreign || h.draining) then
    let s := s.updHome p.disle p.dunit p.loc p.pa fun h =>
      { h with acquires := h.acquires ++ [p], draining := true }
    if h.draining then s
    else match h.rrec with
      | some (core, ctx) => s.askDrain p core ctx
      | none => s
  else
    match p.typ with
    | 0x01 =>
      let time := s.ptime + p.aux.headD 0
      (s.updHome p.disle p.dunit p.loc p.pa fun h => { h with lexp := max h.lexp time }).answerData p time true
    | 0x02 =>
      if p.aux.getD 1 0 = 1 then
        s.answerData { p with sisle := p.aux.getD 2 0, sunit := p.aux.getD 3 0 } 0 false
      else s.answerData p 0 false
    | 0x03 => (s.placeRecord p (p.aux.headD 0 == 1)).applyWrite p
    | 0x04 => if s.mayGrant p then s.grant p else s.atomHere p
    | 0x05 => s.applyHzq p
    | 0x07 => s.applyWrite p
    | 0x08 => s.applyHzd p
    | 0x09 => s.answerData p 0 false
    | 0x0A => s.applyWrite p
    | _ => s

/-- A request for a line under an exclusive lease waits, which counts as contention, and the line is recalled
once (R402). -/
def State.contend (s : State) (p : Packet) : State :=
  let h := s.homeLine p.disle p.dunit p.loc p.pa
  let s := s.updPred p fun x => { x with cnt := min (x.cnt + 1) 3 }
  let s := s.updHome p.disle p.dunit p.loc p.pa fun h => { h with waited := true, recalled := true }
  match h.recalled, h.xhold with
  | false, some (core, _) =>
    s.send { Packet.basic 0x28 vcC 0 p.disle p.dunit (isleOf core) (unitOfCore core) p.ctx 0 with
      pa := p.pa, loc := p.loc }
  | _, _ => s

/-- The base itself comes upon a line that a core holds exclusively: its access waits, which counts as any other's (R144,
R402). -/
def State.poke (s : State) (h : Home) (pa : Nat) : State :=
  s.contend { Packet.basic 0x02 vcL 0 0 unitSched h.isle h.slice 0 0 with
    pa := pa / 128 * 128, loc := h.loc / 128 * 128 }

/-- A slice brings a line in (R389, R398). -/
def State.bring (s : State) (p : Packet) : State := s.updHome p.disle p.dunit p.loc p.pa fun h => h

/-- A request at its home slice (R402): it waits under an exclusive lease, and is served otherwise; a join decrement that is
to wait for the list of held pushes goes back to the slice's input (R428). -/
def State.atHome (s : State) (p : Packet) : State :=
  let s := s.bring p
  if s.joinWaits p then s.toUnit p.disle p.dunit p s.bclk
  else if (s.homeLine p.disle p.dunit p.loc p.pa).xhold.isSome then
    (s.contend p).updHome p.disle p.dunit p.loc p.pa fun h => { h with waiting := h.waiting ++ [p] }
  else s.serve p

/-- A line returned by its holder is written at home; with no request waiting the counter falls; the waiting
requests are applied in arrival order (R402). One from a core that holds the line no longer, since its chiplet has been
fenced, is discarded (R457). -/
def State.returned (s : State) (p : Packet) : State :=
  let h := s.homeLine p.disle p.dunit p.loc p.pa
  if h.xhold.map Prod.fst ≠ some p.srcCore then s else
  let s := if s.disp.pending.any (·.record.resume) then s.updDisp fun d => { d with passDue := true } else s
  let s := s.writeHome p.loc (BitVec.allOnes 128) p.data p.poison
  let s := if h.waited then s else s.updPred p fun x => { x with cnt := x.cnt - 1 }
  let s := s.updHome p.disle p.dunit p.loc p.pa fun h =>
    { h with xhold := none, recalled := false, waited := false, waiting := [] }
  h.waiting.foldl (fun (s : State) q => s.atHome q) s

/-- DDONE at home: the acquires wait until package time exceeds Gmax (R400). -/
def State.drainDone (s : State) (p : Packet) : State :=
  let id := s.fresh
  { s.took with drains := place s.drains id ⟨256, p.ctx, [], p.time, .home p.disle p.dunit p.loc p.pa⟩ }

/-- Package time has passed Gmax: the record the drain was for is cleared and the acquires that wait are
answered in arrival order (R400); a record placed since then stays (notes/assumptions/17). -/
def State.answerAcquires (s : State) (isle slice loc pa : Nat) : State :=
  let h := s.homeLine isle slice loc pa
  let s := s.updHome isle slice loc pa fun h =>
    { h with rrec := if h.renewed then h.rrec else none, renewed := false, draining := false, acquires := [] }
  h.acquires.foldl (fun (s : State) q => s.atHome q) s

/-! ## Eviction (R398, R400) -/

/-- Whether a line may be evicted: nothing is under way for it. -/
def HomeLine.idle (h : HomeLine) : Bool := h.xhold.isNone && h.waiting.isEmpty && !h.draining

/-- Whether the exchange before its eviction is under way for a line (R400). -/
def HomeLine.leaving (h : HomeLine) : Bool := h.draining && h.acquires.isEmpty

/-- The lines that a slice holds. -/
def State.heldBy (s : State) (isle slice : Nat) : List HomeLine :=
  (s.homes.map fun e => e.2).filter fun h => match h.site with
    | some (i, u, _) => i == isle && u == slice
    | none => false

/-- The lines that slices which hold more than their size may evict (notes/assumptions/47). -/
def State.evictable (s : State) : List Nat :=
  if s.homes.length ≤ Config.sliceLines then []
  else s.homes.filterMap fun e => match e.2.site with
    | some (i, u, _) =>
      let l := s.heldBy i u
      if e.2.idle ∧ Config.sliceLines + (l.filter HomeLine.leaving).length < l.length then some e.1 else none
    | none => none

/-- A slice evicts a line (R398, R400): with a release record the exchange of an acquire comes first; without, the
horizon rises to the line's LEXP and the slice keeps only the marks of poisoned bytes, which stand in memory. -/
def State.evictHome (s : State) (line : Nat) : State :=
  let h := look HomeLine.none s.homes line
  match h.site, h.rrec with
  | some (isle, slice, pa), some (core, ctx) =>
    let p : Packet := { Packet.basic 0x20 vcC 0 isle slice isle slice ctx 0 with pa := pa, loc := line * 128 }
    { s with homes := place s.homes line { h with draining := true } }.askDrain p core ctx
  | some (isle, slice, pa), none =>
    let n := horizonOf isle slice pa
    { s with
      hzn := put 0 s.hzn n (max (look 0 s.hzn n) h.lexp)
      homes := put HomeLine.none s.homes line { h with lexp := 0, site := none } }
  | none, _ => s

/-! ## The events at slices -/

/-- RD: a line fetched at home under a lease (R399). -/
def execRd (isle unit : Nat) (s : State) : Result := onPacket s isle unit 0x01 fun s p => s.atHome p

/-- ATOM_AT_HOME: an atomic at its home slice (R401, R402). -/
def execAtomAtHome (isle unit : Nat) (s : State) : Result := onPacket s isle unit 0x04 fun s p => s.atHome p

/-- HZQ: one add at the element's home (R149). -/
def execHzq (isle unit : Nat) (s : State) : Result := onPacket s isle unit 0x05 fun s p => s.atHome p

/-- DRN: dirty bytes applied at home (R130). -/
def execDrn (isle unit : Nat) (s : State) : Result := onPacket s isle unit 0x07 fun s p => s.atHome p

/-- HZD: a delta line applied at the element homes (R401). -/
def execHzd (isle unit : Nat) (s : State) : Result := onPacket s isle unit 0x08 fun s p => s.atHome p

/-- XRET: an exclusive line returns to home (R402). -/
def execXret (isle unit : Nat) (s : State) : Result := onPacket s isle unit 0x14 fun s p => s.returned p

/-- DDONE: a drain for a record is done (R400). -/
def execDdone (isle unit : Nat) (s : State) : Result := onPacket s isle unit 0x21 fun s p => s.drainDone p

end Sys2Proof.Machine
end

