-- ==== Sys2Proof/Machine/Copy.lean ====
section
/-!
DEFINITION. How engine commands run: copies and stores sector by sector (R311 to R315, R473), the iterations
of `mloop` (R307), their faults and their resumption (R321 to R323), and the end of each command (R141, R311).
-/
namespace Sys2Proof.Machine

/-! ## Commands -/

/-- The isle whose engines serve a command (R473). -/
def Cmd.isle (c : Cmd) : Nat := isleOf c.core

/-- The context of a command. -/
def State.cmdCtx (s : State) (c : Cmd) : Nat := (s.gang (s.blk c.blk).gang).ctx

/-- The items of a command: sectors outside of a copy, elements of a `tstore.hz`, iterations of an `mloop`. -/
def Cmd.total (c : Cmd) : Nat :=
  match c.kind with
  | .mloop => c.iterations
  | .tstoreHz => c.rows * c.kk
  | _ => c.run.sectors

/-- The iteration vector at a command's boundary (R322). -/
def Cmd.vector (c : Cmd) : List Nat :=
  match c.kind with
  | .mloop => vectorOf c.run.n c.sent
  | .tstoreHz => vectorOf (c.run.n0 :: c.run.n) (c.sent / 2)
  | _ => vectorOf (c.run.n0 :: c.run.n) c.sent

/-- The ITER field of an iteration vector (R356). -/
def iterBits : List Nat → Nat
  | [] => 0
  | x :: t => x % 65536 + 65536 * iterBits t

/-- A command leaves its queue and its counter decreases (R311, R269). -/
def State.endCmd (s : State) (c : Cmd) : State :=
  let s := s.updCore c.core fun x => { x with cq := x.cq.filter (· != c.id) }
  let s := { s with cmds := s.cmds.filter fun x => x.id != c.id }
  match c.grp with
  | some g => s.oweDecrement g c.sb
  | none => s

/-- A command has made its last write (R141): it reports completion, or waits until package time has passed
the GWCT of its writes. -/
def State.lastWrite (s : State) (c : Cmd) : State :=
  if c.rel && decide (s.ptime ≤ c.gmax) then
    let s := s.updCmd c.id fun c => { c with stage := .releasing }
    let id := s.fresh
    { s.took with drains := place s.drains id ⟨256, s.cmdCtx c, [], c.gmax, .cmd c.id⟩ }
  else s.endCmd c

/-- What follows the drain or the wait a command was in (R141): it becomes visible to its engine, or
completes. -/
def State.cmdPassed (s : State) (id : Nat) : State :=
  match s.cmd? id with
  | some c =>
    if c.stage = .draining then s.updCmd id fun c => { c with stage := .waiting }
    else if c.stage = .releasing then s.endCmd c
    else s
  | none => s

/-! ## Faults (R297, R321 to R323) -/

/-- The report of a command's fault (R297, R322). -/
def State.cmdReport (s : State) (c : Cmd) (kind code : Nat) (va : W64) : Report :=
  let b := s.blk c.blk
  { s.reportOf kind b.gang with
    code := code, core := c.core, block := b.num
    group := match c.grp with
      | some g => (s.grp g).num
      | none => 255
    iaddr := c.iaddr, vaddr := va, iter := iterBits c.vector }

/-- A copy that stops writes its code to ERR of its barrier (R74, R321). -/
def State.cmdError (s : State) (c : Cmd) (code : Nat) : State :=
  if c.kind = .tcopy then s.txError c.blk c.side ((s.blk c.blk).tile c.side c.tile).txb code else s

/-- An unrecoverable fault of a command terminates its gang, under kind 0x03 when its stream issued it
(R297, R321). -/
def State.cmdFault (s : State) (c : Cmd) (code : Nat) (va : W64) : State :=
  let kind := if c.grp.isNone then 0x03 else 0x01
  let r := s.cmdReport c kind code va
  (s.cmdError c code).terminate (s.blk c.blk).gang r

/-- A loop before its next iteration, whose slabs it will copy anew (R323). -/
def Cmd.toBoundary (c : Cmd) : Cmd :=
  if c.kind = .mloop then { c with asked := 0, pend := [], got := [], buf := [] } else c

/-- A recoverable fault stops a command at its boundary, with a report of code 0x10 (R321, R323). -/
def State.cmdStop (s : State) (c : Cmd) (va : W64) : State :=
  let s := (s.cmdError c 0x10).report (s.cmdReport c 0x01 0x10 va)
  s.updCmd c.id fun c => { c.toBoundary with fault := some (0x10, va) }

/-- The translation of a command's address (R381): a miss starts a walk, a fault stops the command; otherwise
`k` goes on. -/
def State.cmdXlate (s : State) (c : Cmd) (va : W64) (a : Access) (k : State → Xl → State) : State :=
  let ctx := s.cmdCtx c
  match s.lookup (.cmd c.id) none c.isle ctx va a with
  | .miss => s.startWalk (.cmd c.id) c.isle ctx va
  | .bad f =>
    let s := s.tookWalks (.cmd c.id)
    if s.recoverable ctx f then s.cmdStop c va else s.cmdFault c f.code va
  | .ok x => k (s.tookWalks (.cmd c.id)) x

/-- Whether a walk for the command is still in flight. -/
def State.cmdWalking (s : State) (c : Cmd) : Bool :=
  s.walkFor (· == .cmd c.id)

/-- COMMAND_RESUME: a command stopped on a recoverable fault goes on from its vector once the address
translates (R323). -/
def State.mayResume (s : State) (c : Cmd) : Bool :=
  match c.fault with
  | some (_, va) => match s.walk (s.cmdCtx c) (vaBits va) with
    | .leaf _ => true
    | _ => false
  | none => false

/-- COMMAND_RESUME (R323). -/
def execCommandResume (_core cmd : Nat) (s : State) : Result :=
  match s.cmd? cmd with
  | some c => .next (if s.mayResume c then s.updCmd cmd fun c => { c with fault := none } else s)
  | none => .next s

/-! ## Transfers (R473) -/

/-- The engine of an isle that serves the next transfer: transfers are dealt to its eight engines in turn (R473). -/
def State.nextEngine (s : State) (isle : Nat) : Nat := look 0 s.timers (5000 + isle)

/-- How often something that each base clock limits has happened in this one; `key` is its timer. -/
def State.usesNow (s : State) (key : Nat) : Nat :=
  let n := look 0 s.timers key
  if n / 16 = s.bclk then n % 16 else 0

/-- It has happened once more. -/
def State.useNow (s : State) (key : Nat) : State :=
  { s with timers := place s.timers key (s.bclk * 16 + s.usesNow key + 1) }

/-- The timer of an engine's CPRs (`kind` 0) or CPWs (`kind` 1): at most one leaves per base clock (R473). -/
def engineTimer (isle engine kind : Nat) : Nat := 6400 + 16 * isle + 2 * engine + kind

/-- Whether an engine may send a packet of a kind in this base clock (R473); it pauses while its send queue is full
(R492). -/
def State.engineFree (s : State) (isle engine kind : Nat) : Bool :=
  s.usesNow (engineTimer isle engine kind) == 0 && !s.sendFull isle (176 + engine) vcB

/-- The piece of a run that sector `i` lies in, by its first sector and length: a line that the run covers whole, else
the sector alone (R473). -/
def Run.pieceOf (r : Run) (i : Nat) : Nat × Nat :=
  let k := (r.sector i).toNat % 128 / 32
  if k ≤ i % r.n0 ∧ i % r.n0 - k + 4 ≤ r.n0 then (i - k, 4) else (i, 1)

/-- Whether sector `i` of a run does not go on in the line of the sector before it (R410). -/
def Run.opensLine (r : Run) (i : Nat) : Bool :=
  i % r.n0 == 0 || (r.sector i).toNat % 128 == 0

/-- The timer that tells whose transfer an engine has made last: 1 a queued command's, 2 a chain's (R473). -/
def turnTimer (isle engine : Nat) : Nat := 6800 + 8 * isle + engine

/-- Whose transfer an engine has made last. -/
def State.lastTurn (s : State) (isle engine : Nat) : Nat := look 0 s.timers (turnTimer isle engine)

/-- An engine makes a transfer of a queued command (1) or of a chain (2). -/
def State.engineTurn (s : State) (isle engine who : Nat) : State :=
  { s with timers := place s.timers (turnTimer isle engine) who }

/-- A transfer of `n` sectors by a copy engine (R410, R442, R473): a packet about their line, counted by the isle where it
begins a line of the run, and by the cluster's arbiter. -/
def State.sendEngine (s : State) (c : Cmd) (x : Xl) (typ dlen kind n i : Nat) (opens : Bool)
    (f : Packet → Packet) : State :=
  let ctx := s.cmdCtx c
  let e := s.nextEngine c.isle
  let tag := s.fresh
  let p := { linePacket typ vcB dlen c.isle (176 + e) ctx (s.homeOfXl ctx x) x.pa with tag := tag }
  let s := { s.took with timers := place s.timers (5000 + c.isle) ((e + 1) % 8) }.useNow (engineTimer c.isle e kind)
  let s := s.engineTurn c.isle e 1
  let s := s.updCmd c.id fun c => { c with stage := .running, pend := c.pend ++ [(tag, i)] }
  let s := if opens then s.countEngine c.isle ctx p.disle else s
  s.sendCounted c.core (32 * n) (f p)

/-- `n` sectors read by a copy engine (R140): AUX names their offset in the line and their number. -/
def State.engineRead (s : State) (c : Cmd) (x : Xl) (n i : Nat) (opens : Bool) : State :=
  s.sendEngine c x 0x09 0 0 n i opens fun p => { p with aux := [x.pa % 128, n] }

/-- `n` sectors written by a copy engine (R140). -/
def State.engineWrite (s : State) (c : Cmd) (x : Xl) (n i bytes : Nat) (opens : Bool) : State :=
  let off := x.pa % 128
  s.sendEngine c x 0x0A (if n = 4 then 2 else 1) 1 n i opens fun p =>
    { p with bmask := lineMask off (32 * n), data := lineSet 0 off (32 * n) bytes }

/-- A copy's source bytes that have come: `n` sectors from sector `i`. -/
def Cmd.receive (c : Cmd) (i n bytes : Nat) : Cmd :=
  { c with got := c.got ++ (List.range n).map (i + ·), buf := Machine.writeBytes c.buf (32 * i) (32 * n) bytes }

/-- The next source sectors of a `tcopy` asked for at home (R140, R313). -/
def State.readPiece (s : State) (c : Cmd) : State :=
  let i := c.sent
  let n := (c.run.pieceOf i).2
  s.cmdXlate c (c.run.sector i) .read fun s x =>
    (s.updCmd c.id fun c => { c with sent := i + n }).engineRead c x n i (c.run.opensLine i)

/-- An element converted between two slots under `.cv` (R87, R313). -/
def convertElem (wFrom wTo rnd x : Nat) : Nat :=
  roundF ((fmtOf (slotFmt wFrom)).decode x) (fmtOf (slotFmt wTo)) rnd (slotSat wTo)

/-- `n` elements of a little-endian number converted (R313, R314). -/
def convertBytes (wFrom wTo rnd : Nat) (n x : Nat) : Nat :=
  let a := fmtBits (slotFmt wFrom)
  let b := fmtBits (slotFmt wTo)
  (List.range n).foldl (fun acc i => acc + convertElem wFrom wTo rnd (x / 2 ^ (a * i) % 2 ^ a) * 2 ^ (b * i)) 0

/-- The 32 bytes that a `tstore` writes as sector `i`, from its tile (R314). -/
def State.storeSector (s : State) (c : Cmd) (i : Nat) : Nat :=
  let t := (s.blk c.blk).tile c.side c.tile
  if c.cv then
    let wt := s.slotFor c.blk t.fslot
    let w := s.slotFor c.blk c.slot
    let n := 256 / fmtBits (slotFmt w)
    let bytes := n * fmtBits (slotFmt wt) / 8
    convertBytes wt w c.rnd n (s.obRead c.blk c.side (t.start + bytes * i) bytes)
  else s.obRead c.blk c.side (t.start + 32 * i) 32

/-- The next sectors of a `tstore` written at home (R140, R314); after its last read the tile empties. An uncorrectable error
in the tile terminates the gang (R321). -/
def State.writePiece (s : State) (c : Cmd) : State :=
  let i := c.sent
  let n := (c.run.pieceOf i).2
  if s.tileBad c.blk c.side ((s.blk c.blk).tile c.side c.tile) then s.cmdFault c 0x13 (c.run.sector i)
  else s.cmdXlate c (c.run.sector i) .write fun s x =>
    let bytes := (List.range n).foldl (fun acc k => acc + s.storeSector c (i + k) * 2 ^ (256 * k)) 0
    let s := s.updCmd c.id fun c => { c with sent := i + n }
    let s := if i + n = c.total then s.updTile c.blk c.side c.tile Tile.drained else s
    s.engineWrite c x n i bytes (c.run.opensLine i)

/-- The timer of a core's adds of `tstore.hz`: at most eight enter its delta lines or leave in a base clock (R489). -/
def hazeTimer (core : Nat) : Nat := 6000 + core

/-- The next add of a `tstore.hz` (R315): it enters the core's pipeline as an `hzadd` that no fibre waits
for. -/
def State.hazePiece (s : State) (c : Cmd) : State :=
  let j := c.sent
  let va := c.run.sector (j / 2) + BitVec.ofNat 64 (16 * (j % 2))
  s.cmdXlate c va .write fun s x =>
    if (s.regionAt x.pa).isNone then s.cmdFault c 0x16 va
    else
      let g := c.grp.getD ((s.blk c.blk).groups.headD 0)
      let ctx := s.cmdCtx c
      let id := s.fresh
      let o := Op.blank g c.core ctx 0 0 .hzadd
      let o := { o with id := id, parts := [s.partOf ctx 0 va x 4 (readBytes c.buf (4 * j) 4) 0] }
      let s := { s.took with ops := s.ops ++ [o] }.useNow (hazeTimer c.core)
      s.updCmd c.id fun c => { c with sent := j + 1, stage := .running, pend := c.pend ++ [(id, j)] }

/-- Whether a command may read or write next: not stopped, and its acquire, if any, satisfied (R141). -/
def State.cmdRuns (s : State) (c : Cmd) : Bool :=
  !c.stopped && c.fault.isNone && c.behind == 0 && !s.cmdWalking c &&
  (c.stage == .running ||
    (c.stage == .waiting && (!c.acq || (s.core c.core).cq.head? == some c.id)))

/-! ## The slabs of an iteration of `mloop` (R307) -/

/-- The address of a base plus the strides of an iteration vector. -/
def loopBase (base : W64) (v : List Nat) (stride : List Int) : W64 :=
  base + BitVec.ofInt 64 ((v.zip stride).foldl (fun (acc : Int) e => acc + e.1 * e.2) 0)

/-- The rows of a slab as a run: ROWB bytes each, at a pitch (R307). -/
def slabRun (base : W64) (t : Tile) (pitch : Nat) : Run := ⟨base, t.rowBytes / 32, [t.rowCount], [(pitch : Int)]⟩

/-- The slabs of A and B that a loop's next iteration copies. -/
def State.slabs (s : State) (c : Cmd) : Run × Run :=
  let b := s.blk c.blk
  let v := vectorOf c.run.n c.sent
  (slabRun (loopBase c.run.base v c.run.stride) (b.tile 0 c.tile) (c.pitch.getD 0 0),
   slabRun (loopBase c.runB.base v c.runB.stride) (b.tile 0 c.tileB) (c.pitch.getD 1 0))

/-- The run and the sector in it of sector `j` of an iteration's slabs, A's before B's. -/
def State.slabAt (s : State) (c : Cmd) (j : Nat) : Run × Nat :=
  let (a, b) := s.slabs c
  if j < a.sectors then (a, j) else (b, j - a.sectors)

/-- The sectors of an iteration's slabs. -/
def State.slabSectors (s : State) (c : Cmd) : Nat := (s.slabs c).1.sectors + (s.slabs c).2.sectors

/-- The next sectors of an iteration's slabs asked for at home (R140, R307). -/
def State.slabPiece (s : State) (c : Cmd) : State :=
  let j := c.asked
  let (r, i) := s.slabAt c j
  let n := (r.pieceOf i).2
  s.cmdXlate c (r.sector i) .read fun s x =>
    (s.updCmd c.id fun c => { c with asked := j + n }).engineRead c x n j (r.opensLine i)

/-- Whether the multiply of a loop's last iteration has landed, so that its slabs may be copied anew (R307). -/
def State.loopRests (s : State) (c : Cmd) : Bool := !((s.core c.core).mq.any fun m => m.cmd == some c.id)

/-- The sectors, cells or iterations of a command that are done (R366): those whose transfers have been answered, whose
adds are over, and whose multiplies have landed. -/
def State.finished (s : State) (c : Cmd) : Nat :=
  match c.kind with
  | .tcopy => c.got.length
  | .tstore => c.sent - c.pend.foldl (fun n e => n + (c.run.pieceOf e.2).2) 0
  | .tstoreHz => c.sent - (c.pend.filter fun e => (s.op? e.1).isSome).length
  | .mloop => c.sent - bit (!s.loopRests c)

/-- Whether a command's next transfer may be sent now (R473, R489). -/
def State.mayTransfer (s : State) (c : Cmd) : Bool :=
  let free (kind : Nat) : Bool := s.engineFree c.isle (s.nextEngine c.isle) kind
  s.cmdRuns c &&
  (match c.kind with
    | .tcopy => decide (c.sent < c.total) && free 0
    | .tstore => (decide (c.sent < c.total) && free 1 && !(s.core c.core).hung) || (c.sent == c.total && c.pend.isEmpty)
    | .tstoreHz => !c.got.isEmpty && !(s.core c.core).hung && ((decide (c.sent < c.total) && decide (s.usesNow (hazeTimer c.core) < 8)) ||
        (c.sent == c.total && !(s.ops.any fun o => c.pend.any fun e => e.1 == o.id)))
    | .mloop => decide (c.sent < c.total) && s.loopRests c && decide (c.asked < s.slabSectors c) && free 0)

/-- Whether a command's next step is a transfer by a copy engine (R473). -/
def State.takesEngine (s : State) (c : Cmd) : Bool :=
  match c.kind with
  | .tcopy => true
  | .tstore => decide (c.sent < c.total)
  | .tstoreHz => false
  | .mloop => decide (c.asked < s.slabSectors c)

/-- The next step of a copy or store command, or of a loop's copies (R307, R313 to R315). -/
def State.transfer (s : State) (c : Cmd) : State :=
  match c.kind with
  | .tcopy => s.readPiece c
  | .tstore => if c.sent < c.total then s.writePiece c else s.lastWrite c
  | .tstoreHz => if c.sent < c.total then s.hazePiece c else s.endCmd c
  | .mloop => s.slabPiece c

/-- COPY_ENGINE_TRANSFER: a copy engine sends the next line or sector of a queued command (R473). -/
def execCopyEngineTransfer (_core cmd : Nat) (s : State) : Result :=
  match s.cmd? cmd with
  | some c => .next (if s.mayTransfer c then s.transfer c else s)
  | none => .next s

/-! ## Arrivals (R313) -/

/-- The source bytes of tile sector `d` of a `tcopy`: first byte and length. -/
def State.sourceOf (s : State) (c : Cmd) (d : Nat) : Nat × Nat :=
  if c.cv then
    let wt := s.slotFor c.blk ((s.blk c.blk).tile c.side c.tile).fslot
    let n := 256 / fmtBits (slotFmt wt) * fmtBits (slotFmt (s.slotFor c.blk c.slot)) / 8
    (n * d, n)
  else (32 * d, 32)

/-- The first tile sector of a `tcopy` whose source bytes have all come and that is not in the tile yet: a core that answers
no more takes none at its port (R455). -/
def State.readySector (s : State) (c : Cmd) : Option Nat :=
  if c.kind ≠ .tcopy ∨ (s.core c.core).hung = true then none
  else
    (List.range (((s.blk c.blk).tile c.side c.tile).bytes / 32)).find? fun d =>
      let (a, n) := s.sourceOf c d
      !c.arrived.contains d && (List.range ((a + n - 1) / 32 - a / 32 + 1)).all fun k => c.got.contains (a / 32 + k)

/-- A tile sector complete: its bytes stand in the tile and SEC_PEND of its barrier falls (R313). -/
def State.arrive (s : State) (c : Cmd) (d : Nat) : State :=
  let t := (s.blk c.blk).tile c.side c.tile
  let (a, n) := s.sourceOf c d
  let x := readBytes c.buf a n
  let y := if c.cv then
      let wt := s.slotFor c.blk t.fslot
      convertBytes (s.slotFor c.blk c.slot) wt c.rnd (256 / fmtBits (slotFmt wt)) x
    else x
  let s := s.updCmd c.id fun c => { c with arrived := c.arrived ++ [d] }
  let s := s.obWrite c.blk c.side (t.start + 32 * d) (leBytes 32 y)
  s.txUpdate c.blk c.side t.txb fun b => b.addSectors (-1)

/-- COPY_SECTOR_ARRIVAL: a copied sector completes in its tile; the last one completes the command (R311,
R313). -/
def execCopySectorArrival (_core cmd : Nat) (s : State) : Result :=
  match s.cmd? cmd with
  | none => .next s
  | some c =>
    match s.readySector c with
    | none => .next s
    | some d =>
      let n := ((s.blk c.blk).tile c.side c.tile).bytes / 32
      let s := s.arrive c d
      .next (if c.arrived.length + 1 = n then s.endCmd c else s)

/-- The command that waits for a transfer's answer. -/
def State.cmdOfTag (s : State) (tag : Nat) : Option (Cmd × Nat) :=
  s.cmds.findSome? fun c => (c.pend.find? fun e => e.1 == tag).map fun e => (c, e.2)

/-- The sectors that a read asked for arrive; the first poisoned one is an unrecoverable fault (R321, R322). Sectors of a
command whose chiplet has been fenced are discarded at its closed ports and counted (R455, R473). -/
def State.engineData (s : State) (isle : Nat) (p : Packet) : State :=
  let off := p.aux.getD 1 0
  let n := p.aux.getD 2 4
  if (s.chip isle).state ≠ 0 then s.countDiscard isle n else
  match s.cmdOfTag p.tag with
  | none => s
  | some (c, i) =>
    let s := s.updCmd c.id fun c => { c with pend := c.pend.filter fun e => e.1 != p.tag }
    match (List.range n).find? fun k => p.poison.testBit (off / 32 + k) with
    | some k =>
      if c.kind = .mloop then
        let (r, j) := s.slabAt c (i + k)
        s.cmdFault c 0x13 (r.sector j)
      else s.cmdFault { c with sent := i + k } 0x13 (c.run.sector (i + k))
    | none => s.updCmd c.id fun c => c.receive i n (lineGet p.data off (32 * n))

/-- A write of an engine is acknowledged with its GWCT (R140). -/
def State.engineAck (s : State) (tag gwct : Nat) : State :=
  match s.cmdOfTag tag with
  | none => s
  | some (c, _) => s.updCmd c.id fun c =>
      { c with pend := c.pend.filter fun e => e.1 != tag, gmax := max c.gmax gwct }

/-! ## Iterations of `mloop` (R307) -/

/-- Whether the multiply of a loop's next iteration may begin: both slabs have come, and the multiply before it has landed
(R307). -/
def State.mayIterate (s : State) (c : Cmd) : Bool :=
  c.kind == .mloop && !(s.core c.core).hung && s.cmdRuns c && decide (c.sent < c.total) && s.loopRests c && c.got.length == s.slabSectors c

/-- The multiply of an iteration: its operands are in the staging tiles (R301, R307). The busy bits of rows that no later
iteration writes are the multiply's alone from now on (R118). -/
def State.loopMultiply (s : State) (c : Cmd) (v : List Nat) : State :=
  let b := s.blk c.blk
  let ta := b.tile 0 c.tile
  let tb := b.tile 0 c.tileB
  let wa := s.slotFor c.blk ta.fslot
  let wb := s.slotFor c.blk tb.fslot
  let r : Int := (v.zip c.acc).foldl (fun (acc : Int) e => acc + e.1 * e.2.1) (c.row : Int)
  let g : Int := (v.zip c.acc).foldl (fun (acc : Int) e => acc + e.1 * e.2.2) (c.c0 : Int)
  let clocks := max (classClocks ((slotClass wa).getD 0) c.kk) (classClocks ((slotClass wb).getD 0) c.kk)
  let m := MatOp.mk' c.blk 0 (.mma c.tile c.tileB c.kk g.toNat false false false false
    (slotForm wa != 0 || slotForm wb != 0)) (b.accFirst 0 + r.toNat) ta.rowCount clocks true
  let cells := s.products c.blk 0 0 ta tb wa wb c.kk g.toNat
  let s := s.addMat { m with cells := cells, cmd := some c.id, iter := iterBits c.vector, iaddr := c.iaddr, grp := c.grp }
  (s.freeLoopRows c c.sent (c.sent + 1)).updCmd c.id fun c => { c with sent := c.sent + 1, asked := 0, got := [], buf := [] }

/-- One iteration of a loop: both slabs are in their tiles before the multiply (R307). -/
def State.iterate (s : State) (c : Cmd) : State :=
  let b := s.blk c.blk
  let ta := b.tile 0 c.tile
  let tb := b.tile 0 c.tileB
  let x := readBytes c.buf 0 (ta.bytes + tb.bytes)
  let s := s.obWrite c.blk 0 ta.start (leBytes ta.bytes x)
  let s := s.obWrite c.blk 0 tb.start (leBytes tb.bytes (x / 2 ^ (8 * ta.bytes)))
  s.loopMultiply c (vectorOf c.run.n c.sent)

/-- MLOOP_ITERATION: one K-step copies its slabs and multiplies (R307). -/
def execMloopIteration (_core cmd : Nat) (s : State) : Result :=
  match s.cmd? cmd with
  | some c => .next (if s.mayIterate c then s.iterate c else s)
  | none => .next s

/-- The end of an `mloop` after its last write: both staging tiles become EMPTY and the queue entry is freed (R307,
R311). -/
def State.endLoop (s : State) (c : Cmd) : State := (s.emptyStaging c).endCmd c

/-- The loop that a landed operation belongs to ends with its last iteration. -/
def State.afterLoop (s : State) (m : MatOp) : State :=
  match m.cmd.bind s.cmd? with
  | some c => if c.sent = c.total then s.endLoop c else s
  | none => s

/-- MATRIX_WRITE_COMPLETE: the last write of an array operation or fill of a core lands (R118). -/
def execMatrixWriteComplete (core : Nat) (s : State) : Result :=
  match (s.core core).mq.find? (s.mayLand core) with
  | some m => .next ((s.landMat m).afterLoop m)
  | none => .next s

/-- The events of commands beside their transfers that may come next. -/
def State.dueCommands (s : State) : List Instr :=
  s.cmds.flatMap fun c =>
    (if (s.readySector c).isSome then [.copySectorArrival c.core c.id] else []) ++
    (if s.mayIterate c then [.mloopIteration c.core c.id] else []) ++
    (if s.mayResume c then [.commandResume c.core c.id] else [])

end Sys2Proof.Machine
end

