-- ==== Sys2Proof/Machine/System.lean ====
section
/-!
DEFINITION. The system-class instructions (R342 to R346, R352, R360, R366): special registers, the return
from a trap, the end of a handler, invalidation, write-back and reclaim of a context, and debug reads.
-/
namespace Sys2Proof.Machine

/-! ## Special registers (R106, R343) -/

/-- Whether a selector of R343 is 64 bits wide. -/
def selectorWide (sel : Nat) : Bool := sel == 0 || sel == 1 || sel == 5 || sel == 7

/-- The value of a selector for a group (R343). -/
def State.sysReg (s : State) (g sel : Nat) : W64 :=
  let x := s.grp g
  match sel with
  | 0 => (s.blk x.blk).brole
  | 1 => x.ctl.tvec
  | 2 => x.ctl.tcause.setWidth 64
  | 3 => x.ctl.tlanes.setWidth 64
  | 4 => x.ctl.tolanes.setWidth 64
  | 5 => x.ctl.tpc
  | 6 => BitVec.ofNat 64 x.ctl.tidx
  | 7 => x.ctl.taddr
  | 8 => BitVec.ofNat 64 (s.ctx (s.ctxOf g)).control
  | 9 => x.prstat.setWidth 64
  | _ => 0

/-- `srdp` (R343): the value lands before the group's next issue (R179). -/
def execSrdp (d rsel : Nat) (s : State) : Result :=
  let wide := selectorWide rsel
  scalarOp s 1 [] (if wide then spair d else [.s d]) fun _ =>
    let v := s.sysReg s.cur.grp rsel
    if wide then [(.s d, lo32 v), (.s (d + 1), hi32 v)] else [(.s d, lo32 v)]

/-- Whether a BROLE value obeys R107: 0b11 exactly for the banks not held, and a multiple of four
operand-buffer banks. -/
def Block.roleOk (b : Block) (v : Nat) : Bool :=
  ((List.range 32).all fun i => (bits v (2 * i) 2 == 3) == !(b.banksAt 0).contains i) &&
  ((List.range 32).filter fun i => bits v (2 * i) 2 == 2).length % 4 == 0

/-- BROLE written (R107): banks that leave the scratchpad or operand-buffer role, or the cache role, are
zeroed, and the lines a smaller cache cannot hold are written back. -/
def State.setRoles (s : State) (b : Nat) (v : W64) : State :=
  let x := s.blk b
  let changed (side : Nat) : List Nat :=
    (List.range (x.banksAt side).length).filterMap fun i =>
      if bits v.toNat (2 * (x.banksAt 0).getD i 0) 2 = x.roleOf i then none else (x.banksAt side)[i]?
  let s := s.updBlk b fun y => { y with brole := v }
  (List.range x.cores.length).foldl
    (fun (s : State) side =>
      let core := x.coreAt side
      let gone := changed side
      ((s.updCore core fun c =>
        { c with bytes := c.bytes.filter fun e => !gone.contains (e.1 / Config.bankBytes) }).zeroed core gone 0 0).fitCache
          core) s

/-- Why a `swrp` is refused before its operand is read (R343, R488). -/
def State.swrpMode (s : State) (sel : Nat) : Bool :=
  let x := s.grp s.cur.grp
  if sel = 0 then x.num != 0 || !(s.blk x.blk).allocOpen
  else if sel = 5 ∨ sel = 6 then !x.ctl.trapMode
  else false

/-- Why a `swrp` is refused for the value it holds (R107, R343). -/
def State.swrpValue (s : State) (sel : Nat) (v : W64) : Bool :=
  if sel = 0 then !(s.blk (s.grp s.cur.grp).blk).roleOk v.toNat
  else if sel = 6 then decide (15 < v.toNat)
  else false

/-- The effect of `swrp` (R343). -/
def State.setSpecial (s : State) (sel : Nat) (v : W64) : State :=
  let g := s.cur.grp
  match sel with
  | 0 => s.setRoles (s.grp g).blk v
  | 1 => s.updGrp g fun x => x.updCtl fun c => { c with tvec := v }
  | 5 => s.updGrp g fun x => x.updCtl fun c => { c with tpc := v }
  | 6 => s.updGrp g fun x => x.updCtl fun c => { c with tidx := v.toNat }
  | _ => s

/-- `swrp` (R343). -/
def execSwrp (rsel k : Nat) (s : State) : Result :=
  asGroup s fun g =>
    if s.swrpMode rsel then .next (s.fail (Fail.illegal 4))
    else
      match s.regFail (if selectorWide rsel then spair k else [.s k]) [] 1 with
      | some e => .next (s.fail e)
      | none =>
        let v := if selectorWide rsel then g.sp k else (g.s k).setWidth 64
        if s.swrpValue rsel v then .next (s.fail (Fail.illegal 5))
        else .next (s.setSpecial rsel v).finish

/-! ## Handlers (R359, R360, R363) -/

/-- A fibre at the start of a handler (R359, R363): window base 0, p0 to p14 false, age 0. -/
def Fibre.inHandler (f : Fibre) (pc : W64) : Fibre :=
  if f.occ then { Fibre.vacant with occ := true, pc := pc } else f

/-- Whether an operation's decrement stays owed in an image: a `bar` that has arrived, or a `gbar` that has
arrived or waits for its earlier phase (R358). -/
def Op.staysOwed (o : Op) : Bool :=
  match o.kind with
  | .bar .. => o.stage == .phase
  | .gbar .. => o.stage == .phase || o.stage == .held
  | _ => false

/-- The owed decrements of a group join what pre-emption has captured of its block (R358, R359). -/
def State.captureOwed (s : State) (g : Nat) : State :=
  let mine (o : Op) : Bool := o.grp == g && o.staysOwed
  let k := s.gang (s.gangOf g)
  let i := k.blocks.idxOf (s.grp g).blk
  let add (c : Capture) : Capture := { c with owed := c.owed ++ s.ops.filter mine }
  { s.updGang (s.gangOf g) fun k => { k with captured := k.captured.modify i add } with
    ops := s.ops.filter fun o => !mine o }

/-- A group enters handler mode (R359, R363): its control state is kept, with the decrements it is owed, and every
occupied fibre goes to the handler's address. -/
def State.enterHandler (s : State) (g : Nat) (h : Handler) (pc : W64) : State :=
  let s := if h = .preempt then s.captureOwed g else s
  s.updGrp g fun x =>
    { (x.updCtl fun c => { c with fibs := c.fibs.map fun f => f.inHandler pc, trapMode := false }) with
      saved := some x.ctl, handler := h, stopped := false }

/-- The address of a gang's pre-emption handler and of its resume handler; 0 where there is none (R413). -/
def Gang.preemptPc (k : Gang) : W64 := BitVec.ofNat 64 (k.field 640 64)

/-- The address of a gang's resume handler (R413). -/
def Gang.resumePc (k : Gang) : W64 := BitVec.ofNat 64 (k.field 704 64)

/-- A group whose gang is being pre-empted enters the handler once it is out of trap mode (R359). -/
def State.handlerDue (s : State) (g : Nat) : State :=
  let x := s.grp g
  match (s.gang (s.gangOf g)).pre with
  | .handlers _ =>
    if x.live && !x.retired && !x.halted && !x.ctl.trapMode && x.handler == .none && x.pdone.isNone then
      s.enterHandler g .preempt (s.gang (s.gangOf g)).preemptPc
    else s
  | _ => s

/-- `trapret` (R352): a TPC that is misaligned or not canonical is a trap inside trap mode. -/
def execTrapret (s : State) : Result :=
  asGroup s fun g =>
    if g.ctl.trapMode = false then .next (s.fail (Fail.illegal 4))
    else if g.ctl.tpc.toNat % 4 ≠ 0 then .next (s.fail (Fail.misaligned g.ctl.tpc))
    else if canonical g.ctl.tpc = false then .next (s.fail (Fail.translation 3 g.ctl.tpc))
    else .next ((s.leaveTrap s.cur.grp).handlerDue s.cur.grp)

/-- `pdone` (R360, R363): in a pre-emption handler the group's fibres stop; in a resume handler the captured
control state is restored, and the group stands until that of its gang is. -/
def execPdone (k : Nat) (s : State) : Result :=
  asGroup s fun g =>
    let n := (g.s k).toNat
    match g.handler with
    | .none => .next (s.fail (Fail.illegal 4))
    | .preempt =>
      match s.regFail [.s k] [] 1 with
      | some e => .next (s.fail e)
      | none =>
        if 32 ≤ n then .next (s.fail (Fail.illegal 5))
        else .next ((s.updGrp s.cur.grp fun x => { x with pdone := some n, stopped := true }).finish)
    | .resume =>
      match s.regFail [.s k] [] 1 with
      | some e => .next (s.fail e)
      | none => .next (s.updGrp s.cur.grp fun x =>
          { x with ctl := x.saved.getD x.ctl, saved := none, handler := .none, stopped := true })

/-! ## Invalidation, write-back and reclaim of a context (R344 to R346) -/

/-- A permission bit of the issuing context, checked before everything else (R340, R488). -/
def withPermission (s : State) (ok : Ctx → Bool) (k : Group → Result) : Result :=
  asGroup s fun g => if ok (s.ctx (s.ctxOf s.cur.grp)) then k g else .next (s.fail (Fail.illegal 2))

/-- The entries of a context for an address, or all of its entries with `none`, leave every translation
cache (R344). -/
def State.forget (s : State) (ctx : Nat) (va : Option Nat) : State :=
  let keep (e : TlbEnt) : Bool := match va with
    | none => e.ctx != ctx
    | some a => !e.hits ctx a
  { s with
    itlb := s.itlb.map fun e => (e.1, e.2.filter keep)
    cores := s.cores.map fun e => (e.1, { e.2 with tlb := e.2.tlb.filter keep }) }

/-- A system instruction that waits holds its group; with nothing to wait for it completes at once (R342). -/
def State.holdGroup (s : State) (empty : Bool) (w : SysWait) : State :=
  if empty then s.finish else s.updGrp s.cur.grp fun x => { x with sysWait := some w }

/-- `tlbinv` (R344): it waits for every walk begun before it. -/
def execTlbinv (a : Nat) (all : Bool) (s : State) : Result :=
  withPermission s Ctx.tlbi fun g =>
    match s.regFail (if all then [] else spair a) [] 1 with
    | some e => .next (s.fail e)
    | none =>
      let va := if all then none else some (vaBits (g.sp a))
      let ctx := s.ctxOf s.cur.grp
      let s := { s with walks := s.walks.filter fun k => k.failed.isNone || k.ctx != ctx }
      let walks := s.walks.map (·.id)
      .next ((s.forget ctx va).holdGroup walks.isEmpty (.tlbinv s.cur va walks))

/-- The cores that hold lines of a context, or write-backs of it on their way (R345). -/
def State.coresHolding (s : State) (ctx : Nat) : List Nat :=
  (s.cores.map (·.1)).filter fun c =>
    (s.core c).lines.any (fun l => l.ctx == ctx) ||
    s.flights.any fun f => f.2.core == c && f.2.ctx == ctx

/-- `ctxwb` (R345): a drain of the context on every core that holds its lines. -/
def execCtxwb (s : State) : Result :=
  asGroup s fun _ =>
    let ctx := s.ctxOf s.cur.grp
    let (s, ids) := (s.coresHolding ctx).foldl
      (fun (acc : State × List Nat) c => (acc.1.startDrain c ctx (.ctxwb s.cur.grp), acc.2 ++ [acc.1.fresh])) (s, [])
    .next (s.holdGroup ids.isEmpty (.ctxwb s.cur ids))

/-- The cores and regions that `hzreclaim` settles: delta lines or a share of the context on a core that runs
no gang of it (R346). -/
def State.toReclaim (s : State) (ctx : Nat) : List (Nat × Nat) :=
  (s.cores.map (·.1)).flatMap fun c =>
    if s.runsOn c ctx then []
    else
      (((s.core c).deltas.filter (·.ctx == ctx)).map (·.region) ++
        ((s.core c).shares.filter (·.ctx == ctx)).map (·.region)).dedup.map fun r => (c, r)

/-- A settle sent to a core (R152, R394). -/
def State.sendSettleTo (s : State) (isle unit ctx core region : Nat) : State :=
  s.send { Packet.basic 0x26 vcC 0 isle unit (isleOf core) (unitOfCore core) ctx 0 with aux := [region] }

/-- `hzreclaim` (R346, R360). -/
def execHzreclaim (s : State) : Result :=
  asGroup s fun g =>
    if g.handler ≠ .none then .next (s.fail (Fail.illegal 4))
    else
      let ctx := s.ctxOf s.cur.grp
      let owed := s.toReclaim ctx
      let s := owed.foldl
        (fun (s : State) e => s.sendSettleTo (isleOf g.core) (unitOfCore g.core) ctx e.1 e.2) s
      .next (s.holdGroup owed.isEmpty (.hzreclaim s.cur owed))

/-- Whether what a system instruction of a group waits for has come. -/
def State.sysOver (s : State) (ctx : Nat) : SysWait → Bool
  | .tlbinv _ _ walks => !(s.walks.any fun k => k.failed.isNone && walks.contains k.id)
  | .ctxwb _ drains => !(s.drains.any fun d => drains.contains d.1)
  | .hzreclaim _ owed => owed.all fun e =>
      (s.share? e.1 ctx e.2).isNone && !((s.core e.1).deltas.any fun d => d.ctx == ctx && d.region == e.2)

/-- A system instruction whose wait is over completes: its fibres move on (R342 to R346). -/
def State.endSystem (s : State) (g : Nat) : State :=
  match (s.grp g).sysWait with
  | none => s
  | some w =>
    let ctx := s.ctxOf g
    if s.sysOver ctx w then
      let s := s.updGrp g fun x => { x with sysWait := none }
      let go (s : State) (c : Issue) : State := { { s with cur := c }.finish with cur := Issue.none }
      match w with
      | .tlbinv c va _ => go (s.forget ctx va) c
      | .ctxwb c _ => go s c
      | .hzreclaim c _ => go s c
    else s

/-! ## Debug reads (R366) -/

/-- The kind code of a queued command (R366). -/
def CmdKind.code : CmdKind → Nat
  | .tcopy => 0
  | .tstore => 1
  | .tstoreHz => 2
  | .mloop => 3

/-- The CQ object: an entry of the core's copy queue (R366). -/
def State.debugQueue (s : State) (g i : Nat) : Nat :=
  let x := s.grp g
  match ((s.core x.core).cq[i]?).bind s.cmd? with
  | none => 0
  | some c =>
    if c.blk ≠ x.blk then 1
    else
      3 + c.kind.code * 4 + bit (c.stopped || c.fault.isSome) * 32 + c.tile % 64 * 64 +
      ((s.blk c.blk).tile c.side c.tile).state % 4 * 4096 + s.finished c % 2 ^ 32 * 2 ^ 32

/-- The byte offset of a sequencer's next stream instruction (R366). -/
def Seq.byteOffset (q : Seq) : Nat := if q.done then 4 * q.off else 4 * (q.off + max q.next 1)

/-- The value of an object of R366 for a group; `none` for an index out of range. -/
def State.debugObject (s : State) (g obj i : Nat) : Option Nat :=
  let x := s.grp g
  let b := s.blk x.blk
  match obj with
  | 0 =>
    if 256 ≤ i then none
    else
      let first := b.accFirst (b.side x.core)
      some (if first ≤ i ∧ i < first + b.accRows then bit ((s.core x.core).isBusy i) + 2 else 0)
  | 1 => if 16 ≤ i then none else some (s.debugQueue g i)
  | 2 =>
    if 16 ≤ i then none
    else
      let z := b.bar i
      some (z.expect % 64 + z.arrived % 64 * 64 + z.phase % 16 * 4096 + (x.barArr i).toNat * 2 ^ 32)
  | 3 => if i ≠ 0 then none else some (b.seq.byteOffset % 2 ^ 32 + bit b.seq.waiting * 2 ^ 32)
  | _ => if 32 ≤ i then none else some (if (x.fib i).occ then (x.fib i).pc.toNat else 0)

/-- `dbgrd` (R366): per active lane. -/
def execDbgrd (d a obj : Nat) (s : State) : Result :=
  withPermission s Ctx.dbgr fun g =>
    let g' := s.cur.grp
    match s.regFail [.v a] (vpair d) 1 with
    | some e => .next (s.fail e)
    | none =>
      if (lanesOf s.cur.lanes).any fun i => (s.debugObject g' obj (g.v i a).toNat).isNone then
        .next (s.fail Fail.window)
      else
        laneOp s 1 [.v a] (vpair d) fun g i =>
          putPair d (BitVec.ofNat 64 ((s.debugObject g' obj (g.v i a).toNat).getD 0))

end Sys2Proof.Machine
end

