-- ==== Sys2Proof/Machine/Fetch.lean ====
section
/-!
DEFINITION. Fetching clauses (R162 to R167, R347, R364), the traps that are raised at a clause header or at a
waiting instruction (R267, R292), the moves past a clause whose guard is false (R31), and the landing of
register writes (R176).
-/
namespace Sys2Proof.Machine

/-! ## Clauses -/

/-- NWORDS of a header (R162). -/
def headWords (h : Nat) : Nat := bits h 26 4

/-- CLASS of a header (R162). -/
def headClass (h : Nat) : Nat := bits h 24 2

/-- The counters that a header's WAIT field names, from 1 for sb0 (R162). -/
def headWaits (h : Nat) : List Nat := (List.range 6).filterMap fun k => if (bits h 18 6).testBit k then some (k + 1) else none

/-- Word `i` of a clause, from 1; 0 beyond its words. -/
def Clause.word (c : Clause) (i : Nat) : Nat := c.words.getD (i - 1) 0

/-- Whether a header passes the checks of R164 that need no other word. -/
def headOk (h : Nat) : Bool := bits h 30 2 == 0 && headWords h != 0 && bits h 0 12 == 0

/-- The word indices at which the instructions of a clause stand, from word `i` on (R167); `none` where the
last of them needs an extension word beyond the clause (R164). -/
def instrStarts (cls n : Nat) (words : List Nat) : Nat → Nat → Option (List Nat)
  | 0, _ => some []
  | fuel + 1, i =>
    if n < i then some []
    else
      let len := if needsExt cls (words.getD (i - 1) 0) then 2 else 1
      if n < i + len - 1 then none
      else (instrStarts cls n words fuel (i + len)).map (i :: ·)

/-- The word indices of a clause's instructions. -/
def Clause.starts (c : Clause) : Option (List Nat) :=
  instrStarts (headClass c.head) (headWords c.head) c.words 16 1

/-- The word index of a fibre's next instruction (R163). -/
def Fibre.word (f : Fibre) : Nat := max f.next 1

/-! ## Reading words -/

/-- What fetching words comes to: the words, walks to wait for, a fault at an address, or a line that has to be asked
for. -/
inductive Fetched where
  | words (l : List Nat)
  | miss (va : W64)
  | bad (va : W64) (f : XFault)
  | line (h : Option Home) (pa : Nat)
deriving DecidableEq, Repr

/-- The 32-bit word at a translated address, as it stands at home (notes/assumptions/14); a word with a poison mark faults
as a poisoned entry does. A line that some core holds exclusively (R144), or that has no home (R373), is asked for by a
request whose answer the agent keeps. -/
def State.wordAt (s : State) (a : Agent) (ctx : Nat) (va : W64) (x : Xl) : Fetched :=
  let word (bad : Bool) (v : Nat) : Fetched := if bad then .bad va .poisoned else .words [v]
  match (s.ticket a).lines.find? fun e => e.1 == x.pa / 128 with
  | some (_, d, poison) => word (poison.testBit (x.pa % 128 / 32)) (lineGet d (x.pa % 128) 4)
  | none =>
    match s.homeOfXl ctx x with
    | none => .line none x.pa
    | some h =>
      if s.lineHeld h.loc then .line (some h) x.pa
      else word ((s.poisonAt h.loc).testBit (h.loc % 128 / 32)) (readBytes s.mem h.loc 4)

/-- `n` consecutive words from a virtual address, each translated for fetch (R380). -/
def State.fetchWords (s : State) (a : Agent) (w : Waiter) (core : Option Nat) (isle ctx : Nat) (va : W64) :
    Nat → Fetched
  | 0 => .words []
  | n + 1 =>
    match s.lookup w core isle ctx va .fetch with
    | .miss => .miss va
    | .bad f => .bad va f
    | .ok x =>
      match s.wordAt a ctx va x, State.fetchWords s a w core isle ctx (va + 4) n with
      | .words v, .words l => .words (v ++ l)
      | .words _, r => r
      | r, _ => r

/-- The line that a fetch has to ask for leaves as an RDH of the core (R394), a line request where the address has a home
(R410, R442). -/
def State.askFetch (s : State) (a : Agent) (core ctx : Nat) (h : Option Home) (pa : Nat) : State :=
  let out (s : State) (p : Packet) : State := if h.isSome then s.sendLine core p else s.sendCounted core 0 p
  match s.ask a (pa / 128)
    { linePacket 0x02 vcL 0 (isleOf core) (unitOfCore core) ctx h pa with aux := [0, 0, 0, 0] } out with
  | .wait s => s
  | .got _ _ => s

/-! ## A group's fetch -/

/-- Whether a group may issue or fetch at all: not retired, stopped, halted or held, nor waiting for a line of a clause, and
its core still answers (R454). -/
def State.groupActive (s : State) (g : Nat) : Bool :=
  let x := s.grp g
  x.live && !(s.core x.core).hung && !x.retired && !x.stopped && !x.halted && !x.walkHold && x.sysWait.isNone && !s.asking (.clause g)

/-- The lanes that stand at the lowest header to be fetched. -/
def State.fetchLanes (s : State) (g : Nat) : W32 :=
  if s.groupActive g then
    let x := s.grp g
    let at_ (i : Nat) : Bool := s.laneFree g i && (x.fib i).code.isNone
    match (((List.range 32).filter at_).map fun i => (x.fib i).pc.toNat).min? with
    | none => 0
    | some pc => laneSet fun i => at_ i && (x.fib i).pc.toNat == pc
  else 0

/-- Whether an enabled address breakpoint stops a group at a header (R364). -/
def Ctx.breaks (c : Ctx) (pc : W64) : Bool :=
  c.dbgatt && ((c.bp0en && c.bp0 == pc.toNat / 4) || (c.bp1en && c.bp1 == pc.toNat / 4))

/-- An illegal-clause trap at a header (R164, R347), in the slot of its set's first instruction (R175). -/
def State.illegalClause (s : State) (g : Nat) (lanes : W32) (pc : W64) (port : Nat) (other : W32) : State :=
  (s.takeTrap g lanes 1 0 port other pc 0 (some pc)).markTrapped

/-- A fetch that does not translate (R347, R355), in the slot of its set's first instruction: the trap of every fibre
that reached the header, or a page request. -/
def State.fetchFault (s : State) (g : Nat) (lanes : W32) (pc va : W64) (f : XFault) (port : Nat) (other : W32) :
    State :=
  (if s.recoverable (s.ctxOf g) f then s.demandPage g lanes pc 0 port other va
   else s.takeTrap g lanes 7 f.info port other pc 0 (some va)).markTrapped

/-- The clause captured for the fibres that stand at its header, with the fault that ended its fetch; a fibre that
`trapret` sends to a word goes there (R352). -/
def State.capture (s : State) (g : Nat) (lanes : W32) (c : Clause) (bad : Option (XFault × W64)) : State :=
  ((s.tookLanes g lanes).dropTicket (.clause g)).updGrp g fun y => { (y.updFibs lanes fun _ f =>
    { f with code := some c, bad := bad, pc := c.addr + BitVec.ofNat 64 (4 * f.next) }) with
      skipBp := y.skipBp &&& ~~~lanes }

/-- Whether a clause passes the checks of R164, and a word of it begins an instruction (R352). -/
def Clause.legal (c : Clause) (idx : Nat) : Bool :=
  headOk c.head && (c.starts.elim false fun l => l.contains idx)

/-- The service of a group's lowest header: an address breakpoint halts the group before the header's checks
(R364); then the header and the clause's words are fetched. What is wrong with them is found in the slot of the
clause's first instruction (R175). -/
def State.fetchGroup (s : State) (g : Nat) : State :=
  let x := s.grp g
  let lanes := s.fetchLanes g
  let pc := (x.fib (firstLane lanes)).pc
  let ctx := s.ctxOf g
  if (s.ctx ctx).breaks pc && (lanes &&& ~~~x.skipBp) != 0 then
    (s.updGrp g fun y => { y with skipBp := y.skipBp ||| lanes }).haltGroup g
  else
    match s.fetchWords (.clause g) (.group g (firstLane lanes)) (some x.core) (isleOf x.core) ctx pc 1 with
    | .miss va => s.holdForWalk g [(firstLane lanes, va)]
    | .line h pa => s.askFetch (.clause g) x.core ctx h pa
    | .bad va f => s.capture g lanes ⟨pc, 0, []⟩ (some (f, va))
    | .words l =>
      let h := l.headD 0
      if headOk h = false then s.capture g lanes ⟨pc, h, []⟩ none
      else
        match s.fetchWords (.clause g) (.group g (firstLane lanes)) (some x.core) (isleOf x.core) ctx (pc + 4) (headWords h) with
        | .miss va => s.holdForWalk g [(firstLane lanes, va)]
        | .line h pa => s.askFetch (.clause g) x.core ctx h pa
        | .bad va f => s.capture g lanes ⟨pc, h, []⟩ (some (f, va))
        | .words l => s.capture g lanes ⟨pc, h, l⟩ none

/-- Whether a core can send a request of its fetch (R492). -/
def State.fetchSends (s : State) (core : Nat) : Bool := !s.sendFull (isleOf core) (unitOfCore core) vcL

/-- The first group with a header to fetch. -/
def State.fetchDue (s : State) : Option Nat :=
  (List.range s.groups.length).find? fun g => s.fetchLanes g != 0 && s.fetchSends (s.grp g).core

/-! ## WAIT (R26, R165) -/

/-- Whether a fibre waits for its header's WAIT: the clause is captured, no instruction of it has issued since,
and the counters have not read zero. -/
def Group.waitDone (g : Group) (c : Clause) : Bool := (headWaits c.head).all fun k => g.counter k == 0

/-- The fibres whose header's counters all read zero wait no longer; a later increment does not bring the wait
back (R165). -/
def Group.latchWaits (g : Group) : Group :=
  if g.ctl.fibs.any fun f => !f.waited && f.code.isSome then
    g.updCtl fun c => { c with fibs := c.fibs.map fun f =>
      match f.code with
      | some k => if !f.waited && g.waitDone k then { f with waited := true } else f
      | none => f }
  else g

/-! ## Memory-error traps (R267) -/

/-- The errors that a clause's header meets: those of the counters its WAIT names. -/
def Group.errorsAt (g : Group) (c : Clause) : List (Nat × W64) :=
  g.ctl.memErr.filter fun e => (headWaits c.head).contains (e.1 % 8)

/-- Whether a lane stands at a header whose wait is over and that meets an error. -/
def Group.errorLane (g : Group) (i : Nat) : Bool :=
  match (g.fib i).code with
  | some c => (g.fib i).occ && (g.fib i).next == 0 && (g.fib i).waited && !(g.errorsAt c).isEmpty
  | none => false

/-- The lanes that stand at a header at which they meet an error. -/
def State.errorLanes (s : State) (g : Nat) (pc : W64) : W32 :=
  if s.groupActive g then
    laneSet fun i => s.laneFree g i && (s.grp g).errorLane i && ((s.grp g).fib i).pc == pc
  else 0

/-- MEMORY_ERROR_TRAP (R267): every fibre of the set that reached the header traps, in the slot of the clause's first
instruction (R175); TADDR is the address of the earliest-issued failed instruction, and the errors of the header's
counters are spent. -/
def execMemoryErrorTrap (g lanes : Nat) (s : State) : Result :=
  let set := s.errorLanes g ((s.grp g).fib (firstLane (BitVec.ofNat 32 lanes))).pc
  if set = 0 ∨ set ≠ BitVec.ofNat 32 lanes then .next s
  else
    let x := s.grp g
    match (x.fib (firstLane set)).code with
    | none => .next s
    | some c =>
      let errs := x.errorsAt c
      let first := errs.foldl (fun a e => if e.1 < a.1 then e else a) (errs.headD (0, 0))
      let s := s.updGrp g fun y => y.updCtl fun k =>
        { k with memErr := k.memErr.filter fun e => !(headWaits c.head).contains (e.1 % 8) }
      .next (s.takeTrap g set 9 0 s.cur.port s.cur.other c.addr 0 (some first.2))

/-! ## Time-outs of tile waits (R292) -/

/-- The lanes of the lowest set of a group whose watchdog has run out. -/
def State.timeoutLanes (s : State) (g : Nat) : W32 :=
  let x := s.grp g
  if x.live && !x.halted && !x.stopped then
    let at_ (i : Nat) : Bool := (x.fib i).occ && decide (Config.watchdogClocks ≤ (x.fib i).wdog)
    match (((List.range 32).filter at_).map fun i => (x.fib i).pc.toNat).min? with
    | none => 0
    | some pc => laneSet fun i => at_ i && (x.fib i).pc.toNat == pc
  else 0

/-- TILE_WAIT_TIMEOUT (R292): the trap names the waiting instruction, which has not performed. DESIGN CHOICE: its
record has PORT 0 and TOLANES 0, since no port has issued (notes/assumptions/52). -/
def execTileWaitTimeout (g lanes : Nat) (s : State) : Result :=
  let set := s.timeoutLanes g
  if set = 0 ∨ set ≠ BitVec.ofNat 32 lanes then .next s
  else
    let f := (s.grp g).fib (firstLane set)
    match f.code with
    | none => .next s
    | some c =>
      let s := s.updGrp g fun y => y.updFibs set fun _ f => { f with wdog := 0 }
      .next (s.takeTrap g set 0x0A 0 0 0 c.addr f.word none)

/-- SEQ_TILE_WAIT_TIMEOUT (R297): the sequencer has waited 2^24 clocks for one instruction to issue. -/
def execSeqTileWaitTimeout (b : Nat) (s : State) : Result :=
  let x := s.blk b
  if x.live ∧ x.seq.stopped = false ∧ Config.watchdogClocks ≤ x.seq.wdog then
    .next (s.streamFault b 0x1A (match x.seq.code with
      | some c => c.addr + BitVec.ofNat 64 (4 * max x.seq.next 1)
      | none => 0))
  else .next s

/-! ## Guards (R31, R165) -/

/-- Whether a fibre's guard lets it execute the clause; a fibre past its first instruction has evaluated it. -/
def Fibre.guardTrue (f : Fibre) (c : Clause) : Bool :=
  f.next != 0 || (f.predBit (bits c.head 14 4) != (bits c.head 13 1 == 1))

/-- The lanes of a set move to the header after their clause. -/
def State.skipClause (s : State) (g : Nat) (lanes : W32) : State :=
  s.updGrp g fun x => x.updFibs lanes fun _ f =>
    match f.code with
    | some c => f.atHeader (nextHeader c.addr (headWords c.head))
    | none => f

/-- CLAUSE_SKIP: the fibres of a set whose guard is false move past the clause (R31). -/
def execClauseSkip (g lanes : Nat) (s : State) : Result :=
  let x := s.grp g
  let set := laneSet fun i => (BitVec.ofNat 32 lanes).getLsbD i && match (x.fib i).code with
    | some c => (x.fib i).occ && !(x.fib i).guardTrue c
    | none => false
  .next (if set = 0 then s else s.skipClause g set)

/-! ## Writes on their way (R176) -/

/-- Whether a group has writes that land now. -/
def State.landsNow (s : State) (g : Nat) : Bool :=
  (s.grp g).live && (s.grp g).pend.any fun p => decide (p.due ≤ s.clockOf g)

/-- PENDING_WRITE_LANDS: a group's writes whose clock has come land, in order (R176). -/
def execPendingWriteLands (g : Nat) (s : State) : Result :=
  .next (if s.landsNow g then s.updGrp g fun x => x.landDue (s.clockOf g) else s)

/-! ## The sequencer's fetch (R295, R355) -/

/-- The stream address of a word of a block's stream. -/
def State.streamAt (s : State) (b off : Nat) : W64 :=
  BitVec.ofNat 64 ((s.gang (s.blk b).gang).field 768 64) + BitVec.ofNat 64 (4 * off)

/-- The words of a block's stream (R413). -/
def State.streamLen (s : State) (b : Nat) : Nat := (s.gang (s.blk b).gang).field 832 16

/-- Whether a page request of a block's sequencer is outstanding. -/
def State.seqPage (s : State) (b : Nat) : Bool :=
  s.pageReqs.any fun r => r.lanes == 0 && r.grp == (s.blk b).groups.headD 0

/-- Whether a sequencer waits for a walk. -/
def State.seqWalking (s : State) (b : Nat) : Bool :=
  s.walkFor (· == .stream b)

/-- Whether a block's sequencer may fetch or issue (R69, R295, R358). -/
def State.seqActive (s : State) (b : Nat) : Bool :=
  let x := s.blk b
  x.live && !(s.core x.core).hung && x.seq.active && !x.seq.done && !x.seq.stopped && !x.allocOpen && !s.seqPage b && !s.seqWalking b &&
  !s.asking (.stream b)

/-- A stream fetch that does not translate: a stream fault, or a page request without fibres (R297, R355). -/
def State.streamFetchFault (s : State) (b : Nat) (pc va : W64) (f : XFault) : State :=
  let s := s.tookWalks (.stream b)
  let x := s.blk b
  let ctx := (s.gang x.gang).ctx
  if s.recoverable ctx f then
    if s.hasRing ctx then
      (s.askPage ctx (x.groups.headD 0) 0 pc 0 0 (s.pageReport x.gang x.core x.num 255 0 pc va)).1
    else (s.dropReport ctx).streamFault b f.code pc
  else s.streamFault b f.code pc

/-- Whether a stream header meets the conditions of R295: class engine, no wait, guard or hint. -/
def streamHeadOk (h : Nat) : Bool :=
  headOk h && headClass h == 2 && bits h 18 6 == 0 && bits h 14 4 == 15 && bits h 12 2 == 0

/-- The sequencer fetches its next clause, or has come to the end of its stream (R295). -/
def State.fetchStream (s : State) (b : Nat) : State :=
  let q := (s.blk b).seq
  let setSeq (s : State) (f : Seq → Seq) : State := s.updBlk b fun x => { x with seq := f x.seq }
  let n := s.streamLen b
  if n ≤ q.off then setSeq s fun q => { q with done := true }
  else
    let x := s.blk b
    let ctx := (s.gang x.gang).ctx
    let pc := s.streamAt b q.off
    match s.fetchWords (.stream b) (.stream b) (some x.core) (isleOf x.core) ctx pc 1 with
    | .line h pa => s.askFetch (.stream b) x.core ctx h pa
    | .miss va => s.startWalk (.stream b) (isleOf x.core) ctx va
    | .bad va f => s.streamFetchFault b pc va f
    | .words l =>
      let h := l.headD 0
      if streamHeadOk h = false ∨ n < q.off + headWords h + 1 then (s.tookWalks (.stream b)).streamFault b 0x17 pc
      else
        match s.fetchWords (.stream b) (.stream b) (some x.core) (isleOf x.core) ctx (pc + 4) (headWords h) with
        | .line h pa => s.askFetch (.stream b) x.core ctx h pa
        | .miss va => s.startWalk (.stream b) (isleOf x.core) ctx va
        | .bad va f => s.streamFetchFault b pc va f
        | .words l =>
          let s := (s.tookWalks (.stream b)).dropTicket (.stream b)
          let c : Clause := ⟨pc, h, l⟩
          if c.starts.isNone then s.streamFault b 0x17 pc
          else setSeq s fun q => { q with code := some c, next := 0 }

/-- The clock of a block's lower core. -/
def State.blockClock (s : State) (b : Nat) : Nat := (s.cluster (clusterOf (s.blk b).core)).clock

/-- The first block whose sequencer has a clause to fetch. -/
def State.streamDue (s : State) : Option Nat :=
  (List.range s.blocks.length).find? fun b =>
    s.seqActive b && s.fetchSends (s.blk b).core && (s.blk b).seq.code.isNone && decide ((s.blk b).seq.readyAt ≤ s.blockClock b)

end Sys2Proof.Machine
end

