-- ==== Sys2Proof/Machine/Issue.lean ====
section
/-!
DEFINITION. Choosing what a group or a sequencer issues (R26 to R40, R67, R175, R231, R296) and running an issue
slot with one or two instructions (R31, R348 to R350).
-/
namespace Sys2Proof

/-! ## What an instruction needs -/

/-- The units of R29. -/
inductive IssueUnit where
  | uniform
  | sfu
  | memory
  | engine
  | system
  | masks
deriving DecidableEq, Repr

/-- The units an instruction of a clause class needs (R29). -/
def Instr.units (cls : Nat) : Instr → List IssueUnit
  | .sadd .. | .ssub .. | .smul .. | .sand .. | .sor .. | .sxor .. | .sshl .. | .sshr .. | .smov .. | .smovi ..
  | .ssetp .. | .slane .. => [.uniform]
  | .sread _ k _ => if k = 1 ∨ k = 3 then [.uniform] else []
  | .lds .. | .ldsExt .. => [.uniform, .memory]
  | .mget .. => [.uniform, .masks]
  | .srdp .. => [.uniform, .system]
  | .frcp .. | .frsq .. | .fsqrt .. | .fdiv .. | .fexp2 .. | .flog2 .. | .fsinpi .. | .fcospi .. | .ddiv .. => [.sfu]
  | .mjoin .. | .mleave .. | .mwait .. | .mset .. | .vote .. | .matchl .. | .shfl .. | .redmin .. | .redmax ..
  | .redadd .. | .fredadd .. | .scan .. | .redlog .. | .cvtpk .. => [.masks]
  | _ => if cls = 1 then [.memory] else if cls = 2 then [.engine] else if cls = 3 then [.system] else []

/-- The counter an instruction names, from 1 for sb0; 0 where it names none (R174). -/
def Instr.counter : Instr → Nat
  | .ld _ _ sb _ | .ldExt _ _ sb _ _ | .st _ _ sb _ | .stExt _ _ sb _ _ | .lds _ _ sb _ | .ldsExt _ _ sb _ _
  | .ldl _ _ sb _ | .ldlExt _ _ sb _ _ | .stl _ _ sb _ | .stlExt _ _ sb _ _ | .ldt _ _ sb _ | .hzadd _ _ sb
  | .hzaddExt _ _ sb _ | .hzsettle _ _ sb | .pref _ sb | .prefExt _ sb _ | .wback _ sb _ | .wbackExt _ sb _
  | .fence sb _ _ | .atom _ _ sb _ _ | .atomv _ _ _ sb _ _ | .redm _ _ sb _ _ | .bar _ sb | .barArv _ sb
  | .barExp _ _ sb | .gbar _ sb | .mzero _ _ sb | .maccOut _ _ sb _ _ _ | .maccIn _ _ sb _ _ _ _
  | .talloc _ _ _ sb | .tfree _ sb | .tcopy _ _ _ _ _ _ sb _ _ _ _ | .tchain _ _ _ _ sb
  | .tstore _ _ _ _ _ _ sb _ _ _ _ | .tstoreHz _ _ _ _ _ sb _ _ _ _ | .tfill _ _ _ sb | .accrd _ _ sb
  | .accwr _ _ sb | .txinit _ _ sb | .txexp _ _ sb | .txarv _ _ _ _ sb | .txtest _ _ _ sb | .tstate _ _ sb => sb
  | _ => 0

/-- The instructions that may stand only at the end of a compute clause (R166). -/
def Instr.endsClause : Instr → Bool
  | .bra .. | .braLong .. | .bany .. | .banyLong .. | .ball .. | .ballLong .. | .bnone .. | .bnoneLong ..
  | .bdiv .. | .bdivLong .. | .jmp .. | .call .. | .calli .. | .ret .. | .exit .. => true
  | _ => false

/-- Whether an instruction ends the allocation phase when group 0 issues it (R69). -/
def Instr.endsAllocation (cls : Nat) : Instr → Bool
  | .awset _ _ _ last => last
  | .exit _ => true
  | _ => cls == 1 || cls == 2

end Sys2Proof

namespace Sys2Proof.Machine

/-- The engine instructions that only a stream issues (R294). -/
def streamOnly : Instr → Bool
  | .mma .. | .mmas .. | .mloop .. | .seqbar .. | .seqbarArv .. | .seqbarWait .. => true
  | _ => false

/-- The engine instructions that only a group issues (R294). -/
def groupOnly : Instr → Bool
  | .talloc .. | .tfree .. | .tchain .. | .accrd .. | .accwr .. | .awset .. | .txinit .. | .txwait .. | .txtest ..
  | .twait .. | .tstate .. => true
  | _ => false

/-- Whether an engine instruction stands in a mode that its check refuses, so that it waits for nothing (R294, R299,
R302). -/
def State.modeBad (s : State) : Instr → Bool
  | .mma _ _ _ _ _ _ _ _ pr => pr && !s.engBlock.pair
  | .mmas _ _ _ _ _ _ _ _ pr => pr && !s.engBlock.pair
  | .maccOut _ _ _ _ hi _ => s.hiBad hi
  | .maccIn _ _ _ _ _ hi _ => s.hiBad hi
  | .tcopy _ _ _ _ _ _ _ _ _ _ hi => s.hiBad hi
  | .tstore _ _ _ _ _ _ _ _ _ _ hi => s.hiBad hi
  | .tstoreHz _ _ _ _ _ _ hi _ _ _ => s.hiBad hi
  | .tfill _ _ hi _ => s.hiBad hi
  | _ => false

/-- Whether the tiles, rows, queues and FIFOs that an engine instruction needs let it issue (R71, R296, R311, R316, R318,
R319). -/
def State.unitsReady (s : State) : Instr → Bool
  | .mma ta tb _ _ _ _ _ _ pr => s.mmaReady ta tb pr
  | .mmas ta tb _ _ _ _ _ _ pr => s.mmaReady ta tb pr
  | .maccOut t r _ _ hi _ => s.maccOutReady t r hi
  | .maccIn t r _ _ _ hi _ => s.maccInReady t r hi
  | .mloop ta tb _ => s.mloopReady ta tb
  | .tfree t _ => s.tfreeReady t
  | .tcopy t _ _ _ _ _ _ _ _ _ hi => s.tcopyReady t hi
  | .tchain _ ch _ _ _ => s.tchainReady ch
  | .tstore t _ _ _ _ _ _ _ _ _ hi => s.tstoreReady t hi
  | .tstoreHz _ _ _ _ _ _ hi r rows1 _ => s.tstoreHzReady hi r (rows1 + 1)
  | .tfill t _ hi _ => s.destReady (s.engSide hi) t
  | .seqbarWait k => let z := (s.blk s.cur.blk).bar k; z.past z.pk
  | .accrd _ a _ => s.accReady a
  | .accwr _ a _ => s.accReady a
  | _ => true

/-- Whether the state lets an engine instruction issue (R71, R294, R296). -/
def State.engReady (s : State) (i : Instr) : Bool := s.modeBad i || s.unitsReady i

/-- Whether the tiles that an engine instruction names let it issue (R71). -/
def State.tilesReady (s : State) : Instr → Bool
  | .maccOut t _ _ _ hi _ => s.destReady (s.engSide hi) t
  | .maccIn t _ _ _ _ hi _ => s.operandReady (s.engSide hi) t
  | .tfree t _ => s.tfreeReady t
  | .tcopy t _ _ _ _ _ _ _ _ _ hi => s.destReady (s.engSide hi) t
  | .tstore t _ _ _ _ _ _ _ _ _ hi => s.operandReady (s.engSide hi) t
  | .tfill t _ hi _ => s.destReady (s.engSide hi) t
  | _ => true

/-- Whether an operation of lanes of a group holds the engine-class accesses that come after it in issue order, as an
access with number `id` does (R277, R287). -/
def State.fencing (s : State) (id g : Nat) (lanes : W32) : Bool :=
  s.ops.any fun o => decide (o.id < id) && o.grp == g && (o.lanes &&& lanes) != 0 && o.holdsLater

/-- The accumulator rows that a group's instruction accesses (R118, R119). -/
def State.accessRows (s : State) : Instr → List Nat
  | .accrd _ a _ => s.namedRows a
  | .accwr _ a _ => s.namedRows a
  | .mzero r n _ => (List.range (n + 1)).map (r + ·)
  | .maccOut t r _ _ _ _ => (List.range (s.engBlock.tile (s.engSide false) t).rowCount).map (r + ·)
  | .maccIn t r _ _ _ _ _ => (List.range (s.engBlock.tile (s.engSide false) t).rowCount).map (r + ·)
  | .tstoreHz _ _ _ _ _ _ _ r n _ => (List.range (n + 1)).map (r + ·)
  | _ => []

/-- The state in which a held access takes effect: the issue context, the control state and the registers are those it
issued with. -/
def HeldEng.within (h : HeldEng) (s : State) : State :=
  { s with cur := h.issue }.updGrp h.issue.grp fun x => { x with ctl := h.ctl, regs := h.regs, sregs := h.sregs }

/-- Whether an access with number `id` by lanes of a group waits in the memory pipeline: for a fence or acquire of its fibres
(R277), for a scratchpad access of them where it accesses a barrier (`tx`, R112), or for a held access of its fibres, or one
of the group to rows that it accesses too (R119). -/
def State.accessHeld (s : State) (id g : Nat) (lanes : W32) (tx : Bool) (rows : List Nat) : Bool :=
  s.fencing id g lanes ||
  (tx && s.ops.any fun o => decide (o.id < id) && o.grp == g && (o.lanes &&& lanes) != 0 && o.kind.isLocal &&
    !o.performed) ||
  s.heldEng.any fun h => decide (h.id < id) && (h.meets g lanes || (h.issue.grp == g && !rows.isEmpty &&
    ((h.within s).accessRows h.instr).any rows.contains))

/-- Whether an engine instruction makes its fibres wait by what it reads (R290, R291): behind a fence the fibres wait
at the instruction. -/
def waitsInPlace : Instr → Bool
  | .txwait .. | .twait .. => true
  | _ => false

/-- Whether the memory pipeline may hold what an instruction of a class does (R277); `awset`, `talloc` and `tfree` access
nothing and act as they issue (notes/assumptions/64). -/
def heldBehind (cls : Nat) (i : Instr) : Bool :=
  cls == 2 && !streamOnly i && !waitsInPlace i && match i with
    | .awset .. | .talloc .. | .tfree .. => false
    | _ => true

/-- Whether an instruction hands work to the array or to the copy queue, which takes its place there as it issues (R116 to
R118, R311). -/
def queuesWork : Instr → Bool
  | .mzero .. | .maccOut .. | .maccIn .. | .tcopy .. | .tstore .. | .tstoreHz .. | .tfill .. => true
  | _ => false

/-- An instruction without `.ir`, and whether it has it (R141). -/
def splitIr : Instr → Instr × Bool
  | .tcopy t d a r sc ir sb rnd sl cv hi => (.tcopy t d a r sc false sb rnd sl cv hi, ir)
  | .tstore t d a r sc ir sb rnd sl cv hi => (.tstore t d a r sc false sb rnd sl cv hi, ir)
  | .tstoreHz d a r sc ir sb hi row n c => (.tstoreHz d a r sc false sb hi row n c, ir)
  | i => (i, false)

/-! ## Reading an instruction -/

/-- What issuing does for a fibre set: the trap of a fault met in the fetch, of an illegal clause or of a memory error
met at the header (R164, R267, R347), nothing but the move past the clause, the trap of a refused word, or an
instruction. -/
inductive Act where
  | fetch (f : XFault) (va : W64)
  | illegal
  | error
  | skip
  | bad
  | run (i : Instr)
deriving DecidableEq, Repr

/-- Whether what issuing does comes before the guard is evaluated (R164, R349). -/
def Act.atHeader : Act → Bool
  | .fetch .. | .illegal | .error => true
  | _ => false

/-- The instruction at a word of a clause, with its length (R166 to R169); `none` where it is refused when it is
decoded. -/
def Clause.instr (c : Clause) (idx : Nat) : Option Instr × Nat :=
  let w := c.word idx
  let cls := headClass c.head
  let len := if needsExt cls w then 2 else 1
  if 2 ≤ bits w 30 2 then (none, len)
  else
    match accepted (decodeInstr cls w (if len = 2 then c.word (idx + 1) else 0)) with
    | some i => (if i.endsClause && idx + len ≤ headWords c.head then none else some i, len)
    | none => (none, len)

/-- The stall value of an instruction word (R168). -/
def stallOf (w : Nat) : Nat := if bits w 30 2 = 1 then 4 * bits w 27 3 else bits w 27 3

/-- A fibre set at its next instruction (R27): the lanes, those whose guard is true, its clause, the word, its
length, what issuing does, and the age. -/
structure Cand where
  lanes : W32
  active : W32
  pc : Nat
  clause : Clause
  idx : Nat
  len : Nat
  act : Act
  age : Nat
deriving DecidableEq, Repr

/-- What a fibre at a word of a clause does when it issues, with `any` for whether some fibre of its set has a true
guard. -/
def Group.actOf (g : Group) (f : Fibre) (c : Clause) (any : Bool) : Act :=
  match f.bad with
  | some (x, va) => .fetch x va
  | none =>
    if c.legal f.word = false then .illegal
    else if f.next = 0 ∧ (g.errorsAt c).isEmpty = false then .error
    else if any = false then .skip
    else match (c.instr f.word).1 with
      | some i => .run i
      | none => .bad

/-- Whether two fibres stand at the same word of the same clause, which both have reached in the same way: where one has
come to the address as a header and the other is in mid-clause there, they issue apart (R27, R163; DESIGN CHOICE,
notes/assumptions/65). -/
def Fibre.samePoint (a b : Fibre) : Bool := a.pc == b.pc && a.next == b.next && a.code == b.code && a.bad == b.bad

/-- The fibre set of the given lanes, whose fibres stand at one point. -/
def Group.cand (g : Group) (lanes : W32) : Option Cand :=
  let f := g.fib (firstLane lanes)
  f.code.map fun c =>
    let active := laneSet fun i => lanes.getLsbD i && (g.fib i).guardTrue c
    let age := (lanesOf lanes).foldl (fun a i => max a (g.fib i).age) 0
    let act := g.actOf f c (active != 0)
    ⟨lanes, if act.atHeader then lanes else active, f.pc.toNat, c, f.word, (c.instr f.word).2, act, age⟩

/-- The issue context of a fibre set on a port (notes/assumptions/3). -/
def State.issueOf (s : State) (g : Nat) (c : Cand) (port : Nat) (other : W32) : Issue :=
  let x := s.grp g
  let diverged := (lanesOf x.occupied).any fun i => (x.fib i).pc.toNat != c.pc
  ⟨.group, g, x.blk, port, c.active, c.lanes, c.clause.addr, c.idx, c.len, headWords c.clause.head, other, x.occupied,
    diverged, false⟩

/-- The state in which a set's instruction would run. -/
def State.at_ (s : State) (g : Nat) (c : Cand) : State := { s with cur := s.issueOf g c 0 0 }

/-- Whether a set's instruction waits for a tile, a queue or a fence (R26); one that a group may not issue traps
instead (R294). -/
def State.candHeld (s : State) (g : Nat) (c : Cand) : Bool :=
  match c.act with
  | .run i => headClass c.clause.head == 2 && !streamOnly i &&
    (!(s.at_ g c).engReady i || (waitsInPlace i && s.accessHeld s.fresh g c.active (accessesBarrier i) []))
  | _ => false

/-- Whether a set's instruction waits to issue under R71. -/
def State.candWaits (s : State) (g : Nat) (c : Cand) : Bool :=
  match c.act with
  | .run i => headClass c.clause.head == 2 && !streamOnly i && !(s.at_ g c).modeBad i && !(s.at_ g c).tilesReady i
  | _ => false

/-- The lanes whose fibre stands at a captured clause with its wait over, unheld (R26). -/
def State.readyLanes (s : State) (g : Nat) : W32 :=
  laneSet fun i => s.laneFree g i && ((s.grp g).fib i).code.isSome && ((s.grp g).fib i).waited

/-- The lanes of a set at the point of lane `i`. -/
def Group.atPoint (g : Group) (lanes : W32) (i : Nat) : W32 :=
  laneSet fun j => lanes.getLsbD j && (g.fib j).samePoint (g.fib i)

/-- The fibre sets of a set of lanes, in ascending PC (R27). -/
def Group.sets (g : Group) (lanes : W32) : List Cand :=
  let firsts := (lanesOf lanes).filter fun i => firstLane (g.atPoint lanes i) == i
  (sortBy (fun i j => decide ((g.fib i).pc.toNat < (g.fib j).pc.toNat)) firsts).filterMap fun i =>
    g.cand (g.atPoint lanes i)

/-- The runnable sets of a group (R26, R27): a set held at its instruction keeps only the fibres whose guard is
false, which merely move on. -/
def State.runnable (s : State) (g : Nat) : List Cand :=
  if s.groupActive g then
    ((s.grp g).sets (s.readyLanes g)).filterMap fun c =>
      if s.candHeld g c then
        let rest := c.lanes &&& ~~~c.active
        if rest = 0 then none else (s.grp g).cand rest
      else some c
  else []

/-! ## Choosing the ports (R28 to R36, R231) -/

/-- The sets that may be chosen: no yielding fibre while some runnable fibre does not yield (R231). -/
def Group.choosable (g : Group) (l : List Cand) : List Cand :=
  let all := l.foldl (fun a c => a ||| c.lanes) (0 : W32)
  let yields := laneSet fun i => all.getLsbD i && (g.fib i).yielding
  if yields = 0 ∨ yields = all then l
  else g.sets (all &&& ~~~yields)

/-- Whether a set's instruction would take its counter above 63 (R67). -/
def Group.counterFull (g : Group) (c : Cand) (more : Nat) : Bool :=
  match c.act with
  | .run i => i.counter != 0 && decide (63 < g.counter i.counter + 1 + more)
  | _ => false

/-- The units a set's instruction needs. -/
def Cand.units (c : Cand) : List IssueUnit :=
  match c.act with
  | .run i => i.units (headClass c.clause.head)
  | _ => []

/-- Whether two sets need one unit (R29). -/
def Cand.clashes (a b : Cand) : Bool := a.units.any fun u => b.units.contains u

/-- Whether a set stands at a header with YLD set (R34). -/
def Cand.yld (c : Cand) : Bool := bits c.clause.head 12 1 == 1 && c.pc == c.clause.addr.toNat

/-- The ports' sets (R36): `l` are the choosable sets in ascending PC. -/
def assignPorts : List Cand → Option (Cand × Option Cand)
  | [] => none
  | low :: cands =>
    let aged := cands.filter fun c => decide (64 ≤ c.age)
    match aged with
    | [] =>
      let b := (cands.filter fun c => !c.yld).head?
      some (low, b.bind fun c => if c.clashes low then none else some c)
    | a :: t =>
      let x := t.foldl (fun best c => if best.age < c.age then c else best) a
      if x.clashes low then some (x, none) else some (low, some x)

/-- The counter that port A's instruction adds to, as far as it is port B's too (R67). -/
def sameCounter (a b : Cand) : Nat :=
  match a.act, b.act with
  | .run i, .run j => if i.counter = j.counter then 1 else 0
  | _, _ => 0

/-- What a group issues in a slot: nothing while its interval runs or port A's counter is full; port B issues
nothing where its counter is full (R30, R67). -/
def State.slotOf (s : State) (g : Nat) : Option (Cand × Option Cand) :=
  let x := s.grp g
  if x.live && decide (x.readyAt ≤ s.clockOf g) then
    match assignPorts (x.choosable (s.runnable g)) with
    | none => none
    | some (a, b) =>
      if x.counterFull a 0 then none
      else some (a, b.bind fun c => if x.counterFull c (sameCounter a c) then none else some c)
  else none

/-! ## Choosing a group (R40) -/

/-- The groups of a scheduler of a core. -/
def State.schedGroups (s : State) (core sched : Nat) : List Nat :=
  (List.range s.groups.length).filter fun g =>
    (s.grp g).live && !(s.grp g).retired && (s.grp g).core == core && (s.grp g).sched == sched

/-- The distance of a group's position from the scheduler's pointer. -/
def State.fromPointer (s : State) (core sched g : Nat) : Nat :=
  ((s.grp g).pos + 16 - look 0 (s.core core).ptr sched) % 16

/-- The ready groups of a scheduler. -/
def State.readyGroups (s : State) (core sched : Nat) : List Nat :=
  (s.schedGroups core sched).filter fun g => (s.slotOf g).isSome

/-- Whether a scheduler has selected in this clock. -/
def State.schedDone (s : State) (core sched : Nat) : Bool :=
  look 0 (s.core core).ptr (4 + sched) == (s.cluster (clusterOf core)).clock + 1

/-- The group a scheduler selects: the largest group age, ties by position from the pointer (R40). -/
def State.selected (s : State) (core sched : Nat) : Option Nat :=
  match s.readyGroups core sched with
  | [] => none
  | g :: t => some (t.foldl
      (fun b h =>
        if (s.grp b).gage < (s.grp h).gage ∨
          ((s.grp b).gage = (s.grp h).gage ∧ s.fromPointer core sched h < s.fromPointer core sched b)
        then h else b) g)

/-- Whether a set's instruction writes the accumulator. -/
def Cand.accWrites (c : Cand) : Bool :=
  match c.act with
  | .run (.accwr ..) => true
  | _ => false

/-- Whether a group's slot writes the accumulator. -/
def State.accSlot (s : State) (g : Nat) : Bool :=
  match s.slotOf g with
  | some (a, b) => a.accWrites || b.elim false Cand.accWrites
  | none => false

/-- Whether a write of a core's accumulator by a scheduler still comes in its turn: no higher scheduler has written in this
clock (R119). -/
def State.accTurn (s : State) (core sched : Nat) : Bool :=
  let last := look 0 (s.core core).ptr 8
  last / 4 != (s.cluster (clusterOf core)).clock + 1 || decide (last % 4 ≤ sched)

/-- The last accumulator write of a core: the clock, counted from 1, and the scheduler (R119). -/
def State.stampAcc (s : State) (g : Nat) : State :=
  let x := s.grp g
  s.updCore x.core fun c => { c with ptr := place c.ptr 8 ((s.clockOf g + 1) * 4 + x.sched) }

/-- The groups that their schedulers select now, one per scheduler that has not selected in this clock (R40). -/
def State.slotsChosen (s : State) : List Nat :=
  let scheds := ((s.groups.filter fun g => g.live && !g.retired).map fun g => (g.core, g.sched)).dedup
  scheds.filterMap fun c => if s.schedDone c.1 c.2 then none else s.selected c.1 c.2

/-- The groups that may issue now; slots that write a core's accumulator come in ascending scheduler number (R119). -/
def State.slotsDue (s : State) : List Nat :=
  let gs := s.slotsChosen
  let writers := gs.filter s.accSlot
  gs.filter fun g => !writers.contains g || (s.accTurn (s.grp g).core (s.grp g).sched && writers.all fun h =>
    (s.grp h).core != (s.grp g).core || decide ((s.grp g).sched ≤ (s.grp h).sched))

/-! ## Running a slot -/

/-- Whether the guard of a set's clause reads a predicate that is still on its way (R177). -/
def State.guardStall (s : State) (g : Nat) (c : Cand) : Bool :=
  let p := bits c.clause.head 14 4
  c.pc == c.clause.addr.toNat && p != 15 && s.shortStall g c.lanes [.p p] [] 1

/-- The work that an instruction has handed over since number `n` is held in the pipeline behind its lanes' fences (R277);
with `.ir` the drain comes with its release (R141). -/
def State.holdNew (s : State) (n : Nat) (lanes : W32) (ir : Bool) (core : Nat) : State :=
  let cmd (c : Cmd) : Cmd :=
    if n ≤ c.id then { c with behind := lanes, stage := if ir then .draining else c.stage } else c
  let mat (m : MatOp) : MatOp :=
    if n ≤ m.id then { m with behind := lanes, endAt := none } else m
  { s with cmds := s.cmds.map cmd }.updCore core fun c => { c with mq := c.mq.map mat }

/-- An engine-class instruction that the pipeline holds: it issues, with its checks, its fibres move on and its counter
increases (R277). What it hands to the array and the copy queue takes its place there, with its tiles and rows, but does not
run yet (R116 to R118); any other access takes effect when nothing holds it any more. -/
def State.holdAccess (s : State) (ex : Instr → State → Result) (i : Instr) : Result :=
  let g := s.cur.grp
  match ex (splitIr i).1 s with
  | .next t =>
    if t.cur.trapped || (t.grp g).walkHold then .next t
    else if queuesWork i then .next (t.holdNew s.fresh s.cur.lanes (splitIr i).2 (s.grp g).core)
    else
      let x := s.grp g
      let held : HeldEng := ⟨s.fresh, i, s.cur, x.ctl, x.regs, x.sregs⟩
      .next ({ s.took with heldEng := s.heldEng ++ [held] }.updGrp g fun y => { y with ctl := (t.grp g).ctl })
  | r => r

/-- Whether the pipeline holds an instruction that the lanes of the issue context are about to issue. -/
def State.mustHold (s : State) (cls : Nat) (i : Instr) : Bool :=
  heldBehind cls i && s.accessHeld s.fresh s.cur.grp s.cur.lanes (accessesBarrier i) (s.accessRows i)

/-- One port's instruction performed in a state and an issue context: the trap of what its set meets at the header,
the move past the clause, the trap of a refused word, or `ex`. DESIGN CHOICE: where the guard's predicate is on its way
(R177), the trap set is the lanes whose guard is true by the value the predicate still has, and the whole set where
there is none (notes/assumptions/54). -/
def State.perform (s : State) (ex : Instr → State → Result) (c : Cand) (k : Issue) : Result :=
  let g := k.grp
  let stalls := s.guardStall g c
  let s := { s with cur := k }
  match c.act with
  | .fetch f va => .next (s.fetchFault g c.lanes c.clause.addr va f k.port k.other)
  | .illegal => .next (s.illegalClause g c.lanes c.clause.addr k.port k.other)
  | .error =>
    match ex (.memoryErrorTrap g c.lanes.toNat) s with
    | .next t => .next t.markTrapped
    | r => r
  | .skip =>
    if stalls then .next ({ s with cur := { k with lanes := c.lanes } }.fail Fail.stallShort)
    else .next (s.skipClause g c.lanes)
  | .bad => .next (s.fail (Fail.illegal 1))
  | .run i =>
    if stalls then .next (s.fail Fail.stallShort)
    else if s.mustHold (headClass c.clause.head) i then s.holdAccess ex i
    else ex i s

/-- Whether nothing holds an access any more: no fence, no earlier access that it follows, and its tiles and queue let it go
on (R71, R112, R119, R277). -/
def State.heldReady (s : State) (h : HeldEng) : Bool :=
  !s.accessHeld h.id h.issue.grp h.issue.lanes (accessesBarrier h.instr) ((h.within s).accessRows h.instr) &&
  (h.within s).engReady h.instr

/-- Whether an instruction writes the accumulator. -/
def writesAcc : Instr → Bool
  | .accwr .. => true
  | _ => false

/-- Whether a held access comes in its turn: the writes of a core's accumulator in one clock, those of slots among them, come
in ascending scheduler number (R119). -/
def State.heldTurn (s : State) (h : HeldEng) : Bool :=
  let x := s.grp h.issue.grp
  !writesAcc h.instr ||
  (s.accTurn x.core x.sched &&
    (s.heldEng.all fun e => !writesAcc e.instr || !s.heldReady e || (s.grp e.issue.grp).core != x.core ||
      decide (x.sched ≤ (s.grp e.issue.grp).sched)) &&
    (s.slotsDue.all fun g => !s.accSlot g || (s.grp g).core != x.core || decide (x.sched ≤ (s.grp g).sched)))

/-- The first held access that nothing holds any more, in its turn. -/
def State.heldFree (s : State) : Option HeldEng := s.heldEng.find? fun h => s.heldReady h && s.heldTurn h

/-- A held access takes effect; its fibres, its counter and the registers have gone on since it issued. One that a check
refuses now has no effect, and its counter decreases (R67). -/
def State.runHeld (s : State) (ex : Instr → State → Result) (h : HeldEng) : Result :=
  let g := h.issue.grp
  let x := s.grp g
  let s := { s with heldEng := s.heldEng.erase h }
  match ex h.instr (h.within s) with
  | .next t =>
    let t := if t.cur.trapped then s.oweDecrement g h.instr.counter else t
    let t := if writesAcc h.instr then t.stampAcc g else t
    .next (t.updGrp g fun y => { y with ctl := x.ctl, regs := x.regs, sregs := x.sregs })
  | r => r

/-- The rows of an array operation. -/
def MatOp.rowList (m : MatOp) : List Nat := (List.range m.rows).map (m.row + ·)

/-- A held command goes on: it becomes visible to its engine, or its core first drains the issuer's context (R141). -/
def State.releaseCmd (s : State) (c : Cmd) : State :=
  let rows := if c.kind = .tstoreHz then (List.range c.rows).map (c.row + ·) else []
  if c.behind = 0 ∨ s.accessHeld c.id (c.grp.getD 0) c.behind false rows = true then s
  else
    let s := s.updCmd c.id fun c => { c with behind := 0 }
    if c.stage = .draining then s.startDrain ((s.blk c.blk).coreAt c.side) (s.gang (s.blk c.blk).gang).ctx (.cmd c.id) else s

/-- A held array operation goes on, behind those that have not been held; a fill occupies its banks from now on (R489). -/
def State.releaseMat (s : State) (core : Nat) (m : MatOp) : State :=
  if m.behind = 0 ∨ s.accessHeld m.id (m.grp.getD 0) m.behind false m.rowList = true then s
  else
    let start := s.fillsEnd m.blk m.side (s.cluster (clusterOf core)).clock
    let m' := { m with behind := 0, endAt := if m.kind.onArray then none else some (start + m.clocks) }
    s.updCore core fun c => { c with mq := c.mq.filter (fun x => x.id != m.id) ++ [m'] }

/-- The held commands and array operations that nothing holds any more go on (R277). -/
def State.releaseHeld (s : State) : State :=
  let s := (s.cmds.filter fun c => c.behind != 0).foldl State.releaseCmd s
  (s.cores.filter fun e => e.2.mq.any fun m => m.behind != 0).foldl
    (fun (s : State) e => e.2.mq.foldl (fun (s : State) m => s.releaseMat e.1 m) s) s

/-- Whether a performed instruction left its group waiting for a walk. -/
def State.waitsForWalk (s : State) (g : Nat) : Bool := (s.grp g).walkHold

/-- A context's checking scoreboard switched off, for the second half of a slot whose two instructions read
their registers in one clock (R176). -/
def State.withChk (s : State) (ctx : Nat) (b : Bool) : State := s.updCtx ctx fun c => { c with chk := b }

/-- Both ports of a slot (R350): either both perform or neither does. What each sees of the group's occupied lanes and
their PCs is as the slot began (R42, R43, R223); the masks are as port A has left them when port B acts on them (DESIGN
CHOICE, notes/assumptions/68). -/
def State.performBoth (s : State) (ex : Instr → State → Result) (g : Nat) (a b : Cand) : Result :=
  let ka := s.issueOf g a 0 b.active
  let kb := s.issueOf g b 1 a.active
  match s.perform ex a ka with
  | .next sa =>
    if sa.cur.trapped || sa.waitsForWalk g then .next sa
    else
      match s.perform ex b kb with
      | .next sb =>
        if sb.cur.trapped || sb.waitsForWalk g then .next sb
        else
          let ctx := s.ctxOf g
          match (sa.withChk ctx false).perform ex b kb with
          | .next sc => .next (sc.withChk ctx (s.ctx ctx).chk)
          | r => r
      | r => r
  | r => r

/-- The stall value of a set's instruction; a mere move has none (R175). -/
def Cand.stall (c : Cand) : Nat :=
  match c.act with
  | .run _ | .bad => stallOf (c.clause.word c.idx)
  | _ => 0

/-- The ages after a slot (R35): runnable fibres that did not issue gain a point, those that issued start
again, and a wait at their instruction is over (R292). -/
def Group.aged (g : Group) (runnable issued : W32) : Group :=
  let next (i : Nat) (f : Fibre) : Fibre :=
    if issued.getLsbD i then { f with age := 0, wdog := 0 }
    else if runnable.getLsbD i then { f with age := min 127 (f.age + 1) } else f
  g.updCtl fun c => { c with fibs := c.fibs.mapIdx next }

/-- The end of the allocation phase by an instruction of group 0 (R69). DESIGN CHOICE: one that traps, or is held on a
page request, has not issued in the sense of R69 and leaves the phase open (notes/assumptions/55). -/
def State.endAllocation (s : State) (g : Nat) (c : Cand) : State :=
  let x := s.grp g
  match c.act with
  | .run i =>
    if x.num == 0 && x.handler == .none && i.endsAllocation (headClass c.clause.head) then
      s.updBlk x.blk fun b => { b with allocOpen := false }
    else s
  | _ => s

/-- A group that the debugger lets issue one clause halts again once a fibre of a slot has come to a clause boundary
(R368). -/
def State.stepDone (s : State) (g : Nat) (lanes : W32) : State :=
  if (s.grp g).stepping && (lanesOf lanes).any fun i => ((s.grp g).fib i).code.isNone then s.haltGroup g else s

/-- What follows a slot (R31, R35, R40, R69, R175): the guard-false lanes move on, ages, the group's next clock,
group ages and the scheduler's pointer, and the end of the allocation phase. `s0` is the state in which the
slot was chosen. -/
def State.slotEnd (s0 s : State) (g : Nat) (a : Cand) (b : Option Cand) (trapped : Bool) : State :=
  let x := s0.grp g
  let clock := s0.clockOf g
  let runnable := (s0.runnable g).foldl (fun m c => m ||| c.lanes) (0 : W32)
  let issued := a.lanes ||| (b.elim 0 Cand.lanes)
  let sigma := max a.stall (b.elim 0 Cand.stall)
  let falseLanes (c : Cand) : W32 := if c.act = .skip then 0 else c.lanes &&& ~~~c.active
  let s := if trapped then s else
    (s.skipClause g (falseLanes a)).skipClause g (b.elim 0 falseLanes)
  let s := if trapped then s else (s.endAllocation g a)
  let s := if trapped then s else b.elim s fun c => s.endAllocation g c
  let s := if !trapped && (a.accWrites || b.elim false Cand.accWrites) then s.stampAcc g else s
  let s := (s0.readyGroups x.core x.sched).foldl
    (fun (s : State) h => if h = g then s else s.updGrp h fun y => { y with gage := y.gage + 1 }) s
  let s := s.updGrp g fun y => { y.aged runnable issued with gage := 0, readyAt := clock + 1 + sigma, slotAt := some clock }
  (s.stepDone g issued).updCore x.core fun c =>
    { c with ptr := place (place c.ptr x.sched ((x.pos + 1) % 16)) (4 + x.sched) (clock + 1) }

/-- The yielding marks of a group cleared, as at the end of the slot after the one that set them (R231). -/
def State.clearYields (s : State) (g : Nat) : State :=
  s.updGrp g fun x => x.updCtl fun c => { c with fibs := c.fibs.map fun f => { f with yielding := false } }

/-- An issue slot of a group: its ports' instructions perform, unless one of them waits for a walk, and the slot
ends. -/
def State.runSlot (s : State) (ex : Instr → State → Result) (g : Nat) : Result :=
  match s.slotOf g with
  | none => .next s
  | some (a, b) =>
    let s' := s.clearYields g
    let r := match b with
      | none => s'.perform ex a (s'.issueOf g a 0 0)
      | some b => s'.performBoth ex g a b
    match r with
    | .next t =>
      if t.waitsForWalk g then .next (t.updGrp g fun x =>
          x.updCtl fun c => { c with fibs := c.fibs.mapIdx fun i f =>
            { f with yielding := ((s.grp g).fib i).yielding } })
      else .next (s.slotEnd t g a b t.cur.trapped)
    | r => r

/-! ## The sequencer (R295, R296) -/

/-- The sequencer's issue context. -/
def State.streamIssue (s : State) (b : Nat) (c : Clause) (idx len : Nat) : Issue :=
  ⟨.stream, (s.blk b).groups.headD 0, b, 0, 0, 0, c.addr, idx, len, headWords c.head, 0, 0, false, false⟩

/-- The sequencer's next instruction: its clause, word and length, or `none` where it is refused: a word that
does not decode, or one that names a counter (R295). -/
def Seq.instr (q : Seq) : Option (Clause × Nat × Nat × Option Instr) :=
  q.code.map fun c =>
    let idx := max q.next 1
    let (i, len) := c.instr idx
    (c, idx, len, i.bind fun i => if i.counter = 0 then some i else none)

/-- Whether the wait of a `seqbar` keeps the sequencer (R318). -/
def Block.seqWaits (b : Block) : Bool :=
  match b.seq.waitBar with
  | some n => !(b.bar (n / 16)).past (n % 16)
  | none => false

/-- Whether a command of a block's stream has stopped at a recoverable fault: later stream instructions wait behind
it (R323). -/
def State.streamHeld (s : State) (b : Nat) : Bool :=
  s.cmds.any fun c => c.blk == b && c.grp.isNone && c.fault.isSome

/-- Whether the sequencer's next instruction may issue now; one that a stream may not hold is a stream fault at once
(R294). -/
def State.streamReady (s : State) (b : Nat) : Bool :=
  let x := s.blk b
  s.seqActive b && decide (x.seq.readyAt ≤ s.blockClock b) && !x.seqWaits && !s.streamHeld b &&
  match x.seq.instr with
  | some (c, idx, len, some i) => groupOnly i || { s with cur := s.streamIssue b c idx len }.engReady i
  | some (_, _, _, none) => true
  | none => false

/-- The sequencers that may issue now. -/
def State.streamsDue (s : State) : List Nat := (List.range s.blocks.length).filter s.streamReady

/-- The sequencer issues its next instruction, at most one per clock (R296). -/
def State.runStream (s : State) (ex : Instr → State → Result) (b : Nat) : Result :=
  if s.streamReady b then
    match (s.blk b).seq.instr with
    | none => .next s
    | some (c, idx, len, i) =>
      let clock := s.blockClock b
      let s := s.updBlk b fun x => { x with seq := { x.seq with waitBar := none, readyAt := clock + 1 } }
      match i with
      | none => .next (s.streamFault b 0x17 (c.addr + BitVec.ofNat 64 (4 * idx)))
      | some i => ex i { s with cur := s.streamIssue b c idx len }
  else .next s

/-! ## Watchdogs (R292, R297) -/

/-- The lanes of a group that wait in `txwait` or `twait`, or to issue under R71. -/
def State.tileWaiters (s : State) (g : Nat) : W32 :=
  let x := s.grp g
  let held := ((x.sets (s.readyLanes g)).filter (s.candWaits g)).foldl (fun m c => m ||| c.active) (0 : W32)
  laneSet fun i => held.getLsbD i || match (x.fib i).wait with
    | .tx _ _ _ => true
    | .tile _ _ => true
    | _ => false

/-- One clock of a group's watchdogs; a halted group does not count (R292, R364). -/
def State.watchGroup (s : State) (g : Nat) : State :=
  let x := s.grp g
  if x.live && !x.retired && !x.halted && !x.stopped then
    let w := s.tileWaiters g
    if w = 0 ∧ x.ctl.fibs.all (fun f => f.wdog == 0) then s
    else s.updGrp g fun y => y.updCtl fun c => { c with fibs := c.fibs.mapIdx fun i f =>
      { f with wdog := if w.getLsbD i then f.wdog + 1 else 0 } }
  else s

/-- One clock of a sequencer's watchdog (R297). -/
def State.watchStream (s : State) (b : Nat) : State :=
  let x := s.blk b
  if s.seqActive b && x.seq.code.isSome then
    let waiting := !s.streamReady b && decide (x.seq.readyAt ≤ s.blockClock b)
    if waiting then s.updBlk b fun x => { x with seq := { x.seq with waiting := true, wdog := x.seq.wdog + 1 } }
    else if x.seq.waiting then
      s.updBlk b fun x => { x with seq := { x.seq with waiting := false, wdog := 0 } }
    else s
  else s

end Sys2Proof.Machine
end

