-- ==== Sys2Proof/Machine/Clock.lean ====
section
/-!
DEFINITION. Clocks (R15, R16, R432 to R436), the package limit in force (R434, R437), matrix bursts and power
tokens (R440, R441), byte budgets (R442) and the advance of time (R443).
-/
namespace Sys2Proof.Machine

/-! ## The step of a cluster (R432 to R434) -/

/-- The lowest and highest step of a ratio: L, M, H (R432). -/
def ratioRange (r : Nat) : Nat × Nat := if r = 0 then (0, 24) else if r = 1 then (16, 40) else (32, 68)

/-- Whether a ratio contains a step (R432). -/
def ratioHas (r f : Nat) : Bool := decide ((ratioRange r).1 ≤ f) && decide (f ≤ (ratioRange r).2)

/-- The lowest ratio that contains a step (R436). -/
def lowestRatio (f : Nat) : Nat := if ratioHas 0 f then 0 else if ratioHas 1 f then 1 else 2

/-- L_self: the package's own limit (R437). -/
def Ceil.self_ (c : Ceil) : Nat := min c.plim c.swcap

/-- The CEIL term of a cluster's target (R434, R449, R450). -/
def Ceil.term (c : Ceil) : Nat :=
  if !c.en then
    (if c.waiting.any fun w => w.kind == 4 && w.msg.sender == c.self then
      (if c.joinAt.isSome then min 32 c.self_ else c.c)
    else 68)
  else if c.expelled then 32 else if c.joinAt.isSome then min 32 c.self_ else c.c

/-- The target step of a cluster (R434). -/
def State.target (s : State) (n : Nat) : Nat :=
  let c := s.cluster n
  min (min c.req (if c.mheavy then 54 else 68)) (min s.ceil.limit s.ceil.term)

/-- The evaluation of a target from STEADY (R436): base clocks of 0.5 ns. -/
def Cluster.steadyTarget (c : Cluster) (t now : Nat) : Cluster :=
  if ratioHas c.ratio t then
    if t = c.cur then { c with st := .steady, commitStep := t, commitRatio := c.ratio, pendStep := none }
    else { c with
      st := .fstep, commitRatio := c.ratio, commitStep := t, pendStep := none, cur := min c.cur t, endAt := now + 1000 }
  else { c with
    st := .ramp, commitRatio := lowestRatio t, commitStep := t, pendStep := none, cur := min c.cur t,
    endAt := now + 8000 }

/-- A base clock's target given to the ramp logic (R436). -/
def Cluster.retarget (c : Cluster) (t now : Nat) : Cluster :=
  match c.st with
  | .steady => c.steadyTarget t now
  | _ =>
    if t = c.pendStep.getD c.commitStep then c
    else { c with pendStep := some t, cur := min c.cur t }

/-- A frequency step or ramp whose time has ended (R436). -/
def Cluster.endMove (c : Cluster) (now : Nat) : Cluster :=
  let c := { c with ratio := c.commitRatio, st := .steady }
  match c.pendStep with
  | none => { c with cur := c.commitStep }
  | some t => c.steadyTarget t now

/-- Whether a cluster's move of a kind ends now. -/
def Cluster.moveOver (c : Cluster) (now : Nat) (st : RampSt) : Bool := c.st == st && decide (c.endAt ≤ now)

/-- Whether a cluster's move of a kind ends now. -/
def State.moveEnds (s : State) (n : Nat) (st : RampSt) : Bool := (s.cluster n).moveOver s.bclk st

/-- FSTEP_END: a frequency step of a cluster ends (R436). -/
def execFstepEnd (n : Nat) (s : State) : Result :=
  .next (if s.moveEnds n .fstep then s.updCluster n fun c => c.endMove s.bclk else s)

/-- RAMP_END: a ramp of a cluster ends (R436). -/
def execRampEnd (n : Nat) (s : State) : Result :=
  .next (if s.moveEnds n .ramp then s.updCluster n fun c => c.endMove s.bclk else s)

/-! ## The matrix-heavy class (R435) -/

/-- The current interval of 1,000 ns. -/
def State.interval (s : State) : Nat := s.ptime / 1000

/-- Whether a cluster's sample of the interval is still to be taken. -/
def State.sampleDue (s : State) (n : Nat) : Bool := look 0 s.timers (5200 + n) != s.interval

/-- MHEAVY_SAMPLE (R435): the class from the busy clocks of the last four intervals, which are divided by four
times the clocks run. -/
def execMheavySample (n : Nat) (s : State) : Result :=
  if s.sampleDue n then
    let s := { s with timers := place s.timers (5200 + n) s.interval }
    .next (s.updCluster n fun c =>
      let l := ((c.busyNow, c.clocksNow) :: c.samples).take 4
      let busy := (l.map (·.1)).sum
      let ran := (l.map (·.2)).sum
      { c with
        samples := l, busyNow := 0, clocksNow := 0
        mheavy := if ran = 0 then c.mheavy else decide (s.ceil.mhfrac * 4 * ran < busy * 256) })
  else .next s

/-! ## Byte budgets (R442) -/

/-- The bytes that a request counts at its cluster's arbiter: its sectors, or the line of R410, which the settle of a region
and an address without a home are not (R442). -/
def Packet.counted (p : Packet) : Nat :=
  if p.typ = 0x09 then 32 * p.aux.getD 1 4
  else if p.typ = 0x0A then (if p.dlen = 2 then 128 else 32)
  else if (p.typ = 0x06 ∧ p.aux.getD 1 0 = 256) ∨ 160 ≤ p.dunit then 0
  else 128

/-- The requests that wait at a cluster's arbiter leave while the budget lasts (R442). -/
def State.releaseWaiting (s : State) (n : Nat) : List Packet → State
  | [] => s
  | p :: t =>
    let c := s.cluster n
    if c.budget ≠ 0 ∧ c.budget * 1024 ≤ c.sentBytes then s
    else
      let bytes := p.counted
      let s := s.updCluster n fun c => { c with sentBytes := c.sentBytes + bytes, waiting := c.waiting.drop 1 }
      (s.send p).releaseWaiting n t

/-- Whether a cluster's byte count is still to begin again in this interval. -/
def State.budgetDue (s : State) (n : Nat) : Bool := look 0 s.timers (5300 + n) != s.interval

/-- BUDGET_INTERVAL: the count begins again and the requests that wait leave in arrival order (R442). -/
def execBudgetInterval (n : Nat) (s : State) : Result :=
  if s.budgetDue n then
    let s := { s with timers := place s.timers (5300 + n) s.interval }
    let s := s.updCluster n fun c => { c with sentBytes := 0 }
    .next (s.releaseWaiting n (s.cluster n).waiting)
  else .next s

/-! ## Bursts and tokens (R440, R441) -/

/-- Whether a core may start a burst: it holds a token, permanently so when its ring carries sixteen. -/
def State.holdsToken (s : State) (core : Nat) : Bool :=
  (s.chip (isleOf core)).tokens == 16 || (s.core core).token

/-- Whether a core's array waits for a token. -/
def State.needsToken (s : State) (core : Nat) : Bool :=
  s.wantsArray core && !s.holdsToken core && (s.core core).admitted && !(s.core core).bursting

/-- Whether a burst may start on a core (R440, R426). -/
def State.burstStarts (s : State) (core : Nat) : Bool :=
  s.wantsArray core && s.holdsToken core && (s.core core).admitted && !(s.core core).bursting

/-- MATRIX_BURST_START (R440). -/
def execMatrixBurstStart (core : Nat) (s : State) : Result :=
  .next (if s.burstStarts core then s.updCore core fun c => { c with bursting := true, burst := 0 } else s)

/-- Whether a core's burst ends: 256 busy clocks have been counted, as they are too in a clock in which the array has
nothing to run (R440). -/
def State.burstEnds (s : State) (core : Nat) : Bool := (s.core core).bursting && decide (256 ≤ (s.core core).burst)

/-- The tokens of a chiplet's ring: free and held. -/
def State.tokensOut (s : State) (m : Nat) : Nat :=
  (s.chip m).ring.length + ((List.range 16).filter fun i => (s.core (16 * m + i)).token).length

/-- A freed token stands at its core's place of the ring, unless the ring carries too many (R441). -/
def State.freeToken (s : State) (core : Nat) : State :=
  let m := isleOf core
  let over_ := decide ((s.chip m).tokens < s.tokensOut m)
  let s := s.updCore core fun c => { c with token := false }
  if over_ then s else s.updChip m fun c => { c with ring := c.ring ++ [core % 16] }

/-- MATRIX_BURST_END (R440, R441). -/
def execMatrixBurstEnd (core : Nat) (s : State) : Result :=
  if s.burstEnds core then
    let s := s.updCore core fun c => { c with bursting := false, burst := 0 }
    .next (if (s.core core).token then s.freeToken core else s)
  else .next s

/-- Whether a chiplet's free tokens have still to move in this base clock. -/
def State.tokensDue (s : State) (m : Nat) : Bool :=
  !(s.chip m).ring.isEmpty && look 0 s.timers (5400 + m) != s.bclk + 1

/-- TOKEN_PASS: each free token of a ring moves to the next core, which takes it if it needs one (R441). -/
def execTokenPass (chip : Nat) (s : State) : Result :=
  if s.tokensDue chip then
    let s := { s with timers := place s.timers (5400 + chip) (s.bclk + 1) }
    let free := (s.chip chip).ring
    let s := s.updChip chip fun c => { c with ring := [] }
    .next (free.foldl
      (fun (s : State) at_ =>
        let i := (at_ + 1) % 16
        if s.needsToken (16 * chip + i) then s.updCore (16 * chip + i) fun c => { c with token := true }
        else s.updChip chip fun c => { c with ring := c.ring ++ [i] }) s)
  else .next s

/-- TOKENS written (R441): a lower value removes free tokens, and the rest as they are freed; a higher one adds
tokens at core 16m. With sixteen every core holds its own. -/
def State.setTokens (s : State) (m t : Nat) : State :=
  let was := (s.chip m).tokens
  let s := if was = 16 ∧ t < 16 then
      (List.range 16).foldl
        (fun (s : State) i => s.updCore (16 * m + i) fun c => { c with token := c.bursting }) s
    else s
  let out := s.tokensOut m
  if t = 16 then
    let s := (List.range 16).foldl
      (fun (s : State) i => s.updCore (16 * m + i) fun c => { c with token := false }) s
    s.updChip m fun c => { c with tokens := t, ring := [] }
  else if out ≤ t then
    s.updChip m fun c => { c with tokens := t, ring := c.ring ++ List.replicate (t - out) 0 }
  else s.updChip m fun c => { c with tokens := t, ring := c.ring.drop (out - t) }

/-! ## Time (R15, R16, R443) -/

/-- Whether a cluster's next clock has come: its frequency against the base's (R432). -/
def Cluster.tickDue (c : Cluster) : Bool := decide (Config.baseUnits ≤ c.phase)

/-- The clusters whose next clock has come. -/
def State.ticksDue (s : State) : List Nat := (s.clusters.filter fun e => e.2.tickDue).map (·.1)

/-- The groups of a cluster that were told to stop in the clock that ends stop now (R348). -/
def State.stopGroups (s : State) (n : Nat) : State :=
  let stop (x : Group) : Group :=
    if x.stopNext = true ∧ clusterOf x.core = n then { x with stopped := true, stopNext := false } else x
  { s with groups := s.groups.map stop }

/-- What the clock that ends leaves to be done: the tests of its transaction barriers (R73), block barriers whose
next phase is complete already (R285), and groups that stop. -/
def State.endClock (s : State) (n : Nat) : State :=
  let s := s.txTests n
  let blocks := (List.range s.blocks.length).filter fun b => clusterOf (s.blk b).core == n
  (blocks.foldl (fun (s : State) b => s.barCheckAll b) s).stopGroups n

/-- One clock of a cluster: what the clock before it leaves, then its arrays run and its watchdogs count. A change of its
step takes effect now (R436). -/
def State.tickCluster (s : State) (n : Nat) : State :=
  let s := s.endClock n
  let clock := (s.cluster n).clock + 1
  let cores := [4 * n, 4 * n + 1, 4 * n + 2, 4 * n + 3]
  let running := cores.filter fun c => (s.core c).bursting && s.wantsArray c
  let idle := cores.filter fun c => (s.core c).bursting && !s.wantsArray c
  let s := s.updCluster n fun c => { c with
    clock := clock, run := c.cur, phase := c.phase - Config.baseUnits, clocksNow := c.clocksNow + 1
    busyNow := if running.isEmpty then c.busyNow else c.busyNow + 1 }
  let s := running.foldl (fun (s : State) c => s.arrayClock c clock) s
  let s := idle.foldl (fun (s : State) c => s.updCore c fun x => { x with burst := 256 }) s
  let mine := (List.range s.groups.length).filter fun g => clusterOf (s.grp g).core == n
  let s := mine.foldl (fun (s : State) g => s.watchGroup g) s
  let blocks := (List.range s.blocks.length).filter fun b => clusterOf (s.blk b).core == n
  blocks.foldl (fun (s : State) b => s.watchStream b) s

/-- Package time after one more base clock (R443, R444): half a nanosecond, up to 200 ppm more or less while
the time is being slewed; `slew` is what is still to be corrected and `slewAcc` the fraction of a tick, in
units of 10^-4 ns. -/
def State.advanceTime (s : State) : State :=
  let d : Nat := if 0 < s.slew then 5001 else if s.slew < 0 then 4999 else 5000
  let acc := s.slewAcc + d
  { s with
    bclk := s.bclk + 1
    slew := if 0 < s.slew then s.slew - 1 else if s.slew < 0 then s.slew + 1 else 0
    slewAcc := acc % 10000
    ptime := (s.ptime + acc / 10000) % 2 ^ 64 }

/-- Every cluster's target evaluated (R434, R436). -/
def State.retargetAll (s : State) : State :=
  (List.range 64).foldl (fun (s : State) n => s.updCluster n fun c => c.retarget (s.target n) s.bclk) s

/-- One base clock: package time goes on, every cluster's target is evaluated and its clock comes nearer. -/
def State.advance (s : State) : State :=
  let s := s.advanceTime.retargetAll
  (List.range 64).foldl
    (fun (s : State) n => s.updCluster n fun c => { c with phase := c.phase + Config.stepUnits c.run }) s

/-- The clock and power events that may come next. -/
def State.dueClocks (s : State) : List Instr :=
  let clusters := s.clusters.map (·.1)
  (s.clusters.filter fun e => e.2.moveOver s.bclk .fstep).map (fun e => .fstepEnd e.1) ++
  (s.clusters.filter fun e => e.2.moveOver s.bclk .ramp).map (fun e => .rampEnd e.1) ++
  (clusters.filter s.sampleDue).map .mheavySample ++
  (clusters.filter fun n => s.budgetDue n).map .budgetInterval ++
  (((s.cores.map (·.1)).filter s.burstEnds).map .matrixBurstEnd) ++
  (((s.cores.map (·.1)).filter s.burstStarts).map .matrixBurstStart) ++
  (((s.chips.map (·.1)).filter s.tokensDue).map .tokenPass)

end Sys2Proof.Machine
end

