-- ==== Sys2Proof/Machine/Ceiling.lean ====
section
/-!
DEFINITION. The package limit and ceiling groups (R437 to R439, R446 to R452), and package time across packages
(R443 to R445).
-/
namespace Sys2Proof.Machine

/-- The state with a change made to the ceiling agent. -/
def State.updCeil (s : State) (f : Ceil → Ceil) : State := { s with ceil := f s.ceil }

/-- The state with a change made to the time agent. -/
def State.updSync (s : State) (f : Sync → Sync) : State := { s with sync := f s.sync }

/-- A member's entry (R446). -/
def Ceil.member (c : Ceil) (j : Nat) : Member := look Member.absent c.members j

/-- The ceiling agent with a member's entry changed. -/
def Ceil.updMember (c : Ceil) (j : Nat) (f : Member → Member) : Ceil :=
  { c with members := place c.members j (f (c.member j)) }

/-- A counter that saturates at 65,535 (R446). -/
def sat16 (n : Nat) : Nat := min 65535 (n + 1)

/-! ## Sending (R447) -/

/-- The message that this package sends now (R447). -/
def State.ceilMsg (s : State) (lnew : Nat) : CeilMsg :=
  ⟨s.ceil.self, lnew, s.ceil.limit, s.ceil.mcast, s.ceil.seq, s.ptime⟩

/-- A message on its way to the Vreles ports in a CEIL packet (R390, R394): AUX names its kind and its fields. -/
def State.sendCeilPacket (s : State) (time : Nat) (aux : List Nat) : State :=
  s.send { Packet.basic 0x31 vcC 0 0 unitMgmt 0 unitVreles 0 0 with time := time, aux := aux }

/-- A message sent to the group's other members (R447). -/
def State.sendCeil (s : State) (kind lnew : Nat) : State :=
  let m := s.ceilMsg lnew
  (s.sendCeilPacket m.a [kind, m.sender, m.lnew, m.lcur, m.group, m.seq]).updCeil fun c =>
    { c with seq := (c.seq + 1) % 256, lastSent := s.ptime }

/-- A message sent to the group that also takes effect here, at its apply instant (R448). -/
def State.announce (s : State) (kind lnew delay : Nat) : State :=
  let m := s.ceilMsg lnew
  (s.sendCeil kind lnew).updCeil fun c => { c with waiting := c.waiting ++ [⟨s.ptime + delay, kind, m⟩] }

/-- What follows a change of PLIM or SWCAP (R438): at once outside a group; in a member a LIMIT is sent, and
PKG follows at its apply instant. -/
def State.limitChanged (s : State) (was : Nat) : State :=
  if s.ceil.self_ = was then s
  else if s.ceil.en then s.announce 1 s.ceil.self_ 100000
  else (s.updCeil fun c => { c with limit := c.self_ }).retargetAll

/-! ## The ceiling (R448) -/

/-- The minimum over the members present; `joining` counts an index in use that has no entry as 32 (R450). -/
def Ceil.minimum (c : Ceil) (joining : Bool) : Nat :=
  let present := ((c.members.filter fun e => e.2.present).map fun e => e.2.l)
  let unfilled := joining && (List.range c.nmem).any fun j => j != c.self && !(c.member j).present
  (if unfilled then 32 :: present else present).foldl min 68

/-- C computed from the table (R448). -/
def Ceil.recomputed (c : Ceil) (joining : Bool) : Ceil := { c with c := c.minimum joining }

/-- The effect of one message at its apply instant (R448, R450). A package that is still filling its table takes
the entry of a member from its LIMIT. -/
def Ceil.applyMsg (c : Ceil) (w : Waiting) : Ceil :=
  let j := w.msg.sender
  match w.kind with
  | 1 =>
    if j = c.self then
      { c.updMember j fun m => { m with l := w.msg.lnew } with limit := w.msg.lnew }
    else if (c.member j).gone then c
    else c.updMember j fun m => { m with l := w.msg.lnew, present := m.present || c.joinAt.isSome }
  | 3 => c.updMember j fun m => { m with l := w.msg.lnew, present := true, gone := false, suspect := false }
  | 4 =>
    let c := c.updMember j fun m => { m with present := false, gone := true }
    if j = c.self ∧ c.en = false then { c with c := 68, joinAt := none } else c
  | _ => c

/-- The first apply instant that has come (R448, R449). -/
def State.instantDue (s : State) : Option Nat :=
  let ts := s.ceil.waiting.map (·.at_) ++ s.ceil.members.filterMap fun e => e.2.expelAt
  (sortBy (fun a b => decide (a < b)) (ts.filter fun t => decide (t ≤ s.ptime))).head?

/-- APPLY_INSTANT: the messages of an instant in SENDER order, then C once, which every cluster's target follows in the
same base clock (R448); an expulsion's new C takes effect 0.1 ms after it (R449). -/
def execApplyInstant (s : State) : Result :=
  match s.instantDue with
  | none => .next s
  | some t =>
    let now := sortBy (fun (a b : Waiting) => decide (a.msg.sender < b.msg.sender))
      (s.ceil.waiting.filter fun w => w.at_ == t)
    let joined := now.any fun w => w.kind == 3 && w.msg.sender == s.ceil.self
    let over_ (e : Nat × Member) : Nat × Member :=
      if e.2.expelAt = some t then (e.1, { e.2 with expelAt := none }) else e
    .next (s.updCeil fun c =>
      let c := { c with waiting := c.waiting.filter fun w => w.at_ != t }
      let c := now.foldl Ceil.applyMsg c
      let c := { c with
        members := c.members.map over_
        joinAt := if joined then none else c.joinAt }
      if c.en then c.recomputed joined else c).retargetAll

/-! ## Receiving (R447 to R452) -/

/-- Whether a message is taken: this package is a member, it is of the group, from another member, and not from
one that must join again (R447, R452). -/
def Ceil.accepts (c : Ceil) (kind : Nat) (m : CeilMsg) : Bool :=
  c.en && m.group == c.mcast && m.sender != c.self && (kind == 3 || !(c.member m.sender).gone)

/-- A message proves its sender alive (R447, R449). -/
def Ceil.heard (c : Ceil) (m : CeilMsg) : Ceil :=
  c.updMember m.sender fun x => { x with h := max x.h m.a, suspect := false }

/-- The Vreles ports that are up. -/
def State.upPorts (s : State) : List Nat := (List.range 32).filter fun p => (s.port p).up

/-- Whether some Vreles port is up: through ports that are down the group's messages are lost (R472). -/
def State.linked (s : State) : Bool := !s.upPorts.isEmpty

/-- A message with an apply instant: it waits for it, or is applied on receipt when it comes too late (R447). -/
def State.receiveAt (s : State) (kind : Nat) (m : CeilMsg) (delay : Nat) : State :=
  if s.linked && s.ceil.accepts kind m then
    let at_ := m.a + delay
    let w : Waiting := ⟨at_, kind, m⟩
    if at_ < s.ptime then
      s.updCeil fun c => { ((c.heard m).applyMsg w).recomputed false with late := sat16 c.late }
    else s.updCeil fun c => { c.heard m with waiting := c.waiting ++ [w] }
  else s

/-- LIMIT received (R447). -/
def execLimit (m : CeilMsg) (s : State) : Result := .next (s.receiveAt 1 m 100000)

/-- JOIN received (R447). -/
def execJoin (m : CeilMsg) (s : State) : Result := .next (s.receiveAt 3 m 400000)

/-- LEAVE received (R447). -/
def execLeave (m : CeilMsg) (s : State) : Result := .next (s.receiveAt 4 m 100000)

/-- A HEARTBEAT is received (R447, R450): it fills an entry that is not yet present and changes no other. -/
def State.takeHeartbeat (s : State) (m : CeilMsg) : State :=
  if s.linked && s.ceil.accepts 2 m then
    s.updCeil fun c => (c.heard m).updMember m.sender fun x =>
      if x.present then x else { x with l := m.lcur, present := true }
  else s

/-- HEARTBEAT received (R447, R450). -/
def execHeartbeat (m : CeilMsg) (s : State) : Result := .next (s.takeHeartbeat m)

/-- An EMERGENCY is received (R451): every cluster's target follows at once. -/
def State.takeEmergency (s : State) (m : CeilMsg) : State :=
  if s.linked && s.ceil.accepts 5 m then
    ((s.updCeil fun c =>
      { ((c.heard m).updMember m.sender fun x => { x with l := m.lnew }).recomputed false with
        ebite := sat16 c.ebite }).interrupt 68).retargetAll
  else s

/-- EMERGENCY received (R451). -/
def execEmergency (m : CeilMsg) (s : State) : Result := .next (s.takeEmergency m)

/-- A ceiling-group message comes in by a port (R447): kinds beyond those of the table are discarded. -/
def State.takeCeil (s : State) (kind : Nat) (m : CeilMsg) : State :=
  match kind with
  | 1 => s.receiveAt 1 m 100000
  | 2 => s.takeHeartbeat m
  | 3 => s.receiveAt 3 m 400000
  | 4 => s.receiveAt 4 m 100000
  | 5 => s.takeEmergency m
  | _ => s

/-- Whether a heartbeat is due (R447). -/
def State.heartbeatDue (s : State) : Bool :=
  s.ceil.en && decide (s.ceil.lastSent + s.ceil.hbint * 1000 ≤ s.ptime)

/-- HEARTBEAT_DUE (R447). -/
def execHeartbeatDue (s : State) : Result := .next (if s.heartbeatDue then s.sendCeil 2 s.ceil.self_ else s)

/-! ## Joining and leaving (R450) -/

/-- EN written 1 (R450). -/
def State.joinGroup (s : State) : State :=
  let s := s.updCeil fun c => { c with en := true, members := [], joinAt := some (s.ptime + 400000) }
  s.announce 3 s.ceil.self_ 400000

/-- EN written 0 (R449, R450): LEAVE is sent, EXPELLED is cleared, and the package limit is in force at once;
the messages of others no longer count. A package that leaves before its join instant keeps the term of a joining one until
its LEAVE instant. -/
def State.leaveGroup (s : State) : State :=
  let s := s.announce 4 s.ceil.self_ 100000
  s.updCeil fun c =>
    { c with
      en := false, expelled := false, limit := c.self_
      members := c.members.map fun e => (e.1, { e.2 with expelAt := none })
      waiting := c.waiting.filter fun w => w.kind == 4 && w.msg.sender == c.self }

/-- CGCFG written with the register's new value (R446): with EN set only EN changes. -/
def State.writeCgcfg (s : State) (v : Nat) : State :=
  if s.ceil.en then
    if v.testBit 0 then s else s.leaveGroup
  else
    let s := s.updCeil fun c =>
      { c with self := bits v 1 12, nmem := bits v 13 13, mcast := bits v 32 24
               hbint := min 200 (max 10 (bits v 56 8)) }
    if v.testBit 0 then s.joinGroup else s

/-! ## Silence (R449) -/

/-- The members present, other than this package, whose last message is at least `d` old. -/
def State.silent (s : State) (d : Nat) : List Nat :=
  (s.ceil.members.filter fun e => e.1 != s.ceil.self && e.2.present && decide (e.2.h + d ≤ s.ptime)).map (·.1)

/-- The members to mark suspect: package time has passed h + 1 ms (R449). -/
def State.newSuspects (s : State) : List Nat :=
  if s.ceil.en then (s.silent 1000001).filter fun j => !(s.ceil.member j).suspect else []

/-- SUSPECT_TIMEOUT (R449). -/
def execSuspectTimeout (s : State) : Result :=
  .next (s.newSuspects.foldl
    (fun (s : State) j => s.updCeil fun c => c.updMember j fun m => { m with suspect := true }) s)

/-- The members to expel (R449). -/
def State.newExpelled (s : State) : List Nat := if s.ceil.en then s.silent 2000000 else []

/-- EXPEL_TIMEOUT (R449): PRESENT is cleared now, and C without the member takes effect at h + 2.1 ms. -/
def execExpelTimeout (s : State) : Result :=
  .next (s.newExpelled.foldl
    (fun (s : State) j =>
      (s.updCeil fun c =>
        { c.updMember j fun m =>
            { m with present := false, gone := true, expelAt := some (m.h + 2100000) } with
          expels := sat16 c.expels }).interrupt 68) s)

/-- Whether the package has heard no member for 2 ms, counted from the largest announce time it has received
(R449). -/
def State.expelledDue (s : State) : Bool :=
  let h := (s.ceil.members.filter fun e => e.1 != s.ceil.self).foldl (fun n e => max n e.2.h) 0
  s.ceil.en && !s.ceil.expelled && h != 0 && decide (h + 2000000 ≤ s.ptime)

/-- EXPELLED (R449). -/
def execExpelled (s : State) : Result :=
  .next (if s.expelledDue then (s.updCeil fun c => { c with expelled := true }).interrupt 68 else s)

/-! ## Power (R437 to R439, R464) -/

/-- An early bite (R439, R451): L_self falls at once and PKG with it; a member sends EMERGENCY and sets its own entry and
C. -/
def State.earlyBite (s : State) (lim : Nat) : State :=
  if lim < s.ceil.self_ then
    let s := (s.updCeil fun c => { c with plim := lim, limit := lim }).retargetAll
    if s.ceil.en then
      (((s.sendCeil 5 lim).updCeil fun c =>
        { (c.updMember c.self fun m => { m with l := lim }).recomputed false with
          ebite := sat16 c.ebite }).interrupt 68).retargetAll
    else s
  else s

/-- EARLY_BITE: a thermal sensor reaches its trip temperature (R439). -/
def execEarlyBite (lim : Nat) (s : State) : Result := .next (s.earlyBite lim)

/-- Whether the power of the last millisecond, ten samples of 100 µs, exceeds 9,000 W on average (R437, R439). -/
def Ceil.overPower (c : Ceil) : Bool := decide (9000 * 10 < c.powers.sum)

/-- A telemetry sample of the errors and the temperatures (R462, R464): what storage has met since the last sample is a free
value, as the sensors' readings are; the counts are updated. -/
def State.sampleErrors (s : State) : State :=
  let t := s.tick
  let s := { s with errs := s.errs ++ strayErrors t }
  let s := (Config.correctedErrors t).foldl (fun (s : State) k => s.countCorrected (k % 32)) s
  s.updMgmt fun m => { m with
    errorCounts := m.corrected, thermal := (List.range 16).map fun i => Config.thermal t i }

/-- TELEMETRY_SAMPLE (R437, R464): Yeham's power and sustainable step, the error counts and the thermal readings; a power
over the limit of R439 raises an early bite, to the step that Yeham has computed in advance. -/
def execTelemetrySample (pwr plim : Nat) (s : State) : Result :=
  let was := s.ceil.self_
  let s := s.sampleErrors
  let s := (s.updCeil fun c => { c with
    pwr := pwr % 65536, plim := min 68 plim, powers := (pwr % 65536 :: c.powers).take 10 }).limitChanged was
  .next (if s.ceil.overPower then s.earlyBite (Config.earlyBiteStep s.tick) else s)

/-! ## Time across packages (R444, R445) -/

/-- A time message on its way to a port (R444, R445): kind, sender, sequence number, correction in units of 2^-8 ns modulo
2^32, and port. -/
def State.sendTime (s : State) (port kind seqid stamp : Nat) (corr : Int) : State :=
  s.sendCeilPacket stamp [kind, s.mgmt.peerSelf, seqid, (corr % 2 ^ 32).toNat, port]

/-- A message handed to a Vreles port, which is lost while the port is down (R472). -/
def State.leaveBy (s : State) (port : Nat) (m : PeerMsg) : State := if (s.port port).up then s.sendPeer port vcC m else s

/-- A CEIL packet passes the Vreles ports (R397, R445, R447): DEDUCED, a group's message leaves by the first port that is up
(notes/assumptions/21). The stamps are taken now: a SYNC is followed by the FOLLOW_UP with its t1, and t3 of a DELAY_REQ is
recorded. -/
def State.passCeil (s : State) (p : Packet) : State :=
  let at_ (i : Nat) : Nat := p.aux.getD i 0
  let kind := at_ 0
  if kind < 8 then s.leaveBy (s.upPorts.headD 0) (.ceil kind ⟨at_ 1, at_ 2, at_ 3, at_ 4, at_ 5, p.time⟩)
  else
    let corr := signedOf 32 (at_ 3)
    let s := s.leaveBy (at_ 4) (.time kind (at_ 1) (at_ 2) p.time corr)
    if kind = 8 then s.leaveBy (at_ 4) (.time 9 (at_ 1) (at_ 2) s.ptime 0)
    else if kind = 0xA then
      let stamp (e : Exchange) : Exchange := if e.id = at_ 2 then { e with t3 := some s.ptime } else e
      s.updSync fun y => { y with exchanges := y.exchanges.map stamp }
    else s

/-- The CEIL packets that have reached the Vreles ports pass them. -/
def State.passCeils (s : State) : State :=
  let k := unitKey 0 unitVreles vcC
  let l := look [] s.mesh.units k
  let now := l.filter fun p => decide (p.elig ≤ s.bclk)
  if now.isEmpty then s
  else
    now.foldl (fun (s : State) p => s.passCeil p)
      (s.updMesh fun m => { m with units := put [] m.units k (l.filter fun p => decide (s.bclk < p.elig)) })

/-- The length of the master's interval of 2^SYNCINT µs, in ns (R443). -/
def State.syncPeriod (s : State) : Nat := 2 ^ s.sync.syncint * 1000

/-- Whether a time interval of 2^SYNCINT µs begins: timer 5800 holds the time at which the last one was seen. -/
def State.syncDue (s : State) : Bool := decide (look 0 s.timers 5800 / s.syncPeriod < s.ptime / s.syncPeriod)

/-- SYNC_INTERVAL (R445): the master sends SYNC, which FOLLOW_UP follows, by every port that is up; a follower counts an
interval without a complete exchange. -/
def execSyncInterval (s : State) : Result :=
  if s.syncDue then
    let s := { s with timers := place s.timers 5800 s.ptime }
    if s.sync.master then
      let id := s.sync.seqid
      let s := s.upPorts.foldl (fun (s : State) p => s.sendTime p 8 id 0 0) s
      .next (s.updSync fun y => { y with seqid := (id + 1) % 65536 })
    else
      .next (s.updSync fun y => { y with misses := if y.done then 0 else y.misses + 1, done := false })
  else .next s

/-- SYNC comes in (R445): a follower records t2 and the correction, on UPPORT only. -/
def State.takeSync (s : State) (port seqid : Nat) (corr : Int) : State :=
  if (s.port port).up && !s.sync.master && port == s.sync.upport then
    s.updSync fun y => { y with t2 := some (seqid, s.ptime, corr) }
  else s

/-- SYNC received (R445). -/
def execSync (port _sender seqid : Nat) (corr : Int) (s : State) : Result := .next (s.takeSync port seqid corr)

/-- FOLLOW_UP comes in (R445): for the SYNC it follows, the follower records t1 and sends DELAY_REQ, whose egress is t3. -/
def State.takeFollowUp (s : State) (port seqid t1 : Nat) : State :=
  match s.sync.t2 with
  | some (n, t2, cs) =>
    if (s.port port).up && !s.sync.master && port == s.sync.upport && n == seqid then
      let id := s.sync.seqid
      (s.sendTime port 0xA id 0 0).updSync fun y => { y with
        t2 := none, exchanges := y.exchanges ++ [⟨id, t1, t2, none, cs⟩], seqid := (id + 1) % 65536 }
    else s
  | none => s

/-- FOLLOW_UP received (R445). -/
def execFollowUp (port seqid t1 : Nat) (s : State) : Result := .next (s.takeFollowUp port seqid t1)

/-- DELAY_REQ comes in (R445): the master answers with t4 and the correction as received. -/
def State.takeDelayReq (s : State) (port seqid : Nat) (corr : Int) : State :=
  if (s.port port).up && s.sync.master then s.sendTime port 0xB seqid s.ptime corr else s

/-- DELAY_REQ received (R445). -/
def execDelayReq (port _sender seqid : Nat) (corr : Int) (s : State) : Result := .next (s.takeDelayReq port seqid corr)

/-- The offset of an exchange in units of 2^-9 ns (R445): twice its value in units of 2^-8 ns. -/
def exchangeOffset (t1 t2 t3 t4 : Nat) (cs cr : Int) : Int :=
  (((t2 : Int) - t1) * 256 - cs) - (((t4 : Int) - t3) * 256 - cr)

/-- The bound on the offset that TSKEW publishes, in ns: the largest of the last eight plus 2, rounded up
(R445). -/
def skewOf (l : List Int) : Nat := (l.foldl (fun n x => max n x.natAbs) 0 + 511) / 512 + 2

/-- The time corrected by an offset (R444): set directly, forward or back, before LOCKED first becomes 1 and while no gang
is resident; by slewing otherwise. The correction is in units of 10^-4 ns. -/
def State.correctTime (s : State) (offset : Int) : State :=
  let d : Int := (-offset * 10000).fdiv 512
  if !s.sync.everLocked && !(s.gangs.any (·.live)) then
    let t := ((s.ptime * 10000 + s.slewAcc : Nat) + d).toNat
    { s with slew := 0, slewAcc := t % 10000, ptime := t / 10000 % 2 ^ 64 }
  else { s with slew := d }

/-- The outcome of an exchange for LOCKED and TSKEW (R443, R445). -/
def State.noteOffset (s : State) (offset : Int) : State :=
  let l := (offset :: s.sync.offsets).take 8
  let locked := s.sync.locked || Config.locks l
  let s' := s.updSync fun y =>
    { y with
      offsets := l, locked := locked, everLocked := y.everLocked || locked, done := true, misses := 0
      tskew := if locked then min 65535 (skewOf l) else 0xFFFF }
  if locked = s.sync.locked then s' else s'.interrupt 69

/-- DELAY_RESP comes in (R445): for an outstanding DELAY_REQ, the exchange is complete. -/
def State.takeDelayResp (s : State) (port seqid t4 : Nat) (corr : Int) : State :=
  match s.sync.exchanges.find? fun e => e.id == seqid with
  | some ⟨_, t1, t2, some t3, cs⟩ =>
    if s.sync.master || !(s.port port).up then s
    else
      let offset := exchangeOffset t1 t2 t3 t4 cs corr
      let s := s.updSync fun y => { y with exchanges := y.exchanges.filter fun e => e.id != seqid }
      (s.noteOffset offset).correctTime offset
  | _ => s

/-- DELAY_RESP received (R445). -/
def execDelayResp (port seqid t4 : Nat) (corr : Int) (s : State) : Result := .next (s.takeDelayResp port seqid t4 corr)

/-- A time message comes in by a port (R445). -/
def State.takeTime (s : State) (port kind seqid stamp : Nat) (corr : Int) : State :=
  match kind with
  | 8 => s.takeSync port seqid corr
  | 9 => s.takeFollowUp port seqid stamp
  | 10 => s.takeDelayReq port seqid corr
  | 11 => s.takeDelayResp port seqid stamp corr
  | _ => s

/-- Whether LOCKED falls: eight intervals without a complete exchange (R445). -/
def State.lockLossDue (s : State) : Bool := s.sync.locked && decide (8 ≤ s.sync.misses)

/-- LOCK_LOSS (R445). -/
def execLockLoss (s : State) : Result :=
  .next (if s.lockLossDue then
      (s.updSync fun y => { y with locked := false, tskew := 0xFFFF }).interrupt 69
    else s)

/-- The events of these agents that may come next. -/
def State.dueCeiling (s : State) : List Instr :=
  (if s.instantDue.isSome then [.applyInstant] else []) ++
  (if s.heartbeatDue then [.heartbeatDue] else []) ++
  (if s.newSuspects.isEmpty then [] else [.suspectTimeout]) ++
  (if s.newExpelled.isEmpty then [] else [.expelTimeout]) ++
  (if s.expelledDue then [.expelled] else []) ++
  (if s.syncDue then [.syncInterval] else []) ++
  (if s.lockLossDue then [.lockLoss] else [])

end Sys2Proof.Machine
end

