-- ==== Sys2Proof/Machine/Agents.lean ====
section
/-!
DEFINITION. What cores do with the packets that reach them (R113, R130, R134, R402, R404, R405), and the agents of
the base beside the slices: the region homes (R404, R406), the cluster filters and directories (R407) and the
barrier units (R425, R426).
-/
namespace Sys2Proof.Machine

/-! ## Answers at a core: lines and data (R113, R267) -/

/-- A fetched line taken into the first-level cache (R113): dirty bytes keep their values; the lease is the one
that home granted. -/
def State.installLine (s : State) (core : Nat) (p : Packet) : State :=
  match s.l1 core p.ctx p.loc with
  | some l =>
    if l.excl.isSome then s
    else s.updLines core (fun x => x.ctx == p.ctx && x.loc == p.loc) fun x => { x with
      valid := true, lease := p.time, data := lineMerge x.dirty x.data p.data
      poison := p.poison &&& (15 - fullSectors x.dirty) }
  | none =>
    if s.lineRoom core = 0 then s
    else
      let s := s.makeRoom core
      s.updCore core fun c => { c with lines := c.lines ++
        [⟨p.ctx, p.loc, p.pa, p.disle, p.dunit, true, p.time, 0, p.data, p.poison, none, false, 0⟩] }

/-- The parts of an operation that a packet answers: those that have left for its line. -/
def Op.answered (o : Op) (p : Packet) : List Part :=
  o.parts.filter fun x => x.st == .sent && x.line == p.loc / 128 * 128

/-- The parts of a load take their bytes from an answer, with the dirty bytes of the core's own line over them
when the line was fetched under a lease (R113). -/
def State.takeData (s : State) (o : Op) (p : Packet) (lease : Bool) : State :=
  let ps := o.answered p
  let own := if lease then s.l1 o.core o.ctx p.loc else none
  let (data, poison) := match own with
    | some l => (lineMerge l.dirty l.data p.data, p.poison &&& (15 - fullSectors l.dirty))
    | none => (p.data, p.poison)
  s.updParts o.id (fun x => ps.contains x) fun x => x.take data poison

/-- The elements of a tolerant load that an answer of their line brings (R97, R283, R406): the FP32 value and
the status of each. -/
def State.takeElements (s : State) (o : Op) (p : Packet) : State :=
  let ps := o.answered p
  s.updParts o.id (fun x => ps.contains x) fun x =>
    let n := lineGet p.data x.off 16
    let w := match s.regionAt x.pa with
      | some r => (s.region r).exponent
      | none => 0
    { x with
      data := (readW96 (elemX n) (elemSt n) w).toNat + elemSt n * 2 ^ 32
      st := .done, poison := x.poisoned p.poison }

/-- DATA at a core: the answer to a fetch under a lease, to a read at home, or to a tolerant load. -/
def State.coreData (s : State) (p : Packet) : State :=
  match s.op? p.tag with
  | none => s
  | some o =>
    let lease := p.aux.headD 0 == 1
    match o.kind with
    | .ldt _ => (s.takeElements o p).completeOp o.id
    | _ =>
      let s := s.takeData o p lease
      let s := if lease && !o.mark then s.installLine o.core { p with disle := p.sisle, dunit := p.sunit } else s
      s.completeOp o.id

/-- DATA: read data arrive at a core, an engine or an agent of the base (R394). -/
def execDataArrive (isle unit : Nat) (s : State) : Result :=
  onPacket s isle unit 0x10 fun s p =>
    if s.isTicket p.tag then s.answerTicket p.tag p.data p.poison 0
    else if p.dstCore < 256 then s.coreData p
    else if 176 ≤ p.dunit ∧ p.dunit < 184 then s.engineData isle p
    else s

/-! ## Answers at a core: write-backs and acknowledgements (R130, R134, R405) -/

/-- A core's drain for a record has all its answers: DDONE with Gmax goes to the slice (R400). -/
def State.answerDreqs (s : State) : State :=
  s.drains.foldl
    (fun (s : State) e => match e.2.owner with
      | .dreq isle slice loc pa =>
        if e.2.pend.isEmpty then
          { s with drains := drop s.drains e.1 }.send
            { Packet.basic 0x21 vcC 0 (isleOf e.2.core) (unitOfCore e.2.core) isle slice e.2.ctx 0 with
              time := e.2.gmax, pa := pa, loc := loc }
        else s
      | _ => s) s

/-- What a holder answers to its region home (R405). -/
def State.sendUnits (s : State) (core ctx region typ units : Nat) : State :=
  let r := s.region region
  s.send { Packet.basic typ vcC 0 (isleOf core) (unitOfCore core) r.hisle r.hslice ctx 0 with
    aux := [region, units, core] }

/-- The answers of a holder that wait for no write-back any more are sent; a share of no units is forgotten
(R405). -/
def State.answerShares (s : State) (core : Nat) : State :=
  (s.core core).shares.foldl
    (fun (s : State) h =>
      if h.drains.isEmpty && !h.answer.isEmpty then
        let s := h.answer.foldl (fun (s : State) a => s.sendUnits core h.ctx h.region a.1 a.2) s
        if h.units = 0 ∧ h.asked = false then
          s.updCore core fun c =>
            { c with shares := c.shares.filter fun x => !(x.ctx == h.ctx && x.region == h.region) }
        else s.updShare core h.ctx h.region fun x => { x with answer := [] }
      else s) s

/-- A write-back acknowledged (R130, R276, R405): the drains, the `wback` parts and the shares that wait for it. -/
def State.landFlight (s : State) (tag gwct : Nat) (f : Flight) : State :=
  let s := s.landed tag gwct
  let back (x : Part) : Part := if x.st = .sent ∧ x.data2 = tag ∧ x.data2 ≠ 0 then { x with st := .done } else x
  let backOp (o : Op) : Op := { o with parts := o.parts.map back }
  let s := { s with ops := s.ops.map backOp }
  let s := s.answerDreqs
  if 8192 ≤ f.core then
    let core := f.core - 8192
    let s := s.updCore core fun c => { c with shares := c.shares.map fun h =>
      { h with drains := h.drains.filter (· != tag) } }
    s.answerShares core
  else s

/-- The add of a lane that waits for a line or share goes to the element's home (R149, R407). -/
def State.addAtHome (s : State) (o : Op) (p : Part) (region : Nat) : State :=
  let (q, st) := quantise96 (BitVec.ofNat 32 p.data) (s.region region).exponent
  s.sendHzq o p region q st

/-- The lanes of a core's `hzadd`s that wait and satisfy a condition go to their homes. -/
def State.waitersHome (s : State) (core ctx region : Nat) (p : Part → Bool) : State :=
  s.ops.foldl
    (fun (s : State) o =>
      if o.kind = .hzadd ∧ o.core = core ∧ o.ctx = ctx ∧ o.stage = .running then
        (o.parts.filter fun x => x.st == .todo && p x && s.regionAt x.pa == some region).foldl
          (fun (s : State) x => s.addAtHome o x region) s
      else s) s

/-- The directory's or filter's answer to a DOPEN (R407): the line opens, or its adds go to their home; a
refusal of the directory undoes the filter's record, and so does a core that has no line for it any more. -/
def State.openAnswer (s : State) (p : Packet) : State :=
  let core := p.dstCore
  let loc := p.aux.getD 1 0
  let own (d : Delta) : Bool := d.ctx == p.ctx && d.loc == loc && !d.opened
  let full := decide (s.lineRoom core < (s.core core).lines.length + (s.core core).deltas.length)
  match (s.core core).deltas.find? own with
  | none => s
  | some d =>
    if p.aux.headD 0 = 0 ∧ full = false then
      s.updCore core fun c => { c with deltas := c.deltas.map fun x => if own x then { x with opened := true } else x }
    else
      let s := s.updCore core fun c => { c with deltas := c.deltas.filter fun x => !own x }
      let s := if p.aux.headD 0 = 1 then s else s.sendNotice 0x2A core d 0
      s.waitersHome core p.ctx d.region fun x => x.line == loc

/-- The parts of an operation that an acknowledgement is for. -/
def Op.acknowledged (o : Op) (p : Packet) : Part → Bool := fun x =>
  x.st == .sent && match o.kind with
    | .hzadd => x.lane == p.aux.headD 0 && x.line == p.loc / 128 * 128
    | .settle => x.pa == p.aux.headD 0
    | _ => x.line == p.loc / 128 * 128

/-- ACK at a core: a write-back, a write or add at home, a settle, or a DOPEN. -/
def State.coreAck (s : State) (p : Packet) : State :=
  if p.sunit = unitFilter then s.openAnswer p
  else
    match s.flights.find? fun e => e.1 == p.tag with
    | some e => s.landFlight p.tag p.time e.2
    | none =>
      match s.op? p.tag with
      | some o => (s.updParts o.id (o.acknowledged p) fun x => { x with st := .done }).completeOp o.id
      | none => s

/-- ACK: a write is acknowledged at a core, an engine or an agent of the base (R394). -/
def execAckArrive (isle unit : Nat) (s : State) : Result :=
  onPacket s isle unit 0x11 fun s p =>
    if s.isTicket p.tag then s.answerTicket p.tag 0 0 p.time
    else if p.dstCore < 256 then s.coreAck p
    else if 176 ≤ p.dunit ∧ p.dunit < 184 then s.engineAck p.tag p.time
    else s

/-! ## Atomics and exclusive lines at a core (R279, R402) -/

/-- The old values of an atomic's answer: lane, value, poison. -/
def oldValues : List Nat → List (Nat × Nat × Bool)
  | a :: b :: c :: t => (a, b, c == 1) :: oldValues t
  | _ => []

/-- ATR: the old values of an atomic arrive (R279); an agent's atomic has one element, whose value its answer holds. -/
def execAtr (isle unit : Nat) (s : State) : Result :=
  onPacket s isle unit 0x12 fun s p =>
    if s.isTicket p.tag then
      s.answerTicket p.tag (BitVec.ofNat 1024 (p.aux.getD 1 0)) (if p.aux.getD 2 0 = 1 then 15 else p.poison) 0
    else
      match s.op? p.tag with
      | none => s
      | some o =>
        let s := (oldValues p.aux).foldl
          (fun (s : State) e => s.updParts o.id (fun x => x.lane == e.1 && x.st == .sent) fun x =>
            { x with data := e.2.1, poison := e.2.2 || p.poison != 0, st := .done }) s
        s.completeOp o.id

/-- A line returns to home (R402). -/
def State.returnLine (s : State) (core : Nat) (l : L1Line) : State := s.evict core l

/-- XGNT: an exclusive lease with the line (R144, R402): the atomic that asked for it performs in the line, its lanes in
ascending order (R279). DESIGN CHOICE: the core's own dirty bytes stay beside it and are drained after it (R147,
notes/assumptions/60). A core that has lost its last cache bank since
returns the line at once (R108). -/
def execXgnt (isle unit : Nat) (s : State) : Result :=
  onPacket s isle unit 0x13 fun s p =>
    let core := p.dstCore
    let s := match s.l1 core p.ctx p.loc with
      | some _ => s.updLines core (fun x => x.ctx == p.ctx && x.loc == p.loc) fun x => { x with
          valid := true, lease := p.time, data := lineMerge x.dirty x.data p.data, poison := p.poison
          excl := some p.time, recalled := false, xdata := p.data }
      | none =>
        let s := s.makeRoom core
        let l : L1Line :=
          ⟨p.ctx, p.loc, p.pa, p.sisle, p.sunit, true, p.time, 0, p.data, p.poison, some p.time, false, p.data⟩
        s.updCore core fun c => { c with lines := c.lines ++ [l] }
    let s := match s.op? p.tag with
      | some o =>
        match o.kind with
        | .atomic op esz wide vec _ =>
          let (w, count) := atomicShape esz wide vec
          (s.atomicHere o op w count (o.answered p)).completeOp o.id
        | _ => s
      | none => s
    if s.lineRoom core = 0 then
      match s.l1 core p.ctx p.loc with
      | some l => s.returnLine core l
      | none => s
    else s

/-- RECALL: the holder of an exclusive line returns it (R402). -/
def execRecall (isle unit : Nat) (s : State) : Result :=
  onPacket s isle unit 0x28 fun s p =>
    match (s.core p.dstCore).lines.find? fun l => l.loc == p.loc && l.excl.isSome with
    | some l => s.returnLine p.dstCore l
    | none => s

/-- The exclusive line of a core at a location whose lease has ended. -/
def State.endedLease (s : State) (core loc : Nat) : Option L1Line :=
  (s.core core).lines.find? fun l => l.loc == loc && match l.excl with
    | some e => decide (e ≤ s.ptime)
    | none => false

/-- EXCLUSIVE_LEASE_END: the lease end passes, and the holder returns the line (R402). -/
def execExclusiveLeaseEnd (core loc : Nat) (s : State) : Result :=
  match s.endedLease core loc with
  | some l => .next (s.returnLine core l)
  | none => .next s

/-! ## Drain requests (R134, R400) -/

/-- DREQ: the core drains the recorded context (R130, R134); for a core behind closed ports the base answers
(R400). -/
def execDreq (isle unit : Nat) (s : State) : Result :=
  onPacket s isle unit 0x20 fun s p =>
    if s.closedUnit isle unit then s.send { p.reply 0x21 vcC 0 with time := s.ptime }
    else (s.startDrain p.dstCore p.ctx (.dreq p.sisle p.sunit p.loc p.pa)).answerDreqs

/-! ## Shares at a core (R149, R150, R404, R405) -/

/-- SHGNT: the answer to a share request: units, or 0, which sends the waiting adds to their homes (R149,
R404). -/
def execShgnt (isle unit : Nat) (s : State) : Result :=
  onPacket s isle unit 0x23 fun s p =>
    let core := p.dstCore
    let region := p.aux.headD 0
    let units := p.aux.getD 1 0
    if units = 0 then
      let s := s.waitersHome core p.ctx region fun _ => true
      match s.share? core p.ctx region with
      | some h =>
        if h.answer.isEmpty && h.drains.isEmpty then
          s.updCore core fun c =>
            { c with shares := c.shares.filter fun x => !(x.ctx == p.ctx && x.region == region) }
        else s.updShare core p.ctx region fun h => { h with asked := false }
      | none => s
    else s.updShare core p.ctx region fun h =>
      { h with asked := false, units := units, tracker := 0, lastAdd := s.ptime }

/-- A holder owes its home an answer, sent once its write-backs are acknowledged (R405). -/
def State.owe (s : State) (core ctx region typ units : Nat) : State :=
  (s.updShare core ctx region fun h => { h with answer := h.answer ++ [(typ, units)] }).answerShares core

/-- SPLIT: a holder halves its share (R404); one that is already giving it up answers 0 (R405). It drains its delta lines if
its tracker exceeds the new share, as R404 says of R150's drain (DEDUCED, notes/assumptions/70). -/
def execSplitShare (isle unit : Nat) (s : State) : Result :=
  onPacket s isle unit 0x24 fun s p =>
    let core := p.dstCore
    let region := p.aux.headD 0
    match s.share? core p.ctx region with
    | none => s.sendUnits core p.ctx region 0x25 0
    | some h =>
      if !h.answer.isEmpty then s.owe core p.ctx region 0x25 0
      else
        let n := h.units / 2
        let exceeds := (num32 h.tracker).compare ((s.region region).shareBound n) == some .greater
        let s := if exceeds then s.drainRegion core p.ctx region else s
        let s := s.updShare core p.ctx region fun h => { h with units := n }
        s.owe core p.ctx region 0x25 (h.units - n)

/-- A holder drains its deltas of a region and gives up its share (R150, R152). -/
def State.surrender (s : State) (core ctx region : Nat) (h : Share) : State :=
  let s := s.drainRegion core ctx region
  let s := s.updShare core ctx region fun h => { h with units := 0, tracker := 0 }
  s.owe core ctx region 0x27 h.units

/-- SETTLE: a holder surrenders its share; one that is already answering gives 0 (R152, R405). -/
def execSettle (isle unit : Nat) (s : State) : Result :=
  onPacket s isle unit 0x26 fun s p =>
    let core := p.dstCore
    let region := p.aux.headD 0
    match s.share? core p.ctx region with
    | none => s.sendUnits core p.ctx region 0x27 0
    | some h =>
      if h.answer.isEmpty then s.surrender core p.ctx region h else s.owe core p.ctx region 0x27 0

/-- Whether a share has seen no add for 64 µs (R150). -/
def State.idleShare (s : State) (h : Share) : Bool :=
  h.units != 0 && h.answer.isEmpty && decide (h.lastAdd + 64000 ≤ s.ptime)

/-- HAZE_IDLE_SURRENDER (R150). -/
def execHazeIdleSurrender (core ctx region : Nat) (s : State) : Result :=
  match s.share? core ctx region with
  | some h => .next (if s.idleShare h then s.surrender core ctx region h else s)
  | none => .next s

/-! ## Region homes (R152, R404 to R406) -/

/-- The state with a region's entry changed. -/
def State.updRegion (s : State) (r : Nat) (f : Region → Region) : State :=
  { s with regions := place s.regions r (f (s.region r)) }

/-- The largest outstanding share: ties to the lower core, then the lower context (R404). -/
def Region.largest (r : Region) : Option (Nat × Nat × Nat) :=
  r.shares.foldl
    (fun best x => match best with
      | none => some x
      | some y =>
        if y.2.2 < x.2.2 ∨ (x.2.2 = y.2.2 ∧ (x.1 < y.1 ∨ (x.1 = y.1 ∧ x.2.1 < y.2.1))) then some x else some y) none

/-- The units outstanding. -/
def Region.outstanding (r : Region) : Nat := (r.shares.map fun x => x.2.2).sum

/-- Units recorded for a holder. -/
def Region.record (r : Region) (core ctx units : Nat) : Region :=
  let rest := r.shares.filter fun x => !(x.1 == core && x.2.1 == ctx)
  { r with shares := if units = 0 then rest else rest ++ [(core, ctx, units)] }

/-- The units of a holder. -/
def Region.unitsOf (r : Region) (core ctx : Nat) : Nat :=
  ((r.shares.find? fun x => x.1 == core && x.2.1 == ctx).map fun x => x.2.2).getD 0

/-- A message of a region home to a holder; the base answers itself for a core that has left the map (R408). -/
def State.toHolder (s : State) (region typ core ctx : Nat) (aux : List Nat) : State :=
  let r := s.region region
  s.send { Packet.basic typ vcC 0 r.hisle r.hslice (isleOf core) (unitOfCore core) ctx 0 with aux := aux }

/-- The answer to a share request from the units left: half of them (R404). -/
def State.grantShare (s : State) (region : Nat) (p : Packet) : State :=
  let r := s.region region
  let core := p.aux.getD 1 0
  let g := r.unalloc / 2
  let s := if g = 0 then s else s.updRegion region fun r =>
    { r with unalloc := r.unalloc - g }.record core p.ctx (r.unitsOf core p.ctx + g)
  s.toHolder region 0x23 core p.ctx [region, g]

/-- A share request refused (R404). -/
def State.refuseShare (s : State) (region : Nat) (p : Packet) : State :=
  s.toHolder region 0x23 (p.aux.getD 1 0) p.ctx [region, 0]

/-- The share requests of a region are taken in arrival order until one waits for a split (R404). -/
def State.serveAsks (s : State) (region : Nat) : List Packet → State
  | [] => s.updRegion region fun r => { r with asks := [] }
  | p :: t =>
    let r := s.region region
    if !r.loads.isEmpty then (s.refuseShare region p).serveAsks region t
    else if 2 ^ 32 ≤ r.unalloc then (s.grantShare region p).serveAsks region t
    else
      match r.largest with
      | none => (s.refuseShare region p).serveAsks region t
      | some x =>
        if x.2.2 < 2 then (s.refuseShare region p).serveAsks region t
        else (s.toHolder region 0x24 x.1 x.2.1 [region]).updRegion region fun r =>
          { r with splitting := some x.1, asks := p :: t }

/-- Whether a message of a holder counts: the units of a core that has left the map have come back already (R405,
R408). -/
def State.holderStands (s : State) (core : Nat) : Bool := (s.chip (isleOf core)).state == 0

/-- SHREQ: a share request at the region home (R404); that of a core that has left the map since has no effect. -/
def execShreq (isle unit : Nat) (s : State) : Result :=
  onPacket s isle unit 0x22 fun s p =>
    let region := p.aux.headD 0
    let r := s.region region
    if s.holderStands (p.aux.getD 1 0) = false then s
    else if r.splitting.isSome then s.updRegion region fun r => { r with asks := r.asks ++ [p] }
    else s.serveAsks region [p]

/-- Whether the outstanding shares, as an exact real number, are at most the tolerance of a code (R152, R406);
code 256 stands for a settle, which waits for every share. -/
def Region.within (r : Region) (code : Nat) : Bool :=
  let units := r.outstanding
  if code = 0 ∨ code = 256 then units == 0
  else
    let sum := ((numOfInt units).mul (num32 r.bound)).scale (-40)
    units == 0 || (sum.compare ((numOfInt 1).scale ((code : Int) - 150)) != some .greater)

/-- A tolerant load or settle whose tolerance has been reached: the element is read at its home for the core
(R406), or the settle is acknowledged. -/
def State.finishLoad (s : State) (region : Nat) (p : Packet) : State :=
  let r := s.region region
  if p.aux.getD 1 0 = 256 then s.answerAck p s.ptime
  else s.send { Packet.basic 0x02 vcL 0 r.hisle r.hslice (p.aux.getD 2 0) (p.aux.getD 3 0) p.ctx p.tag with
    pa := p.pa / 128 * 128, loc := p.loc / 128 * 128, aux := [0, 1, p.sisle, p.sunit, p.aux.getD 4 0] }

/-- Whether a request is a settle of the same `hzsettle` as another. -/
def sameSettle (p : Packet) (e : Nat × Packet) : Bool :=
  e.1 == 256 && e.2.tag == p.tag && e.2.sisle == p.sisle && e.2.sunit == p.sunit

/-- Whether no share of any region of an `hzsettle` is outstanding: all its settles, as many as AUX says, have reached
their region homes, and each home has every unit back (R153). -/
def State.allSettled (s : State) (p : Packet) : Bool :=
  let mine := s.regions.filter fun e => e.2.loads.any (sameSettle p)
  mine.length == p.aux.getD 5 1 && mine.all fun e => e.2.within 256

/-- An `hzsettle` completes: its settles are acknowledged together, and its regions grant shares again (R153). -/
def State.finishSettle (s : State) (p : Packet) : State :=
  if s.allSettled p then
    s.regions.foldl
      (fun (s : State) e =>
        let mine := e.2.loads.filter (sameSettle p)
        let s := s.updRegion e.1 fun r => { r with loads := r.loads.filter fun x => !sameSettle p x }
        mine.foldl (fun (s : State) x => s.finishLoad e.1 x.2) s) s
  else s

/-- The tolerant loads of a region go on (R152, R153, R406): those within their tolerance return, and an `hzsettle` whose
regions have all settled; for the others the largest holder is told to settle, one at a time. -/
def State.serveLoads (s : State) (region : Nat) : State :=
  let over_ (r : Region) (e : Nat × Packet) : Bool := e.1 != 256 && r.within e.1
  let r := s.region region
  let ready := r.loads.filter (over_ r)
  let s := s.updRegion region fun r => { r with loads := r.loads.filter fun e => !over_ r e }
  let s := ready.foldl (fun (s : State) e => s.finishLoad region e.2) s
  let s := (r.loads.filter fun e => e.1 == 256).foldl (fun (s : State) e => s.finishSettle e.2) s
  let r := s.region region
  if r.loads.isEmpty || !r.settling.isEmpty then s
  else
    match r.largest with
    | none => s
    | some x => (s.toHolder region 0x26 x.1 x.2.1 [region]).updRegion region fun r =>
        { r with settling := [(x.1, x.2.1)] }

/-- TOLERANT_LOAD_REQUEST: an LDT, or the settle of an `hzsettle`, at the region home (R406). -/
def execTolerantLoadRequest (isle unit : Nat) (s : State) : Result :=
  onPacket s isle unit 0x06 fun s p =>
    let region := p.aux.headD 0
    (s.updRegion region fun r => { r with loads := r.loads ++ [(p.aux.getD 1 0, p)] }).serveLoads region

/-- Units given up by a holder go back to U (R404, R405). -/
def State.giveBack (s : State) (region core ctx units : Nat) : State :=
  s.updRegion region fun r =>
    { r with unalloc := r.unalloc + units }.record core ctx (r.unitsOf core ctx - units)

/-- The units that a split has won stand in U: the request that waited for them is answered, and those behind it are
taken (R404). -/
def State.splitOver (s : State) (region : Nat) : State :=
  let asks := (s.region region).asks
  let s := s.updRegion region fun r => { r with splitting := none, asks := [] }
  match asks with
  | [] => s
  | q :: t =>
    let s := if (s.region region).loads.isEmpty then s.grantShare region q else s.refuseShare region q
    s.serveAsks region t

/-- SPDONE: the units of a split come back, and the request that waited is answered (R404). -/
def execSpdone (isle unit : Nat) (s : State) : Result :=
  onPacket s isle unit 0x25 fun s p =>
    let region := p.aux.headD 0
    let core := p.aux.getD 2 0
    if s.holderStands core then (s.giveBack region core p.ctx (p.aux.getD 1 0)).splitOver region else s

/-- SURR: a share comes back, after a settle or 64 µs without an add (R405, R406). -/
def execSurr (isle unit : Nat) (s : State) : Result :=
  onPacket s isle unit 0x27 fun s p =>
    let region := p.aux.headD 0
    let core := p.aux.getD 2 0
    if s.holderStands core then
      let s := s.giveBack region core p.ctx (p.aux.getD 1 0)
      let s := s.updRegion region fun r => { r with settling := r.settling.filter (· != (core, p.ctx)) }
      s.serveLoads region
    else s

/-! ## Filters and directories (R407) -/

/-- The key of a line in a cluster's filter. -/
def filterKey (cluster loc : Nat) : Nat := cluster * 2 ^ 60 + loc / 128

/-- The key of a tracking region in an isle's directory. -/
def dirKey (isle loc : Nat) : Nat := isle * 2 ^ 60 + loc / 512

/-- The entries of a table that belong to a cluster or isle. -/
def entriesOf (m : SMap (List Nat)) (n : Nat) : Nat := (m.filter fun e => e.1 / 2 ^ 60 == n).length

/-- The answer to a DOPEN: 0 opens, 1 is a filter's refusal, 2 a directory's. -/
def State.answerOpen (s : State) (p : Packet) (r : Nat) : State :=
  let core := p.aux.getD 1 0
  s.send { Packet.basic 0x11 vcR 0 p.disle unitFilter (isleOf core) (unitOfCore core) p.ctx p.tag with
    pa := p.pa, loc := p.loc, aux := [r, p.aux.headD 0] }

/-- DOPEN: at the core's cluster filter, which records the core and forwards the notice, or at the directory,
which records the cluster and answers (R407). -/
def execDopen (isle unit : Nat) (s : State) : Result :=
  onPacket s isle unit 0x29 fun s p =>
    let loc := p.aux.headD 0
    let core := p.aux.getD 1 0
    let cluster := clusterOf core
    if (s.chip (isleOf core)).state ≠ 0 then s
    else if p.aux.length = 5 then
      let k := dirKey p.disle loc
      if look [] s.directory k = [] ∧ 65536 ≤ entriesOf s.directory p.disle then s.answerOpen p 2
      else { s with directory := place s.directory k ((cluster :: look [] s.directory k).dedup) }.answerOpen p 0
    else
      let k := filterKey cluster loc
      if look [] s.filters k = [] ∧ 16384 ≤ entriesOf s.filters cluster then s.answerOpen p 1
      else { s with filters := place s.filters k ((core :: look [] s.filters k).dedup) }.send
        { p with sisle := p.disle, sunit := unitFilter, disle := p.aux.getD 2 0, dunit := unitFilter
                 aux := p.aux ++ [1] }

/-- Whether a cluster's filter holds a line of a tracking region. -/
def State.filterHolds (s : State) (cluster loc : Nat) : Bool :=
  [0, 1, 2, 3].any fun i => look [] s.filters (filterKey cluster (loc / 512 * 512 + 128 * i)) != []

/-- DCLOSE: undoes the filter's record and, with the cluster's last line of the tracking region, the
directory's (R407). -/
def execDclose (isle unit : Nat) (s : State) : Result :=
  onPacket s isle unit 0x2A fun s p =>
    let loc := p.aux.headD 0
    let core := p.aux.getD 1 0
    let cluster := clusterOf core
    if p.aux.length = 5 then
      let k := dirKey p.disle loc
      { s with directory := put [] s.directory k ((look [] s.directory k).filter (· != cluster)) }
    else
      let k := filterKey cluster loc
      let s := { s with filters := put [] s.filters k ((look [] s.filters k).filter (· != core)) }
      if s.filterHolds cluster loc then s
      else s.send { p with
        sisle := p.disle, sunit := unitFilter, disle := p.aux.getD 2 0, dunit := unitFilter, aux := p.aux ++ [1] }

/-! ## Barrier units (R287, R425, R426) -/

/-- Whether a gang is device-wide (R53). -/
def State.deviceWide (s : State) (k : Nat) : Bool := (s.gang k).field 540 1 == 1

/-- The blocks of a gang that have not retired. -/
def State.waitingBlocks (s : State) (k : Nat) : List Nat := (s.gang k).blocks.filter fun b => !(s.blk b).retired

/-- The release of barrier `g` to the blocks of a gang whose cores lie on an isle, or to all (R425). -/
def State.releaseBlocks (s : State) (k g isle : Nat) (all : Bool) : State :=
  (s.waitingBlocks k).foldl
    (fun (s : State) b =>
      let x := s.blk b
      if all || isleOf x.core == isle then
        s.send { Packet.basic 0x30 vcC 0 isle unitBarrier (isleOf x.core) (unitOfCore x.core) (s.gang k).ctx 0 with
          aux := [k, g, x.num, 1] }
      else s) s

/-- The slew limiter starts: no core of the gang is admitted (R426). -/
def State.startSlew (s : State) (k : Nat) : State :=
  let s := (s.gangCores k).foldl (fun (s : State) c => s.updCore c fun x => { x with admitted := false }) s
  { s with timers := put 0 s.timers 5500 0 }.updDisp fun d => { d with slewAt := some s.bclk, slewGang := some k }

/-- The key of the arrivals that a unit has counted: the gang's own unit, an isle's unit of a device-wide gang, or
the unit of isle 0 that counts the isles. -/
def barKey (g level : Nat) : Nat := level * 16 + g

/-- Arrivals recorded at a unit. -/
def State.arrivedAt (s : State) (k key : Nat) : List Nat := look [] (s.gang k).gar key

/-- The arrivals at a unit changed. -/
def State.setArrived (s : State) (k key : Nat) (l : List Nat) : State :=
  s.updGang k fun x => { x with gar := put [] x.gar key l }

/-- The phase of barrier `g` completes if every block that has not retired has arrived (R425). -/
def State.unitCheck (s : State) (k g : Nat) : State :=
  let done (s : State) : State := s.updGang k fun x => { x with gph := place x.gph g (look 0 x.gph g + 1) }
  if s.deviceWide k then
    let s := (List.range 16).foldl
      (fun (s : State) isle =>
        let mine := (s.waitingBlocks k).filter fun b => isleOf (s.blk b).core == isle
        let key := barKey g (1 + isle)
        let l := s.arrivedAt k key
        if !l.isEmpty && mine.all (fun b => l.contains (s.blk b).num) then
          (s.setArrived k key []).send { Packet.basic 0x30 vcC 0 isle unitBarrier 0 unitBarrier (s.gang k).ctx 0 with
            aux := [k, g, 1000 + isle, 0] }
        else s) s
    let l := s.arrivedAt k (barKey g 17)
    let isles := ((s.waitingBlocks k).map fun b => isleOf (s.blk b).core).dedup
    if !l.isEmpty && isles.all l.contains then
      let s := (done (s.setArrived k (barKey g 17) [])).startSlew k
      (List.range 16).foldl
        (fun (s : State) isle => s.send { Packet.basic 0x30 vcC 0 0 unitBarrier isle unitBarrier (s.gang k).ctx 0 with
          aux := [k, g, 1000 + isle, 1] }) s
    else s
  else
    let l := s.arrivedAt k (barKey g 0)
    if !l.isEmpty && (s.waitingBlocks k).all (fun b => l.contains (s.blk b).num) then
      (done (s.setArrived k (barKey g 0) [])).releaseBlocks k g (s.gang k).unit true
    else s

/-- BAR_ARRIVAL: an arrival at a barrier unit (R425). -/
def execBarArrival (isle unit : Nat) (s : State) : Result :=
  match s.nextOf isle unit 0x30 with
  | some p =>
    if p.aux.getD 3 0 = 0 then
      onPacket s isle unit 0x30 fun s p =>
        let k := p.aux.headD 0
        let g := p.aux.getD 1 0
        let n := p.aux.getD 2 0
        let (key, x) := if 1000 ≤ n then (barKey g 17, n - 1000)
          else if s.deviceWide k then (barKey g (1 + p.disle), n) else (barKey g 0, n)
        (s.setArrived k key (s.arrivedAt k key ++ [x])).unitCheck k g
    else .next s
  | none => .next s

/-- The completion of a gang barrier at a block's core (R287): the acquire, then the counters of the phase; arrivals made
since the block's own count for the phase that begins, and a block
whose groups have nothing left to arrive with arrives for the next phase. -/
def State.gbarComplete (s : State) (b g : Nat) : State :=
  let x := s.blk b
  let ctx := (s.gang x.gang).ctx
  let s := x.cores.foldl (fun (s : State) c => s.selfInvalidate c ctx) s
  let s := s.updBlk b fun y => { y with gbarDone := y.gbarDone.filter (· != g) }
  let ended (o : Op) : Op :=
    if o.stage = .phase ∧ x.groups.contains o.grp then
      if o.kind = .gbar g false then { o with stage := .finished }
      else if o.kind = .gbar g true then { o with kind := .gbar g false }
      else o
    else o
  { s with ops := s.ops.map ended }.gbarCheck b g

/-- BAR_RELEASE: a release at a block's core, or at an isle's unit of a device-wide gang (R425). -/
def execBarRelease (isle unit : Nat) (s : State) : Result :=
  match s.nextOf isle unit 0x30 with
  | some p =>
    if p.aux.getD 3 0 = 1 then
      onPacket s isle unit 0x30 fun s p =>
        let k := p.aux.headD 0
        let g := p.aux.getD 1 0
        let n := p.aux.getD 2 0
        if 1000 ≤ n then s.releaseBlocks k g p.disle false
        else
          match (s.gang k).blocks.find? fun b => (s.blk b).num == n && (s.blk b).live with
          | some b => s.gbarComplete b g
          | none => s
    else .next s
  | none => .next s

/-- The cores of the gang under the slew limiter that request a burst and are not admitted, in core order from
SLEWPTR (R426). -/
def State.slewOrder (s : State) (k : Nat) : List Nat :=
  let l := (s.gangCores k).filter fun c => s.wantsArray c && !(s.core c).admitted
  sortBy (fun a b => decide ((a + 256 - s.disp.slewptr) % 256 < (b + 256 - s.disp.slewptr) % 256)) l

/-- Whether a window of the slew limiter starts now with a request. -/
def State.slewDue (s : State) : Bool :=
  match s.disp.slewAt, s.disp.slewGang with
  | some t, some k => decide (t ≤ s.bclk) && (s.bclk - t) % 64 == 0 &&
      look 0 s.timers 5500 != s.bclk + 1 && !(s.slewOrder k).isEmpty
  | _, _ => false

/-- SLEW_WINDOW: a window admits the first SLEWA cores (R426). -/
def execSlewWindow (s : State) : Result :=
  if s.slewDue then
    let l := (s.slewOrder (s.disp.slewGang.getD 0)).take s.disp.slewa
    let s := { s with timers := place s.timers 5500 (s.bclk + 1) }
    let s := l.foldl (fun (s : State) c => s.updCore c fun x => { x with admitted := true }) s
    .next (match l.getLast? with
      | some c => s.updDisp fun d => { d with slewptr := (c + 1) % 256 }
      | none => s)
  else .next s

/-! ## What is due -/

/-- The events of cores that time brings. -/
def State.dueCores (s : State) : List Instr :=
  s.cores.flatMap fun e =>
    (e.2.lines.filterMap fun l => match l.excl with
      | some t => if t ≤ s.ptime then some (.exclusiveLeaseEnd e.1 l.loc) else none
      | none => none) ++
    (e.2.shares.filter s.idleShare).map fun h => .hazeIdleSurrender e.1 h.ctx h.region

end Sys2Proof.Machine
end

