-- ==== Sys2Proof/Machine/Rings.lean ====
section
/-!
DEFINITION. Task queues (R412 to R417, R427 to R429): records, descriptors, capabilities, rings and held
pushes.
-/
namespace Sys2Proof.Machine

/-! ## Records (R412) -/

/-- The 512 bits of a record as fields. -/
def recordOf (w : Nat) : Record :=
  ⟨BitVec.ofNat 64 (bits w 0 64), BitVec.ofNat 64 (bits w 64 64), BitVec.ofNat 64 (bits w 128 64),
    BitVec.ofNat 64 (bits w 192 64), BitVec.ofNat 64 (bits w 256 64), w.testBit 320, w.testBit 321⟩

/-- The 64 bytes of a record. -/
def Record.bytes (r : Record) : List Nat :=
  leBytes 64 (r.code.toNat + r.frame.toNat * 2 ^ 64 + r.join.toNat * 2 ^ 128 + r.desc.toNat * 2 ^ 192 +
    r.image.toNat * 2 ^ 256 + bit r.resume * 2 ^ 320 + bit r.restart * 2 ^ 321)

/-- Whether a descriptor obeys R414: its reserved bits are zero, its fields in range, H large enough, and a
device-wide gang has 256 single blocks. -/
def descOk (d : Nat) : Bool :=
  let f (lo wd : Nat) : Nat := bits d lo wd
  f 541 3 == 0 && f 566 10 == 0 && f 585 7 == 0 && f 605 3 == 0 && f 848 176 == 0 &&
  decide (f 529 5 ≤ 16) && decide (f 534 6 ≤ 32) && decide (f 544 22 ≤ 3145728) && decide (f 576 9 ≤ 256) &&
  decide (f 592 7 ≤ 64) && decide (f 599 6 ≤ 32) && f 599 6 % 4 == 0 &&
  decide ((f 544 22 + (Config.bankBytes - 1)) / Config.bankBytes + f 599 6 ≤ f 534 6) &&
  (f 540 1 == 0 || (f 512 8 == 255 && f 520 1 == 0))

/-! ## What the scheduler asks for (R357, R394, R491) -/

/-- What an access of the scheduler comes to: a wait, a failure, or the line that has come with its poison marks. -/
inductive SchedReply where
  | wait (s : State)
  | bad
  | got (d : LineData) (poison : Nat)
deriving DecidableEq, Repr

/-- A request of the scheduler about the line of a physical address, made once and kept under `key`. -/
def State.schedAsk (s : State) (a : Agent) (key : Nat) (p : Packet) : SchedReply :=
  match s.ask a key p with
  | .wait s => .wait s
  | .got d poison => .got d poison

/-- The line of a physical address, read at home by the scheduler, which is a unit of isle 0 (R414, R491), or where its
space goes (R373); an address that names no memory fails. -/
def State.schedRead (s : State) (a : Agent) (key ctx pa : Nat) : SchedReply :=
  if s.namesMemory pa then
    s.schedAsk a key { linePacket 0x02 vcL 0 0 unitSched ctx (s.physHome pa) pa with aux := [0, 0, 0, 0] }
  else .bad

/-- An access of the scheduler to a virtual address, translated by the shared cache and walkers of isle 0 with the
permissions of R380 (R357), unless its answer has come already. -/
def State.schedVirt (s : State) (a : Agent) (key ctx : Nat) (va : W64) (acc : Access)
    (mk : Option Home → Nat → Packet) : SchedReply :=
  match (s.ticket a).lines.find? fun e => e.1 == key with
  | some e => .got e.2.1 e.2.2
  | none =>
    match s.lookup (.agent a) none 0 ctx va acc with
    | .miss => .wait (s.startWalk (.agent a) 0 ctx va)
    | .bad _ => .bad
    | .ok x => (s.tookWalks (.agent a)).schedAsk a key (mk (s.homeOfXl ctx x) x.pa)

/-- The line of a virtual address read by the scheduler (R357, R373). -/
def State.schedLoad (s : State) (a : Agent) (key ctx : Nat) (va : W64) : SchedReply :=
  s.schedVirt a key ctx va .read fun h pa => { linePacket 0x02 vcL 0 0 unitSched ctx h pa with aux := [0, 0, 0, 0] }

/-- The scheduler has done with an agent's accesses. -/
def State.schedForget (s : State) (a : Agent) : State := (s.tookWalks (.agent a)).dropTicket a

/-- Whether an agent of the scheduler waits for an answer or a walk. -/
def State.schedWaits (s : State) (a : Agent) : Bool :=
  s.asking a || s.walkFor (· == .agent a)

/-- Whether `n` bytes at an offset of a line lie in a poisoned sector. -/
def poisonedIn (poison off n : Nat) : Bool :=
  (List.range 4).any fun i => poison.testBit i && decide (off < 32 * (i + 1)) && decide (32 * i < off + n)

/-! ## Queues (R415) -/

/-- A queue's control register. -/
def State.qctl (s : State) (n : Nat) : Queue := look Queue.reset s.disp.queues n

/-- The state with a queue changed. -/
def State.updQ (s : State) (n : Nat) (f : Queue → Queue) : State :=
  s.updDisp fun d => { d with queues := place d.queues n (f (look Queue.reset d.queues n)) }

/-- The physical address of a ring index (R415). -/
def Queue.slot (q : Queue) (j : Nat) : Nat := q.base + 64 * (j % q.len)

/-- Records in a ring: TAIL − HEAD modulo 2^32. -/
def Queue.count (q : Queue) : Nat := (q.tail + 2 ^ 32 - q.head) % 2 ^ 32

/-- A wake or push dropped (R417, R427): DROPS counts it, and source 67 is raised. -/
def State.dropQueue (s : State) (n : Nat) : State :=
  ((s.updQ n fun q => { q with drops := min 65535 (q.drops + 1) }).updMgmt fun m =>
    { m with events := m.events + 1 }).interrupt 67

/-- The queue number that a capability names. -/
def capQueue (cap : Nat) : Nat := bits cap 96 10

/-- The check of a capability (R417) with the right that bit `right` grants. -/
def State.capOk (s : State) (cap right : Nat) : Bool :=
  let q := s.qctl (capQueue cap)
  (Config.capSeal (BitVec.ofNat 160 cap)).toNat == bits cap 160 64 && cap.testBit right &&
  bits cap 108 4 == 0 && bits cap 118 10 == 0 && bits cap 224 32 == 0 &&
  bits cap 0 64 == q.base && bits cap 64 32 == q.len && bits cap 112 6 == q.owner && bits cap 128 32 == q.nonce &&
  q.en

/-! ## Writing into rings (R356, R427 to R429, R491) -/

/-- A write of 64 bytes at a physical address, by a unit of isle 0 (R394, R491): to its home, or where its space goes
(R373). -/
def ringWrite (s : State) (unit ctx pa : Nat) (bytes : List Nat) : Packet :=
  { linePacket 0x03 vcL 1 0 unit ctx (s.physHome pa) pa with
    bmask := lineMask (pa % 128) 64, data := lineSet 0 (pa % 128) 64 (leNum bytes), aux := [0] }

/-- The pushes of a queue that take a place in its ring already: they are to be written, or on their way (R427). -/
def State.pushesDue (s : State) (n : Nat) : List HeldPush :=
  s.disp.held.filter fun h => h.queue == n && h.at_ != .held

/-- Whether a ring has room for one more record (R427). -/
def State.ringRoom (s : State) (n : Nat) : Bool :=
  decide ((s.qctl n).count + (s.pushesDue n).length < (s.qctl n).len)

/-- A record that is to be written at the tail of a queue, or at its front (R429): held while the ring is full (R427). -/
def State.putRecord (s : State) (n : Nat) (bytes : List Nat) (front : Bool) : State :=
  let h : HeldPush := ⟨n, bytes, front, if s.ringRoom n then .due else .held⟩
  s.updDisp fun d => { d with held := if front then h :: d.held else d.held ++ [h] }

/-- A push (R427): written at the tail, or held. -/
def State.pushRecord (s : State) (n : Nat) (bytes : List Nat) : State := s.putRecord n bytes false

/-- A record returned to the front of its queue (R429). -/
def State.returnRecord (s : State) (n : Nat) (bytes : List Nat) : State := s.putRecord n bytes true

/-- A list of pushes with the first of its entries that is `h` standing at `a`. -/
def setPush (h : HeldPush) (a : PushAt) : List HeldPush → List HeldPush
  | [] => []
  | x :: t => if x = h then { x with at_ := a } :: t else x :: setPush h a t

/-- A queue's held pushes tried again after a pop, oldest first (R428): as many as the ring has room for are to be
written. -/
def State.retryHeld (s : State) (n : Nat) : List HeldPush → State
  | [] => s
  | h :: t =>
    if h.queue = n ∧ h.at_ = .held then
      if s.ringRoom n then State.retryHeld (s.updDisp fun d => { d with held := setPush h .due d.held }) n t else s
    else State.retryHeld s n t

/-- The push of a queue that is on its way, or the first that is to be written. -/
def State.nextPush (s : State) (n : Nat) : Option HeldPush :=
  ((s.pushesDue n).find? fun h => h.at_ == .sent).orElse fun _ => (s.pushesDue n).head?

/-- Whether a returned record is being written at a queue's front: no record is popped meanwhile. -/
def State.frontBusy (s : State) (n : Nat) : Bool := (s.pushesDue n).any (·.front)

/-- A queue's next push goes on (R427, R429): its record is written at index TAIL, or HEAD − 1 for a returned one, at home,
and once that is acknowledged TAIL or HEAD moves. A slot that names no memory drops it, and a returned one is reported to
the queue's owner. -/
def State.stepRing (s : State) (n : Nat) : State :=
  match s.nextPush n with
  | none => s
  | some h =>
    let q := s.qctl n
    let j := if h.front then (q.head + 2 ^ 32 - 1) % 2 ^ 32 else q.tail
    let pa := q.slot j
    let ended (s : State) : State :=
      (s.dropTicket (.ring n)).updDisp fun d => { d with held := d.held.erase h }
    if h.at_ = .due ∧ s.namesMemory pa = false then
      let s := (ended s).dropQueue n
      if h.front then s.report ⟨0x06, 0, q.owner, 1023, 0, 0, 255, 0, 0, 0, 0, BitVec.ofNat 64 pa⟩ else s
    else
      match s.ask (.ring n) 0 (ringWrite s unitSched q.owner pa h.bytes) with
      | .wait s => if s.asking (.ring n) then s.updDisp fun d => { d with held := setPush h .sent d.held } else s
      | .got _ _ =>
        let s := if h.front then s.schedForget (.queue n) else s
        (ended s).updQ n fun q => if h.front then { q with head := j } else { q with tail := (q.tail + 1) % 2 ^ 32 }

/-- Every queue's next push goes on. -/
def State.stepRings (s : State) : State :=
  ((s.disp.held.filter fun h => h.at_ != .held).map (·.queue)).dedup.foldl (fun (s : State) n => s.stepRing n) s

/-- The first report that is still to be written goes on (R356): it is written into its context's ring at home, as a release
at package scope, and once package time has passed the write's GWCT FRTAIL moves and the context's source is raised.
DESIGN CHOICE: the management controller writes it (notes/assumptions/19). -/
def State.stepReport (s : State) : State :=
  match s.mgmt.reportQ with
  | [] => s
  | r :: t =>
    let fresh := (s.ticket .report).pend.isEmpty && (s.ticket .report).lines.isEmpty
    if fresh && !s.hasRing r.ctx then (s.updMgmt fun m => { m with reportQ := t }).dropReport r.ctx
    else
      match s.ask .report 0 (ringWrite s unitMgmt r.ctx (s.reportSlot r.ctx) (leBytes 64 (r.bits s.ptime))) with
      | .wait s => s
      | .got _ _ =>
        if (s.ticket .report).gmax < s.ptime then
          (((s.dropTicket .report).updMgmt fun m => { m with reportQ := t }).updCtx r.ctx fun x =>
            { x with frtail := (x.frtail + 1) % 2 ^ 32 }).interrupt r.ctx
        else s

end Sys2Proof.Machine
end

