-- ==== Sys2Proof/Machine/Preempt.lean ====
section
/-!
DEFINITION. Pre-emption (R358 to R363): quiescing, the handlers, the checkpoint image, and restoration.
-/
namespace Sys2Proof.Machine

/-! ## The size of an image (R362) -/

/-- A section's size, padded to 64 bytes. -/
def pad64 (n : Nat) : Nat := (n + 63) / 64 * 64

/-- The sides of a block. -/
def Block.sides (b : Block) : List Nat := if b.pair then [0, 1] else [0]

/-- The bytes of a block's banks with a role, on all its sides. -/
def Block.roleBytes (b : Block) (role : Nat) : Nat :=
  (b.sides.map fun i => (b.banksWith i role).length * Config.bankBytes).sum

/-- The bytes of an image of a gang with every data section present (R362). -/
def State.imageSize (s : State) (k : Nat) : Nat :=
  64 + ((s.gang k).blocks.map fun b =>
    let x := s.blk b
    let regs := (x.groups.map fun g => 128 * (s.grp g).n).sum
    1728 + 1024 * x.groups.length + pad64 regs + pad64 (x.roleBytes 1) + pad64 (x.roleBytes 2) +
      pad64 (1024 * x.accRows * x.sides.length)).sum

/-- The header of an image (R362): the block count is held modulo 256. -/
def imageHeader (len blocks groups : Nat) (pair : Bool) : Nat :=
  len % 2 ^ 32 + blocks % 256 * 2 ^ 32 + groups % 256 * 2 ^ 40 + bit pair * 2 ^ 48

/-- Whether an image's header agrees with a descriptor (R414). -/
def headerAgrees (header desc : Nat) : Bool :=
  bits header 32 8 == (bits desc 512 8 + 1) % 256 && bits header 40 8 == bits desc 521 5 + 1 &&
  bits header 48 1 == bits desc 520 1

/-! ## Quiescing (R358) -/

/-- Whether a stopped command stands at its boundary, with nothing in flight. -/
def State.cmdRests (s : State) (c : Cmd) : Bool :=
  c.stopped && (c.stage == .waiting || c.stage == .running) && (s.readySector c).isNone &&
  c.pend.all fun e => c.kind == .tstoreHz && !(s.ops.any fun o => o.id == e.1)

/-- The groups of a gang that have not retired. -/
def State.liveOf (s : State) (k : Nat) : List Nat :=
  (s.gangGroups k).filter fun g => (s.grp g).live && !(s.grp g).retired

/-- Whether a drain for a phase of a block barrier of a gang is under way (R134). -/
def State.barDrains (s : State) (k : Nat) : Bool :=
  s.drains.any fun e => match e.2.owner with
    | .bar b _ _ => (s.blk b).gang == k
    | _ => false

/-- Whether nothing of a gang is on its way: array operations, register writes, memory operations, held engine
instructions, commands, tests of transaction barriers, and barrier messages and drains. -/
def State.settled (s : State) (k : Nat) : Bool :=
  let gs := s.gangGroups k
  !s.arrayBusy k && !s.barDrains k && (s.txDue.all fun e => (s.blk e.1).gang != k) &&
  (s.heldEng.all fun h => !gs.contains h.issue.grp) &&
  (s.liveOf k).all (fun g => (s.grp g).pend.isEmpty && (s.grp g).sysWait.isNone) &&
  s.ops.all (fun o => !gs.contains o.grp || o.staysOwed) &&
  (s.cmds.all fun c => (s.blk c.blk).gang != k || s.cmdRests c) &&
  s.packets.all fun p => p.typ != 0x30 || p.aux.headD 0 != k

/-- The commands of a gang stop at their next boundary, or go on from their vectors. -/
def State.stopCommands (s : State) (k : Nat) (b : Bool) : State :=
  let set (c : Cmd) : Cmd := if (s.blk c.blk).gang = k then { c with stopped := b } else c
  { s with cmds := s.cmds.map set }

/-- The sequencers of a gang stop, or go on. -/
def State.stopSequencers (s : State) (k : Nat) (b : Bool) : State :=
  (s.gang k).blocks.foldl (fun (s : State) i => s.updBlk i fun x => { x with seq := { x.seq with stopped := b } }) s

/-- A pre-emption begins (R358): groups, sequencers and commands of the gang stop, the groups with their next clock: a
trap of this clock is taken first (R348). -/
def State.beginPreempt (s : State) (k : Nat) (img : W64) (len : Nat) : State :=
  let s := s.updGang k fun g => { g with pre := .quiesce (s.ptime + Config.preemptNs), img := img, imgLen := len }
  let s := (s.liveOf k).foldl (fun (s : State) g => s.updGrp g fun x => { x with stopNext := true }) s
  (s.stopSequencers k true).stopCommands k true

/-- Whether a gang has quiesced. -/
def State.quiesced (s : State) (k : Nat) : Bool :=
  match (s.gang k).pre with
  | .quiesce _ => (s.gang k).live && s.settled k && (s.liveOf k).all fun g => !(s.grp g).stopNext
  | _ => false

/-! ## Saving (R359 to R362) -/

/-- Whether a group has ended its handler or takes no part in it. -/
def Group.doneSaving (x : Group) : Bool := x.pdone.isSome || x.hwsave || x.halted

/-- The mask in force for a group: what its `pdone` named, or everything (R360, R361). -/
def Group.saveMask (x : Group) : Nat := x.pdone.getD 31

/-- A fibre as an image holds it: one that waits for a page issues its instruction again (R355). -/
def Fibre.forImage (f : Fibre) : Fibre :=
  match f.wait with
  | .page _ => { f with wait := .none, wdog := 0 }
  | _ => { f with wdog := 0 }

/-- A group as an image holds it (R359 to R361). -/
def Group.forImage (x : Group) : Group :=
  let c := x.saved.getD x.ctl
  { x with
    ctl := { c with fibs := c.fibs.map Fibre.forImage }
    regs := if x.saveMask.testBit 0 then x.regs else []
    sregs := if x.saveMask.testBit 1 then x.sregs else []
    pend := [], handler := .none, saved := none, hwsave := x.pdone.isNone, stopped := false, walkHold := false
    sysWait := none, stopNext := false, haltReq := false, stepping := false, slotAt := none, readyAt := 0 }

/-- The mask of a block's data sections: that of its group 0 (R360, R361). -/
def State.blockMask (s : State) (b : Nat) : Nat := (s.grp ((s.blk b).groups.headD 0)).saveMask

/-- The saved bytes of a block's side, by the index of the held bank. -/
def State.savedBytes (s : State) (b side mask : Nat) : SMap Byte :=
  let x := s.blk b
  let banks := x.banksAt side
  (s.core (x.coreAt side)).bytes.filterMap fun e =>
    let bank := e.1 / Config.bankBytes
    let i := banks.idxOf bank
    if banks.contains bank && ((x.roleOf i == 1 && mask.testBit 2) || (x.roleOf i == 2 && mask.testBit 3)) then
      some (i * Config.bankBytes + e.1 % Config.bankBytes, e.2)
    else none

/-- The saved accumulator cells of a block's side, counted from its first row. -/
def State.savedCells (s : State) (b side mask : Nat) : SMap W32 :=
  let x := s.blk b
  let first := 256 * x.accFirst side
  if mask.testBit 4 then
    (s.core (x.coreAt side)).acc.filterMap fun e =>
      if first ≤ e.1 ∧ e.1 < first + 256 * x.accRows then some (e.1 - first, e.2) else none
  else []

/-- What pre-emption captures of a gang once it has quiesced (R358, R359): the control state of its blocks and its stopped
commands, whose queue entries are freed. -/
def State.captureGang (s : State) (k : Nat) : State :=
  let of_ (b : Nat) : Capture := ⟨s.blk b, s.cmds.filter (·.blk == b), []⟩
  (s.updGang k fun g => { g with captured := g.blocks.map of_ }).takeCommands k

/-- The `i`-th block of a gang as an image holds it (R361, R362): what was captured, with the groups and the data as they
stand. Group indices become numbers in the block. -/
def State.blockImage (s : State) (k i : Nat) : BlockImage :=
  let b := (s.gang k).blocks.getD i 0
  let c := (s.gang k).captured.getD i ⟨s.blk b, [], []⟩
  let x := c.block
  let mask := s.blockMask b
  let num (g : Nat) : Nat := x.groups.idxOf g
  let late := s.ops.filter fun o => x.groups.contains o.grp && o.staysOwed
  let bar (z : BlockBar) : BlockBar := { z with owners := z.owners.map num }
  let own (o : Op) : Op := { o with grp := num o.grp }
  let cmd (c : Cmd) : Cmd := { c.toBoundary with grp := c.grp.map num, pend := [] }
  { block := { x with bars := x.bars.map bar, gbarIn := x.gbarIn.map fun e => (e.1, e.2.map num) }
    groups := x.groups.map fun g => (s.grp g).forImage
    bytes := x.sides.map fun j => s.savedBytes b j mask
    cells := x.sides.map fun j => s.savedCells b j mask
    cmds := c.cmds.map cmd
    owed := (c.owed ++ late).map own }

/-! ## The bytes of an image (R362, notes/assumptions/20) -/

/-- A number that is written little-endian in `n` bytes. -/
def wordsLe (n : Nat) (l : List Nat) : List Nat := l.flatMap (leBytes n)

/-- A section padded with zeros to `n` bytes. -/
def padded (n : Nat) (l : List Nat) : List Nat := l ++ List.replicate (n - l.length) 0

/-- The code of what a fibre waits for, in five bits: nothing, a mask, or a block barrier; a fibre that waits for a page, a
tile or a transaction barrier issues its instruction again. -/
def Wait.code : Wait → Nat
  | .mask m => 1 + m
  | .bar k _ => 13 + k
  | .arv k => 13 + k
  | _ => 0

/-- The 16 bytes of a lane in the group record. -/
def Fibre.imageBytes (f : Fibre) : List Nat :=
  leBytes 8 f.pc.toNat ++ leBytes 2 f.pred.toNat ++
  [f.wb, f.age, bit f.occ + 2 * bit f.yielding + 4 * bit f.isleMark + 8 * f.wait.code, 0, 0, 0]

/-- An owed decrement in two bytes: the counter, whether a `gbar`, the barrier, and the phase it waits for. -/
def Op.owedCode (o : Op) : Nat :=
  match o.kind with
  | .bar k p => o.sb + 16 * k + 256 * (p.getD 0)
  | .gbar g next => o.sb + 8 + 16 * g + 256 * bit next
  | _ => 0

/-- The 1,024 bytes of a group's record; `n` is its number in the block. -/
def BlockImage.groupBytes (i : BlockImage) (n : Nat) : List Nat :=
  let x := i.groups.getD n Group.empty
  let c := x.ctl
  let owed := i.owed.filter fun o => o.grp == n && o.sb != 0
  padded 1024
    (c.fibs.flatMap Fibre.imageBytes ++
     wordsLe 4 ((List.range 12).map fun m => (look 0 c.masks m).toNat) ++
     wordsLe 4 ((List.range 12).map fun m => (look 0 c.marr m).toNat) ++
     wordsLe 4 ((List.range 16).map fun k => (look 0 c.barArr k).toNat) ++
     wordsLe 4 ((List.range 32).map fun k => (look 0 x.sregs k).toNat) ++
     padded 128 ((List.range 6).map (fun k => look 0 c.sb (k + 1)) ++ [0, 0] ++
       leBytes 2 c.awb ++ leBytes 2 c.awl ++ [bit c.trapMode, 0, 0, 0] ++ leBytes 8 c.tvec.toNat ++
       wordsLe 4 [c.tcause.toNat, c.tlanes.toNat, c.tolanes.toNat, c.tidx] ++ leBytes 8 c.tpc.toNat ++
       leBytes 8 c.taddr.toNat ++ wordsLe 2 ((owed.map Op.owedCode).take 36)) ++
     [x.saveMask] ++ wordsLe 4 ((List.range 16).map fun k => (look 0 c.gbarArr k).toNat))

/-- The 64 bytes of a saved command: the instruction's words and its descriptor. A copy has eleven registers of descriptor,
the tile with marks for a command of the stream and one that has started, the counter with the group's number, and the
iteration vector; a loop, which is the stream's, fourteen registers of it. -/
def Cmd.imageBytes (c : Cmd) : List Nat :=
  let word (k : Nat) : Nat := c.desc.getD k 0
  leBytes 8 c.words ++
  if c.kind = .mloop then wordsLe 4 ((List.range 14).map word)
  else
    wordsLe 4 ((List.range 11).map word) ++
    [c.tile + 64 * bit (c.stage == .running) + 128 * bit c.grp.isNone, c.sb + 8 * c.grp.getD 0] ++
    wordsLe 2 ((List.range 5).map fun k => c.vector.getD k 0)

/-- The vector registers of a group: lane by lane. -/
def Group.vectorBytes (x : Group) : List Nat :=
  (List.range 32).flatMap fun l => wordsLe 4 ((List.range x.n).map fun e => (look 0 x.regs (64 * l + e)).toNat)

/-- The saved bytes of a side's banks with a role, bank after bank. -/
def BlockImage.bankBytes (i : BlockImage) (side role : Nat) : List Nat :=
  let b := i.block
  ((List.range (b.banksAt side).length).filter fun j => b.roleOf j == role).flatMap fun j =>
    (List.range Config.bankBytes).map fun o =>
      (look 0 (i.bytes.getD side []) (j * Config.bankBytes + o)).toNat

/-- The place of the stream's first loop among saved commands, or else of its first command that has started. -/
def BlockImage.stoppedAt (i : BlockImage) : Option Nat :=
  match i.cmds.findIdx? fun c => c.kind == .mloop with
  | some n => some n
  | none => i.cmds.findIdx? fun c => c.grp.isNone && c.stage == .running

/-- The 64 bytes of the sequencer (R362): the next stream word, P_k of the barriers, and one stopped command with its iteration
vector: its place among the saved commands, counted from 1, whether it has started, the vector, and what its 64 bytes do not
hold of a loop's descriptor. -/
def BlockImage.seqBytes (i : BlockImage) : List Nat :=
  let stopped : List Nat := match i.stoppedAt with
    | some n =>
      match i.cmds[n]? with
      | some c => [n + 1, bit (c.stage == .running)] ++ wordsLe 2 ((List.range 5).map fun k => c.vector.getD k 0) ++
          (if c.kind = .mloop then wordsLe 4 ((List.range 8).map fun k => c.desc.getD (14 + k) 0) else [])
      | none => []
    | none => []
  padded 64 (leBytes 4 i.block.seq.off ++ i.block.bars.map (·.pk) ++ stopped)

/-- The data sections of a record. -/
def BlockImage.dataBytes (i : BlockImage) : List Nat :=
  let b := i.block
  let mask := (i.groups.headD Group.empty).saveMask
  let data (l : List Nat) : List Nat := padded (pad64 l.length) l
  data ((i.groups.filter fun x => x.saveMask.testBit 0).flatMap Group.vectorBytes) ++
  data (if mask.testBit 2 then b.sides.flatMap fun j => i.bankBytes j 1 else []) ++
  data (if mask.testBit 3 then b.sides.flatMap fun j => i.bankBytes j 2 else []) ++
  data (if mask.testBit 4 then b.sides.flatMap fun j =>
    wordsLe 4 ((List.range (256 * b.accRows)).map fun c => (look 0 (i.cells.getD j []) c).toNat) else [])

/-- The record of a block in an image (R362). The tile table is the lower core's; the upper core's of a pair stands in the
model's own copy. -/
def BlockImage.record (i : BlockImage) : List Nat :=
  let b := i.block
  let flags (f : Group → Bool) : Nat := leBits (i.groups.map f)
  padded 64 (leBytes 8 b.brole.toNat ++ [bit b.allocOpen, (i.groups.headD Group.empty).saveMask, 0, 0] ++
    leBytes 4 (flags fun x => x.pdone.isSome) ++ leBytes 4 (flags fun x => x.hwsave) ++
    leBytes 4 (flags fun x => x.retired) ++ leBytes 4 (flags fun x => x.halted)) ++
  b.bars.flatMap (fun z => [z.expect, z.arrived, z.phase, 0]) ++
  wordsLe 8 ((List.range 64).map fun k => (b.tile 0 k).bits) ++
  i.seqBytes ++
  padded 1024 (i.cmds.flatMap Cmd.imageBytes) ++
  (List.range i.groups.length).flatMap i.groupBytes ++ i.dataBytes
where
  /-- The number whose bit i is the i-th of a list. -/
  leBits : List Bool → Nat
    | [] => 0
    | x :: t => bit x + 2 * leBits t

/-- The bytes of an image (R362). -/
def Image.bytes (i : Image) : List Nat :=
  let body := i.blocks.flatMap BlockImage.record
  let b := (i.blocks.map (·.block)).headD Block.empty
  leBytes 64 (imageHeader (64 + body.length) i.blocks.length b.groups.length b.pair) ++ body

/-- The image of a gang. -/
def State.imageOf (s : State) (k : Nat) : Image :=
  let g := s.gang k
  ⟨g.img.toNat, g.gno, g.original, g.gph, g.gar, (List.range g.blocks.length).map (s.blockImage k)⟩

/-- The image of a gang written at its address, or sent to where an address without a home goes (R373), and kept as the
model's own copy (R361, R362, notes/assumptions/20). -/
def State.writeImage (s : State) (k : Nat) : State :=
  let i := s.imageOf k
  let t := if spaceOf i.addr < 3 then s.writePhys i.addr i.bytes
    else s.writeOut ((s.gangCores k).headD 0) i.addr i.bytes
  { t with images := s.images.filter (fun x => x.addr != i.addr) ++ [i] }

/-- The gang is reported saved (R361, R429): its record goes back to the front of its queue with RESUME set, and
its resources are freed. -/
def State.reportSaved (s : State) (k : Nat) : State :=
  let g := s.gang k
  let s := s.freeGang k
  (s.returnRecord g.queue { g.record with resume := true, image := g.img }.bytes).svDone 0

/-- The hardware writes the image and releases the gang's stores (R139, R361). -/
def State.saveGang (s : State) (k : Nat) : State :=
  let s := (s.writeImage k).updGang k fun g => { g with pre := .saving }
  let gs := s.gangGroups k
  let s := { s with ops := s.ops.filter fun o => !gs.contains o.grp }
  let s := s.releaseGang k (.saved k)
  if s.drains.any fun d => d.2.owner == DrainOwner.saved k then s else s.reportSaved k

/-- An access to `n` bytes from a physical address on comes upon the lines there that cores hold exclusively, which are
recalled (R144, R402). -/
def State.recallWithin (s : State) (lo n : Nat) : State :=
  s.homes.foldl
    (fun (s : State) e => match e.2.site with
      | some (isle, slice, pa) =>
        if e.2.xhold.isSome && !e.2.recalled && decide (pa < lo + n) && decide (lo < pa + 128) then
          s.poke ⟨isle, slice, e.1 * 128⟩ pa
        else s
      | none => s) s

/-- Whether a core holds a line of a gang's image exclusively, so that the write waits (R144). -/
def State.imageHeld (s : State) (k : Nat) : Bool := s.heldWithin (s.gang k).img.toNat (s.imageSize k)

/-- The write of a gang's image comes upon the lines of it that cores hold exclusively, which are recalled (R144). -/
def State.recallImage (s : State) (k : Nat) : State := s.recallWithin (s.gang k).img.toNat (s.imageSize k)

/-- Whether every group of a gang in its handlers has ended them. -/
def State.mayStore (s : State) (k : Nat) : Bool :=
  match (s.gang k).pre with
  | .handlers _ => (s.gang k).live && (s.liveOf k).all (fun g => (s.grp g).doneSaving) && s.settled k
  | _ => false

/-- Whether a block's sequencer and commands stand still for the debugger: with DBGSTOP, while a group of it is halted (R364,
R365). -/
def State.debugStops (s : State) (b : Nat) : Bool :=
  (s.ctx (s.gang (s.blk b).gang).ctx).dbgstop && (s.blk b).groups.any fun g => (s.grp g).halted

/-- The captured control state of a block is restored (R363): barriers, roles, tile table, allocation phase, sequencer,
stopped commands and owed decrements. -/
def State.restoreControl (s : State) (b : Nat) (c : Capture) : State :=
  let x := s.blk b
  let stop := s.debugStops b
  let s := if x.brole = c.block.brole then s else s.setRoles b c.block.brole
  let s := s.updBlk b fun x => { x with
    bars := c.block.bars, tiles := c.block.tiles, allocOpen := c.block.allocOpen
    seq := { c.block.seq with stopped := stop, readyAt := 0 }, gbarDone := c.block.gbarDone, gbarIn := c.block.gbarIn }
  let s := c.cmds.foldl
    (fun (s : State) c =>
      let c : Cmd := { c with id := s.fresh, stopped := stop }
      let s := { s.took with cmds := s.cmds ++ [c] }
      s.updCore c.core fun x =>
        let x := { x with cq := x.cq ++ [c.id] }
        if c.kind = .mloop then
          (loopRowsFrom c ((s.blk b).accFirst 0) ((s.blk b).tile 0 c.tile).rowCount c.sent).foldl
            (fun x r => x.markBusy r 1 true) x
        else x) s
  c.owed.foldl
    (fun (s : State) o => { s.took with ops := s.ops ++ [{ o with id := s.fresh }] }) s

/-- A gang that is restored goes on (R363): the captured control state of its blocks is restored, and its groups issue. -/
def State.restoreEnds (s : State) (k : Nat) : State :=
  let g := s.gang k
  let s := (g.blocks.zip g.captured).foldl (fun (s : State) e => s.restoreControl e.1 e.2) s
  let s := s.updGang k fun g => { g with pre := .none, captured := [] }
  (s.liveOf k).foldl (fun (s : State) g => s.updGrp g fun x => { x with stopped := false }) s

/-- A gang whose handlers have all ended is saved, once no core holds a line of its image exclusively; one whose resume handlers
have all ended goes on (R361, R363). -/
def State.checkSaved (s : State) (k : Nat) : State :=
  if s.mayStore k then if s.imageHeld k then s.recallImage k else s.saveGang k
  else if (s.gang k).pre = .resuming ∧ (s.liveOf k).all (fun g => (s.grp g).handler == .none) = true then s.restoreEnds k
  else s

/-- PREEMPT_QUIESCED (R358, R359): the gang has quiesced, its control state is captured, and its groups enter the handler;
the groups of a gang without a handler, or past its deadline, are saved by the hardware alone. -/
def execPreemptQuiesced (ga : Nat) (s : State) : Result :=
  if s.quiesced ga then
    match (s.gang ga).pre with
    | .quiesce d =>
      let s := s.captureGang ga
      let s := s.updGang ga fun g => { g with pre := .handlers d }
      if (s.gang ga).preemptPc = 0 ∨ d ≤ s.ptime then
        .next ((s.liveOf ga).foldl
          (fun (s : State) g => s.updGrp g fun x => { x with stopped := true, hwsave := true }) s)
      else
        .next ((s.liveOf ga).foldl
          (fun (s : State) g => (s.updGrp g fun x => { x with stopped := !x.ctl.trapMode }).handlerDue g) s)
    | _ => .next s
  else .next s

/-- Whether a gang's handlers have run out of time (R358). -/
def State.deadlinePassed (s : State) (k : Nat) : Bool :=
  match (s.gang k).pre with
  | .handlers d => (s.gang k).live && decide (d ≤ s.ptime) && (s.liveOf k).any fun g => !(s.grp g).doneSaving
  | _ => false

/-- PREEMPT_DEADLINE (R361): the groups that have not executed `pdone` are stopped and saved by hardware. -/
def execPreemptDeadline (ga : Nat) (s : State) : Result :=
  if s.deadlinePassed ga then
    .next ((s.liveOf ga).foldl
      (fun (s : State) g => if (s.grp g).doneSaving then s
        else s.updGrp g fun x => { x with stopped := true, hwsave := true }) s)
  else .next s

/-- The pre-emption events that may come next. -/
def State.duePreempt (s : State) : List Instr :=
  let ks := List.range s.gangs.length
  (ks.filter s.quiesced).map .preemptQuiesced ++ (ks.filter s.deadlinePassed).map .preemptDeadline

/-! ## Restoration (R363) -/

/-- PRSTAT of a restored group (R363). -/
def Group.resumed (x : Group) : W32 :=
  BitVec.ofNat 32 (1 + 2 * bit x.hwsave + 4 * bit x.pdone.isSome + 2 ^ 8 * x.saveMask)

/-- The saved data of a block's side written to its new banks and rows (R363); what was not saved is zero. -/
def State.restoreSide (s : State) (b side : Nat) (i : BlockImage) : State :=
  let x := s.blk b
  let banks := x.banksAt side
  let first := 256 * x.accFirst side
  s.updCore (x.coreAt side) fun c =>
    { c with
      bytes := (i.bytes.getD side []).foldl
        (fun m e => put 0 m (banks.getD (e.1 / Config.bankBytes) 0 * Config.bankBytes + e.1 % Config.bankBytes) e.2)
        c.bytes
      acc := (i.cells.getD side []).foldl (fun m e => put 0 m (first + e.1) e.2) c.acc }

/-- A fibre restored (R163, R363): the header of its clause is fetched again, and in mid-clause it goes on with the word it
stands at, as after a `trapret`. -/
def Fibre.restored (f : Fibre) : Fibre :=
  { f with
    pc := (f.code.map (·.addr)).getD f.pc, code := none, bad := none, waited := false }

/-- A group restored (R363): its captured control state, with the accumulator window at its place in the new
allocation, and its saved registers; with a resume handler it enters that first. A halted group stays
halted. -/
def State.restoreGroup (s : State) (g : Nat) (x : Group) (oldFirst newFirst : Nat) (pc : W64) : State :=
  let s := s.updGrp g fun y =>
    { y with
      ctl := { x.ctl with fibs := x.ctl.fibs.map Fibre.restored, awb := x.ctl.awb - oldFirst + newFirst }
      regs := x.regs, sregs := x.sregs, prstat := x.resumed, halted := x.halted, retired := x.retired
      live := x.live }
  if x.retired = true then s
  else if pc = 0 ∨ x.halted = true then s.updGrp g fun y => { y with stopped := true }
  else s.enterHandler g .resume pc

/-- The roles of an old allocation's banks given to the banks of a new one, in order. -/
def Block.rolesFrom (b old : Block) : W64 :=
  BitVec.ofNat 64 ((List.range 32).foldl
    (fun (acc : Nat) bank =>
      let i := (b.banksAt 0).idxOf bank
      acc + (if (b.banksAt 0).contains bank then old.roleOf i else 3) * 2 ^ (2 * bank)) 0)

/-- What a restored block captures of its image (R363): its control state as it stands in the new place, its commands, and
the decrements it is owed. -/
def State.capturedAt (s : State) (b : Nat) (i : BlockImage) : Capture :=
  let x := s.blk b
  let old := i.block
  let index (n : Nat) : Nat := x.groups.getD n 0
  let bar (z : BlockBar) : BlockBar := { z with owners := z.owners.map index }
  let roles := x.rolesFrom old
  let ob (side : Nat) : List Nat := { x with brole := roles }.obBanks side
  let tile (e : Nat × Tile) : Nat × Tile :=
    let l := ob (e.1 / 64)
    (e.1, if e.2.alloc then { e.2 with bank := l.getD (e.2.start / 64 % l.length) 0 } else e.2)
  let cmd (c : Cmd) : Cmd :=
    { c with
      core := x.coreAt c.side, blk := b, grp := c.grp.map index
      row := if c.kind = .tstoreHz then c.row - old.accFirst c.side + x.accFirst c.side else c.row }
  let own (o : Op) : Op := { o with grp := index o.grp, core := (s.grp (index o.grp)).core }
  { block := { x with
      brole := roles, bars := old.bars.map bar, tiles := old.tiles.map tile, allocOpen := old.allocOpen, seq := old.seq
      gbarDone := old.gbarDone, gbarIn := old.gbarIn.map fun e => (e.1, e.2.map index) }
    cmds := i.cmds.map cmd
    owed := i.owed.map own }

/-- A block restored in its new place (R363): its control state, which resume handlers may read, its data and its groups. -/
def State.restoreBlock (s : State) (b : Nat) (i : BlockImage) (pc : W64) : State :=
  let old := i.block
  let c := (s.capturedAt b i).block
  let gs := (s.blk b).groups
  let s := s.updBlk b fun x => { x with
    brole := c.brole, bars := c.bars, tiles := c.tiles, allocOpen := c.allocOpen
    seq := { c.seq with stopped := true, readyAt := 0 }
    gbarDone := c.gbarDone, gbarIn := c.gbarIn, retired := old.retired, live := old.live }
  let s := old.sides.foldl (fun (s : State) side => s.restoreSide b side i) s
  (List.range i.groups.length).foldl
    (fun (s : State) n =>
      let x := i.groups.getD n Group.empty
      let side := if old.pair then n % 2 else 0
      s.restoreGroup (gs.getD n 0) x (old.accFirst side) ((s.blk b).accFirst side) pc) s

/-! ## Reading an image back (R363, notes/assumptions/20) -/

/-- What a lane's 16 bytes say of a fibre; `f` is the model's copy of it. A fibre whose PC is another than in the copy stands
at a clause header. -/
def Fibre.fromImage (f : Fibre) (b : BlockBar → Nat → Option Nat) (bars : List BlockBar) (rd : Nat → Nat → Nat) : Fibre :=
  let pc := BitVec.ofNat 64 (rd 0 8)
  let flags := rd 12 1
  let code := flags / 8
  let f := if f.pc = pc then f else f.atHeader pc
  let wait : Wait :=
    if code = 0 then (if f.wait.code = 0 then f.wait else .none)
    else if code ≤ 12 then .mask (code - 1)
    else if f.wait.code = code then f.wait
    else .bar (code - 13) (b (bars.getD (code - 13) BlockBar.none) (code - 13))
  { f with
    pc := pc, pred := BitVec.ofNat 16 (rd 8 2), wb := rd 10 1, age := rd 11 1, occ := flags.testBit 0
    yielding := flags.testBit 1, isleMark := flags.testBit 2, wait := wait }

/-- A map of `n` 32-bit words at an offset. -/
def wordsAt (rd : Nat → Nat → Nat) (off n first : Nat) : SMap W32 :=
  (List.range n).foldl (fun m k => put 0 m (first + k) (BitVec.ofNat 32 (rd (off + 4 * k) 4))) []

/-- What a group's record says of it; `x` is the model's copy. -/
def Group.fromImage (x : Group) (bars : List BlockBar) (rd : Nat → Nat → Nat) : Group :=
  let arr := wordsAt rd 608 16 0
  let phase (lane : Nat) (z : BlockBar) (k : Nat) : Option Nat :=
    if (look 0 arr k).getLsbD lane then some z.phase else some (phaseAfter z.phase)
  let fib (lane : Nat) : Fibre :=
    (x.ctl.fibs.getD lane Fibre.vacant).fromImage (phase lane) bars fun o n => rd (16 * lane + o) n
  { x with
    sregs := wordsAt rd 672 32 0
    ctl := { x.ctl with
      fibs := (List.range 32).map fib, masks := wordsAt rd 512 12 0, marr := wordsAt rd 560 12 0, barArr := arr
      gbarArr := wordsAt rd 929 16 0
      sb := (List.range 6).foldl (fun m k => put 0 m (k + 1) (rd (800 + k) 1)) []
      awb := rd 808 2, awl := rd 810 2, trapMode := (rd 812 1).testBit 0, tvec := BitVec.ofNat 64 (rd 816 8)
      tcause := BitVec.ofNat 32 (rd 824 4), tlanes := BitVec.ofNat 32 (rd 828 4), tolanes := BitVec.ofNat 32 (rd 832 4)
      tidx := rd 836 4, tpc := BitVec.ofNat 64 (rd 840 8), taddr := BitVec.ofNat 64 (rd 848 8) } }

/-- What a tile-table entry's 64 bits say; `ob` are the operand-buffer banks that BANK counts through. -/
def Tile.fromImage (t : Tile) (ob : List Nat) (v : Nat) : Tile :=
  if v = t.bits then t
  else
    let n := ob.length
    { Tile.empty with
      state := Machine.bits v 0 2, alloc := v.testBit 2, bank := Machine.bits v 3 5, off := Machine.bits v 8 11
      rows := Machine.bits v 19 4, rowb := Machine.bits v 23 4, fslot := Machine.bits v 27 3, txb := Machine.bits v 30 18
      start := 64 * (Machine.bits v 8 11 * n + ob.idxOf (Machine.bits v 3 5)) }

/-- What the data sections say: the vector registers of the groups that saved them, and the bytes and cells of the
block's banks and rows. -/
def BlockImage.withData (i : BlockImage) (rd : Nat → Nat → Nat) : BlockImage :=
  let b := i.block
  let mask := (i.groups.headD Group.empty).saveMask
  let vec (x : Group) : Nat := if x.saveMask.testBit 0 then 128 * x.n else 0
  let group (n : Nat) : Group :=
    let x := i.groups.getD n Group.empty
    let o := ((i.groups.take n).map vec).sum
    let regs : SMap W32 := (List.range 32).foldl
      (fun (m : SMap W32) l => (List.range x.n).foldl
        (fun (m : SMap W32) e => put 0 m (64 * l + e) (BitVec.ofNat 32 (rd (o + 4 * (x.n * l + e)) 4))) m) []
    if vec x = 0 then x else { x with regs := regs }
  let o1 := pad64 ((i.groups.map vec).sum)
  let size (role : Nat) : Nat := if mask.testBit (role + 1) then b.roleBytes role else 0
  let o2 := o1 + pad64 (size 1)
  let o3 := o2 + pad64 (size 2)
  let held (side role : Nat) : List Nat :=
    (List.range (b.banksAt side).length).filter fun j => b.roleOf j == role
  let bank (o side role : Nat) (m : SMap Byte) : SMap Byte :=
    if size role = 0 then m
    else
      let first := o + side * ((held 0 role).length * Config.bankBytes)
      (held side role).zipIdx.foldl
        (fun m e => (List.range Config.bankBytes).foldl
          (fun m k => put 0 m (e.1 * Config.bankBytes + k)
            (BitVec.ofNat 8 (rd (first + e.2 * Config.bankBytes + k) 1))) m) m
  { i with
    groups := (List.range i.groups.length).map group
    bytes := b.sides.map fun j => bank o2 j 2 (bank o1 j 1 [])
    cells := b.sides.map fun j =>
      if mask.testBit 4 then wordsAt rd (o3 + j * 1024 * b.accRows) (256 * b.accRows) 0 else [] }

/-- A command with nothing of it known. -/
def Cmd.blank : Cmd :=
  { id := 0, kind := .tcopy, core := 0, blk := 0, grp := none, sb := 0, side := 0, tile := 0, tileB := 0, run := ⟨0, 0, [], []⟩
    runB := ⟨0, 0, [], []⟩, pitch := [], acc := [], row := 0, rows := 0, c0 := 0, kk := 0, acq := false, rel := false
    scope := 0, cv := false, slot := 0, rnd := 0, iaddr := 0, words := 0, desc := [], stage := .waiting, sent := 0
    asked := 0, pend := [], got := [], buf := [], arrived := [], gmax := 0, stopped := true, fault := none, behind := 0 }

/-- The items before an iteration vector, the first count changing fastest (R312, R322). -/
def itemsBefore : List Nat → List Nat → Nat
  | n :: ns, v :: vs => v + n * itemsBefore ns vs
  | _, _ => 0

/-- A run descriptor from its eleven registers (R312). -/
def Run.ofDesc (d : List Nat) : Run :=
  let w (k : Nat) : Nat := d.getD k 0
  ⟨BitVec.ofNat 64 (w 0 + 2 ^ 32 * w 1), w 2, [w 3, w 5, w 7, w 9], [4, 6, 8, 10].map fun k => signedOf 32 (w k)⟩

/-- A copy from its words, its descriptor and its vector (R313 to R315); `first` gives the first row of a side's
allocation. -/
def Cmd.ofCopy (c : Cmd) (i : Instr) (upper : Bool) (first : Nat → Nat) (vec : List Nat) : Option Cmd :=
  let r := Run.ofDesc c.desc
  let n := itemsBefore (r.n0 :: r.n) vec
  match i with
  | .tcopy t _ acq rel scope _ _ rnd slot cv hi =>
    some { c with kind := .tcopy, run := r, tile := t, acq := acq, rel := rel, scope := scope, cv := cv, slot := slot
                  rnd := rnd, side := bit (hi || upper), sent := n }
  | .tstore t _ acq rel scope _ _ rnd slot cv hi =>
    some { c with kind := .tstore, run := r, tile := t, acq := acq, rel := rel, scope := scope, cv := cv, slot := slot
                  rnd := rnd, side := bit (hi || upper), sent := n }
  | .tstoreHz _ acq rel scope _ _ hi row rows1 c0 =>
    some { c with kind := .tstoreHz, run := r, acq := acq, rel := rel, scope := scope, rows := rows1 + 1
                  row := if c.grp.isNone then first (bit hi) + row else row, c0 := c0, kk := r.sectors * 2 / (rows1 + 1), side := bit (hi || upper), sent := 2 * n }
  | _ => none

/-- An `mloop` from its words, its descriptor and its vector (R306). -/
def Cmd.ofLoop (c : Cmd) (i : Instr) (vec : List Nat) : Option Cmd :=
  let w (k : Nat) : Nat := c.desc.getD k 0
  let dims := List.range 5
  let counts := dims.map fun d => bits (w (7 + 3 * d)) 0 16
  let at_ (k : Nat) : W64 := BitVec.ofNat 64 (w k + 2 ^ 32 * w (k + 1))
  let stride (k : Nat) : List Int := dims.map fun d => signedOf 32 (w (k + 3 * d))
  match i with
  | .mloop ta tb _ =>
    some { c with
      kind := .mloop, tile := ta, tileB := tb, run := ⟨at_ 0, 0, counts, stride 8⟩, runB := ⟨at_ 2, 0, counts, stride 9⟩
      pitch := [w 5, w 6]
      acc := dims.map fun d => (signedOf 8 (bits (w (7 + 3 * d)) 16 8), signedOf 8 (bits (w (7 + 3 * d)) 24 8))
      row := bits (w 4) 12 8, c0 := bits (w 4) 20 4, kk := bits (w 4) 0 12, sent := itemsBefore counts vec }
  | _ => none

/-- What the `n`-th 64 bytes of saved commands say; `old` is the model's copy of that command, `rd` and `sq` read them and
the sequencer's section. -/
def Cmd.fromImage (old : Option Cmd) (b : Block) (n : Nat) (rd sq : Nat → Nat → Nat) : Option Cmd :=
  let vector (f : Nat → Nat → Nat) (o : Nat) : List Nat := (List.range 5).map fun k => f (o + 2 * k) 2
  let same : Bool := match old with
    | some c => rd 0 64 == leNum c.imageBytes && (c.kind != .mloop || sq 20 1 != n + 1 ||
        (vector sq 22 == (List.range 5).map fun k => c.vector.getD k 0) &&
          ((List.range 8).all fun k => sq (32 + 4 * k) 4 == c.desc.getD (14 + k) 0))
    | none => false
  if same then old
  else
    let words := rd 0 8
    match accepted (decodeInstr 2 (words % 2 ^ 32) (words / 2 ^ 32)) with
    | some (.mloop ta tb sd) =>
      let first := (List.range 14).map fun k => rd (8 + 4 * k) 4
      let rest := if sq 20 1 = n + 1 then (List.range 8).map fun k => sq (32 + 4 * k) 4
        else (List.range 8).map fun k => (old.getD Cmd.blank).desc.getD (14 + k) 0
      let c := { Cmd.blank with words := words, desc := first ++ rest, stage := if sq 21 1 = 1 then .running else .waiting }
      c.ofLoop (.mloop ta tb sd) (if sq 20 1 = n + 1 then vector sq 22 else [])
    | some i =>
      let marks := rd 52 1
      let own := rd 53 1
      let grp := if marks.testBit 7 then none else some (own / 8)
      let c := { Cmd.blank with
        words := words, desc := (List.range 11).map fun k => rd (8 + 4 * k) 4, sb := own % 8, grp := grp
        stage := if marks.testBit 6 then .running else .waiting }
      c.ofCopy i (b.pair && grp.getD 0 % 2 == 1) b.accFirst (vector rd 54)
    | none => none

/-- An owed decrement from its two bytes, for group `n` (R358). -/
def Op.fromImage (n code : Nat) : Option Op :=
  let sb := code % 8
  let k := code / 16 % 16
  if sb = 0 then none
  else
    let kind : OpKind := if code.testBit 3 then .gbar k (code.testBit 8) else .bar k (some (code / 256 % 16))
    some { Op.blank n 0 0 0 sb kind with stage := .phase }

/-- What the record of a block says (R362, R363), over the model's copy `i` of a block: `rd o n` reads `n` bytes at an
offset of the record. -/
def BlockImage.fromBytes (i : BlockImage) (rd : Nat → Nat → Nat) : BlockImage :=
  let n := i.groups.length
  let brole := BitVec.ofNat 64 (rd 0 8)
  let ob := (List.range 32).filter fun k => bits brole.toNat (2 * k) 2 == 2
  let bar (k : Nat) : BlockBar := { i.block.bar k with
    expect := rd (64 + 4 * k) 1, arrived := rd (65 + 4 * k) 1, phase := rd (66 + 4 * k) 1, pk := rd (644 + k) 1 }
  let bars := (List.range 16).map bar
  let block := (List.range 64).foldl
    (fun (b : Block) k => b.updTile 0 k fun t => t.fromImage ob (rd (128 + 8 * k) 8))
    { i.block with brole := brole, allocOpen := (rd 8 1).testBit 0, bars := bars
                   seq := { i.block.seq with off := rd 640 4 } }
  let group (g : Nat) : Group :=
    let base := 1728 + 1024 * g
    let x := ((i.groups.getD g Group.empty).fromImage bars fun o m => rd (base + o) m)
    { x with
      pdone := if (rd 12 4).testBit g then some (rd (base + 928) 1) else none, hwsave := (rd 16 4).testBit g
      retired := (rd 20 4).testBit g, live := !(rd 20 4).testBit g, halted := (rd 24 4).testBit g }
  let sq (o m : Nat) : Nat := rd (640 + o) m
  let cmds := (List.range 16).filterMap fun k => Cmd.fromImage i.cmds[k]? i.block k (fun o m => rd (704 + 64 * k + o) m) sq
  let owed (g : Nat) : List Op :=
    let codes := (List.range 36).map fun k => rd (1728 + 1024 * g + 856 + 2 * k) 2
    let old := i.owed.filter fun o => o.grp == g
    let kept := old.filter fun o => o.sb != 0
    if codes == padded 36 ((kept.map Op.owedCode).take 36) then old
    else old.filter (fun o => o.sb == 0) ++ codes.filterMap (Op.fromImage g)
  { i with
    block := block, groups := (List.range n).map group, cmds := cmds ++ i.cmds.drop 16
    owed := (List.range n).flatMap owed }.withData fun o m => rd (1728 + 1024 * n + o) m

/-- The bytes of a block's record. -/
def BlockImage.size (i : BlockImage) : Nat := i.record.length

/-- The records of the blocks of an image, one after the other, read from a physical address over the model's copies. -/
def State.readBlocks (s : State) (pa : Nat) : List BlockImage → List BlockImage
  | [] => []
  | i :: t =>
    let j := i.fromBytes fun o n => s.readPhys (pa + o) n
    j :: State.readBlocks s (pa + j.size) t

/-- The image that a resume record names (R363): the copy of the image whose bytes stand at the address, wherever it was
written; else what the bytes say over the copy of the image written there, or over a gang that has just been placed. Of an image sent
to an address without a home the copy itself is taken (notes/assumptions/19). -/
def State.imageAt (s : State) (k pa : Nat) : Image :=
  let r := (s.gang k).record
  let same (i : Image) : Bool :=
    let l := i.bytes
    let o := i.original
    o.code == r.code && o.frame == r.frame && o.join == r.join && o.desc == r.desc && o.restart == r.restart &&
      s.readPhys pa l.length == leNum l
  let there := (s.images.find? fun i => i.addr == pa).getD (s.imageOf k)
  if 3 ≤ spaceOf pa then there
  else
    match s.images.find? same with
    | some i => i
    | none => { there with blocks := s.readBlocks (pa + 64) there.blocks }

/-- A gang restored from its image in the blocks it has been placed in (R363): it keeps its number and its
barrier phases. -/
def State.restoreGang (s : State) (k : Nat) (i : Image) : State :=
  let pc := (s.gang k).resumePc
  let bs := (s.gang k).blocks.zip i.blocks
  let s := s.updGang k fun g => { g with
    gno := i.gno, original := i.original, gph := i.gph, gar := i.gar, pre := .resuming
    captured := bs.map fun e => s.capturedAt e.1 e.2 }
  (bs.foldl (fun (s : State) e => s.restoreBlock e.1 e.2 pc) s).checkSaved k

end Sys2Proof.Machine
end

