-- ==== Sys2Proof/Machine/Queues.lean ====
section
/-!
DEFINITION. The global scheduler: popping records (R414, R418, R419), placement (R39, R51, R77, R105, R420 to
R422), remote-traffic holdback (R409, R423), retirement (R58, R59) and join counters (R55, R56, R427, R428).
-/
namespace Sys2Proof.Machine

/-! ## Refusals (R22, R414) -/

/-- A gang refused before it exists: a report of kind 0x06 with the ring entry's address (R22, R356). DESIGN CHOICE: its
GANG and BLOCK fields, for which the spec gives no value, are 0 (notes/assumptions/61). -/
def State.refuseGang (s : State) (ctx : Nat) (task : W64) : State :=
  s.report ⟨0x06, 0, ctx, 1023, 0, 0, 255, 0, 0, 0, 0, task⟩

/-! ## Remote-traffic holdback (R423) -/

/-- The isles of a context's partition whose chiplets are in the logical map (R386, R421). -/
def State.mapIsles (s : State) (ctx : Nat) : List Nat :=
  (s.partIsles (s.ctx ctx).part).filter fun i => (s.chip i).inMap

/-- Room on a core: groups per scheduler, free banks, occupied ranges of rows, and free tile entries (R421). -/
structure Room where
  scheds : List Nat
  banks : Nat
  rows : List (Nat × Nat)
  tiles : Nat
deriving DecidableEq, Repr

/-- A core with nothing on it. -/
def Room.empty : Room := ⟨[0, 0, 0, 0], 32, [], 64⟩

/-- The scheduler with the fewest groups, ties to the lower number, if it has fewer than 16 (R39). -/
def leastSched (l : List Nat) : Option Nat :=
  let n := l.foldl min 16
  if n < 16 then l.findIdx? (· == n) else none

/-- `n` groups given to schedulers one after the other: the schedulers they get, and the counts after (R39). -/
def giveGroups : Nat → List Nat → Option (List Nat × List Nat)
  | 0, l => some ([], l)
  | n + 1, l =>
    match leastSched l with
    | none => none
    | some i => (giveGroups n (l.modify i (· + 1))).map fun r => (i :: r.1, r.2)

/-- The lowest first row of a free range of `n` rows (R421). -/
def freeRows (taken : List (Nat × Nat)) (n : Nat) : Option Nat :=
  let fits (o : Nat) : Bool := decide (o + n ≤ 256) && taken.all fun t =>
    decide (o + n ≤ t.1) || decide (t.1 + t.2 ≤ o)
  (sortBy (fun x y => decide (x < y)) (0 :: taken.map fun t => t.1 + t.2)).find? fits

/-- What one block needs of a core (R421). -/
structure Shape where
  groups : List Nat
  h : Nat
  acc : Nat
  tiles : Nat
  pair : Bool
deriving DecidableEq, Repr

/-- The shape of a descriptor's blocks: the groups on each side (R49). -/
def shapeOf (desc : Nat) : Shape :=
  let n := bits desc 521 5 + 1
  let pair := desc.testBit 520
  ⟨if pair then [(n + 1) / 2, n / 2] else [n], bits desc 534 6, bits desc 576 9, bits desc 592 7, pair⟩

/-- A core's room after a block of a shape has taken its part of `groups` groups; `none` where it does not
fit. -/
def Room.take (r : Room) (sh : Shape) (groups : Nat) : Option Room :=
  match giveGroups groups r.scheds, freeRows r.rows sh.acc with
  | some (_, l), some o =>
    if sh.h ≤ r.banks ∧ sh.tiles ≤ r.tiles then
      some ⟨l, r.banks - sh.h, if sh.acc = 0 then r.rows else r.rows ++ [(o, sh.acc)], r.tiles - sh.tiles⟩
    else none
  | _, _ => none

/-- The rooms of the cores, by core number. -/
abbrev Rooms := SMap Room

/-- A core's room or, for a pair, both rooms of the pair, after one more block. -/
def takeAt (sh : Shape) (m : Rooms) (core : Nat) : Option Rooms :=
  let room (c : Nat) : Room := look Room.empty m c
  if sh.pair then
    match (room core).take sh (sh.groups.getD 0 0), (room (core + 1)).take sh (sh.groups.getD 1 0) with
    | some a, some b => some (place (place m core a) (core + 1) b)
    | _, _ => none
  else ((room core).take sh (sh.groups.getD 0 0)).map fun a => place m core a

/-- The cores or pairs of an isle that a block may be given to, in ascending order. -/
def seats (sh : Shape) (isle : Nat) : List Nat :=
  if sh.pair then (List.range 8).map fun i => 16 * isle + 2 * i else (List.range 16).map fun i => 16 * isle + i

/-- How many blocks of a shape a core can still take; a core holds at most 64 groups. -/
def capAt (sh : Shape) (core : Nat) : Nat → Rooms → Nat
  | 0, _ => 0
  | n + 1, m =>
    match takeAt sh m core with
    | some m => 1 + capAt sh core n m
    | none => 0

/-- How many blocks of a shape an isle can still take (R421). -/
def capOf (sh : Shape) (m : Rooms) (isle : Nat) : Nat := ((seats sh isle).map fun c => capAt sh c 64 m).sum

/-- The isle that the next block goes to: among the preferred isles with room, else among all with room, the
largest capacity, ties to the lower number (R421). -/
def chooseIsle (sh : Shape) (m : Rooms) (isles : List Nat) (pref : Nat) : Option Nat :=
  let caps := (isles.map fun i => (i, capOf sh m i)).filter fun e => e.2 != 0
  let first := caps.filter fun e => pref.testBit e.1
  let l := if first.isEmpty then caps else first
  (l.foldl
    (fun (best : Option (Nat × Nat)) e => match best with
      | some b => if b.2 < e.2 then some e else some b
      | none => some e) none).map (·.1)

/-- The cores of `n` blocks placed one after the other (R421). -/
def placeBlocks (sh : Shape) (isles : List Nat) (pref : Nat) : Nat → Rooms → Option (List Nat)
  | 0, _ => some []
  | n + 1, m =>
    match chooseIsle sh m isles pref with
    | none => none
    | some i =>
      match (seats sh i).findSome? fun c => (takeAt sh m c).map fun x => (c, x) with
      | some (c, x) => (placeBlocks sh isles pref n x).map (c :: ·)
      | none => none

/-- The cores of a gang's blocks in given rooms (R421): a device-wide gang takes every core in order. -/
def placeGang (desc : Nat) (isles : List Nat) (m : Rooms) : Option (List Nat) :=
  let sh := shapeOf desc
  if desc.testBit 540 then
    if isles.length = 16 ∧ (List.range 256).all (fun c => (takeAt sh m c).isSome) = true then some (List.range 256)
    else none
  else placeBlocks sh isles (bits desc 608 16) (bits desc 512 8 + 1) m

/-- The rooms of the part as it stands. -/
def State.rooms (s : State) : Rooms :=
  let used (m : Rooms) (x : Block) : Rooms :=
    x.sides.foldl
      (fun m side =>
        let c := x.coreAt side
        let r := look Room.empty m c
        let mine := (x.groups.map s.grp).filter fun g => g.live && !g.retired && g.core == c
        place m c
          { scheds := mine.foldl (fun l g => l.modify g.sched (· + 1)) r.scheds
            banks := r.banks - (x.banksAt side).length
            rows := if x.accRows = 0 then r.rows else r.rows ++ [(x.accFirst side, x.accRows)]
            tiles := r.tiles - x.nTiles }) m
  (s.blocks.filter (·.live)).foldl used []

/-- The isle that block 0 of a gang would go to (R421, R423). -/
def State.firstIsle (s : State) (ctx desc : Nat) : Option Nat :=
  if desc.testBit 540 then some 0 else chooseIsle (shapeOf desc) s.rooms (s.mapIsles ctx) (bits desc 608 16)

/-- Whether a record is held back (R423). -/
def State.heldBack (s : State) (ctx desc : Nat) : Bool :=
  let share := bits desc 624 16
  let hot (i : Nat) : Bool := look 0 s.disp.hot i == 1
  share != 0 && decide (share < look 0 s.disp.mload ctx) &&
  ((match s.firstIsle ctx desc with
    | some i => hot i
    | none => false) ||
   s.blocks.any fun b => b.live && (s.gang b.gang).ctx == ctx && b.cores.any fun c => hot (isleOf c))

/-- Whether the window's event of a kind is still to come: the window a timer has seen last. -/
def State.windowDue (s : State) (key : Nat) : Bool := decide (look 0 s.timers key < s.ptime / 10000)

/-- TRAFFIC_WINDOW: the strait counters of the completed window are latched; flit slots of this base clock and later ones
count in the new window (R409). -/
def execTrafficWindow (s : State) : Result :=
  if s.windowDue 5601 then
    let s := { s with timers := place s.timers 5601 (s.ptime / 10000) }
    .next (s.updMesh fun m =>
      let over_ (k : Nat) : Nat := min (look 0 m.slot (k / 4 * 5 + k % 4) - 16 * s.bclk) (look 0 m.util k)
      { m with
        utilLast := m.util.map fun e => (e.1, e.2 - over_ e.1)
        util := (m.util.map fun e => (e.1, over_ e.1)).filter fun e => e.2 != 0 })
  else .next s

/-- The heads that have been read and still wait are read again, so that a record held back is popped as it stands then. -/
def State.forgetHeads (s : State) : State :=
  let keep (t : Ticket) : Bool := match t.agent with
    | .queue _ => !t.pend.isEmpty
    | _ => true
  { s with tickets := s.tickets.filter keep }

/-- HOLDBACK_WINDOW: M of every context and HOT of every isle for the next window (R423). A pass follows, so
that entries that were held are considered again. -/
def execHoldbackWindow (s : State) : Result :=
  if s.windowDue 5602 && !s.windowDue 5601 then
    let s := { s with timers := place s.timers 5602 (s.ptime / 10000) }
    let remote (c : Nat) : Nat := ((List.range 16).map fun i => look 0 s.mesh.lreqRemote (i * 64 + c)).sum
    let blocks (c : Nat) : Nat := (s.blocks.filter fun b => b.live && (s.gang b.gang).ctx == c).length
    let load (c : Nat) : Nat := (remote c - look 0 s.disp.lastRemote c) / max 1 (blocks c)
    let isHot (i : Nat) : Bool := (List.range 4).any fun d => decide (s.disp.hbthr ≤ look 0 s.mesh.utilLast (4 * i + d))
    let ctxs := List.range 64
    .next (s.updDisp fun d => { d with
      mload := ctxs.foldl (fun m c => put 0 m c (load c)) []
      hot := (List.range 16).foldl (fun m i => put 0 m i (bit (isHot i))) []
      lastRemote := ctxs.foldl (fun m c => put 0 m c (remote c)) []
      passDue := d.passDue || !d.pending.isEmpty }).forgetHeads
  else .next s

/-! ## Popping records (R414, R418) -/

/-- What reading the head of a queue comes to (R414): a wait, or the record with its descriptor and, for RESUME, its
image's header; without a descriptor where something cannot be read (R357). -/
inductive HeadRead where
  | wait (s : State)
  | got (w : Nat) (desc header : Option Nat)
deriving DecidableEq, Repr

/-- The header of a record's image (R362), read where RESUME is set. -/
def State.readHeader (s : State) (a : Agent) (ctx w d : Nat) : HeadRead :=
  let r := recordOf w
  if r.resume then
    match s.schedRead a 2 ctx r.image.toNat with
    | .wait s => .wait s
    | .bad => .got w (some d) none
    | .got x poison =>
      let off := r.image.toNat % 128
      .got w (some d) (if poisonedIn poison off 64 then none else some (lineGet x off 64))
  else .got w (some d) none

/-- The record of a context at an address and what it names, read at home line by line by an agent (R357, R414). -/
def State.readRecord (s : State) (a : Agent) (ctx pa : Nat) : HeadRead :=
  match s.schedRead a 0 ctx pa with
  | .wait s => .wait s
  | .bad => .got 0 none none
  | .got x poison =>
    let w := lineGet x (pa % 128) 64
    let r := recordOf w
    if poisonedIn poison (pa % 128) 64 || r.desc.toNat % 128 != 0 then .got w none none
    else
      match s.schedLoad a 1 ctx r.desc with
      | .wait s => .wait s
      | .bad => .got w none none
      | .got d poison => if poison = 0 then s.readHeader a ctx w d.toNat else .got w none none

/-- The head record of a queue, read to see whether holdback holds it (R423). -/
def State.readHead (s : State) (n : Nat) : HeadRead :=
  let q := s.qctl n
  s.readRecord (.queue n) q.owner (q.slot q.head)

/-- Whether a popped record is well formed (R414). -/
def recordOk (w : Nat) (desc header : Option Nat) : Bool :=
  let r := recordOf w
  match desc with
  | none => false
  | some d =>
    bits w 322 190 == 0 && r.join.toNat % 128 == 0 && descOk d &&
    (!r.resume || header.elim false fun h => headerAgrees h d)

/-- Whether a queue holds a record that may be popped. -/
def Queue.filled (q : Queue) : Bool := q.en && q.head != q.tail

/-- Whether holdback may hold a record of a context in this window: its traffic is above 0 and some isle is hot (R423). -/
def State.mayHold (s : State) (ctx : Nat) : Bool :=
  decide (0 < look 0 s.disp.mload ctx) && (List.range 16).any fun i => look 0 s.disp.hot i == 1

/-- Whether the scheduler has to read a queue's head before it knows whether holdback holds it. -/
def State.headUnknown (s : State) (n : Nat) : Bool :=
  (s.qctl n).filled && !s.frontBusy n && s.mayHold (s.qctl n).owner && match s.readHead n with
    | .wait _ => true
    | .got .. => false

/-- Whether a queue is eligible (R418): a head that cannot be read is not held back, nor one of a context that holdback
does not touch. DEDUCED: a queue at whose front a returned record is being written is not (R429, notes/assumptions/37). -/
def State.eligible (s : State) (n : Nat) : Bool :=
  (s.qctl n).filled && !s.frontBusy n && (!s.mayHold (s.qctl n).owner || match s.readHead n with
    | .got _ (some d) _ => !s.heldBack (s.qctl n).owner d
    | .got .. => true
    | .wait _ => false)

/-- The eligible queues. -/
def State.eligibleQueues (s : State) : List Nat := (s.disp.queues.map (·.1)).filter s.eligible

/-- Whether the pending list has a free entry for one more record (R418, R420). -/
def State.pendingFree (s : State) : Bool := decide (s.disp.pending.length + s.disp.popping.length < 16)

/-- Whether the scheduler's unit can send a request (R492). -/
def State.schedSends (s : State) : Bool := !s.sendFull 0 unitSched vcL

/-- Whether the arbiter pops a record in this base clock (R418): it knows of every queue whether it is eligible. -/
def State.popDue (s : State) : Bool :=
  s.pendingFree && s.schedSends && look 0 s.timers 5600 != s.bclk + 1 &&
  !((s.disp.queues.map (·.1)).any s.headUnknown) && !s.eligibleQueues.isEmpty

/-- The first queue whose head is to be asked for, while the pending list has a free entry. -/
def State.askHead (s : State) : Option Nat :=
  if s.pendingFree && s.schedSends then
    (s.disp.queues.map (·.1)).find? fun n => s.headUnknown n && !s.schedWaits (.queue n)
  else none

/-- The first record that has been popped, when what it waits for has come (R414): records enter the pending list in pop
order (R420). -/
def State.popReady (s : State) : Option Popping :=
  match s.disp.popping with
  | p :: _ => if s.schedWaits (.pop p.id) || !s.schedSends then none else some p
  | [] => none

/-- An entry's place in the pending list: by sampled priority, then by pop order (R420). -/
def insertPending (l : List Pending) (p : Pending) : List Pending :=
  (l.filter fun x => decide (p.pri ≤ x.pri)) ++ [p] ++ l.filter fun x => decide (x.pri < p.pri)

/-- The queue that the arbiter takes: the first eligible one at or after RR of the priority that R418 picks, and that
priority with the eligible ones. -/
def State.arbiter (s : State) : Nat × Nat × List Nat :=
  let el := s.eligibleQueues
  let pris := (el.map fun n => (s.qctl n).pri).dedup
  let relief := pris.filter fun p => decide (p < 15) && decide (256 ≤ look 0 s.disp.hc p)
  let best (l : List Nat) : Nat := l.foldl max 0
  let p := if relief.isEmpty then best pris else best relief
  let cand := sortBy (fun a b => decide (a < b)) (el.filter fun n => (s.qctl n).pri == p)
  ((cand.find? fun n => decide (look 0 s.disp.rr p ≤ n)).getD (cand.headD 0), p, pris)

/-- What reading a record leaves: the requests it has made. -/
def HeadRead.asked (r : HeadRead) (s : State) : State :=
  match r with
  | .wait t => t
  | .got .. => s

/-- A popped record has been read: it joins the pending list, or is refused (R414, R420). -/
def State.takeRecord (s : State) (p : Popping) (w : Nat) (desc header : Option Nat) : State :=
  let s := (s.schedForget (.pop p.id)).updDisp fun d => { d with popping := d.popping.erase p }
  if recordOk w desc header then
    s.updDisp fun d => { d with
      passDue := true
      pending := insertPending d.pending
        ⟨p.queue, BitVec.ofNat 64 p.pa, recordOf w, desc.getD 0, p.ctx, p.pri, s.ptime, false⟩ }
  else s.refuseGang p.ctx (BitVec.ofNat 64 p.pa)

/-- The reading of a popped record goes on (R414). -/
def State.popStep (s : State) (p : Popping) : State :=
  match s.readRecord (.pop p.id) p.ctx p.pa with
  | .wait s => s
  | .got w desc header => s.takeRecord p w desc header

/-- The head of queue `n` popped (R414, R418, R428): HEAD moves, the priority is sampled, the record is asked for, and the
queue's held pushes are tried again. -/
def State.popHead (s : State) (n : Nat) : State :=
  let q := s.qctl n
  let p : Popping := ⟨s.fresh, n, q.slot q.head, q.owner, q.pri⟩
  let s := (s.took.schedForget (.queue n)).updQ n fun q => { q with head := (q.head + 1) % 2 ^ 32 }
  let s := s.updDisp fun d => { d with popping := d.popping ++ [p] }
  let s := (s.readRecord (.pop p.id) p.ctx p.pa).asked s
  s.retryHeld n s.disp.held

/-- QUEUE_POP (R414, R418): a record that has been popped and read joins the pending list or is refused, a head is asked for
that holdback may hold (R423), or the arbiter pops one record. -/
def execQueuePop (s : State) : Result :=
  match s.popReady, s.askHead with
  | some p, _ => .next (s.popStep p)
  | none, some n => .next ((s.readHead n).asked s)
  | none, none =>
    if s.popDue then
      let (n, p, pris) := s.arbiter
      let s := { s with timers := place s.timers 5600 (s.bclk + 1) }.updDisp fun d => { d with
        rr := place d.rr p (n + 1)
        hc := (pris.filter (· < p)).foldl (fun m x => place m x (min (look 0 m x + 1) 256)) (put 0 d.hc p 0) }
      .next (s.popHead n)
    else .next s

/-- Whether an entry has waited 100 µs, so that it blocks later ones (R420). -/
def State.hasWaited (s : State) (p : Pending) : Bool := p.blocks || decide (p.since + Config.pendingBlockNs ≤ s.ptime)

/-- The entry that starts blocking later ones (R420). -/
def State.blocksNow (s : State) (k : Nat) : Bool :=
  match s.disp.pending[k]? with
  | some p => !p.blocks && s.hasWaited p
  | none => false

/-- PENDING_ENTRY_BLOCKS (R420): the first entry that has waited 100 µs begins to block. -/
def execPendingEntryBlocks (s : State) : Result :=
  .next (match (List.range s.disp.pending.length).find? s.blocksNow with
    | some k => s.updDisp fun d => { d with pending := d.pending.modify k fun p => { p with blocks := true } }
    | none => s)

/-! ## Placing a gang (R51, R77, R105, R422) -/

/-- The barrier unit that gives a gang its slots: block 0's isle, else the lowest isle with room; each unit has
256 of the package's 4,096 (R52, R422). -/
def State.findUnit (s : State) (isle n : Nat) : Option Nat :=
  (isle :: List.range 16).find? fun u => decide (look 0 s.disp.slots u + n ≤ 256)

/-- The lowest `h` banks that no block holds on a core (R105). -/
def State.freeBanks (s : State) (core h : Nat) : List Nat :=
  ((List.range 32).filter fun b => look 0 (s.core core).held b == 0).take h

/-- The lowest free position of a scheduler (R40). -/
def State.freePos (s : State) (core sched : Nat) : Nat :=
  let taken := (s.schedGroups core sched).map fun g => (s.grp g).pos
  ((List.range 16).find? fun p => !taken.contains p).getD 0

/-- The roles of a block at placement (R106). -/
def rolesAtReset (banks : List Nat) : W64 :=
  BitVec.ofNat 64 ((List.range 32).foldl (fun acc i => acc + (if banks.contains i then 1 else 3) * 4 ^ i) 0)

/-- A group at launch (R77). -/
def State.launchGroup (s : State) (b num core sched : Nat) (r : Record) (desc blkNum accFirst : Nat) : Group :=
  let fib : Fibre := { Fibre.vacant with occ := true, pc := r.code }
  let sregs := [(0, lo32 r.frame), (1, hi32 r.frame), (2, lo32 r.desc), (3, hi32 r.desc),
    (4, BitVec.ofNat 32 blkNum)].foldl (fun m (e : Nat × W32) => put 0 m e.1 e.2) []
  { Group.empty with
    live := true, retired := false, blk := b, num := num, core := core, sched := sched
    pos := s.freePos core sched, n := 8 * (bits desc 526 3 + 1)
    ctl := { Control.empty with fibs := List.replicate 32 fib, awb := accFirst }
    sregs := sregs, readyAt := (s.cluster (clusterOf core)).clock }

/-- The groups of a block placed on its cores, in ascending number (R39, R49). -/
def State.addGroups (s : State) (b : Nat) (r : Record) (desc num : Nat) : List Nat → State
  | [] => s
  | g :: t =>
    let x := s.blk b
    let core := x.coreAt (if x.pair then g % 2 else 0)
    let counts := (List.range 4).map fun i => (s.schedGroups core i).length
    let sched := (leastSched counts).getD 0
    let y := s.launchGroup b g core sched r desc num (x.accFirst (x.side core))
    let id := s.groups.length
    let s := { s with groups := s.groups ++ [y] }
    (s.updBlk b fun x => { x with groups := x.groups ++ [id] }).addGroups b r desc num t

/-- A block placed on a core (R77, R105): its banks leave the cache role and are zeroed, its rows are cleared. -/
def State.addBlock (s : State) (k num core : Nat) (r : Record) (desc : Nat) : State :=
  let sh := shapeOf desc
  let b := s.blocks.length
  let cores := if sh.pair then [core, core + 1] else [core]
  let banks := cores.map fun c => s.freeBanks c sh.h
  let taken (c : Nat) : List (Nat × Nat) :=
    ((s.blocks.filter fun x => x.live && x.cores.contains c && x.accRows != 0).map fun x =>
      (x.accFirst (x.side c), x.accRows))
  let first := cores.map fun c => (freeRows (taken c) sh.acc).getD 0
  let stream := bits desc 768 64
  let x : Block := { Block.empty with
    live := true, retired := false, gang := k, num := num, core := core, pair := sh.pair
    brole := rolesAtReset (banks.getD 0 [])
    banks := banks, accBase := first, accRows := sh.acc, nTiles := sh.tiles
    bars := List.replicate 16 ⟨bits desc 521 5 + 1, 0, 0, 0, [], []⟩
    allocOpen := true
    seq := { Seq.absent with active := stream != 0, done := stream == 0 } }
  let s := { s with blocks := s.blocks ++ [x] }
  let s := (List.range cores.length).foldl
    (fun (s : State) i =>
      let c := cores.getD i 0
      let mine := banks.getD i []
      let row := first.getD i 0
      let s := s.updCore c fun y =>
        { y with
          held := mine.foldl (fun m bank => place m bank (b + 1)) y.held
          bytes := y.bytes.filter fun e => !mine.contains (e.1 / Config.bankBytes)
          acc := y.acc.filter fun e => !(decide (256 * row ≤ e.1) && decide (e.1 < 256 * (row + sh.acc)))
          busy := y.busy.filter fun e => !(decide (row ≤ e.1) && decide (e.1 < row + sh.acc)) }
      (s.zeroed c mine row sh.acc).fitCache c) s
  s.addGroups b r desc num (List.range (bits desc 521 5 + 1))

/-- A gang placed whole on the cores of a plan (R51): it begins with an acquire at package scope on its context
(R57), and from an image it is restored (R363). -/
def State.addGang (s : State) (p : Pending) (cores : List Nat) (unit : Nat) : State :=
  let k := s.gangs.length
  let first := s.blocks.length
  let n := bits p.desc 529 5
  let gno := (s.ctx p.ctx).placed
  let x : Gang := { Gang.empty with
    live := true, ctx := p.ctx, gno := gno, record := p.record, original := p.record, desc := p.desc, task := p.task, queue := p.queue
    pri := p.pri, blocks := (List.range cores.length).map (first + ·), unit := unit, nslots := n }
  let s := { s with gangs := s.gangs ++ [x] }
  let s := s.updDisp fun d => { d with slots := put 0 d.slots unit (look 0 d.slots unit + n) }
  let s := (List.range cores.length).foldl
    (fun (s : State) i => s.addBlock k i (cores.getD i 0) p.record p.desc) s
  let s := (s.gangCores k).foldl (fun (s : State) c => s.selfInvalidate c p.ctx) s
  if p.record.resume then s.restoreGang k (s.imageAt k p.record.image.toNat)
  else s.updCtx p.ctx fun c => { c with placed := (c.placed + 1) % 2 ^ 32 }

/-- Where a pending gang fits now: its cores and its barrier unit (R421, R422). -/
def State.fitting (s : State) (p : Pending) : Option (List Nat × Nat) :=
  match placeGang p.desc (s.mapIsles p.ctx) s.rooms with
  | none => none
  | some cores =>
    let n := bits p.desc 529 5
    if n = 0 then some (cores, isleOf (cores.headD 0))
    else (s.findUnit (isleOf (cores.headD 0)) n).map fun u => (cores, u)

/-- Whether a gang can never fit: not even in an empty logical map (R22, R386). -/
def State.neverFits (s : State) (p : Pending) : Bool := (placeGang p.desc (s.mapIsles p.ctx) []).isNone

/-- The bytes of the image that a resume record names, as its header says (R362). -/
def State.imageLength (s : State) (p : Pending) : Nat := max 64 (s.readPhys p.record.image.toNat 4)

/-- Whether a core holds a line of a pending gang's image exclusively: its restoration waits, and the line is recalled
(R144, R402). -/
def State.imageBusy (s : State) (p : Pending) : Bool :=
  p.record.resume && s.heldWithin p.record.image.toNat (s.imageLength p)

/-- One pass over the pending list (R420): `kept` are the entries passed over. -/
def State.pass (s : State) (kept : List Pending) : List Pending → State
  | [] => s.updDisp fun d => { d with pending := kept }
  | p :: t =>
    if kept = [] ∧ s.neverFits p = true then (s.refuseGang p.ctx p.task).pass kept t
    else if s.heldBack p.ctx p.desc then s.pass (kept ++ [p]) t
    else
      match s.imageBusy p, s.fitting p with
      | false, some (cores, unit) => (s.addGang p cores unit).pass kept t
      | busy, _ =>
        let s := if busy then s.recallWithin p.record.image.toNat (s.imageLength p) else s
        if s.hasWaited p then s.updDisp fun d => { d with pending := kept ++ p :: t } else s.pass (kept ++ [p]) t

/-- PLACEMENT_PASS (R420). -/
def execPlacementPass (s : State) : Result :=
  if s.disp.passDue then .next ((s.updDisp fun d => { d with passDue := false }).pass [] s.disp.pending)
  else .next s

/-! ## Retirement (R58, R59, R286) -/

/-- Whether a group retires now (R58): no lane slot is occupied and every counter is zero. -/
def State.mayRetireGroup (s : State) (g : Nat) : Bool :=
  let x := s.grp g
  let k := s.gang (s.gangOf g)
  x.live && !x.retired && x.handler == .none && !x.stopped && !k.terminated && k.live &&
  x.occupied == 0 && (List.range 6).all fun i => x.counter (i + 1) == 0

/-- A block barrier after one of its groups has retired (R286). -/
def BlockBar.without (z : BlockBar) (g : Nat) : BlockBar :=
  let was := z.owners.contains g
  { z with
    expect := max 1 (z.expect - 1)
    arrived := if was then z.arrived - 1 else z.arrived
    owners := z.owners.filter (· != g) }

/-- GROUP_RETIRE (R58, R78, R286): the group leaves its scheduler, its registers and masks are discarded, and its block's
barriers expect one arrival less. -/
def execGroupRetire (g : Nat) (s : State) : Result :=
  if s.mayRetireGroup g then
    let b := (s.grp g).blk
    let s := s.updGrp g fun x => { (x.updCtl fun c => { c with masks := [], marr := [] }) with
      retired := true, regs := [], sregs := [], pend := [], gage := 0 }
    let s := s.updDisp fun d => { d with passDue := true }
    let s := (List.range 16).foldl
      (fun (s : State) k =>
        let last := decide ((((s.blk b).bar k).expect) ≤ 1)
        let s := s.updBlk b fun x => x.updBar k fun z => z.without g
        if last && ((s.blk b).bar k).arrived == 0 then s else s.barCheck b k) s
    .next (s.gbarCheckAll b)
  else .next s

/-- Whether something that a block's groups have issued is still to perform: an access, of an ended fibre too, a head on its
way to its channel, or an engine access that the memory pipeline holds (R43, R57, R58). Arrivals at barriers may stay
behind. -/
def State.blockIssued (s : State) (b : Nat) : Bool :=
  let gs := (s.blk b).groups
  (s.ops.any fun o => gs.contains o.grp && !o.kind.isBar) || s.heldEng.any fun h => gs.contains h.issue.grp

/-- Whether a block retires now (R58): its groups have retired, its stream has ended, and nothing it issued is
left. -/
def State.mayRetireBlock (s : State) (b : Nat) : Bool :=
  let x := s.blk b
  let k := s.gang x.gang
  x.live && !x.retired && k.live && !k.terminated && k.pre == .none &&
  (x.groups.all fun g => (s.grp g).retired) && x.seq.done && !s.blockIssued b &&
  !(s.cmds.any fun c => c.blk == b) && (x.cores.all fun c => !((s.core c).mq.any fun m => m.blk == b))

/-- The gang barriers of a gang evaluated after one of its blocks has retired (R287). -/
def State.unitChecks (s : State) (k : Nat) : State :=
  (List.range ((s.gang k).field 529 5)).foldl (fun (s : State) g => s.unitCheck k g) s

/-- A block whose release is over gives its resources back (R59, R105, R420). -/
def State.endBlock (s : State) (b : Nat) : State :=
  let s := s.freeBlock b
  let s := s.updBlk b fun x => { x with releasing := false }
  s.updDisp fun d => { d with passDue := true }

/-- BLOCK_RETIRE (R59): the block counts as arrived at every gang barrier from now on, and its context's lines
are released on each of its cores. -/
def execBlockRetire (b : Nat) (s : State) : Result :=
  if s.mayRetireBlock b then
    let x := s.blk b
    let s := s.updBlk b fun y => { y with retired := true, releasing := true }
    let s := s.unitChecks x.gang
    .next (x.cores.foldl (fun (s : State) c => s.startDrain c (s.gang x.gang).ctx (.block b)) s)
  else .next s

/-- Whether a gang retires now (R58, R59): the last block's release has completed. -/
def State.mayRetireGang (s : State) (k : Nat) : Bool :=
  let g := s.gang k
  g.live && !g.terminated && !g.lost && !g.blocks.isEmpty &&
  g.blocks.all fun b => (s.blk b).retired && !(s.blk b).releasing

/-- GANG_RETIRE (R55, R59): the gang's slots return, and the decrement of its join counter is sent. -/
def execGangRetire (ga : Nat) (s : State) : Result :=
  if s.mayRetireGang ga then
    let g := s.gang ga
    let s := s.freeGang ga
    .next (if g.record.join = 0 then s
      else s.updDisp fun d => { d with joins := d.joins ++ [⟨ga, g.record.join, g.ctx⟩] })
  else .next s

/-! ## Join counters (R55, R56, R427, R428) -/

/-- A join decrement dropped (R357), or one that found the counter at zero (R56): a report of kind 0x05 with
the counter's address. -/
def State.joinReport (s : State) (j : Join) : State :=
  s.report { s.reportOf 0x05 j.gang with aux := j.va }

/-- The push of a counter that reached zero, from its block (R427). -/
def State.joinPush (s : State) (d : LineData) : State :=
  let cap := lineGet d 32 32
  if s.capOk cap 107 then s.pushRecord (capQueue cap) (leBytes 64 (lineGet d 64 64)) else s.dropQueue (capQueue cap)

/-- A decrement is over. -/
def State.joinOver (s : State) (j : Join) : State :=
  (s.schedForget (.join j.gang)).updDisp fun d => { d with joins := d.joins.erase j }

/-- A decrement dropped or found at zero (R56, R357). -/
def State.joinFails (s : State) (j : Join) : State := (s.joinOver j).joinReport j

/-- A decrement as an atomic at the counter's home (R55, R394): code 15 on four bytes, with its old value returned. -/
def joinPacket (ctx : Nat) (h : Home) (pa : Nat) : Packet :=
  { linePacket 0x04 vcL 1 0 unitSched ctx (some h) pa with aux := [15, 32, 1, 1, 0, 0, 0, 1, 0, pa % 128, 0, 0] }

/-- A sent decrement goes on (R55, R427): the atomic at the counter's home and, when it takes the counter from 1 to 0, the
block's line and the push. A counter outside spaces 0 to 2 is none (R427). -/
def State.joinStep (s : State) (j : Join) : State :=
  let a : Agent := .join j.gang
  match (s.ticket a).lines.find? fun e => e.1 == 0 with
  | some (_, old, poison) =>
    if poison ≠ 0 ∨ old = 0 then s.joinFails j
    else if old = 1 then
      match s.schedLoad a 1 j.ctx j.va with
      | .wait s => s
      | .bad => s.joinFails j
      | .got d poison => if poison = 0 then (s.joinOver j).joinPush d else s.joinFails j
    else s.joinOver j
  | none =>
    match s.lookup (.agent a) none 0 j.ctx j.va .both with
    | .miss => s.startWalk (.agent a) 0 j.ctx j.va
    | .bad _ => s.joinFails j
    | .ok x =>
      match s.homeOfXl j.ctx x with
      | none => s.joinFails j
      | some h =>
        match (s.tookWalks (.agent a)).schedAsk a 0 (joinPacket j.ctx h x.pa) with
        | .wait s => s
        | _ => s

/-- Whether a decrement may go on: nothing of it is on its way, and the scheduler's unit can send (R492). -/
def State.joinDue (s : State) (j : Join) : Bool := !s.schedWaits (.join j.gang) && s.schedSends

/-- JOIN_DECREMENT (R55): the decrement sent for a gang goes on. -/
def execJoinDecrement (ga : Nat) (s : State) : Result :=
  match s.disp.joins.find? fun j => j.gang == ga && s.joinDue j with
  | some j => .next (s.joinStep j)
  | none => .next s

/-- The scheduler's events that may come next. -/
def State.dueDispatch (s : State) : List Instr :=
  ((List.range s.groups.length).filter s.mayRetireGroup).map .groupRetire ++
  ((List.range s.blocks.length).filter s.mayRetireBlock).map .blockRetire ++
  ((List.range s.gangs.length).filter s.mayRetireGang).map .gangRetire ++
  ((s.disp.joins.filter s.joinDue).map fun j => .joinDecrement j.gang) ++
  (if s.windowDue 5601 then [.trafficWindow] else []) ++
  (if s.windowDue 5602 && !s.windowDue 5601 then [.holdbackWindow] else []) ++
  (if (List.range s.disp.pending.length).any s.blocksNow then [.pendingEntryBlocks] else []) ++
  (if s.disp.passDue then [.placementPass] else []) ++
  (if s.popReady.isSome || s.askHead.isSome || s.popDue then [.queuePop] else [])

end Sys2Proof.Machine
end

