-- ==== Sys2Proof/Machine/Containment.lean ====
section
/-!
DEFINITION. Liveness, fencing and rejoining of chiplets (R408, R430, R454 to R460), and errors in memory (R462,
R464).
-/
namespace Sys2Proof.Machine

/-- The cores of a chiplet. -/
def chipCores (m : Nat) : List Nat := (List.range 16).map (16 * m + ·)

/-- Whether a packet comes from a core of a chiplet. -/
def Packet.fromChip (p : Packet) (m : Nat) : Bool :=
  p.sisle == m && decide (160 ≤ p.sunit) && decide (p.sunit < 176)

/-- Whether a packet is for a core of a chiplet. -/
def Packet.forChip (p : Packet) (m : Nat) : Bool :=
  p.disle == m && decide (160 ≤ p.dunit) && decide (p.dunit < 176)

/-! ## Requests and responses (R455) -/

/-- Whether a packet has reached the input of the unit it is for. -/
def State.atHomeNow (s : State) (p : Packet) : Bool :=
  decide (p.elig ≤ s.bclk) && (look [] s.mesh.units (unitKey p.disle p.dunit p.vc)).contains p

/-- The requests of a chiplet that have not reached their home have no effect: they leave routers, links, send
queues, arbiters, and units that they reach only later (R455). -/
def State.dropRequests (s : State) (m : Nat) : State :=
  let keep (p : Packet) : Bool := !p.fromChip m
  let arrived (p : Packet) : Bool := !p.fromChip m || decide (p.elig ≤ s.bclk)
  let s := s.updMesh fun h => { h with
    inputs := h.inputs.map fun e => (e.1, e.2.filter keep)
    links := h.links.filter fun f => keep f.pkt
    sendq := h.sendq.map fun e => (e.1, e.2.filter keep)
    units := h.units.map fun e => (e.1, e.2.filter arrived) }
  (List.range 4).foldl (fun (s : State) i => s.updCluster (4 * m + i) fun c => { c with waiting := [] }) s

/-- What stands at the closed ports of a chiplet is discarded, responses being counted; drain requests stay for the
base to answer (R400, R455). -/
def State.dropResponses (s : State) (m : Nat) : State :=
  let at_ : List Packet := (s.mesh.units.flatMap fun e => e.2).filter fun p => p.forChip m
  let stays (p : Packet) : Bool := !p.forChip m || p.typ == 0x20
  let s := s.updMesh fun h => { h with units := h.units.map fun e => (e.1, e.2.filter stays) }
  s.countDiscard m (at_.filter fun p => p.vc == 0).length

/-! ## What the cores held (R457) -/

/-- What a slice waits for from a lost core: its isle, slice, line and physical address, the core and the context. -/
structure LostDrain where
  isle : Nat
  slice : Nat
  loc : Nat
  pa : Nat
  core : Nat
  ctx : Nat
deriving DecidableEq, Repr

/-- The drains for release records that end with a chiplet: those on its cores, and those whose DDONE has not reached its
slice. A DREQ that is still on its way is answered when it comes (R400, R457). -/
def State.lostDrains (s : State) (m : Nat) : List LostDrain :=
  (s.drains.filterMap fun e => match e.2.owner with
    | .dreq isle slice loc pa =>
      if isleOf e.2.core = m ∧ e.2.core < 256 then some ⟨isle, slice, loc, pa, e.2.core, e.2.ctx⟩ else none
    | _ => none) ++
  (s.packets.filter fun p => p.typ == 0x21 && p.fromChip m && !s.atHomeNow p).map fun p =>
    ⟨p.disle, p.dunit, p.loc, p.pa, p.srcCore, p.ctx⟩

/-- The drains on lost cores end: bytes that reached home stand, the rest are lost. A drain for a release record is
answered by the base (R400, R457). -/
def State.loseDrains (s : State) (m : Nat) : State :=
  let lost (c : Nat) : Bool := isleOf c == m && decide (c < 256)
  let cut (d : Drain) : Drain := if lost d.core then { d with pend := [] } else d
  let gone (d : Drain) : Bool := lost d.core && match d.owner with
    | .dreq .. => true
    | _ => false
  { s with
    flights := s.flights.filter fun e => !lost e.2.core && !(decide (8192 ≤ e.2.core) && lost (e.2.core - 8192))
    drains := (s.drains.filter fun e => !gone e.2).map fun e => (e.1, cut e.2) }

/-- The base answers for lost cores with the present time (R400, R457). -/
def State.answerLost (s : State) (l : List LostDrain) : State :=
  l.foldl
    (fun (s : State) d => s.toUnit d.isle d.slice
      { Packet.basic 0x21 vcC 0 (isleOf d.core) (unitOfCore d.core) d.isle d.slice d.ctx 0 with
        time := s.ptime, pa := d.pa, loc := d.loc } (s.bclk + 1)) s

/-- Whether the line that a core held exclusively has come back to its slice (R455). -/
def State.lineCameBack (s : State) (core line : Nat) : Bool :=
  s.packets.any fun p => p.typ == 0x14 && p.srcCore == core && p.loc / 128 == line && s.atHomeNow p

/-- The exclusive leases of lost cores end: the values at home stand and the requests that wait are applied in
arrival order (R457). A line that has come back to its slice already is written there as any other (R455). -/
def State.endLostLeases (s : State) (m : Nat) : State :=
  s.homes.foldl
    (fun (s : State) e => match e.2.xhold with
      | some (core, _) =>
        if isleOf core = m ∧ s.lineCameBack core e.1 = false then
          let h : HomeLine := { e.2 with
            xhold := none, recalled := false, waited := false, waiting := [] }
          e.2.waiting.foldl (fun (s : State) q => s.atHome q) { s with homes := place s.homes e.1 h }
        else s
      | none => s) s

/-! ## Haze (R157, R408) -/

/-- LOSS set in every element of a line at its home (R95, R408). -/
def State.markLoss (s : State) (loc : Nat) : State :=
  (List.range 8).foldl
    (fun (s : State) i =>
      let n := lineGet (s.lineAt loc) (16 * i) 16
      let st := elemSt n ||| 4
      s.writeHome loc (lineMask (16 * i + 12) 1) (lineSet 0 (16 * i + 12) 1 st) 0) s

/-- The lines that the filters of a chiplet's clusters list are marked, and the filters and directories forget the
clusters (R408). -/
def State.loseDeltas (s : State) (m : Nat) : State :=
  let mine (e : Nat × List Nat) : Bool := e.1 / 2 ^ 60 / 4 == m && !e.2.isEmpty
  let lines := (s.filters.filter mine).map fun e => e.1 % 2 ^ 60 * 128
  let s := lines.dedup.foldl (fun (s : State) loc => s.markLoss loc) s
  { s with
    filters := s.filters.filter fun e => e.1 / 2 ^ 60 / 4 != m
    directory := (s.directory.map fun e => (e.1, e.2.filter fun c => c / 4 != m)).filter fun e => !e.2.isEmpty }

/-- A magnitude of units of a region as FP32, rounded upward (R403, R408). -/
def Region.magnitude (r : Region) (units : Nat) : W32 :=
  BitVec.ofNat 32 (roundF (((numOfInt units).mul (num32 r.bound)).scale (-40)) fp32 2 false)

/-- The shares of a context that lost cores held of a region return to U; LOST and a report of kind 0x09 carry
their amount (R157, R408). -/
def State.loseShares (s : State) (m i ctx : Nat) : State :=
  let r := s.region i
  let mine := r.shares.filter fun x => isleOf x.1 == m && x.2.1 == ctx
  let units := (mine.map fun x => x.2.2).sum
  if units = 0 then s
  else
    let amount := r.magnitude units
    let lost := BitVec.ofNat 32 (roundF (Num.add 2 (num32 r.lost) (num32 amount)) fp32 2 false)
    let s := s.updRegion i fun r => { r with
      unalloc := r.unalloc + units, lost := lost
      shares := r.shares.filter fun x => !(isleOf x.1 == m && x.2.1 == ctx) }
    s.report { kind := 0x09, code := 0, ctx := ctx, core := 1023, gang := 0, block := 0, group := 255, reqid := 0
               iaddr := 0, vaddr := BitVec.ofNat 64 r.base, iter := 0, aux := amount.setWidth 64 }

/-- A region home goes on without the lost holders: a SPLIT is answered with the whole share, which has come back, and
what waited for them is served (R408). -/
def State.freeRegion (s : State) (m i : Nat) : State :=
  let r := s.region i
  let asks := r.asks.filter fun p => !p.fromChip m
  let split := match r.splitting with
    | some c => isleOf c == m
    | none => false
  let headStands := (r.asks.take 1).all fun p => !p.fromChip m
  let s := s.updRegion i fun r => { r with
    asks := asks
    settling := r.settling.filter fun x => isleOf x.1 != m
    loads := r.loads.filter fun e => e.1 != 256 || !e.2.fromChip m }
  let s :=
    if !split then s
    else if headStands then s.splitOver i
    else (s.updRegion i fun r => { r with splitting := none, asks := [] }).serveAsks i asks
  s.serveLoads i

/-- The haze state of a dropped chiplet (R157, R408). -/
def State.loseHaze (s : State) (m : Nat) : State :=
  let s := s.loseDeltas m
  let rs := s.regions.map (·.1)
  let s := rs.foldl
    (fun (s : State) i =>
      let ctxs := (((s.region i).shares.filter fun x => isleOf x.1 == m).map fun x => x.2.1).dedup
      ctxs.foldl (fun (s : State) c => s.loseShares m i c) s) s
  rs.foldl (fun (s : State) i => s.freeRegion m i) s

/-! ## Uncorrectable errors in the storage of cores (R462) -/

/-- The report of a block that an uncorrectable error in its registers or tile table terminates (R354, R462). -/
def State.storageReport (s : State) (b core group : Nat) : Report :=
  let x := s.blk b
  { s.reportOf 0x02 x.gang with code := 9, core := core, block := x.num, group := group }

/-- A line in the cache role with an uncorrectable error in a sector (R462): clean bytes are fetched again, dirty bytes, and
those that only this core holds, go home with a poison mark. -/
def L1Line.damaged (l : L1Line) (i : Nat) : L1Line :=
  if l.excl.isSome ∨ l.dirty.extractLsb' (32 * i) 32 ≠ 0 then { l with poison := l.poison ||| 2 ^ i }
  else { l with valid := false, lease := 0 }

/-- An uncorrectable error takes effect where the storage shows it by itself: registers and tile tables terminate the gang,
lines in the cache role are dropped or marked (R462). -/
def State.takeError (s : State) (e : ErrAt) : State :=
  match e with
  | .reg g _ =>
    let x := s.grp g
    if x.live then s.terminate (s.gangOf g) (s.storageReport x.blk x.core x.num) else s
  | .tile b side _ =>
    let x := s.blk b
    if x.live then s.terminate x.gang (s.storageReport b (x.coreAt side) 255) else s
  | .sector core ctx loc i =>
    let mine (c l : Nat) : Bool := c == ctx && l == loc
    s.updCore core fun c => { c with
      lines := (c.lines.map fun l => if mine l.ctx l.loc then l.damaged i else l).filter fun l =>
        !(mine l.ctx l.loc && !l.valid && l.dirty == 0 && l.excl.isNone)
      deltas := c.deltas.map fun d => if mine d.ctx d.loc then { d with poison := d.poison ||| 2 ^ i } else d }
  | _ => s

/-- Whether an uncorrectable error waits to be read. -/
def ErrAt.waits : ErrAt → Bool
  | .reg .. => false
  | .tile .. => false
  | .sector .. => false
  | _ => true

/-- The uncorrectable errors that storage shows by itself take effect. -/
def State.takeErrors (s : State) : State :=
  if s.errs.isEmpty then s
  else s.errs.foldl (fun (s : State) e => s.takeError e) { s with errs := s.errs.filter ErrAt.waits }

/-! ## Gangs (R430) -/

/-- The gangs with a block on a chiplet. -/
def State.gangsOn (s : State) (m : Nat) : List Nat :=
  (List.range s.gangs.length).filter fun k =>
    (s.gang k).live && (s.gang k).blocks.any fun b => (s.blk b).live && isleOf (s.blk b).core == m

/-- A gang lost with a chiplet (R430): it ends as R354 says, but for its reports; page requests are withdrawn
(R457). A gang that is being terminated already goes on being terminated. -/
def State.loseGang (s : State) (k : Nat) : State :=
  let gs := s.gangGroups k
  let s := { s with pageReqs := s.pageReqs.filter fun r => !gs.contains r.grp }
  if (s.gang k).terminated then s
  else
    let s := { s with drains := s.drains.filter fun d => d.2.owner != DrainOwner.saved k }
    (s.updGang k fun g => { g with lost := true }).terminate k (s.reportOf 0x07 k)

/-! ## The fence (R455) -/

/-- The sectors that copy engines have read for a command and that wait at its core's vertical port (R473). -/
def State.waitingSectors (s : State) (c : Cmd) : Nat :=
  match c.kind with
  | .tcopy => c.got.length - (c.arrived.map fun d => (s.sourceOf c d).2 / 32).sum
  | .mloop => c.got.length
  | _ => 0

/-- The sectors that wait at a chiplet's closed ports are discarded and counted (R455, R473). -/
def State.discardSectors (s : State) (m : Nat) : State :=
  let mine := s.cmds.filter fun c => isleOf c.core == m
  let s := s.countDiscard m (mine.map s.waitingSectors).sum
  { s with cmds := s.cmds.map fun c => if isleOf c.core = m then { c with got := [], arrived := [] } else c }

/-- A chiplet is fenced at this package time for a cause (R455 to R457). -/
def State.fence (s : State) (m cause : Nat) : State :=
  let lost := s.lostDrains m
  let s := s.updChip m fun c => { c with
    state := 1, cause := cause, ftime := s.ptime, inMap := false, discard := 0, ring := [] }
  let s := s.dropRequests m
  let s := (s.dropResponses m).discardSectors m
  let gangs := s.gangsOn m
  let s := (chipCores m).foldl (fun (s : State) c => { s with cores := place s.cores c Core.reset }) s
  let s := s.loseDrains m
  let s := s.answerLost lost
  let s := s.endLostLeases m
  let s := s.loseHaze m
  let s := gangs.foldl (fun (s : State) k => s.loseGang k) s
  (s.updDisp fun d => { d with passDue := true }).interrupt 64

/-- Whether a chiplet is in the map and not fenced. -/
def State.chipUp (s : State) (m : Nat) : Bool := (s.chip m).state == 0 && (s.chip m).inMap

/-- CHIPCTL_FENCE: the supervisor fences a chiplet (R455, R459), whatever its STATE. -/
def State.fenceByHand (s : State) (m : Nat) : State := s.fence m 3

/-- CHIPCTL_FENCE (R455, R459). -/
def execChipctlFence (m : Nat) (s : State) : Result := .next (s.fenceByHand m)

/-! ## Probes (R454) -/

/-- Whether the probes of a multiple of 4,000 ns are still to be sent. -/
def State.probeDue (s : State) (m : Nat) : Bool :=
  s.chipUp m && decide (look 0 s.timers (5900 + m) < s.ptime / 4000)

/-- LIVENESS_PROBE (R454): a probe to every core of a chiplet. Whether a core answers is not up to the base: it is
a free value (notes/assumptions/4). -/
def execLivenessProbe (m : Nat) (s : State) : Result :=
  if s.probeDue m then
    let s := { s with timers := place s.timers (5900 + m) (s.ptime / 4000) }
    .next ((chipCores m).foldl
      (fun (s : State) c => s.updCore c fun x => { x with
        probe := some (x.probe.getD s.ptime), hung := x.hung || !Config.answers s.tick c }) s)
  else .next s

/-- PROBE_ANSWER (R454): a core's answer arrives. -/
def execProbeAnswer (core : Nat) (s : State) : Result :=
  .next (if (s.core core).hung then s else s.updCore core fun x => { x with probe := none })

/-- Whether a time lies `d` ns back. -/
def State.older (s : State) (t : Option Nat) (d : Nat) : Bool :=
  match t with
  | some t => decide (t + d ≤ s.ptime)
  | none => false

/-- Whether a probe of a chiplet has been unanswered for 16 µs (R454). -/
def State.probeLost (s : State) (m : Nat) : Bool :=
  s.chipUp m && s.cores.any fun e => isleOf e.1 == m && s.older e.2.probe 16000

/-- PROBE_TIMEOUT (R454, R455). -/
def execProbeTimeout (m : Nat) (s : State) : Result := .next (if s.probeLost m then s.fence m 1 else s)

/-- Whether a vertical port of a chiplet has been under pressure for 64 µs without a flit accepted (R454). -/
def State.portStuck (s : State) (m : Nat) : Bool :=
  s.chipUp m && s.cores.any fun e => isleOf e.1 == m && s.older e.2.pressed 64000

/-- BACKPRESSURE_TIMEOUT (R454, R455). -/
def execBackpressureTimeout (m : Nat) (s : State) : Result := .next (if s.portStuck m then s.fence m 2 else s)

/-! ## Rejoining (R460) -/

/-- REJOIN written (R460): the chiplet is reset and zeroed, and its self-test runs. -/
def State.startRejoin (s : State) (m : Nat) : State :=
  if (s.chip m).state = 1 then
    let s := s.updChip m fun c => { c with state := 2 }
    let s := (chipCores m).foldl (fun (s : State) c => { s with cores := place s.cores c Core.reset }) s
    (List.range 4).foldl
      (fun (s : State) i => s.updCluster (4 * m + i) fun c => { c with clock := 0, phase := 0 }) s
  else s

/-- REJOIN (R460). -/
def execRejoin (m : Nat) (s : State) : Result := .next (s.startRejoin m)

/-- A chiplet joins the map (R460): its ring carries its tokens again, which R441 adds at core 16m, and its probes begin with
the next multiple of 4,000 ns (R454). -/
def State.joinMap (s : State) (m : Nat) : State :=
  let n := (s.chip m).tokens
  let s := { s with timers := place s.timers (5900 + m) (s.ptime / 4000) }
  s.updChip m fun c => { c with state := 0, inMap := true, ring := if n = 16 then [] else List.replicate n 0 }

/-- SELF_TEST_COMPLETE (R459, R460): the chiplet joins the map, or stays out of it. -/
def execSelfTestComplete (m : Nat) (ok : Bool) (s : State) : Result :=
  if (s.chip m).state = 2 then
    let s := if ok then s.joinMap m else s.updChip m fun c => { c with state := 3, cause := 4 }
    .next ((s.updDisp fun d => { d with passDue := true }).interrupt 64)
  else .next s

/-! ## Errors in memory (R462, R464) -/

/-- SCRUB (R462, R464): a corrected error is written back and counted for its isle; an uncorrectable one poisons its 32 bytes. -/
def execScrub (loc : Nat) (uncorrectable : Bool) (s : State) : Result :=
  if uncorrectable then
    let h := look HomeLine.none s.homes (loc / 128)
    let h := { h with poison := h.poison ||| 2 ^ (loc % 128 / 32) }
    .next ({ s with homes := place s.homes (loc / 128) h }.interrupt 72)
  else .next (s.countCorrected (loc / 2 ^ 48 % 16))

/-- The events of containment that may come next. -/
def State.dueContainment (s : State) : List Instr :=
  let ms := List.range 16
  (ms.filter s.probeDue).map .livenessProbe ++
  ((s.cores.filter fun e => e.2.probe.isSome && !e.2.hung && s.chipUp (isleOf e.1)).map fun e => .probeAnswer e.1) ++
  (ms.filter s.probeLost).map .probeTimeout ++ (ms.filter s.portStuck).map .backpressureTimeout

end Sys2Proof.Machine
end

