-- ==== Sys2Proof/Machine/Passed.lean ====
section
/-!
DEFINITION. What follows a drain whose write times have passed (R59, R130, R134, R139, R141, R345, R354, R400,
R430).
-/
namespace Sys2Proof.Machine

/-- Whether some drain has an owner. -/
def State.drains? (s : State) (o : DrainOwner) : Bool := s.drains.any fun d => d.2.owner == o

/-- A gang that has been terminated, and whose array operations, performed stores and release are over (R354). -/
def State.mayEnd (s : State) (k : Nat) : Bool :=
  let g := s.gang k
  g.live && g.terminated && g.ending && !s.drains? (.ended k)

/-- What follows a gang's termination once its resources are freed (R354, R430): the report that names the cause
and one of kind 0x0A; for a gang lost with a chiplet its record goes back to its queue, or one report of kind
0x07. -/
def State.endGang (s : State) (k : Nat) : State :=
  let g := s.gang k
  let s := s.freeGang k
  if g.lost then
    if g.record.restart then s.returnRecord g.queue g.original.bytes
    else s.report { s.reportOf 0x07 k with aux := g.task }
  else
    let s := match g.why with
      | some r => s.report r
      | none => s
    s.report { s.reportOf 0x0A k with aux := g.task }

/-- The release of a terminated gang begins once its array operations and its performed stores are over (R354). -/
def State.checkEnding (s : State) (k : Nat) : State :=
  let g := s.gang k
  if g.live && g.terminated && !g.ending && !s.arrayBusy k && !s.accessFlies k then
    (s.updGang k fun g => { g with ending := true }).releaseGang k (.ended k)
  else s

/-- A gang whose termination is complete ends. -/
def State.checkEnded (s : State) (k : Nat) : State :=
  let s := s.checkEnding k
  if s.mayEnd k then s.endGang k else s

/-- Whether a drain is over: every write-back has come home and package time exceeds the largest GWCT (R130). A
drain for a release record is over with its answer (R400). -/
def State.drainOver (s : State) (d : Drain) : Bool :=
  d.pend.isEmpty && decide (d.gmax < s.ptime) && match d.owner with
    | .dreq .. => false
    | _ => true

/-- A channel's wait for the release of its record is over (R141, R317). -/
def State.chanPassed (s : State) (key : Nat) : State :=
  s.updChan key fun c => { c with releasing := false, released := true }

/-- What waits for a drain goes on. -/
def State.passed (s : State) (d : Drain) : State :=
  match d.owner with
  | .op id => s.afterRelease id
  | .home isle slice loc pa => s.answerAcquires isle slice loc pa
  | .ctxwb _ => s
  | .block b => if s.drains? (.block b) then s else s.endBlock b
  | .bar b k p =>
    if s.drains? (.bar b k p) || !(s.blk b).live then s else (s.barRelease b k p).barCheck b k
  | .saved k => if s.drains? (.saved k) then s else s.reportSaved k
  | .ended k => s.checkEnded k
  | .cmd id => s.cmdPassed id
  | .chan key => s.chanPassed key
  | .head key id => s.headPassed key id
  | .dreq .. => s

/-- GWCT_PASSED: package time passes the largest GWCT that a release, fence, `ctxwb`, engine release flag or slice
waits for, and the waiter goes on (R130). -/
def execGwctPassed (d : Nat) (s : State) : Result :=
  match s.drains.find? fun e => e.1 == d with
  | some e =>
    if s.drainOver e.2 then .next ({ s with drains := s.drains.filter fun x => x.1 != d }.passed e.2) else .next s
  | none => .next s

/-- The drains that are over. -/
def State.dueDrains (s : State) : List Instr :=
  (s.drains.filter fun e => s.drainOver e.2).map fun e => .gwctPassed e.1

end Sys2Proof.Machine
end

