-- ==== Sys2Proof/Machine/Supervisor.lean ====
section
/-!
DEFINITION. Supervisor commands (R355, R358, R364, R368), the debug freeze and the test port (R367).
-/
namespace Sys2Proof.Machine

/-! ## The command port (R368) -/

/-- The command port. -/
def State.sv (s : State) : SvCmd := s.mgmt.sv

/-- A command that ends at once with a result. -/
def State.svEnd (s : State) (code result : Nat) : State :=
  (s.updMgmt fun m => { m with sv := { m.sv with cmd := code } }).svDone result

/-- A command that runs, with the operands as they stand at the write of CMD. -/
def State.svRun (s : State) (code : Nat) : State :=
  s.updMgmt fun m => { m with sv := { m.sv with
    cmd := code, busy := true, ranCtx := m.sv.ctx, ranArg := m.sv.arg, ranGang := m.sv.gang } }

/-- The operands that the running command was started with. -/
def SvCmd.running (c : SvCmd) : SvCmd := { c with ctx := c.ranCtx, arg := c.ranArg, gang := c.ranGang }

/-- The shape of a write of CMD: it is ignored while BUSY is set (R368). -/
def onCommand (s : State) (k : SvCmd → State) : State := if s.sv.busy then s else k s.sv

/-- The resident gang that a command names (R76, R368). -/
def State.namedGang (s : State) (c : SvCmd) : Option Nat :=
  (List.range s.gangs.length).find? fun k => (s.gang k).live && (s.gang k).ctx == c.ctx && (s.gang k).gno == c.gang

/-! ## Page requests (R355) -/

/-- The request that PAGEANS names: one that has been reported. -/
def State.namedRequest (s : State) (c : SvCmd) : Option PageReq :=
  s.pageReqs.find? fun r => r.ctx == c.ctx && r.id == c.arg && r.reported

/-- The requests without one. -/
def State.withoutRequest (s : State) (r : PageReq) : State :=
  { s with pageReqs := s.pageReqs.filter fun x => !(x.ctx == r.ctx && x.id == r.id) }

/-- A fibre whose page request is answered issues its instruction again (R355); one whose fetch found no page fetches its
header again. -/
def Fibre.answered (f : Fibre) : Fibre :=
  match f.bad, f.code with
  | some _, some c => { f with wait := .none, bad := none, code := none, pc := c.addr, waited := false }
  | _, _ => { f with wait := .none }

/-- An answered request: its fibres issue their instruction again (R355). -/
def State.answerPage (s : State) (r : PageReq) : State :=
  (s.withoutRequest r).updGrp r.grp fun x => x.updCtl fun c =>
    { c with fibs := c.fibs.map fun f => if f.wait = .page r.id then f.answered else f }

/-- Whether the fibres of a refused request may take their trap: their group is neither stopped nor halted, and a
trap mode that holds them has ended. A sequencer's request has no fibres. -/
def State.mayRefuse (s : State) (r : PageReq) : Bool :=
  let x := s.grp r.grp
  r.lanes == 0 || (!x.stopped && !x.halted && !(x.ctl.trapMode && (r.lanes &&& x.ctl.tlanes) == 0))

/-- The trap of a refused request, or the stream fault of a sequencer's (R297, R355). -/
def State.refusePage (s : State) (r : PageReq) : State :=
  let s := s.withoutRequest r
  if r.lanes = 0 then s.streamFault (s.grp r.grp).blk 0x11 r.hdr
  else s.takeTrap r.grp r.lanes 8 1 r.port 0 r.hdr r.idx (some r.rep.vaddr)

/-- The refused requests whose fibres may trap do so. -/
def State.refusePages (s : State) : State :=
  (s.pageReqs.filter (·.refused)).foldl
    (fun (s : State) r => if s.mayRefuse r then s.refusePage r else s) s

/-- PAGEANS: answers or refuses a page request (R355, R368). -/
def State.pageans (s : State) : State :=
  onCommand s fun c =>
    match s.namedRequest c with
    | none => s.svEnd 1 1
    | some r =>
      if c.act then
        let mark (x : PageReq) : PageReq := if x.ctx = r.ctx ∧ x.id = r.id then { x with refused := true } else x
        { s.svRun 1 with pageReqs := s.pageReqs.map mark }.refusePages
      else (s.answerPage r).svEnd 1 0

/-- PAGEANS (R355). -/
def execPageans (s : State) : Result := .next s.pageans

/-! ## Pre-emption (R358, R368) -/

/-- PREEMPT: starts the pre-emption of a gang (R358, R368); one whose handlers of a resumption still run is refused
in its present state, as is an image address that is no multiple of 64. -/
def State.preemptCmd (s : State) : State :=
  onCommand s fun c =>
    match s.namedGang c with
    | none => s.svEnd 2 1
    | some k =>
      if (s.gang k).pre ≠ .none ∨ (s.gang k).terminated = true ∨ c.img % 64 ≠ 0 then s.svEnd 2 2
      else if c.imgLen < s.imageSize k then s.svEnd 2 3
      else (s.svRun 2).beginPreempt k (BitVec.ofNat 64 c.img) c.imgLen

/-- PREEMPT (R358). -/
def execPreempt (s : State) : Result := .next s.preemptCmd

/-! ## The debugger (R364, R368) -/

/-- The group number that names every group of a block. -/
def allGroups : Nat := 255

/-- The groups of a block that have not retired. -/
def State.standing (s : State) (b : Nat) : List Nat :=
  (s.blk b).groups.filter fun g => (s.grp g).live && !(s.grp g).retired

/-- The block and the groups that a debug command names: the group, or with 0xFF every group of the block
(R368). -/
def State.namedGroups (s : State) (c : SvCmd) : Option (Nat × List Nat) :=
  match s.namedGang c with
  | none => none
  | some k =>
    match (s.gang k).blocks.find? fun b => (s.blk b).num == c.arg % 256 && (s.blk b).live && !(s.blk b).retired with
    | none => none
    | some b =>
      if c.arg / 256 = allGroups then some (b, s.standing b)
      else ((s.standing b).find? fun g => (s.grp g).num == c.arg / 256).map fun g => (b, [g])

/-- The shape of a debug command: what it names must exist, then a debugger must be attached (R368). -/
def debugCommand (s : State) (code : Nat) (k : SvCmd → Nat → List Nat → State) : State :=
  onCommand s fun c =>
    match s.namedGroups c with
    | none => s.svEnd code 1
    | some (b, gs) => if (s.ctx c.ctx).dbgatt then k c b gs else s.svEnd code 2

/-- Whether some fibre of a group stands at a clause boundary: at a header, or at a clause it has not begun. -/
def Group.atBoundary (x : Group) : Bool :=
  x.ctl.fibs.any fun f => f.occ && match f.code with
    | none => true
    | some c => f.pc == c.addr

/-- A group that is to halt does so at a clause boundary (R364, R368). -/
def State.haltAt (s : State) (g : Nat) : State :=
  let x := s.grp g
  if x.live && !x.retired && x.haltReq && !x.halted && x.atBoundary then s.haltGroup g else s

/-- Whether a debug command that waits for its groups is over: they have halted, retired or gone. -/
def State.allHalted (s : State) (c : SvCmd) : Bool :=
  match s.namedGroups c with
  | none => true
  | some (_, gs) => gs.all fun g => (s.grp g).halted

/-- What a running command waits for may have come (R368). -/
def State.svCheck (s : State) : State :=
  let c := s.sv.running
  if !c.busy then s
  else if c.cmd = 1 then (if (s.namedRequest c).isNone then s.svDone 0 else s)
  else if c.cmd = 4 ∨ c.cmd = 5 then (if s.allHalted c then s.svDone 0 else s)
  else s

/-- DBGHALT: halts a group, or every group of a block, at its next clause boundary; with DBGSTOP set, always the
whole block (R364, R368). -/
def State.dbghalt (s : State) : State :=
  debugCommand s 5 fun c b gs =>
    let all := if (s.ctx c.ctx).dbgstop then s.standing b else gs
    let s := (s.svRun 5)
    let s := all.foldl (fun (s : State) g => s.updGrp g fun x => { x with haltReq := !x.halted }) s
    (all.foldl (fun (s : State) g => s.haltAt g) s).svCheck

/-- DBGHALT (R368). -/
def execDbghalt (s : State) : Result := .next s.dbghalt

/-- A halted group goes on; the address breakpoint that halted its fibres at their header does not halt them there again
(`skipBp`). -/
def State.resumeGroup (s : State) (g : Nat) : State :=
  s.updGrp g fun x => { x with halted := false, haltReq := false }

/-- A block's sequencer and stopped commands go on with a resumed group, unless the gang is still held by a
pre-emption or resumption (R364, R368). -/
def State.resumeBlock (s : State) (b : Nat) : State :=
  if (s.gang (s.blk b).gang).pre = .none then
    let go (c : Cmd) : Cmd := if c.blk = b then { c with stopped := false } else c
    { s with cmds := s.cmds.map go }.updBlk b fun x => { x with seq := { x.seq with stopped := false } }
  else s

/-- DBGRUN: resumes a halted group, or every halted group of a block, with its sequencer and commands (R368). -/
def State.dbgrun (s : State) : State :=
  debugCommand s 3 fun c b gs =>
    let halted := gs.filter fun g => (s.grp g).halted
    if halted.isEmpty && c.arg / 256 != allGroups then s.svEnd 3 2
    else ((halted.foldl (fun (s : State) g => s.resumeGroup g) s).resumeBlock b).svEnd 3 0

/-- DBGRUN (R368). -/
def execDbgrun (s : State) : Result := .next s.dbgrun

/-- DBGSTEP: one halted group issues one clause and halts again (R368). -/
def State.dbgstep (s : State) : State :=
  debugCommand s 4 fun c _ gs =>
    match gs with
    | [g] =>
      if c.arg / 256 = allGroups ∨ (s.grp g).halted = false then s.svEnd 4 2
      else ((s.svRun 4).resumeGroup g).updGrp g fun x => { x with stepping := true }
    | _ => s.svEnd 4 2

/-- DBGSTEP (R368). -/
def execDbgstep (s : State) : Result := .next s.dbgstep

/-- What the debugger reads of a halted group through the debug path (R365): its registers by lane, its scalar registers,
the PCs of its fibres, the accumulator rows of its core with their busy bits, the transaction barriers of its block's
scratchpad on that core, the entries of the copy queue (R366), and the block barriers. -/
structure DebugView where
  regs : List (List W32)
  sregs : List W32
  pcs : List (Option W64)
  preds : List (BitVec 16)
  windows : List Nat
  masks : List (W32 × W32)
  counters : List Nat
  rows : List (Bool × List W32)
  txBars : List TxBar
  queue : List Nat
  bars : List BlockBar
deriving DecidableEq, Repr

/-- The entries of a group's vector array, lane by lane, wherever the windows of its fibres stand (R61, R365, R367). -/
def Group.rawVectors (x : Group) : List (List W32) :=
  (List.range 32).map fun i => (List.range x.n).map fun e => look 0 x.regs (64 * i + e)

/-- The debugger reads a group while it is halted (R365). -/
def State.debugView (s : State) (g : Nat) : Option DebugView :=
  let x := s.grp g
  let b := s.blk x.blk
  let side := b.side x.core
  let core := s.core x.core
  if x.live && x.halted then some {
    regs := x.rawVectors
    preds := x.ctl.fibs.map (·.pred)
    windows := x.ctl.fibs.map (·.wb)
    masks := (List.range 12).map fun m => (look 0 x.ctl.masks m, look 0 x.ctl.marr m)
    counters := (List.range 6).map fun k => x.counter (k + 1)
    sregs := (List.range 32).map x.s
    pcs := x.ctl.fibs.map fun f => if f.occ then some f.pc else none
    rows := (List.range b.accRows).map fun r =>
      let row := b.accFirst side + r
      (core.isBusy row, (List.range 256).map fun k => look 0 core.acc (256 * row + k))
    txBars := ((List.range (2 ^ 18)).filter (s.txInside x.blk side)).map (s.txBar x.blk side)
    queue := (List.range 16).map (s.debugQueue g)
    bars := b.bars }
  else none

/-! ## The debug freeze (R367) -/

/-- The freeze is asserted: it takes effect within 16 base clocks. -/
def State.assertFreeze (s : State) : State :=
  s.updMgmt fun m => { m with freezeAt := some (m.freezeAt.getD (s.bclk + Config.freezeDelay s.tick % 17)) }

/-- FREEZE: the supervisor asserts the freeze; the command never ends (R367, R368). -/
def State.freezeCmd (s : State) : State := onCommand s fun _ => (s.svRun 6).assertFreeze

/-- FREEZE (R367). -/
def execFreezeCmd (s : State) : Result := .next s.freezeCmd

/-- FREEZE_PIN (R367). -/
def execFreezePin (s : State) : Result := .next s.assertFreeze

/-- The freeze takes effect: every clock stops (R367). -/
def State.checkFreeze (s : State) : State :=
  match s.mgmt.freezeAt with
  | some t => if t ≤ s.bclk then s.updMgmt fun m => { m with frozen := true } else s
  | none => s

/-- UNKNOWN_COMMAND: any other code ends at once with RESULT 0x04 (R368). -/
def execUnknownCommand (code : Nat) (s : State) : Result := .next (onCommand s fun _ => s.svEnd code 4)

/-- A write of CMD with a code (R368). -/
def State.command (s : State) (code : Nat) : State :=
  match code with
  | 1 => s.pageans
  | 2 => s.preemptCmd
  | 3 => s.dbgrun
  | 4 => s.dbgstep
  | 5 => s.dbghalt
  | 6 => s.freezeCmd
  | n => onCommand s fun _ => s.svEnd n 4

/-! ## The test port (R367) -/

/-- An instruction of the test port is in the instruction register. -/
def State.tapIr (s : State) (code : Nat) : State := s.updMgmt fun m => { m with tapIr := code }

/-- BYPASS: the one-bit bypass register (R367). -/
def execBypass (s : State) : Result := .next ((s.tapIr 0xFF).emit (.tap 1 0))

/-- IDCODE: the identification register (R367). -/
def execIdcode (s : State) : Result := .next ((s.tapIr 0x01).emit (.tap 32 Config.idcode))

/-- All ones. -/
def ones (n : Nat) : Nat := 2 ^ n - 1

/-- FRZSEL: loads the array selector; all ones before the freeze has taken effect (R367). -/
def execFrzsel (s : State) : Result :=
  let s := s.tapIr 0x20
  .next (if s.mgmt.frozen then
      let sel := Config.scanIn s.tick % 2 ^ 32
      (s.updMgmt fun m => { m with tapSel := sel }).emit (.tap 32 s.mgmt.tapSel)
    else s.emit (.tap 32 (ones 32)))

/-- The words of a tile-table entry (R70). -/
def Tile.words (t : Tile) : List Nat := [t.bits % 2 ^ 32, t.bits / 2 ^ 32]

/-- The width and the words, lowest address first, of an array of a unit of an isle (R17, R105, R462): the sectors of the
lines that a slice holds; a core's local store, accumulator file, vector and scalar register files, and tile table. The
order of the arrays is the model's own (notes/assumptions/63). -/
def State.arrayWords (s : State) (isle unit array : Nat) : Nat × List Nat :=
  if unit < 160 then
    (256, ((s.heldBy isle unit).filterMap (·.site)).flatMap fun e =>
      match s.physHome e.2.2 with
      | some h => (List.range 4).map fun i => lineGet (s.lineAt h.loc) (32 * i) 32
      | none => [])
  else
    let core := isle * 16 + (unit - 160)
    let c := s.core core
    let groups := s.groups.filter fun x => x.live && x.core == core
    (32, match array with
      | 0 => (List.range (8 * Config.bankBytes)).map fun w => readBytes c.bytes (4 * w) 4
      | 1 => (List.range 65536).map fun k => (look 0 c.acc k).toNat
      | 2 => groups.flatMap fun x => x.rawVectors.flatMap fun l => l.map BitVec.toNat
      | 3 => groups.flatMap fun x => (List.range 32).map fun k => (x.s k).toNat
      | _ => (s.blocks.filter fun b => b.live && b.cores.contains core).flatMap fun b =>
          (List.range b.nTiles).flatMap fun k => (b.tile (b.side core) k).words)

/-- Words of a width with their check bits, as shifted out: bits and value. -/
def rawWords (width : Nat) : List Nat → Nat × Nat
  | [] => (0, 0)
  | x :: t =>
    let n := width + Config.checkWidth width
    let r := rawWords width t
    (n + r.1, x % 2 ^ width + Config.checkBits width x % 2 ^ Config.checkWidth width * 2 ^ width + r.2 * 2 ^ n)

/-- What FRZREAD shifts out for the selected array. -/
def State.frozenRead (s : State) : Nat × Nat :=
  let (isle, unit, array) := Config.frozenArray s.mgmt.tapSel
  let (width, l) := s.arrayWords isle unit array
  rawWords width l

/-- FRZREAD: shifts out the selected array's raw words with their check bits; all ones before the freeze has taken
effect (R367). -/
def execFrzread (s : State) : Result :=
  let s := s.tapIr 0x21
  let (n, x) := s.frozenRead
  .next (s.emit (.tap n (if s.mgmt.frozen then x else ones n)))

end Sys2Proof.Machine
end

