-- ==== Sys2Proof/Machine/Bringup.lean ====
section
/-!
DEFINITION. Bring-up (R465, R467), the resets of the package (R367, R468), attestation (R466) and the recovery
mailbox (R471).
-/
namespace Sys2Proof.Machine

/-! ## Resets (R367, R468) -/

/-- The package reset: every piece of state takes its reset value but the flash and what memory holds, which nothing
clears (notes/assumptions/32); what the part has sent out stays sent. -/
def State.restartPart (s : State) : State :=
  { State.reset with
    agenda := s.agenda, tick := s.tick, mem := s.mem, out := s.out
    mgmt := { State.reset.mgmt with flash := s.mgmt.flash } }

/-- PACKAGE_RESET: the part starts again, after a freeze too (R367). -/
def execPackageReset (s : State) : Result := .next s.restartPart

/-- HOT_RESET: a hot reset or a link-down of the host port resets the package (R468). -/
def execHotReset (s : State) : Result := .next s.restartPart

/-! ## Bring-up (R467) -/

/-- Phase 2: a chiplet that fails its self-test is fenced with CAUSE 4 (R454, R467). DESIGN CHOICE: its STATE is 3, failed
self-test (notes/assumptions/45). -/
def State.failChips (s : State) (passed : Nat) : State :=
  ((List.range 16).filter fun m => !passed.testBit m).foldl
    (fun (s : State) m => (s.fence m 4).updChip m fun c => { c with state := 3 }) s

/-- Phase 3: the chiplets that passed join the logical map (R467). -/
def State.joinChips (s : State) (passed : Nat) : State :=
  ((List.range 16).filter fun m => passed.testBit m).foldl
    (fun (s : State) m => s.updChip m fun c => { c with state := 0, inMap := true }) s

/-- Phase 5: the ports that trained are up; the others stay down (R467). -/
def State.trainPorts (s : State) (ports : Nat) : State :=
  (List.range 32).foldl
    (fun (s : State) p => if ports.testBit p then s.updPort p fun x => { x with up := true } else s) s

/-- Phase 6: the package joins the ceiling group that Yeham's configuration names (R467). -/
def State.bootJoins (s : State) : State :=
  match Config.bootGroup with
  | some v => s.writeCgcfg v
  | none => s

/-- Bring-up goes on to a phase. -/
def State.atPhase (s : State) (n : Nat) : State := s.updMgmt fun m => { m with phase := n }

/-- Bring-up ends in a phase, with FAIL or without. -/
def State.bootEnds (s : State) (fail : Bool) : State := s.updMgmt fun m => { m with boot := none, fail := fail }

/-- A bring-up that goes on ends its phase (R465, R467). DESIGN CHOICE: each phase takes one base clock
(notes/assumptions/45). -/
def State.bootStep (s : State) : State :=
  match s.mgmt.boot with
  | none => s
  | some b =>
    match s.mgmt.phase with
    | 0 => s.atPhase 1
    | 1 => if b.yehamOk then s.atPhase 2 else (s.updMgmt fun m => { m with recovery := true }).bootEnds false
    | 2 => if b.baseOk then (s.failChips b.chips).atPhase 3 else s.bootEnds true
    | 3 => (s.joinChips b.chips).atPhase 4
    | 4 => if b.hostOk then s.atPhase 5 else s.bootEnds true
    | 5 => (s.trainPorts b.ports).atPhase 6
    | 6 => (s.bootJoins.atPhase 7).bootEnds false
    | _ => s.bootEnds false

/-- POWER_ON: base power-on starts bring-up at phase 0, with what the outside decides of it: whether the Yeham image
verifies, whether every base passes its self-test, the chiplets that pass theirs, whether the host port trains, and
the Vreles ports that train (R465, R467). -/
def execPowerOn (yehamOk baseOk : Bool) (chips : Nat) (hostOk : Bool) (ports : Nat) (s : State) : Result :=
  .next (s.restartPart.updMgmt fun m => { m with boot := some ⟨yehamOk, baseOk, hostOk, chips, ports⟩ })

/-! ## Attestation (R466) -/

/-- Whether Yeham answers requests of the host. -/
def State.yehamUp (s : State) : Bool := decide (4 < s.mgmt.phase) && !s.mgmt.recovery

/-- The attestation report of a nonce with its signature (R466): the digests and the ordering number are the part's own, and
the signature is whatever its private key gives. -/
def State.attestation (s : State) (nonce : Nat) : Out :=
  .attest Config.imageDigest Config.configDigest Config.keyDigest Config.orderingNumber nonce
    (Config.attestSignature s.tick
      [Config.imageDigest, Config.configDigest, Config.keyDigest, Config.orderingNumber, nonce])

/-- ATTESTATION_REQUEST: a signed report with the requester's nonce, or a refusal of another algorithm (R466). -/
def execAttestationRequest (algOk : Bool) (nonce : Nat) (s : State) : Result :=
  .next (if s.yehamUp then s.emit (if algOk then s.attestation (nonce % 2 ^ 384) else .refusedRequest) else s)

/-! ## The recovery mailbox (R471) -/

/-- The bytes of the staging area (R471). -/
def stagingBytes : Nat := 67108864

/-- Whether the mailbox takes a command: the part is in recovery and no command is in progress. -/
def State.mailboxFree (s : State) : Bool := s.mgmt.recovery && s.mgmt.mbState != 1

/-- A command of the mailbox has ended. -/
def State.mailboxEnds (s : State) (state err : Nat) : State :=
  s.updMgmt fun m => { m with mbState := state, mbErr := err }

/-- STORE's effect: LEN bytes of DATA go to offset OFF of the staging area. -/
def State.storeStaging (s : State) : State :=
  let m := s.mgmt
  if 1 ≤ m.mbLen ∧ m.mbLen ≤ 4096 ∧ m.mbOff % 4096 = 0 ∧ m.mbOff + m.mbLen ≤ stagingBytes then
    (s.updMgmt fun m => { m with
      staging := writeBytes m.staging m.mbOff m.mbLen (readBytes m.mbData 0 m.mbLen) }).mailboxEnds 2 0
  else s.mailboxEnds 3 1

/-- COMMIT's effect: the first LEN bytes of the staging area go to the flash, if they verify and the flash takes
them. -/
def State.commitStaging (s : State) (sigOk flashOk : Bool) : State :=
  let m := s.mgmt
  if m.mbLen = 0 ∨ stagingBytes < m.mbLen then s.mailboxEnds 3 1
  else if !sigOk then s.mailboxEnds 3 2
  else if !flashOk then s.mailboxEnds 3 3
  else
    (s.updMgmt fun m => { m with
      flash := writeBytes m.flash 0 m.mbLen (readBytes m.staging 0 m.mbLen) }).mailboxEnds 2 0

/-- IDENTIFY's effect: the identity data stand in DATA. -/
def State.identity (s : State) : State :=
  (s.updMgmt fun m => { m with
    mbData := (List.range 4096).foldl (fun d i => put 0 d i (Config.identityByte i)) m.mbData }).mailboxEnds 2 0

/-- STORE: a chunk copied into the staging area (R471). -/
def execStoreChunk (s : State) : Result := .next (if s.mailboxFree then s.storeStaging else s)

/-- COMMIT: the staged image verified and written to flash (R471). -/
def execCommitImage (sigOk flashOk : Bool) (s : State) : Result :=
  .next (if s.mailboxFree then s.commitStaging sigOk flashOk else s)

/-- RESTART: bring-up starts again from phase 0 (R471). -/
def execRestart (s : State) : Result := .next (if s.mailboxFree then s.restartPart else s)

/-- IDENTIFY: the identity data written into DATA (R471). -/
def execIdentify (s : State) : Result := .next (if s.mailboxFree then s.identity else s)

/-- MAILBOX_UNKNOWN: any other command code sets STATE 3 with ERR 0x01 (R471). -/
def execMailboxUnknown (_code : Nat) (s : State) : Result :=
  .next (if s.mailboxFree then s.mailboxEnds 3 1 else s)

/-- A command code written to CMD. -/
def State.mailboxCommand (s : State) (code : Nat) : State :=
  if !s.mailboxFree then s
  else
    match code with
    | 1 => s.storeStaging
    | 2 => s.commitStaging (Config.imageVerifies s.tick).1 (Config.imageVerifies s.tick).2
    | 3 => s.restartPart
    | 4 => s.identity
    | _ => s.mailboxEnds 3 1

/-- One byte of OFF, LEN or DATA written. -/
def State.mailboxByte (s : State) (off v : Nat) : State :=
  if 16 ≤ off ∧ off < 20 then s.updMgmt fun m => { m with mbOff := setBits m.mbOff (8 * (off - 16)) 8 v }
  else if 20 ≤ off ∧ off < 24 then s.updMgmt fun m => { m with mbLen := setBits m.mbLen (8 * (off - 20)) 8 v }
  else if 4096 ≤ off ∧ off < 8192 then
    s.updMgmt fun m => { m with mbData := put 0 m.mbData (off - 4096) (BitVec.ofNat 8 v) }
  else s

/-- A byte of the mailbox as it reads (R6, R471): STATE, ERR, OFF, LEN and DATA; CMD and reserved bytes read as zero. -/
def State.mailboxAt (s : State) (off : Nat) : Nat :=
  if off = 0 then s.mgmt.mbState % 4
  else if off = 1 then s.mgmt.mbErr % 256
  else if 16 ≤ off ∧ off < 20 then bits s.mgmt.mbOff (8 * (off - 16)) 8
  else if 20 ≤ off ∧ off < 24 then bits s.mgmt.mbLen (8 * (off - 20)) 8
  else if 4096 ≤ off ∧ off < 8192 then (look 0 s.mgmt.mbData (off - 4096)).toNat
  else 0

/-- `n` bytes of the mailbox. -/
def State.mailboxRead (s : State) (off n : Nat) : Nat := leNum ((List.range n).map fun i => s.mailboxAt (off + i))

/-- Bytes written to the mailbox: OFF, LEN and DATA first, then CMD, which starts its command. -/
def State.writeMailbox (s : State) (l : List (Nat × Nat)) : State :=
  let s := l.foldl (fun (s : State) e => s.mailboxByte e.1 e.2) s
  match l.find? fun e => e.1 == 8 with
  | some e => s.mailboxCommand e.2
  | none => s

end Sys2Proof.Machine
end

