-- ==== Sys2Proof/Machine/Registers.lean ====
section
/-!
DEFINITION. Writes of device registers (R6, R341, R369, R374, R379, R385, R403, R410, R415, R417, R424, R433,
R437, R441, R443, R446, R459, R469, R470), and the requests of the host and of cores and engines that reach them
(R143, R468).
-/
namespace Sys2Proof.Machine

/-- A value held between two limits: a field outside its limits takes the nearest (spec/00, R7). -/
def clamp (lo hi v : Nat) : Nat := min hi (max lo v)

/-! ## Contexts and partitions -/

/-- A context control block's new value (R341): some fields are fixed while a gang of the context is resident. -/
def Ctx.write (c : Ctx) (resident : Bool) (v : Nat) : Ctx :=
  let c := { c with
    dbgatt := v.testBit 2, dbgstop := v.testBit 3, lease := bits v 8 8, frhead := bits v 160 32
    frdrop := bits v 192 16, bp0en := v.testBit 256, bp0 := bits v 258 62, bp1en := v.testBit 320
    bp1 := bits v 322 62 }
  if resident then c
  else { c with
    chk := v.testBit 0, demand := v.testBit 1, tlbi := v.testBit 4, dbgr := v.testBit 5, frlog := bits v 16 4
    frbase := bits v 70 58 * 64 }

/-- Whether a context of a partition has a resident gang (R385). -/
def State.partResident (s : State) (n : Nat) : Bool := s.gangs.any fun g => g.live && (s.ctx g.ctx).part == n

/-- A partition's isles (R385): ignored when an isle would lie in two partitions, or while a gang of one of its
contexts is resident. -/
def State.writePart (s : State) (n v : Nat) : State :=
  let isles := bits v 0 16
  let others := (List.range 16).filter (· != n)
  let clash := others.any fun m => (look (if m = 0 then 0xFFFF else 0) s.mgmt.parts m) &&& isles != 0
  if clash || s.partResident n then s else s.updMgmt fun m => { m with parts := place m.parts n isles }

/-! ## Regions (R403) -/

/-- Whether a region's fields are in range: its size, window exponent, home slice, a bound that is a positive finite
FP32, and a base in space 0, 1 or 2 aligned to the size. -/
def Region.inRange (r : Region) : Bool :=
  decide (12 ≤ r.log2sz) && decide (r.log2sz ≤ 30) && (decide (r.w ≤ 127) || decide (130 ≤ r.w)) &&
  decide (r.hslice ≤ 159) && decide (0 < r.bound.toNat) && decide (r.bound.toNat < 0x7F800000) &&
  decide (spaceOf r.base < 3) && r.base % 2 ^ r.log2sz == 0

/-- Whether two regions overlap. -/
def Region.overlaps (a b : Region) : Bool :=
  decide (a.base < b.base + 2 ^ b.log2sz) && decide (b.base < a.base + 2 ^ a.log2sz)

/-- A region-table entry written (R403): a write that sets V takes effect only in range and without overlap, and a
write to a valid entry only while no share of it is outstanding; setting V sets U to 2^40 units. -/
def State.writeRegion (s : State) (i v : Nat) : State :=
  let r := s.region i
  let n : Region := { Region.reset with
    v := v.testBit 0, log2sz := bits v 1 6, w := bits v 8 8, hisle := bits v 16 4, hslice := bits v 20 8
    bound := BitVec.ofNat 32 (bits v 32 32), base := bits v 64 56
    unalloc := if v.testBit 0 then 2 ^ 40 else r.unalloc
    lost := if v.testBit 0 && !r.v then 0 else r.lost }
  let clash := s.regions.any fun e => e.1 != i && e.2.v && e.2.overlaps n
  if (r.v && !r.shares.isEmpty) || (n.v && (!n.inRange || clash)) then s
  else { s with regions := place s.regions i n }

/-! ## Queues and capabilities (R415 to R417) -/

/-- QCTL written (R415): OWNER, LEN and BASE are fixed while EN = 1, and enabling sets HEAD and TAIL to 0. -/
def Queue.write (q : Queue) (v : Nat) : Queue :=
  let q' := { q with en := v.testBit 0, pri := bits v 1 4, nonce := bits v 128 32 }
  if q.en then q'
  else
    let q' := { q' with owner := bits v 5 6, len := bits v 32 32, base := bits v 64 64 }
    if q'.en then { q' with head := 0, tail := 0 } else q'

/-- A wake (R417): the new tail is taken, or the wake is dropped. -/
def State.wakeQueue (s : State) (port t : Nat) : State :=
  let cap := look 0 s.disp.wake port % 2 ^ 256
  let n := capQueue cap
  let q := s.qctl n
  let bad := !s.capOk cap 106 || (port != 64 && bits cap 112 6 != port)
  let far (from_ : Nat) : Bool := decide (q.len < (t + 2 ^ 32 - from_) % 2 ^ 32)
  if bad || far q.head || far q.tail then s.dropQueue n else s.updQ n fun q => { q with tail := t }

/-- A wake port written (R417): bytes 0 to 31 hold a capability; a write that covers bytes 32 to 35 is a wake. -/
def State.writeWake (s : State) (port v : Nat) (tail : Bool) : State :=
  let s := s.updDisp fun d => { d with wake := put 0 d.wake port (v % 2 ^ 288) }
  if tail then s.wakeQueue port (bits v 256 32) else s

/-! ## Host interrupts (R469) -/

/-- An MSI-X entry written: unmasking a vector with a message pending sends it. -/
def State.writeMsix (s : State) (v n : Nat) : State :=
  let words := (List.range 4).map fun i => bits n (32 * i) 32
  let s := s.updMgmt fun m => { m with
    msixTable := (words.zipIdx).foldl (fun t e => place t (4 * v + e.2) e.1) m.msixTable }
  if look 0 s.mgmt.msixTable (1000 + v) = 1 ∧ s.msixMasked v = false ∧ s.mgmt.msixMask = false ∧ s.mgmt.msixOn = true then
    (s.updMgmt fun m => { m with msixTable := place m.msixTable (1000 + v) 0 }).emit (.msix v)
  else s

/-- INTSRC written (R469): PEND is cleared by a 1. -/
def State.writeIntsrc (s : State) (k n : Nat) (first : Bool) : State :=
  s.updMgmt fun m => { m with
    intVec := place m.intVec k (bits n 0 6), intEn := put 0 m.intEn k (bits n 6 1)
    intPend := if first && n.testBit 7 then put 0 m.intPend k 0 else m.intPend }

/-! ## One register (R6) -/

/-- A register written with its new value `v`; `first` says that its byte 0 is among those written, `tail` that its
bytes 32 to 35 are. `bar0` is a write of the supervisor's through BAR0 (R469, R470). -/
def State.writeReg (s : State) (bar0 : Bool) (r : DevReg) (v : Nat) (first tail : Bool) : State :=
  match r with
  | .nearcfg => s
  | .ctxBlock c => (s.updCtx c fun x => x.write (s.resident c) v).reportPages c
  | .ctxt c =>
    if s.resident c then s
    else s.updCtx c fun x => { x with root := bits v 17 47 * 2 ^ 17, part := bits v 64 4 }
  | .part n => s.writePart n v
  | .region i => s.writeRegion i v
  | .strutil _ => s
  | .lreq isle c => s.updMesh fun m => { m with
      lreqLocal := put 0 m.lreqLocal (isle * 64 + c) (bits v 0 64)
      lreqRemote := put 0 m.lreqRemote (isle * 64 + c) (bits v 64 64) }
  | .engreq isle c => s.updMesh fun m => { m with
      engLocal := put 0 m.engLocal (isle * 64 + c) (bits v 0 64)
      engRemote := put 0 m.engRemote (isle * 64 + c) (bits v 64 64) }
  | .wake p => s.writeWake p v tail
  | .mint => s.updDisp fun d => { d with mint := v % 2 ^ 160 }
  | .schedcfg => s.updDisp fun d => { d with hbthr := min 320000 (bits v 0 19), slewa := clamp 1 256 (bits v 19 9) }
  | .qctl n => (s.schedForget (.queue n)).updQ n fun q => q.write v
  | .clkctl n => s.updCluster n fun c => { c with req := min 68 (bits v 0 7), budget := bits v 32 16 }
  | .chippwr m => s.setTokens m (clamp 1 16 (bits v 0 5))
  | .pkgpwr =>
    let was := s.ceil.self_
    (s.updCeil fun c => { c with swcap := min 68 (bits v 8 7), mhfrac := clamp 1 255 (bits v 32 8) }).limitChanged was
  | .ptime => s
  | .tsync => s.updSync fun y =>
      { y with master := v.testBit 0, upport := bits v 1 5, syncint := clamp 4 10 (bits v 8 4) }
  | .cgcfg => s.writeCgcfg v
  | .cgstat => s
  | .member _ => s
  | .chipctl m =>
    let t := if v.testBit 0 then s.fenceByHand m else s
    if v.testBit 1 && (s.chip m).state == 1 then t.startRejoin m else t
  | .bootstat => s
  | .hwin => if bar0 then s.updMgmt fun m => { m with hwin := bits v 36 20 * 2 ^ 36 } else s
  | .intsrc k => s.writeIntsrc k v first
  | .msix k => if bar0 then s.writeMsix k v else s
  | .msixPending => s
  | .svcmd =>
    let s := s.updMgmt fun m => { m with sv := { m.sv with
      ctx := bits v 8 6, arg := bits v 16 16, gang := bits v 32 32, act := v.testBit 64, img := bits v 128 64
      imgLen := bits v 192 32 } }
    if first then s.command (bits v 0 8) else s
  | .peercfg => s.updMgmt fun m => { m with peerSelf := bits v 0 12, pen := v.testBit 12 }
  | .pwin => s.updMgmt fun m => { m with pwin := bits v 39 17 * 2 ^ 39 }
  | .proute pid => s.updMgmt fun m => { m with proute := put 0 m.proute pid (bits v 0 6) }

/-- A register's value with bytes replaced. -/
def mergeBytes (old : Nat) (l : List (Nat × Nat)) : Nat := l.foldl (fun v e => setBits v (8 * e.1) 8 e.2) old

/-- Bytes written to the map, register by register (R6, R369): `l` lists offsets and bytes in ascending order. -/
def State.writeMap (s : State) (bar0 : Bool) : Nat → List (Nat × Nat) → State
  | 0, _ => s
  | _, [] => s
  | n + 1, (off, b) :: t =>
    match devAt off with
    | none => State.writeMap s bar0 n t
    | some p =>
      let inside (e : Nat × Nat) : Bool := decide (e.1 < p.base + p.size)
      let mine := ((off, b) :: t.takeWhile inside).map fun e => (e.1 - p.base, e.2)
      let v := mergeBytes (s.readReg p.reg) mine
      let has (a k : Nat) : Bool := mine.any fun e => decide (a ≤ e.1) && decide (e.1 < a + k)
      let full := (List.range 4).all fun i => has (32 + i) 1
      (s.writeReg bar0 p.reg v (has 0 1) full).writeMap bar0 n (t.dropWhile inside)

/-- Whether device registers take writes (R467): from phase 7 on. -/
def State.takesWrites (s : State) : Bool := s.mgmt.phase == 7 && !s.mgmt.recovery

/-- Bytes written to the register map. -/
def State.writeBytes (s : State) (bar0 : Bool) (l : List (Nat × Nat)) : State :=
  if s.takesWrites then s.writeMap bar0 l.length l else s

/-- `n` bytes of a value from an offset on. -/
def bytesAt (off : Nat) (l : List Nat) : List (Nat × Nat) := l.zipIdx.map fun e => (off + e.2, e.1)

/-! ## The host port (R143, R468, R470) -/

/-- Whether the host port is trained (R467). -/
def State.hostUp (s : State) : Bool := decide (4 < s.mgmt.phase)

/-- Whether every byte of a range is memory that the window reaches: spaces 0 to 3 (R470). -/
def State.windowOk (s : State) (pa n : Nat) : Bool :=
  decide (spaceOf pa < 4) && s.namesMemory pa && s.namesMemory (pa + n - 1) && spaceOf pa == spaceOf (pa + n - 1)

/-- The lines that a range touches, with their homes; those of the device registers have none. -/
def State.linesOf (s : State) (pa n : Nat) : List (Option Home × Nat) :=
  (List.range ((pa % 128 + n + 127) / 128)).map fun i =>
    let a := pa / 128 * 128 + 128 * i
    (if spaceOf a = 3 then none else s.physHome a, a)

/-- The lines asked for, each by one RDH of a unit of isle 0 (R143, R394), under the numbers of the lines. -/
def State.askLines (s : State) (a : Agent) (unit : Nat) : List (Option Home × Nat) → State
  | [] => s
  | (h, pa) :: t =>
    let s := match s.ask a (pa / 128) { linePacket 0x02 vcL 0 0 unit 0 h pa with aux := [0, 0, 0, 0] } with
      | .wait s => s
      | .got _ _ => s
    State.askLines s a unit t

/-- The bytes of a range read by an agent of isle 0 line by line, with whether some of them are poisoned; `none` while
lines are on their way. -/
def State.readLines (s : State) (a : Agent) (unit pa n : Nat) : State × Option (List Nat × Bool) :=
  let lines := s.linesOf pa n
  let s := s.askLines a unit lines
  let t := s.ticket a
  if t.pend.isEmpty then
    let part (e : Option Home × Nat) : List Nat × Bool :=
      let r := rangeIn pa n e.2
      match t.lines.find? fun x => x.1 == e.2 / 128 with
      | some (_, d, bad) => (leBytes r.2.2 (lineGet d r.1 r.2.2), (List.range 4).any fun i =>
          bad.testBit i && decide (32 * i < r.1 + r.2.2) && decide (r.1 < 32 * (i + 1)))
      | none => ([], false)
    (s, some (lines.flatMap fun e => (part e).1, lines.any fun e => (part e).2))
  else (s, none)

/-- A range written by an agent of isle 0, one WT per line, each acknowledged before the next is sent (R143, R394):
whether all have been. -/
def State.writeLines (s : State) (a : Agent) (unit pa : Nat) (l : List Nat) : State × Bool :=
  let t := s.ticket a
  match (s.linesOf pa l.length).find? fun e => !(t.lines.any fun x => x.1 == e.2 / 128) with
  | none => (s, true)
  | some (h, line) =>
    let r := rangeIn pa l.length line
    let bytes := (l.drop r.2.1).take r.2.2
    let p := { linePacket 0x03 vcL (carried (lineMask r.1 r.2.2)) 0 unit 0 h line with
      bmask := lineMask r.1 r.2.2, data := lineSet 0 r.1 r.2.2 (leNum bytes), aux := [0] }
    match s.ask a (line / 128) p with
    | .wait s => (s, false)
    | .got _ _ => (s, true)

/-- A host request goes on (R143, R470): whether it is over. Poisoned bytes are read as they stand. -/
def State.hostDo (s : State) : HostReq → State × Bool
  | .read pa n =>
    if s.windowOk pa n then
      match s.readLines .host unitHost pa n with
      | (s, none) => (s, false)
      | (s, some (l, _)) => (s.emit (.readData l), true)
    else ((s.emit .unsupported).logEvent, true)
  | .write pa l => if s.windowOk pa l.length then s.writeLines .host unitHost pa l else (s.logEvent, true)
  | .reg off n v =>
    (if s.mgmt.recovery then s.writeMailbox (bytesAt off (leBytes n v)) else s.writeBytes true (bytesAt off (leBytes n v)),
      true)
  | .regRead off n =>
    (s.emit (.readData (leBytes n (if s.mgmt.recovery then s.mailboxRead off n else s.devRead off n))), true)

/-- The host's requests are performed one after the other in the order in which they came (R143), up to the first that
is not over. -/
def State.serveHost (s : State) : List HostReq → State
  | [] => s.updMgmt fun m => { m with hostQ := [] }
  | r :: t =>
    match s.hostDo r with
    | (s, true) => (s.dropTicket .host).serveHost t
    | (s, false) => s.updMgmt fun m => { m with hostQ := r :: t }

/-- A request arrives at the host port. -/
def State.hostTakes (s : State) (r : HostReq) : State := s.serveHost (s.mgmt.hostQ ++ [r])

/-- HOST_MEMORY_READ: a read through BAR2, or through BAR0 where the offset lies beyond BAR2's 2^36 bytes
(R143, R468, R470, R471, notes/assumptions/2). -/
def execHostMemoryRead (off len : Nat) (s : State) : Result :=
  .next (if 2 ^ 36 ≤ off then (if s.hostUp || s.mgmt.recovery then s.hostTakes (.regRead (off - 2 ^ 36) len) else s)
    else if s.mgmt.recovery then s.emit .unsupported
    else if s.hostUp then s.hostTakes (.read (s.mgmt.hwin + off % 2 ^ 36) len) else s)

/-- HOST_MEMORY_WRITE: a posted write through BAR2 (R468, R470, R471). -/
def execHostMemoryWrite (off : Nat) (bytes : List Nat) (s : State) : Result :=
  .next (if s.mgmt.recovery then s
    else if s.hostUp then s.hostTakes (.write (s.mgmt.hwin + off % 2 ^ 36) bytes) else s)

/-- A register write through BAR0 takes its place among the host's requests (R143). -/
def State.barWrite (s : State) (off len v : Nat) : State := s.hostTakes (.reg off len v)

/-- REGISTER_WRITE: a write of device registers without behaviour of their own (R6). -/
def execRegisterWrite (off len val : Nat) (s : State) : Result := .next (s.barWrite off len val)

/-- WAKE: a write to a wake port (R417). -/
def execWake (port off len val : Nat) (s : State) : Result :=
  .next (s.barWrite ((if port = 64 then 0x61000 else 0x60000 + 64 * port) + off) len val)

/-- MINT: a write of capability bits (R416). -/
def execMint (off len val : Nat) (s : State) : Result := .next (s.barWrite (0x62000 + off) len val)

/-- QCTL: a write to a queue's control register (R415). -/
def execQctl (q off len val : Nat) (s : State) : Result := .next (s.barWrite (0x70000 + 32 * q + off) len val)

/-- REGION_TABLE: a write to a region-table entry (R403). -/
def execRegionTable (i off len val : Nat) (s : State) : Result := .next (s.barWrite (0x40000 + 32 * i + off) len val)

/-- CGCFG: a write of the ceiling-group configuration (R446). -/
def execCgcfg (val : Nat) (s : State) : Result := .next (s.barWrite 0x83000 8 val)

/-! ## Accesses to addresses without a home (R369, R373, R374, R491) -/

/-- The bytes that a read asks for: the sectors of a copy engine's, else the line: the offset in the line and the
bytes. -/
def Packet.reach (p : Packet) : Nat × Nat :=
  if p.typ = 0x09 then (p.aux.headD 0, 32 * p.aux.getD 1 4) else (0, 128)

/-- The answer to a read of an address without a home: the bytes it asked for, in their place in the line. -/
def State.outsideAnswer (s : State) (p : Packet) (v poison : Nat) : State :=
  let r := p.reach
  s.send { p.reply 0x10 vcR (if r.1 % 64 + r.2 ≤ 64 then 1 else 2) with
    data := lineSet 0 r.1 r.2 v, poison := poison, aux := 0 :: p.aux }

/-- A write of a core to space 4 names in AUX the flight that its acknowledgement ends (R132); that of another unit is
acknowledged under its own tag. -/
def State.outsideWritten (s : State) (p : Packet) : State :=
  s.send { p.reply 0x11 vcR 0 with
    tag := if p.srcCore < 256 then p.aux.headD 0 else p.tag, time := s.ptime, aux := p.aux }

/-- A weak store to space 4 has performed once its port has accepted it (R124). -/
def State.outsideAccepted (s : State) (p : Packet) : State :=
  if p.srcCore < 256 ∧ p.aux.getD 1 0 = 1 then s.send { p.reply 0x11 vcR 0 with time := s.ptime, aux := p.aux } else s

/-- A write's bytes cut into runs of consecutive ones: the offset of each run and its bytes. -/
def Packet.runs (p : Packet) : List (Nat × List Nat) :=
  (List.range 128).foldl
    (fun (acc : List (Nat × List Nat)) i =>
      if p.bmask.getLsbD i then
        let b := lineGet p.data i 1
        match acc.getLast? with
        | some (o, l) => if o + l.length = i then acc.dropLast ++ [(o, l ++ [b])] else acc ++ [(i, [b])]
        | none => [(i, [b])]
      else acc) []

/-- A read at the host port (R374, R468): the host is asked, and what it answers is a free value
(notes/assumptions/4). -/
def State.hostAsked (s : State) (p : Packet) : State :=
  let r := p.reach
  let pa := p.pa + r.1
  (s.emit (.hostRead (pa % 2 ^ 51) r.2)).outsideAnswer p (outsideData s.tick pa r.2) 0

/-- A write at the host port (R374, R468): posted memory writes, one for each run of bytes. -/
def State.hostWritten (s : State) (p : Packet) : State :=
  let s := p.runs.foldl (fun (s : State) e => s.emit (.hostWrite ((p.pa + e.1) % 2 ^ 51) e.2)) s
  (s.outsideAccepted p).outsideWritten p

/-- A read at the Vreles ports: the peer package is asked by the port of its route (R374). -/
def State.peerAsked (s : State) (p : Packet) : State :=
  let r := p.reach
  let id := s.fresh
  (s.took.updMgmt fun m => { m with outWait := place m.outWait id p }).sendPeer (s.peerPort p.pa) p.vc
    (.read ((p.pa + r.1) % 2 ^ 39) r.2 id)

/-- A write at the Vreles ports: one message per run of bytes, the last of which carries the tag that ends it. -/
def State.peerWritten (s : State) (p : Packet) : State :=
  let id := s.fresh
  let port := s.peerPort p.pa
  let s := s.took.updMgmt fun m => { m with outWait := place m.outWait id p }
  let l := p.runs
  let s := l.zipIdx.foldl
    (fun (s : State) e => s.sendPeer port p.vc
      (.write ((p.pa + e.1.1) % 2 ^ 39) e.1.2 (if e.2 + 1 = l.length then id else 0))) s
  s.outsideAccepted p

/-- A read of the register map by a unit: the bytes come back in their place in the line. -/
def State.registerRead (s : State) (p : Packet) : State :=
  let r := p.reach
  s.outsideAnswer p (s.devRead (p.pa % 2 ^ 26 / 128 * 128 + r.1) r.2) 0

/-- A write of the register map by a core or engine, acknowledged. -/
def State.registerStore (s : State) (p : Packet) : State :=
  let line := p.pa % 2 ^ 26 / 128 * 128
  let l := ((List.range 128).filter fun i => p.bmask.getLsbD i).map fun i => (line + i, lineGet p.data i 1)
  let s := s.writeBytes false l
  s.send { p.reply 0x11 vcR 0 with time := s.ptime, aux := p.aux }

/-- A read at a unit: at a slice, the device registers, the host port or the Vreles ports. -/
def State.readAt (s : State) (unit : Nat) (p : Packet) : State :=
  if unit = unitMgmt then s.registerRead p
  else if unit = unitHost then s.hostAsked p
  else if unit = unitVreles then s.peerAsked p
  else s.atHome p

/-- A write at a unit. -/
def State.writeAt (s : State) (unit : Nat) (p : Packet) : State :=
  if unit = unitMgmt then s.registerStore p
  else if unit = unitHost then s.hostWritten p
  else if unit = unitVreles then s.peerWritten p
  else s.atHome p

/-- RDH: a read at home (R394). -/
def execRdh (isle unit : Nat) (s : State) : Result := onPacket s isle unit 0x02 fun s p => s.readAt unit p

/-- WT: a write-through at home (R399). -/
def execWt (isle unit : Nat) (s : State) : Result := onPacket s isle unit 0x03 fun s p => s.writeAt unit p

/-- CPR: a copy-engine read at home (R140). -/
def execCpr (isle unit : Nat) (s : State) : Result := onPacket s isle unit 0x09 fun s p => s.readAt unit p

/-- CPW: a copy-engine write at home (R140, R399). -/
def execCpw (isle unit : Nat) (s : State) : Result := onPacket s isle unit 0x0A fun s p => s.writeAt unit p

end Sys2Proof.Machine
end

