-- ==== Sys2Proof/Machine/Chain.lean ====
section
/-!
DEFINITION. The copy channels of an isle: how a chain of transfer records is walked (R316, R317, R321 to R323).
-/
namespace Sys2Proof.Machine

/-! ## A transfer record (R316) -/

/-- The fields of a transfer record: its next record, source and destination runs, the flags OWN and REL and its
byte 34. -/
structure Transfer where
  next : W64
  src : Run
  dst : Run
  own : Bool
  rel : Bool
  flags : Nat
deriving DecidableEq, Repr

/-- The transfer record of 64 bytes read as a number (R316). -/
def transferOf (w : Nat) : Transfer :=
  let n0 := bits w 192 16
  let n := (List.range 4).map fun i => bits w (208 + 16 * i) 16
  let strides (lo : Nat) : List Int := (List.range 4).map fun i => 32 * signedOf 24 (bits w (lo + 24 * i) 24)
  { next := BitVec.ofNat 64 (bits w 0 64)
    src := ⟨BitVec.ofNat 64 (bits w 64 64), n0, n, strides 288⟩
    dst := ⟨BitVec.ofNat 64 (bits w 128 64), n0, n, strides 384⟩
    own := w.testBit 272, rel := w.testBit 274, flags := bits w 272 8 }

/-- Whether a count of a record is 0 (R317). -/
def Transfer.emptyRun (t : Transfer) : Bool := (t.src.n0 :: t.src.n).any fun x => x == 0

/-- Whether SRC, DST or NEXT of a record is misaligned (R316, R317). -/
def Transfer.misaligned (t : Transfer) : Bool :=
  t.src.base.toNat % 32 != 0 || t.dst.base.toNat % 32 != 0 || t.next.toNat % 64 != 0

/-! ## A channel's accesses (R140, R317, R394) -/

/-- The engine that serves a channel's chains (R473). -/
def chanUnit (key : Nat) : Nat := 176 + key % 8

/-- What an access of a channel comes to: a wait, a fault at an address, or the line that has come with its poison
marks. -/
inductive Asked where
  | wait (s : State)
  | fault (f : XFault) (va : W64)
  | got (d : LineData) (poison : Nat)
deriving DecidableEq, Repr

/-- A channel's access, made once and kept under `slot` until the channel has done with it: its address is translated for
the head's context, and a packet about its line, completed by `f` from its offset in the line, leaves its engine. `opens`
tells whether the access begins a line (R410). -/
def State.chanAsk (s : State) (key slot : Nat) (h : Head) (va : W64) (a : Access) (typ vc dlen : Nat) (opens : Bool)
    (f : Nat → Packet → Packet) : Asked :=
  let isle := key / 8
  match (s.ticket (.chan key)).lines.find? fun e => e.1 == slot with
  | some e => .got e.2.1 e.2.2
  | none =>
    match s.lookup (.chan key) none isle h.ctx va a with
    | .miss => .wait (s.startWalk (.chan key) isle h.ctx va)
    | .bad f => .fault f va
    | .ok x =>
      let s := s.tookWalks (.chan key)
      let p := f (x.pa % 128) (linePacket typ vc dlen isle (chanUnit key) h.ctx (s.homeOfXl h.ctx x) x.pa)
      let s := if opens then s.countEngine isle h.ctx p.disle else s
      let s := if vc = vcB then (s.useNow (engineTimer isle (key % 8) (if typ = 0x09 then 0 else 1))).engineTurn isle (key % 8) 2
        else s
      match s.ask (.chan key) slot p with
      | .wait s => .wait s
      | .got d poison => .got d poison

/-- The line of a record read at home as a strong load (R317). -/
def State.chanRecord (s : State) (key slot : Nat) (h : Head) : Asked :=
  s.chanAsk key slot h h.va .read 0x02 vcL 0 true fun _ p => { p with aux := [0, 0, 0, 0] }

/-- `n` sectors read at home by a channel (R140). -/
def State.chanRead (s : State) (key slot : Nat) (h : Head) (va : W64) (n : Nat) (opens : Bool) : Asked :=
  s.chanAsk key slot h va .read 0x09 vcB 0 opens fun off p => { p with aux := [off, n] }

/-- `n` bytes of a record written at home by a channel, as a strong store (R317, R476). -/
def State.chanStore (s : State) (key slot : Nat) (h : Head) (va : W64) (a : Access) (n v : Nat) : Asked :=
  s.chanAsk key slot h va a 0x03 vcL 1 true fun off p => { p with bmask := lineMask off n, data := lineSet 0 off n v, aux := [0] }

/-- `n` bytes inside a line written at home by a channel (R140). -/
def State.chanWrite (s : State) (key slot : Nat) (h : Head) (va : W64) (a : Access) (n v : Nat) (opens : Bool) : Asked :=
  s.chanAsk key slot h va a 0x0A vcB (if n ≤ 64 then 1 else 2) opens fun off p =>
    { p with bmask := lineMask off n, data := lineSet 0 off n v }

/-! ## A channel's record -/

/-- The channel goes on with other heads at its front; what it has asked for is done with (R316). -/
def State.setHeads (s : State) (key : Nat) (f : List Head → List Head) : State :=
  let s := (s.dropTicket (.chan key)).updChan key fun c => { Chan.idle with heads := f c.heads, coming := c.coming }
  s.acceptHeads key (s.chan key).coming

/-- The channel goes on with its next head (R316). -/
def State.nextHead (s : State) (key : Nat) : State := s.setHeads key (·.drop 1)

/-- The report of a chain's fault (R317, R322): no core, block or group applies (notes/assumptions/30). -/
def Head.report (h : Head) (code : Nat) (va : W64) (iter : List Nat) : Report :=
  ⟨0x04, code, h.ctx, 1023, 0, 0, 255, 0, h.va, va, iterBits iter, 0⟩

/-- A record faults: it keeps OWN = 1, and its CODE is still to be written (R317). -/
def State.chanStop (s : State) (key : Nat) (code : Nat) (va : W64) (iter : List Nat) : State :=
  (s.tookWalks (.chan key)).updChan key fun c => { c with stop := some (code, va, iter) }

/-- A recoverable fault stops a channel at an address, with one report of code 0x10 (R321, R323). -/
def State.chanPause (s : State) (key : Nat) (h : Head) (va : W64) (iter : List Nat) : State :=
  ((s.tookWalks (.chan key)).report (h.report 0x10 va iter)).updChan key fun c => { c with fault := some va }

/-- A translation fault of a chain (R321): a recoverable one stops it at the sector (R323); any other stops it for
good. -/
def State.chanFault (s : State) (key : Nat) (h : Head) (f : XFault) (va : W64) (iter : List Nat) : State :=
  if s.recoverable h.ctx f then s.chanPause key h va iter else s.chanStop key f.code va iter

/-- The record of a chain that has faulted takes its CODE; then the chain stops, and the context receives a report
(R317). -/
def State.chanCode (s : State) (key : Nat) (h : Head) (code : Nat) (va : W64) (iter : List Nat) : State :=
  let over_ (s : State) : State := (s.report (h.report code va iter)).nextHead key
  match s.chanStore key 6 h (h.va + 35) .write 1 code with
  | .wait s => s
  | .fault f a => if s.recoverable h.ctx f then s.chanPause key h a iter else over_ s
  | .got _ _ => over_ s

/-- The iteration vector of sector `i` of a record (R322). -/
def Transfer.vector (t : Transfer) (i : Nat) : List Nat := vectorOf (t.src.n0 :: t.src.n) i

/-- The slot under which a channel keeps the piece of its source that begins at sector `i`. -/
def pieceSlot (i : Nat) : Nat := 16 + i

/-- The first piece of the source that holds one of `n` sectors from `i` on and has not come. -/
def State.missingPiece (s : State) (key : Nat) (t : Transfer) (i n : Nat) : Option (Nat × Nat) :=
  ((List.range n).map fun k => t.src.pieceOf (i + k)).find? fun e =>
    !((s.ticket (.chan key)).lines.any fun l => l.1 == pieceSlot e.1)

/-- Sector `i` of the source as it has come, with whether it is poisoned. -/
def State.chanSector (s : State) (key : Nat) (t : Transfer) (i : Nat) : Nat × Bool :=
  let e := t.src.pieceOf i
  let off := (t.src.sector e.1).toNat % 128 + 32 * (i - e.1)
  match (s.ticket (.chan key)).lines.find? fun l => l.1 == pieceSlot e.1 with
  | some (_, d, poison) => (lineGet d off 32, poison.testBit (off / 32))
  | none => (0, false)

/-- The slot of the write of the piece of the destination that begins at sector `i`. -/
def writeSlot (i : Nat) : Nat := 2 ^ 40 + i

/-- A piece of `n` sectors of the destination is on its way: the channel goes on behind it, and forgets what it has done
with. -/
def State.chanSent (s : State) (key : Nat) (t : Transfer) (n : Nat) : State :=
  let s := s.updChan key fun c => { c with pos := c.pos + n }
  let i := (s.chan key).pos
  let spent := (s.ticket (.chan key)).lines.filter fun l =>
    decide (writeSlot 0 ≤ l.1) ||
      (decide (16 ≤ l.1) && decide (l.1 < writeSlot 0) && decide (l.1 - 16 + (t.src.pieceOf (l.1 - 16)).2 ≤ i))
  s.dropKeys (.chan key) (spent.map (·.1))

/-- Whether a request of a channel under a slot is on its way or answered. -/
def State.chanHas (s : State) (key slot : Nat) : Bool :=
  let t := s.ticket (.chan key)
  (t.pend.any fun e => e.2 == slot) || t.lines.any fun e => e.1 == slot

/-- The next piece of a record's source is read (R317, R473). DESIGN CHOICE: an engine reads ahead of its writes without
bound (notes/assumptions/26). -/
def State.readAhead (s : State) (key : Nat) (h : Head) (t : Transfer) : State :=
  let (j, m) := t.src.pieceOf (s.chan key).rd
  match s.chanRead key (pieceSlot j) h (t.src.sector j) m (t.src.opensLine j) with
  | .wait s => if s.chanHas key (pieceSlot j) then s.updChan key fun c => { c with rd := j + m } else s
  | .fault f va => s.chanFault key h f va (t.vector (max (s.chan key).pos j))
  | .got _ _ => s.updChan key fun c => { c with rd := j + m }

/-- The next piece of a record's destination, all of whose source has come, is written (R317, R473). -/
def State.writeBehind (s : State) (key : Nat) (h : Head) (t : Transfer) : State :=
  let i := (s.chan key).pos
  let n := (t.dst.pieceOf i).2
  match (List.range n).find? fun k => (s.chanSector key t (i + k)).2 with
  | some k => s.chanStop key 0x13 (t.src.sector (i + k)) (t.vector (i + k))
  | none =>
    let v := (List.range n).foldl (fun acc k => acc + (s.chanSector key t (i + k)).1 * 2 ^ (256 * k)) 0
    match s.chanWrite key (writeSlot i) h (t.dst.sector i) .write (32 * n) v (t.dst.opensLine i) with
    | .wait s => if s.chanHas key (writeSlot i) then s.chanSent key t n else s
    | .fault f va => s.chanFault key h f va (t.vector i)
    | .got _ _ => s.chanSent key t n

/-- What a channel may do with a record that it copies now: read the next piece of the source, or write the next piece of the
destination. A read that does not translate waits until the sectors before it are written and acknowledged. -/
inductive CopyStep where
  | read
  | write
deriving DecidableEq, Repr

/-- The next step of a channel's copy; `none` while it waits for answers or for its engine (R473). -/
def State.copyStep (s : State) (key : Nat) (h : Head) (t : Transfer) : Option CopyStep :=
  let c := s.chan key
  let free (kind : Nat) : Bool := s.engineFree (key / 8) (key % 8) kind
  if (s.missingPiece key t c.pos (t.dst.pieceOf c.pos).2).isNone then (if free 1 then some .write else none)
  else if c.rd < t.src.sectors && free 0 then
    match s.lookup (.chan key) none (key / 8) h.ctx (t.src.sector c.rd) .read with
    | .bad _ => if s.asking (.chan key) then none else some .read
    | _ => some .read
  else none

/-- The next piece of a record's run goes on (R317). -/
def State.copyPiece (s : State) (key : Nat) (h : Head) (t : Transfer) : State :=
  match s.copyStep key h t with
  | some .write => s.writeBehind key h t
  | some .read => s.readAhead key h t
  | none => s

/-- A copied record is given back to software, as an access that needs R and W (R380); after the acknowledgement NEXT is
read, and the channel goes on to the record that it names then, or to its next head (R317). A NEXT that has become
misaligned stops the chain with code 0x14 (notes/assumptions/31). -/
def State.handBack (s : State) (key : Nat) (h : Head) (t : Transfer) : State :=
  match s.chanStore key 4 h (h.va + 34) .both 2 (t.flags / 2 * 2) with
  | .wait s => s
  | .fault f va => s.chanFault key h f va []
  | .got _ _ =>
    match s.chanRecord key 5 h with
    | .wait s => s
    | .fault f va => s.chanFault key h f va []
    | .got d poison =>
      let off := h.va.toNat % 128
      let n := BitVec.ofNat 64 (lineGet d off 8)
      if poison.testBit (off / 32) then s.chanStop key 0x13 h.va []
      else if n = 0 then s.nextHead key
      else if n.toNat % 64 ≠ 0 then s.chanStop key 0x14 h.va []
      else s.setHeads key fun l => { h with va := n } :: l.drop 1

/-- What follows the copy of a record: with REL, the wait until package time exceeds the largest GWCT of its
writes (R141), then the record is given back. -/
def State.afterCopy (s : State) (key : Nat) (h : Head) (t : Transfer) : State :=
  let gmax := (s.ticket (.chan key)).gmax
  let s := s.updChan key fun c => { c with gmax := max c.gmax gmax }
  let c := s.chan key
  if t.rel && !c.released && decide (s.ptime ≤ c.gmax) then
    let id := s.fresh
    let s := { s.took with drains := place s.drains id ⟨256, h.ctx, [], c.gmax, .chan key⟩ }
    s.updChan key fun c => { c with releasing := true }
  else s.handBack key h t

/-- A channel goes on with the record at its head (R317). -/
def State.walkRecord (s : State) (key : Nat) (h : Head) : State :=
  match (s.chan key).stop with
  | some (code, va, iter) => s.chanCode key h code va iter
  | none =>
    match s.chanRecord key 3 h with
    | .wait s => s
    | .fault f va => s.chanFault key h f va []
    | .got d poison =>
      let off := h.va.toNat % 128
      let t := transferOf (lineGet d off 64)
      if poison.testBit (off / 32) || poison.testBit (off / 32 + 1) then s.chanStop key 0x13 h.va []
      else if !t.own then s.nextHead key
      else if t.emptyRun then s.chanStop key 0x15 h.va []
      else if t.misaligned then s.chanStop key 0x14 h.va []
      else if (s.chan key).pos < t.src.sectors then s.copyPiece key h t
      else s.afterCopy key h t

/-- Whether a channel copies a record: it has come, software has handed it over and it is well formed. -/
def State.copying (s : State) (key : Nat) (h : Head) : Option Transfer :=
  match (s.chan key).stop, (s.ticket (.chan key)).lines.find? fun e => e.1 == 3 with
  | none, some (_, d, poison) =>
    let off := h.va.toNat % 128
    let t := transferOf (lineGet d off 64)
    if poison.testBit (off / 32) || poison.testBit (off / 32 + 1) || !t.own || t.emptyRun || t.misaligned then none
    else if (s.chan key).pos < t.src.sectors then some t else none
  | _, _ => none

/-- Whether a channel may go on now: its record's wait is over, none of its walks is in flight, a fault it has stopped with
translates again (R323), and either the copy of its record has a next step or nothing that it has asked for is on its way
and its engine can send (R492). -/
def State.mayWalk (s : State) (key : Nat) : Bool :=
  let c := s.chan key
  match c.heads with
  | [] => false
  | h :: _ =>
    !c.releasing && !s.walkFor (· == .chan key) &&
    (match s.copying key h with
      | some t => (s.copyStep key h t).isSome
      | none => !s.asking (.chan key) && !s.sendFull (key / 8) (chanUnit key) vcL) &&
    match c.fault with
    | none => true
    | some va => match s.walk h.ctx (vaBits va) with
      | .leaf _ => true
      | _ => false

/-- CHAIN_RECORD: a channel goes on with one transfer record of a chain (R317). -/
def execChainRecord (isle ch : Nat) (s : State) : Result :=
  let key := chanKey isle ch
  .next (match (s.chan key).heads with
    | h :: _ => if s.mayWalk key then (s.updChan key fun c => { c with fault := none }).walkRecord key h else s
    | [] => s)

/-! ## Engines between chains and queued commands (R473) -/

/-- Whether a channel's next step takes its engine for a transfer. -/
def State.chanTransfers (s : State) (key : Nat) : Bool :=
  s.mayWalk key && match (s.chan key).heads with
    | h :: _ => (s.copying key h).isSome
    | [] => false

/-- The command of an isle whose transfer its next engine takes: the first that has one, in the order in which the commands
reached the engines (R473). -/
def State.firstTransfer (s : State) (isle : Nat) : Option Cmd :=
  s.cmds.find? fun c => c.isle == isle && s.takesEngine c && s.mayTransfer c

/-- Whether the engine that serves a command's next transfer takes a chain's instead: they alternate (R473). -/
def State.chainFirst (s : State) (isle : Nat) : Bool :=
  let e := s.nextEngine isle
  s.lastTurn isle e == 1 && s.chanTransfers (chanKey isle e)

/-- Whether a channel's engine takes a queued command's transfer instead of the chain's (R473). -/
def State.commandFirst (s : State) (key : Nat) : Bool :=
  let isle := key / 8
  s.lastTurn isle (key % 8) == 2 && s.nextEngine isle == key % 8 && (s.firstTransfer isle).isSome

/-- The transfers of commands that may come next (R473). -/
def State.dueTransfers (s : State) : List Instr :=
  (s.cmds.filter fun c => s.mayTransfer c && (!s.takesEngine c ||
    (s.firstTransfer c.isle == some c && !s.chainFirst c.isle))).map fun c => .copyEngineTransfer c.core c.id

/-- The channels that may go on. -/
def State.dueChains (s : State) : List Instr :=
  (s.chans.filter fun e => s.mayWalk e.1 && !(s.chanTransfers e.1 && s.commandFirst e.1)).map fun e =>
    .chainRecord (e.1 / 8) (e.1 % 8)

end Sys2Proof.Machine
end

