-- ==== Sys2Proof/Machine/Ports.lean ====
section
/-!
DEFINITION. The Vreles ports (R374, R397, R464, R472): flits and their replay, ports that go down and train again,
the requests of peer packages and the answers of peers to ours.
-/
namespace Sys2Proof.Machine

/-! ## Sending (R397) -/

/-- A list of flits leaves by a port. -/
def State.emitFlits (s : State) (port : Nat) (l : List (Nat × Nat × PeerMsg)) : State :=
  l.foldl (fun (s : State) e => s.emit (.peer port e.2.2)) s

/-- The flits of a replay buffer that have not left yet. -/
def VPort.late (p : VPort) : List (Nat × Nat × PeerMsg) := p.replay.drop (p.replay.length - p.unsent)

/-- The flits of a replay buffer that have left. -/
def VPort.left (p : VPort) : List (Nat × Nat × PeerMsg) := p.replay.take (p.replay.length - p.unsent)

/-- The flits that waited while a port did not send leave, in order (R464). -/
def State.flushPort (s : State) (port : Nat) : State :=
  let p := s.port port
  if p.unsent ≠ 0 ∧ s.portSends port = true then
    (s.emitFlits port p.late).updPort port fun p => { p with unsent := 0 }
  else s

/-- A port begins to retrain; it has 1 ms (R472). -/
def State.retrain (s : State) (port : Nat) : State :=
  s.updPort port fun p => { p with retraining := some (s.ptime + 1000000), naks := 0, rxNaks := 0 }

/-- The messages that waited for room in a replay buffer enter it, in order (R397). -/
def State.fillReplay (s : State) (port : Nat) : List (Nat × PeerMsg) → State
  | [] => s.updPort port fun p => { p with queue := [] }
  | m :: t =>
    if (s.port port).roomFor m.2 then (s.putPeer port m.1 m.2).fillReplay port t
    else s.updPort port fun p => { p with queue := m :: t }

/-- How far behind a number another one is, modulo 4,096 (R397). -/
def seqFrom (a b : Nat) : Nat := (b + 4096 - a % 4096) % 4096

/-- Whether a message of a replay buffer holds the flit of a number. -/
def holdsFlit (seq : Nat) (e : Nat × Nat × PeerMsg) : Bool := decide (seqFrom e.1 seq < peerFlits e.2.2)

/-- The replay buffer without the flits before the one of a number, which have come. -/
def VPort.cameUpTo (p : VPort) (seq : Nat) : VPort :=
  let rest := p.replay.dropWhile fun e => !holdsFlit seq e
  match rest with
  | e :: _ => { p with replay := rest, acked := seqFrom e.1 seq }
  | [] => p

/-- The flits up to the one of a number are acknowledged: they leave the replay buffer, which makes room (R397). -/
def State.peerHas (s : State) (port seq : Nat) : State :=
  let p := s.port port
  if p.left.any (holdsFlit seq) then
    let s := s.updPort port fun p =>
      let p := p.cameUpTo seq
      match p.replay with
      | e :: t => if p.acked + 1 = peerFlits e.2.2 then { p with replay := t, acked := 0 } else { p with acked := p.acked + 1 }
      | [] => p
    s.fillReplay port p.queue
  else s

/-- The flits from the one of a number on are sent again, in the original order (R397). -/
def State.resendFrom (s : State) (port seq : Nat) : State :=
  match (s.port port).left.dropWhile fun e => !holdsFlit seq e with
  | e :: t =>
    let k := seqFrom e.1 seq
    (if k = 0 then s.emit (.peer port e.2.2) else s.emit (.peerRest port k e.2.2)).emitFlits port t
  | [] => s

/-- NAK: a sender resends from a flit, in the original order, the flits before it having come (R397); the eighth in a row for one number makes the
port retrain (R472). -/
def execNak (port seq : Nat) (s : State) : Result :=
  let p := s.port port
  .next (if p.up && p.retraining.isNone then
      let n := if p.nakSeq = seq then p.naks + 1 else 1
      let s := s.updPort port fun p => { p with nakSeq := seq, naks := n }
      if 8 ≤ n then s.retrain port
      else if p.left.any (holdsFlit seq) then (s.resendFrom port seq).updPort port fun p => p.cameUpTo seq
      else s
    else s)

/-! ## A port's state (R464, R472) -/

/-- PORT_DOWN: a port fails training, or has not trained again within 1 ms, and goes down (R472). -/
def execPortDown (port : Nat) (s : State) : Result :=
  .next (if (s.port port).up then
      (s.updPort port fun p => { p with up := false, retraining := none }).interrupt 70
    else s)

/-- PORT_TRAINS_AGAIN: a port that was retraining or down carries traffic again (R472). -/
def execPortTrainsAgain (port : Nat) (s : State) : Result :=
  let p := s.port port
  .next (if (!p.up || p.retraining.isSome) && decide (4 < s.mgmt.phase) then
      ((s.updPort port fun p => { p with up := true, retraining := none }).flushPort port).interrupt 70
    else s)

/-- LINK_CALIBRATION: a port pauses for 2 µs; its flits wait in the replay buffer (R464). -/
def execLinkCalibration (port : Nat) (s : State) : Result :=
  .next (if (s.port port).up then s.updPort port fun p => { p with calUntil := s.ptime + 2000 } else s)

/-! ## Answers of peers (R124, R374) -/

/-- A request of ours that a peer has answered: it waits no longer. -/
def State.peerTaken (s : State) (tag : Nat) : State := s.updMgmt fun m => { m with outWait := Machine.drop m.outWait tag }

/-- A peer's data for a read of ours go to the unit that asked, poisoned where they came so (R374). -/
def State.peerData (s : State) (tag : Nat) (l : List Nat) (bad : Bool) : State :=
  match s.mgmt.outWait.find? fun e => e.1 == tag with
  | some (_, p) => (s.peerTaken tag).outsideAnswer p (leNum l) (if bad then 15 else 0)
  | none => s

/-- A peer's acknowledgement of a write of ours. -/
def State.peerAck (s : State) (tag : Nat) : State :=
  match s.mgmt.outWait.find? fun e => e.1 == tag with
  | some (_, p) => (s.peerTaken tag).outsideWritten p
  | none => s

/-- A request of ours that the switch reports as undeliverable (R374): a read is answered with poisoned data, a write is
discarded, and Yeham logs an event for it. -/
def State.peerLost (s : State) (tag : Nat) : State :=
  match s.mgmt.outWait.find? fun e => e.1 == tag with
  | some (_, p) =>
    let s := s.peerTaken tag
    if p.typ = 0x03 ∨ p.typ = 0x0A then s.logEvent.outsideWritten p else s.outsideAnswer p 0 15
  | none => s

/-! ## Receiving (R397) -/

/-- A message that flits carried is delivered: an answer of a peer to its waiter, a message of the ceiling group or of time to
its agent (R445, R447), a request to the buffer of its channel. -/
def State.deliver (s : State) (port vc : Nat) (m : PeerMsg) : State :=
  match m with
  | .control => s
  | .readReply tag l bad => s.peerData tag l bad
  | .writeAck tag => s.peerAck tag
  | .ack seq => s.peerHas port seq
  | .undeliverable tag => s.peerLost tag
  | .ceil kind m => s.takeCeil kind m
  | .time kind _ seqid stamp corr => s.takeTime port kind seqid stamp corr
  | .read .. | .write .. =>
    s.updPort port fun p => { p with bufs := place p.bufs (vc % 4) (look [] p.bufs (vc % 4) ++ [m]) }

/-- The next flit that a port expects, `n` of a message having come with it. -/
def VPort.expects (p : VPort) (seq n : Nat) : VPort := { p with expect := seq % 4096, got := n }

/-- A message comes whole: the flits of it that had not come yet do so without an error; the last of them is
acknowledged. -/
def State.takeFlits (s : State) (port vc : Nat) (msg : PeerMsg) : State :=
  let p := s.port port
  let n := p.expect + (peerFlits msg - p.got)
  ((s.updPort port fun p => { p.expects n 0 with refusing := false, rxNaks := 0 }).emit
    (.flitAck port ((n + 4095) % 4096))).deliver port vc msg

/-- A flit of a message has a CRC error: those before it have come, it and every later one are discarded, and its number is
returned in a NAK; the eighth in a row for one number makes the port retrain (R397, R472). -/
def State.refuseFlit (s : State) (port seq : Nat) : State :=
  let p := s.port port
  let k := seqFrom p.expect seq
  let n := if k = 0 then p.rxNaks + 1 else 1
  let s := (s.updPort port fun p => { p.expects seq (p.got + k) with refusing := true, rxNaks := n }).emit (.nak port seq)
  if 8 ≤ n then s.retrain port else s

/-- VRELES_FLIT: a port receives a message, `seq` being its next flit, or the number of the flit of it that has a CRC error
(R397). What comes out of sequence is discarded. -/
def execVrelesFlit (port seq : Nat) (crcOk : Bool) (vc : Nat) (msg : PeerMsg) (s : State) : Result :=
  let p := s.port port
  .next (if !p.up || p.retraining.isSome then s
    else if crcOk then (if seq = p.expect then s.takeFlits port vc msg else s)
    else if p.got + seqFrom p.expect seq < peerFlits msg then s.refuseFlit port seq
    else s)

/-! ## Requests of peers (R374) -/

/-- The first request that waits at a port, in channel order R, L, B, C, and the requests after it. -/
def VPort.request (p : VPort) : Option (Nat × PeerMsg) :=
  [0, 1, 2, 3].findSome? fun vc => (look [] p.bufs vc).head?.map fun m => (vc, m)

/-- Whether a peer request is performed: PEN is set and its bytes are memory (R374). -/
def State.peerOk (s : State) (pa n : Nat) : Bool := s.mgmt.pen && decide (spaceOf pa < 3) && s.windowOk pa n

/-- A peer request on its way (R374): performed at home as a host access is (R143), by packets of the Vreles ports, and
answered by the port on which it arrived; `none` while it waits. One that is refused is answered at once: a read with
poisoned data, a write by discarding it. -/
def State.peerDo (s : State) (port : Nat) : PeerMsg → State × Bool
  | .read off n tag =>
    let pa := s.mgmt.pwin + off % 2 ^ 39
    if s.peerOk pa n then
      match s.readLines (.peer port) unitVreles pa n with
      | (s, none) => (s, false)
      | (s, some (l, bad)) => (s.sendPeer port vcR (.readReply tag l bad), true)
    else (s.sendPeer port vcR (.readReply tag (List.replicate n 0) true), true)
  | .write off l tag =>
    let pa := s.mgmt.pwin + off % 2 ^ 39
    if s.peerOk pa l.length then
      match s.writeLines (.peer port) unitVreles pa l with
      | (s, true) => (s.sendPeer port vcR (.writeAck tag), true)
      | r => r
    else (s.logEvent.sendPeer port vcR (.writeAck tag), true)
  | _ => (s, true)

/-- Whether a peer request waits at a port, nothing it has asked for is on its way, and the ports can send (R492). -/
def State.peerDue (s : State) (port : Nat) : Bool := (s.port port).request.isSome && !s.asking (.peer port) && !s.sendFull 0 unitVreles vcL

/-- PEER_REQUEST: the first request that waits at a port goes on, at home, or is refused (R374). -/
def execPeerRequest (port : Nat) (s : State) : Result :=
  match (s.port port).request with
  | none => .next s
  | some (vc, m) =>
    .next (match s.peerDo port m with
      | (s, true) => (s.dropTicket (.peer port)).updPort port fun p =>
          { p with bufs := put [] p.bufs vc ((look [] p.bufs vc).drop 1) }
      | (s, false) => s)

/-- The port events that may come next. -/
def State.duePorts (s : State) : List Instr :=
  (s.ports.filter fun e => s.peerDue e.1).map (fun e => .peerRequest e.1) ++
  (s.ports.filter fun e => match e.2.retraining with
    | some t => decide (t ≤ s.ptime)
    | none => false).map (fun e => .portDown e.1)

/-- Every port that sends again sends what has waited. -/
def State.flushPorts (s : State) : State := s.ports.foldl (fun (s : State) e => s.flushPort e.1) s

end Sys2Proof.Machine
end

