-- ==== Sys2Proof/Machine/Router.lean ====
section
/-!
DEFINITION. The site routers (R388 to R392, R394, R492): routes, output arbitration, arrivals, STOP and GO, and the
send queues of units.

Ports and inputs are numbered E 0, W 1, S 2, N 3 and local 4; an input from 5 on is the input buffer of the unit
whose code is 5 less.
-/
namespace Sys2Proof.Machine

/-! ## Routes (R11, R388) -/

/-- The output port by which a packet at an isle leaves: along x to its column, then along y, then local. -/
def routePort (isle dst : Nat) : Nat :=
  if isle % 4 < dst % 4 then 0
  else if dst % 4 < isle % 4 then 1
  else if isle / 4 < dst / 4 then 2
  else if dst / 4 < isle / 4 then 3
  else 4

/-- The isle beyond a strait output. -/
def neighbour (isle port : Nat) : Nat :=
  if port = 0 then isle + 1 else if port = 1 then isle - 1 else if port = 2 then isle + 4 else isle - 4

/-- The input by which the isle beyond a strait output takes its packets. -/
def farInput (port : Nat) : Nat := if port = 0 then 1 else if port = 1 then 0 else if port = 2 then 3 else 2

/-! ## STOP and GO (R391, R492) -/

/-- The key of a buffer's stop state: a router input, or a unit's input buffer from 5 on. -/
def stopKey (isle input vc : Nat) : Nat :=
  if input < 5 then inKey isle input vc else unitStopKey isle (input - 5) vc

/-- The flits in a buffer: those that came through the router, for a unit's. -/
def State.bufferFlits (s : State) (isle input vc : Nat) : Nat :=
  if input < 5 then flitsOf (look [] s.mesh.inputs (inKey isle input vc))
  else flitsOf ((look [] s.mesh.units (unitKey isle (input - 5) vc)).filter fun p => p.sisle != isle)

/-- Whether a buffer signals STOP. -/
def State.signalsStop (s : State) (k : Nat) : Bool := (look [] s.mesh.stops k).any fun e => e.2 == 0

/-- Whether a STOP is to be signalled: the buffer holds 72 flits or more. -/
def State.stopDue (s : State) (isle input vc : Nat) : Bool :=
  !s.signalsStop (stopKey isle input vc) && decide (72 ≤ s.bufferFlits isle input vc)

/-- Whether a GO is to be signalled: the buffer holds 64 flits or fewer. -/
def State.goDue (s : State) (isle input vc : Nat) : Bool :=
  s.signalsStop (stopKey isle input vc) && decide (s.bufferFlits isle input vc ≤ 64)

/-- STOP: a receiver signals STOP for a channel, in force at the sender two base clocks later (R391). -/
def execStopSignal (isle input vc : Nat) (s : State) : Result :=
  .next (if s.stopDue isle input vc then
      let k := stopKey isle input vc
      let old := (look [] s.mesh.stops k).filter fun e => decide (s.bclk < e.2)
      s.updMesh fun m => { m with stops := place m.stops k (old ++ [(s.bclk + 2, 0)]) }
    else s)

/-- GO: a receiver signals GO for a channel, in force at the sender two base clocks later (R391). -/
def execGoSignal (isle input vc : Nat) (s : State) : Result :=
  .next (if s.goDue isle input vc then
      let k := stopKey isle input vc
      let ended (e : Nat × Nat) : Nat × Nat := if e.2 = 0 then (e.1, s.bclk + 2) else e
      s.updMesh fun m => { m with stops := place m.stops k ((look [] m.stops k).map ended) }
    else s)

/-! ## Arbitration (R389, R392) -/

/-- A head that may leave by a port: its input and the packet. -/
structure Candidate where
  input : Nat
  pkt : Packet
deriving DecidableEq, Repr

/-- Whether a packet's channel is stopped at a port. -/
def State.portStopped (s : State) (isle port : Nat) (p : Packet) : Bool :=
  if port = 4 then s.stopped (unitStopKey isle p.dunit p.vc)
  else s.stopped (inKey (neighbour isle port) (farInput port) p.vc)

/-- The candidates of a port: eligible heads whose route leaves by it and whose channel is not stopped there, in
channel order and then input order. -/
def State.candidates (s : State) (isle port : Nat) : List Candidate :=
  [0, 1, 2, 3].flatMap fun vc => [0, 1, 2, 3, 4].filterMap fun input =>
    match (look [] s.mesh.inputs (inKey isle input vc)).head? with
    | some p =>
      if routePort isle p.disle = port ∧ p.elig ≤ s.bclk ∧ s.portStopped isle port p = false then some ⟨input, p⟩
      else none
    | none => none

/-- The first free flit slot of a port at or after this base clock's first. -/
def State.freeSlot (s : State) (isle port : Nat) : Nat := max (look 0 s.mesh.slot (isle * 5 + port)) (16 * s.bclk)

/-- Whether an arbitration cycle of a port falls in this base clock. -/
def State.arbitrates (s : State) (isle port : Nat) : Bool :=
  decide (s.freeSlot isle port < 16 * (s.bclk + 1)) && !(s.candidates isle port).isEmpty

/-- The channel's credit key at a port. -/
def creditKey (isle port vc : Nat) : Nat := (isle * 5 + port) * 4 + vc

/-- The credits of a new round (R392). -/
def State.newRound (s : State) (isle port : Nat) : State :=
  s.updMesh fun m =>
    { m with credit := [(0, 8), (1, 4), (2, 2), (3, 1)].foldl (fun c e => place c (creditKey isle port e.1) e.2) m.credit }

/-- The oldest of the candidates whose AGE is 64 or more; the first in channel and input order among equals. -/
def eldest (l : List Candidate) : Option Candidate :=
  (l.filter fun c => decide (64 ≤ c.pkt.age)).foldl
    (fun (best : Option Candidate) c =>
      match best with
      | some b => if b.pkt.age < c.pkt.age then some c else some b
      | none => some c) none

/-- The choice among a channel's candidates: strait inputs in order from the pointer, then the local input. -/
def turn (ptr : Nat) (l : List Candidate) : Option Candidate :=
  ([0, 1, 2, 3].map fun i => (ptr + i) % 4).findSome? (fun i => l.find? fun c => c.input == i) |>.orElse
    fun _ => l.find? fun c => c.input == 4

/-- The candidate that a port chooses (R392), with the credits, pointer and round as the choice leaves them. -/
def State.choose (s : State) (isle port : Nat) (l : List Candidate) : State × Option Candidate :=
  match eldest l with
  | some c => (s, some c)
  | none =>
    let funded (s : State) (c : Candidate) : Bool := decide (0 < look 0 s.mesh.credit (creditKey isle port c.pkt.vc))
    let s := if l.any (funded s) then s else s.newRound isle port
    match l.find? (funded s) with
    | none => (s, none)
    | some f =>
      let v := f.pkt.vc
      match turn (look 0 s.mesh.rr (creditKey isle port v)) (l.filter fun c => c.pkt.vc == v) with
      | none => (s, none)
      | some c =>
        (s.updMesh fun m => { m with rr := place m.rr (creditKey isle port v) (if c.input < 3 then c.input + 1 else 0) },
          some c)

/-- A candidate's packet leaves its buffer; the new head's AGE starts at 0. -/
def State.takeHead (s : State) (isle : Nat) (c : Candidate) : State :=
  let k := inKey isle c.input c.pkt.vc
  s.updMesh fun m =>
    let rest := match (look [] m.inputs k).drop 1 with
      | [] => []
      | p :: t => { p with age := 0 } :: t
    { m with inputs := put [] m.inputs k rest }

/-- A candidate that was not chosen is one cycle older. -/
def State.ageHead (s : State) (isle : Nat) (c : Candidate) : State :=
  let k := inKey isle c.input c.pkt.vc
  s.updMesh fun m =>
    let aged := match look [] m.inputs k with
      | [] => []
      | p :: t => { p with age := p.age + 1 } :: t
    { m with inputs := put [] m.inputs k aged }

/-- A chosen packet leaves by the port (R389): over a strait it arrives two base clocks later, at a unit one base
clock later; its flits take consecutive slots, which a strait's counter counts (R409). -/
def State.depart (s : State) (isle port : Nat) (c : Candidate) : State :=
  let p := c.pkt
  let slot := s.freeSlot isle port
  let f : Flying := if port = 4 then ⟨s.bclk + 1, isle, none, p⟩
    else ⟨s.bclk + 2, neighbour isle port, some (farInput port), p⟩
  let ck := creditKey isle port p.vc
  let uk := isle * 4 + port
  (s.takeHead isle c).updMesh fun m => { m with
    links := m.links ++ [f], slot := place m.slot (isle * 5 + port) (slot + p.flits)
    credit := place m.credit ck (look 0 m.credit ck - 1)
    util := if port = 4 then m.util else place m.util uk (look 0 m.util uk + p.flits) }

/-- ARBITRATION_CYCLE: an output port grants one packet (R392). -/
def execArbitrationCycle (isle port : Nat) (s : State) : Result :=
  if s.arbitrates isle port then
    let l := s.candidates isle port
    match s.choose isle port l with
    | (s, some c) =>
      .next (((l.filter fun x => x != c).foldl (fun (s : State) x => s.ageHead isle x) s).depart isle port c)
    | (s, none) => .next s
  else .next s

/-! ## Arrivals (R389, R394) -/

/-- The channel of a message type; 4 for a type the base does not generate (R394). -/
def channelOf (typ : Nat) : Nat :=
  if 0x01 ≤ typ ∧ typ ≤ 0x06 then vcL
  else if 0x07 ≤ typ ∧ typ ≤ 0x0A then vcB
  else if 0x10 ≤ typ ∧ typ ≤ 0x14 then vcR
  else if (0x20 ≤ typ ∧ typ ≤ 0x2A) ∨ typ = 0x30 ∨ typ = 0x31 then vcC
  else 4

/-- Whether a flight goes to the same buffer as another. -/
def Flying.sameBuffer (f g : Flying) : Bool :=
  f.isle == g.isle && f.input == g.input && f.pkt.vc == g.pkt.vc && (f.input.isSome || f.pkt.dunit == g.pkt.dunit)

/-- Whether the `k`-th flight arrives now, before every other of its buffer. -/
def State.arrives (s : State) (k : Nat) : Bool :=
  match s.mesh.links[k]? with
  | some f => decide (f.at_ ≤ s.bclk) && !((s.mesh.links.take k).any fun g => f.sameBuffer g)
  | none => false

/-- A packet enters its buffer: a router's, eligible one base clock later, or a unit's; a router discards a
packet of an unknown type or on a wrong channel, which is a fabric error (R394). -/
def State.enter (s : State) (f : Flying) : State :=
  match f.input with
  | none => s.toUnit f.isle f.pkt.dunit f.pkt s.bclk
  | some i =>
    if channelOf f.pkt.typ ≠ f.pkt.vc then s.logEvent
    else
      let k := inKey f.isle i f.pkt.vc
      let p := { f.pkt with elig := s.bclk + 1, age := 0 }
      s.updMesh fun m => { m with inputs := place m.inputs k (look [] m.inputs k ++ [p]) }

/-- PACKET_ARRIVAL: the `k`-th packet on the links arrives (R389). -/
def execPacketArrival (k : Nat) (s : State) : Result :=
  match s.mesh.links[k]? with
  | some f =>
    .next (if s.arrives k then
        let (s, p) := (s.updMesh fun m => { m with links := m.links.eraseIdx k }).markFlits f.pkt
        s.enter { f with pkt := p }
      else s)
  | none => .next s

/-! ## Send queues (R492, R454) -/

/-- Whether some send queue of a core still holds a packet. -/
def State.coreWaits (s : State) (core : Nat) : Bool :=
  [0, 1, 2, 3].any fun vc => !(look [] s.mesh.sendq (unitKey (isleOf core) (unitOfCore core) vc)).isEmpty

/-- How many of the packets at the head of a list fit into a room of flits. -/
def fitCount (room : Nat) : List Packet → Nat
  | [] => 0
  | p :: t => if p.flits ≤ room then 1 + fitCount (room - p.flits) t else 0

/-- The packets of one send queue enter the router's local input as far as they fit; the vertical port of a core has
accepted flits, so its pressure is over, or begins again with the packets that still wait. -/
def State.releaseQueue (s : State) (k : Nat) (l : List Packet) : State :=
  match l.head? with
  | none => s
  | some h =>
    let i := inKey h.sisle 4 h.vc
    let n := fitCount (128 - flitsOf (look [] s.mesh.inputs i)) l
    if s.stopped i || n == 0 then s
    else
      let enter (p : Packet) : Packet := { p with elig := s.bclk + 2, age := 0 }
      let s := s.updMesh fun m => { m with
        sendq := put [] m.sendq k (l.drop n), inputs := place m.inputs i (look [] m.inputs i ++ (l.take n).map enter) }
      if h.srcCore < 256 then
        let t := if s.coreWaits h.srcCore then some s.ptime else none
        s.updCore h.srcCore fun c => { c with pressed := t }
      else s

/-- Every send queue whose channel is no longer stopped is released as far as there is room (R492). -/
def State.releaseSends (s : State) : State :=
  s.mesh.sendq.foldl (fun (s : State) e => s.releaseQueue e.1 e.2) s

/-! ## What may come next -/

/-- The arbitration cycles of this base clock. -/
def State.dueArbitration (s : State) : List Instr :=
  let heads := s.mesh.inputs.filterMap fun e =>
    e.2.head?.map fun p => (e.1 / 20, routePort (e.1 / 20) p.disle)
  (heads.dedup.filter fun e => s.arbitrates e.1 e.2).map fun e => .arbitrationCycle e.1 e.2

/-- The packets that arrive now. -/
def State.dueArrivals (s : State) : List Instr :=
  ((List.range s.mesh.links.length).filter s.arrives).map .packetArrival

/-- The STOP and GO signals to be given. -/
def State.dueSignals (s : State) : List Instr :=
  let routers := (s.mesh.inputs.map (·.1)).map fun k => (k / 20, k / 4 % 5, k % 4)
  let units := (s.mesh.units.map (·.1)).map fun k => (k / 2048, 5 + k / 4 % 512, k % 4)
  let held := s.mesh.stops.map fun e =>
    if e.1 < 1000 then (e.1 / 20, e.1 / 4 % 5, e.1 % 4)
    else ((e.1 - 1000) / 2048, 5 + (e.1 - 1000) / 4 % 512, e.1 % 4)
  ((routers ++ units ++ held).dedup.filter fun e => s.stopDue e.1 e.2.1 e.2.2).map
    (fun e => .stopSignal e.1 e.2.1 e.2.2) ++
  ((held.dedup.filter fun e => s.goDue e.1 e.2.1 e.2.2).map fun e => .goSignal e.1 e.2.1 e.2.2)

/-- The router events that may come next. -/
def State.dueRouters (s : State) : List Instr := s.dueArrivals ++ s.dueSignals ++ s.dueArbitration

end Sys2Proof.Machine
end

