-- ==== Sys2Proof/Machine/Cycle.lean ====
section
/-!
DEFINITION. What comes next: the events that are due, the issue slots, the clocks; and what every step ends with.
-/
namespace Sys2Proof.Machine

/-! ## What comes next -/

/-- What the next step does: stop, go on without an instruction (a fetch, a clock), an instruction or event by
itself, an issue slot of a group, or one of a sequencer. -/
inductive Plan where
  | stop
  | quiet (s : State)
  | event (i : Instr) (s : State)
  | held (h : HeldEng)
  | slot (g : Nat)
  | stream (b : Nat)
deriving DecidableEq, Repr

/-- One of several that may come next: which one is a free choice (notes/assumptions/3). -/
def pick {α : Type} (tick : Nat) : List α → Option α
  | [] => none
  | [x] => some x
  | l => l[Config.freePick tick l.length % l.length]?

/-- The groups whose writes land now. -/
def State.dueWrites (s : State) : List Instr :=
  ((List.range s.groups.length).filter s.landsNow).map .pendingWriteLands

/-- The time-outs that are due at waiting instructions (R292, R297). -/
def State.dueTraps (s : State) : List Instr :=
  ((List.range s.groups.length).filterMap fun g =>
    if s.timeoutLanes g = 0 then none else some (.tileWaitTimeout g (s.timeoutLanes g).toNat)) ++
  ((List.range s.blocks.length).filter fun b =>
    (s.blk b).live && !(s.blk b).seq.stopped && decide (Config.watchdogClocks ≤ (s.blk b).seq.wdog)).map .seqTileWaitTimeout

/-- The event of a packet that a unit takes, by its type (R394). -/
def packetEvent (isle unit : Nat) (p : Packet) : Option Instr :=
  match p.typ with
  | 0x01 => some (.rd isle unit)
  | 0x02 => some (.rdh isle unit)
  | 0x03 => some (.wt isle unit)
  | 0x04 => some (.atomAtHome isle unit)
  | 0x05 => some (.hzq isle unit)
  | 0x06 => some (.tolerantLoadRequest isle unit)
  | 0x07 => some (.drn isle unit)
  | 0x08 => some (.hzd isle unit)
  | 0x09 => some (.cpr isle unit)
  | 0x0A => some (.cpw isle unit)
  | 0x10 => some (.dataArrive isle unit)
  | 0x11 => some (.ackArrive isle unit)
  | 0x12 => some (.atr isle unit)
  | 0x13 => some (.xgnt isle unit)
  | 0x14 => some (.xret isle unit)
  | 0x20 => some (.dreq isle unit)
  | 0x21 => some (.ddone isle unit)
  | 0x22 => some (.shreq isle unit)
  | 0x23 => some (.shgnt isle unit)
  | 0x24 => some (.splitShare isle unit)
  | 0x25 => some (.spdone isle unit)
  | 0x26 => some (.settle isle unit)
  | 0x27 => some (.surr isle unit)
  | 0x28 => some (.recall isle unit)
  | 0x29 => some (.dopen isle unit)
  | 0x2A => some (.dclose isle unit)
  | 0x30 => some (if p.aux.getD 3 0 = 1 then .barRelease isle unit else .barArrival isle unit)
  | _ => none

/-- The packets that units may take now. -/
def State.duePackets (s : State) : List Instr :=
  ((s.mesh.units.map fun e => (e.1 / 2048, e.1 / 4 % 512)).dedup).flatMap fun u =>
    ((s.servable u.1 u.2).filterMap (packetEvent u.1 u.2)).dedup

/-- The events that may come next now. -/
def State.dueEvents (s : State) : List Instr :=
  s.dueWrites ++ s.dueTraps ++ s.dueOps ++ s.dueWalks ++ s.dueCommands ++
  (s.cores.map (·.1)).flatMap s.dueArray ++ s.dueClocks ++ s.duePackets ++ s.dueRouters ++ s.dueCores ++
  s.dueDrains ++ s.dueTransfers ++ s.dueChains ++ s.dueDispatch ++ s.duePreempt ++ (if s.slewDue then [.slewWindow] else []) ++
  s.duePorts ++ s.dueContainment ++ s.dueCeiling

/-- Whether an event from outside acts while the debug freeze holds: the test port and the resets (R367). -/
def whileFrozen : Instr → Bool
  | .bypass | .idcode | .frzsel | .frzread | .packageReset | .hotReset | .powerOn .. => true
  | _ => false

/-- The next step's plan: what has been decided already, then fetches, then evictions by slices that hold more than
their size, then the events that are due, then engine accesses that nothing holds any more (R277), then issue slots, then
cluster clocks, then the next base clock. -/
def State.plan (s : State) : Plan :=
  match s.agenda with
  | i :: t =>
    let s := { s with agenda := t }
    if s.mgmt.frozen && !whileFrozen i then .quiet s else .event i s
  | [] =>
    if s.mgmt.frozen then .stop
    else
      match s.fetchDue with
      | some g => .quiet (s.fetchGroup g)
      | none =>
        match s.streamDue with
        | some b => .quiet (s.fetchStream b)
        | none =>
          match pick s.tick s.evictable with
          | some l => .quiet (s.evictHome l)
          | none =>
            match pick s.tick s.dueEvents with
            | some i => .event i s
            | none =>
              match s.heldFree with
              | some h => .held h
              | none =>
                match pick s.tick (s.slotsDue.map Plan.slot ++ s.streamsDue.map Plan.stream) with
                | some p => p
                | none =>
                  match pick s.tick s.ticksDue with
                  | some n => .quiet (s.tickCluster n)
                  | none => .quiet s.advance.bootStep

/-! ## What every step ends with -/

/-- What follows a group's instruction, clock or event: lane masks (R45), waits (R26), a system instruction that
ends, and a breakpoint that takes effect (R233). -/
def State.settleGroup (s : State) (g : Nat) : State :=
  if (s.grp g).live && !(s.grp g).retired then
    let s := s.updGrp g fun x => x.releaseMasks.latchWaits
    let s := s.wakeGroup g
    let s := s.endSystem g
    if s.groupActive g then s.breakAt g else s
  else s

/-- What follows a step beside the groups: gangs that are saved or ended (R354, R361), commands of the supervisor
that are over (R368), errors of storage (R462), records and reports on their way into rings (R356, R427), requests of pages and of the host that may go on
(R143, R355), and what waits to leave by ports and routers (R464, R492). -/
def State.settleRest (s : State) : State :=
  let s := (List.range s.gangs.length).foldl (fun (s : State) k => (s.checkSaved k).checkEnded k) s
  let s := s.stepRings.stepReport
  let s := s.takeErrors.passCeils
  ((s.refusePages.svCheck.serveHost s.mgmt.hostQ).flushPorts).releaseSends

/-- What happens before a step ends while the clocks run: the pipelines move on, and everything settles. -/
def State.settle (s : State) : State :=
  let s := s.pump.releaseHeld
  let s := (List.range s.groups.length).foldl (fun (s : State) g => (s.settleGroup g).haltAt g) s
  s.settleRest.checkFreeze

/-- The end of a step: nobody issues, and the last thing that happens is that every lane mask whose fibres have all
arrived releases them (R45). -/
def State.close (s : State) : State :=
  let s := { s with cur := Issue.none }
  let s := if s.mgmt.frozen then s else s.settle
  { s with cur := Issue.none, groups := s.groups.map Group.releaseMasks, tick := s.tick + 1 }

/-- One step, with `ex` for the meaning of an instruction. -/
def State.cycle (s : State) (ex : Instr → State → Result) : Result :=
  let r : Result := match s.plan with
    | .stop => .fault .clocksStopped
    | .quiet t => .next t
    | .event i t => ex i t
    | .held h => s.runHeld ex h
    | .slot g => s.runSlot ex g
    | .stream b => s.runStream ex b
  match r with
  | .next t => .next t.close
  | r => r

/-! ## Placing one instruction -/

/-- Whether a word is an instruction that only a stream issues (R294). -/
def streamWord (w e : Nat) : Bool :=
  match accepted (decodeInstr 2 w e) with
  | some (.mma ..) | some (.mmas ..) | some (.mloop ..) | some (.seqbar _) | some (.seqbarArv _)
  | some (.seqbarWait _) => classOfWord w e == 2
  | _ => false

/-- The header of a clause of `n` words of a class, without guard or wait (R162). -/
def plainHeader (cls n : Nat) : Nat := n * 2 ^ 26 + cls * 2 ^ 24 + 15 * 2 ^ 14

/-- A gang of one block of one group on core 0 in context 1, whose only fibre, in lane 0, holds the clause of one
instruction as fetched; an instruction that only a stream issues stands in the block's sequencer
(notes/assumptions/18). -/
def State.placeWord (s : State) (w e : Nat) : State :=
  let cls := classOfWord w e
  let words := if needsExt cls w then [w, e] else [w]
  let c : Clause := ⟨0x10000, plainHeader cls words.length, words⟩
  let inStream := streamWord w e
  let g := s.groups.length
  let b := s.blocks.length
  let k := s.gangs.length
  let fib : Fibre := { Fibre.vacant with occ := true, pc := c.addr, code := some c, waited := true }
  let fibs := (if inStream then Fibre.vacant else fib) :: List.replicate 31 Fibre.vacant
  let q : Seq := { Seq.absent with active := inStream, done := !inStream, code := if inStream then some c else none }
  { s with
    groups := s.groups ++ [{ Group.empty with
      live := true, retired := false, blk := b, n := 64, ctl := { Control.empty with fibs := fibs } }]
    blocks := s.blocks ++ [{ Block.empty with
      live := true, retired := false, gang := k, groups := [g], bars := List.replicate 16 BlockBar.none
      allocOpen := !inStream, seq := q, banks := [[], []], accBase := [0, 0] }]
    gangs := s.gangs ++ [{ Gang.empty with live := true, ctx := 1, blocks := [b] }] }

end Sys2Proof.Machine
end

