-- ==== Sys2Proof/Machine/Cross.lean ====
section
/-!
DEFINITION. Cross-lane instructions (R259 to R264).
-/
namespace Sys2Proof.Machine

/-! ## Shuffles (R260) -/

/-- The segment width of a segment field (R260). -/
def segWidth (seg : Nat) : Nat := if seg = 0 then 32 else 2 ^ seg

/-- The source lane of lane `i`; `none` when it is out of range (R260). -/
def shuffleSource (mode w i b : Nat) : Option Nat :=
  let base := i / w * w
  if mode = 0 then some (base + b % w)
  else if mode = 1 then (if b < w ∧ base + b ≤ i then some (i - b) else none)
  else if mode = 2 then (if b < w ∧ i + b < base + w then some (i + b) else none)
  else if mode = 3 then some (base + (i - base + b) % w)
  else if mode = 4 then (if b < w then some (i ^^^ b) else none)
  else some (base + w - 1 - (i - base))

/-- The lanes whose vA a shuffle reads: the contributing source lanes, and the lanes that keep their own
value (R259, R260). -/
def shuffleReads (c lanes : W32) (z : Bool) (src : Nat → Option Nat) : W32 :=
  laneSet fun j =>
    (lanesOf lanes).any fun i =>
      match src i with
      | some k => k == j && c.getLsbD k
      | none => i == j && !z

/-- `shfl` (R260). -/
def execShfl (d a mlo mhi : Nat) (b : Src) (w64 : Bool) (m seg : Nat) (z : Bool) (s : State) : Result :=
  let c := s.contributors m
  let mode := mlo + 4 * mhi
  let src (g : Group) (i : Nat) : Option Nat := shuffleSource mode (segWidth seg) i (g.src i b).toNat
  let g := s.grp s.cur.grp
  let regs := if w64 then vpair a else [.v a]
  crossOp s 6 (shuffleReads c s.cur.lanes z (src g)) regs b.uses (if w64 then vpair d else [.v d])
    fun g i =>
      let val (k : Nat) : W32 :=
        match src g i with
        | none => if z then 0 else g.v i k
        | some j => if c.getLsbD j then g.v j k else 0
      if w64 then [(.v d, val a), (.v (d + 1), val (a + 1))] else [(.v d, val a)]

/-! ## Reductions (R261 to R263) -/

/-- The identity of a minimum or maximum (R261). -/
def extremeIdentity (max : Bool) (ty : Nat) : W32 :=
  if ty = 0 then (if max then 0 else 0xFFFFFFFF)
  else if ty = 1 then (if max then 0x80000000 else 0x7FFFFFFF)
  else (if max then 0xFF800000 else 0x7F800000)

/-- The smaller or larger of two words under a type (R261). -/
def extremeOf (max : Bool) (ty : Nat) (x y : W32) : W32 :=
  if ty = 2 then BitVec.ofNat 32 (minMax fp32 max false x.toNat y.toNat)
  else if max then maxWord (ty == 0) x y
  else minWord (ty == 0) x y

/-- The minimum or maximum of values and the lowest lane that holds it (R261). -/
def extreme (max : Bool) (ty : Nat) (vals : List (Nat × W32)) : W32 × W32 :=
  match vals with
  | [] => (extremeIdentity max ty, 0xFFFFFFFF)
  | (l, x) :: t =>
    let res := t.foldl (fun acc v => extremeOf max ty acc v.2) x
    if ty = 2 ∧ (num32 res).isNan = true then (0x7FC00000, BitVec.ofNat 32 l)
    else (res, BitVec.ofNat 32 (((vals.find? fun v => v.2 == res).map (·.1)).getD l))

/-- The values of a register in the lanes of a set, by lane. -/
def Group.valuesOf (g : Group) (c : W32) (a : Nat) : List (Nat × W32) :=
  (lanesOf c).map fun i => (i, g.v i a)

/-- The shape of `redmin` and `redmax` (R261). -/
def extremeOp (max : Bool) (d a m : Nat) (idx : Bool) (ty : Nat) (s : State) : Result :=
  let c := s.contributors m
  crossOp s 10 c [.v a] [] (if idx then vpair d else [.v d]) fun g _ =>
    let r := extreme max ty (g.valuesOf c a)
    if idx then [(.v d, r.1), (.v (d + 1), r.2)] else [(.v d, r.1)]

/-- `redmin` (R261). -/
def execRedmin (d a m : Nat) (idx : Bool) (ty : Nat) (s : State) : Result := extremeOp false d a m idx ty s
/-- `redmax` (R261). -/
def execRedmax (d a m : Nat) (idx : Bool) (ty : Nat) (s : State) : Result := extremeOp true d a m idx ty s

/-- `redadd` (R262). -/
def execRedadd (d a m mode : Nat) (s : State) : Result :=
  let c := s.contributors m
  if mode = 1 then
    crossOp s 10 c (vpair a) [] (vpair d) fun g _ =>
      putPair d ((lanesOf c).foldl (fun acc i => acc + g.vp i a) 0)
  else
    crossOp s 10 c [.v a] [] [.v d] fun g _ =>
      let total : Int := (lanesOf c).foldl (fun acc i => acc + (g.v i a).toInt) 0
      let clamped := max (-(2 ^ 31)) (min (2 ^ 31 - 1) total)
      [(.v d, BitVec.ofInt 32 (if mode = 2 then clamped else total))]

/-- `redlog` (R262). -/
def execRedlog (d a m op : Nat) (s : State) : Result :=
  let c := s.contributors m
  crossOp s 10 c [.v a] [] [.v d] fun g _ =>
    [(.v d, (lanesOf c).foldl
      (fun acc i => if op = 0 then acc &&& g.v i a else if op = 1 then acc ||| g.v i a else acc ^^^ g.v i a)
      (if op = 0 then 0xFFFFFFFF else 0))]

/-- One level of the tree of R102: neighbours added and rounded. -/
def treeLevel (f : Fmt) : List Nat → List Nat
  | x :: y :: t => roundF (Num.add 0 (f.decode x) (f.decode y)) f 0 false :: treeLevel f t
  | l => l

/-- The fixed tree of R102 over 32 values: five levels of neighbours. -/
def treeSum (f : Fmt) (l : List Nat) : Nat :=
  (treeLevel f (treeLevel f (treeLevel f (treeLevel f (treeLevel f l))))).headD 0

/-- `fredadd` (R102, R263). -/
def execFredadd (d a m : Nat) (w64 : Bool) (s : State) : Result :=
  let c := s.contributors m
  if w64 then
    crossOp s 14 c (vpair a) [] (vpair d) fun g _ =>
      putPair d (BitVec.ofNat 64 (treeSum fp64 ((List.range 32).map fun i =>
        if c.getLsbD i then (g.vp i a).toNat else fp64.zero true)))
  else
    crossOp s 14 c [.v a] [] [.v d] fun g _ =>
      [(.v d, BitVec.ofNat 32 (treeSum fp32 ((List.range 32).map fun i =>
        if c.getLsbD i then (g.v i a).toNat else fp32.zero true)))]

/-! ## Scans (R264) -/

/-- One step of a scan (R264). -/
def scanStep (op : Nat) (acc x : W32) : W32 :=
  if op = 0 then acc + x else if op = 1 then addWord 0 acc x else maxWord true acc x

/-- The prefix a lane receives (R264). -/
def scanPrefix (op : Nat) (excl : Bool) (vals : List (Nat × W32)) (i : Nat) : W32 :=
  (vals.filter fun v => decide (v.1 < i) || (v.1 == i && !excl)).foldl (fun acc v => scanStep op acc v.2)
    (if op = 1 then 0x80000000 else 0)

/-- `scan` (R264). -/
def execScan (d a m : Nat) (excl : Bool) (op : Nat) (s : State) : Result :=
  let c := s.contributors m
  crossOp s 14 c [.v a] [] [.v d] fun g i => [(.v d, scanPrefix op excl (g.valuesOf c a) i)]

end Sys2Proof.Machine
end

