-- ==== Sys2Proof/Machine/Memory.lean ====
section
/-!
DEFINITION. The memory-class instructions (R266 to R287): their checks, and the operations they hand to the
memory pipeline.
-/
namespace Sys2Proof.Machine

/-! ## Shared shapes -/

/-- The latency that stands for a write at an unknown later clock in the checking scoreboard (R177, R179):
beyond every fixed latency. -/
def laterLat : Nat := 4096

/-- The shape of a memory instruction (R266): register checks, then `pre` (misalignment and scratchpad
windows), then the translation of `wants`, then `post` (the haze range); the operation that `mk` builds
joins the pipeline and the lanes move on. -/
def memoryOp (s : State) (rd wr : List Reg) (pre : Group → Option Fail) (wants : Group → List Want)
    (post : State → List (Want × Xl) → Option Fail) (mk : State → Group → List (Want × Xl) → Op) : Result :=
  asGroup s fun g =>
    match s.regFail rd wr laterLat with
    | some e => .next (s.fail e)
    | none =>
      match pre g with
      | some e => .next (s.fail e)
      | none =>
        .next (withAddresses s wants fun s l =>
          match post s l with
          | some e => s.fail e
          | none => (s.addOp (mk s (s.grp s.cur.grp) l)).finish)

/-- No check. -/
def noFail (_ : Group) : Option Fail := none

/-- No check after translation. -/
def noPost (_ : State) (_ : List (Want × Xl)) : Option Fail := none

/-- The operation of the issuing group with its lanes; `addr` is the address of the instruction (R267). -/
def State.opOf (s : State) (sb : Nat) (kind : OpKind) : Op :=
  { Op.blank s.cur.grp (s.grp s.cur.grp).core (s.ctxOf s.cur.grp) s.cur.lanes sb kind with addr := s.iaddr, port := s.cur.port }

/-- The misalignment of the lowest lane whose address is no multiple of `n` (R266, R347). -/
def misalignedLane (lanes : List Nat) (n : Nat) (addr : Nat → W64) : Option Fail :=
  (lanes.find? fun i => (addr i).toNat % n != 0).map fun i => Fail.misaligned (addr i)

/-- The haze-range trap of the lowest lane whose element lies in no region (R148, R282). -/
def State.hazeRange (s : State) (l : List (Want × Xl)) : Option Fail :=
  (l.find? fun e => (s.regionAt e.2.pa).isNone).map fun e => Fail.hazeRange e.1.va

/-- The bytes of a width code (R271). -/
def widthBytes (w : Nat) : Nat :=
  if w = 0 then 4 else if w < 3 then 1 else if w < 5 then 2 else if w = 5 then 8 else 16

/-- Whether a width code sign-extends (R271). -/
def widthSigned (w : Nat) : Bool := w == 2 || w == 4

/-- The registers of an access of a width code (R120). -/
def widthRegs (w : Nat) : Nat := (widthBytes w + 3) / 4

/-- The base and offset of a lane's global address (R272). -/
def Group.address (g : Group) (b : Nat) (off : Int) (lane : Nat) : W64 := g.vp lane b + BitVec.ofInt 64 off

/-- The value that a store takes from its registers (R272). -/
def Group.storeData (g : Group) (lane d n : Nat) : Nat :=
  (List.range n).foldl (fun acc i => acc + (g.v lane (d + i)).toNat * 2 ^ (32 * i)) 0

/-- The ordering that an access code adds to an operation (R271). -/
def Op.ordered (o : Op) (s : State) (a : Acc) (load : Bool) : Op :=
  match a with
  | .weak _ => o
  | .ordered sync scope =>
    { o with strong := true, acq := sync && load, rel := sync && !load, scope := s.effScope o.grp scope }

/-! ## Global loads and stores (R272, R273) -/

/-- The shape of `ld` (R272). -/
def loadOp (d b sb : Nat) (a : Acc) (off : Int) (s : State) : Result :=
  let n := widthBytes a.width
  let lanes := lanesOf s.cur.lanes
  memoryOp s (vpair b) (vregs d (widthRegs a.width))
    (fun g => misalignedLane lanes n (g.address b off))
    (fun g => lanes.map fun i => ⟨i, g.address b off i, .read, []⟩)
    noPost
    (fun s g l =>
      let o := (s.opOf sb (.load n (widthSigned a.width))).ordered s a true
      { o with
        parts := l.map fun e => s.partOf o.ctx e.1.lane e.1.va e.2 n 0 0
        dsts := lanes.flatMap fun i => (List.range (widthRegs a.width)).map fun k =>
          (i, k, .v i (g.entry i (d + k))) })

/-- The shape of `st` (R272): the data are read at issue. -/
def storeOp (d b sb : Nat) (a : Acc) (off : Int) (s : State) : Result :=
  let n := widthBytes a.width
  let lanes := lanesOf s.cur.lanes
  memoryOp s (vpair b ++ vregs d (widthRegs a.width)) []
    (fun g => misalignedLane lanes n (g.address b off))
    (fun g => lanes.map fun i => ⟨i, g.address b off i, .write, []⟩)
    noPost
    (fun s g l =>
      let o := (s.opOf sb (.store n)).ordered s a false
      { o with parts := l.map fun e =>
          s.partOf o.ctx e.1.lane e.1.va e.2 n (g.storeData e.1.lane d (widthRegs a.width) % 2 ^ (8 * n)) 0 })

/-- The shape of `lds` (R273): once for the set, into scalar registers. -/
def scalarLoadOp (d b sb : Nat) (a : Acc) (off : Int) (s : State) : Result :=
  let n := widthBytes a.width
  let addr (g : Group) : W64 := g.sp b + BitVec.ofInt 64 off
  let lane := firstLane s.cur.lanes
  memoryOp s (spair b) (sregs d (widthRegs a.width))
    (fun g => misalignedLane [lane] n fun _ => addr g)
    (fun g => [⟨lane, addr g, .read, []⟩])
    noPost
    (fun s _ l =>
      let o := (s.opOf sb (.load n (widthSigned a.width))).ordered s a true
      { o with
        parts := l.map fun e => s.partOf o.ctx lane e.1.va e.2 n 0 0
        dsts := (List.range (widthRegs a.width)).map fun k => (lane, k, .s (d + k)) })

/-- `ld` without an offset word (R272). -/
def execLd (d b sb w : Nat) (s : State) : Result := loadOp d b sb (.weak w) 0 s
/-- `ld` with an offset word (R272). -/
def execLdExt (d b sb : Nat) (acc : Acc) (off : Int) (s : State) : Result := loadOp d b sb acc off s
/-- `st` without an offset word (R272). -/
def execSt (d b sb w : Nat) (s : State) : Result := storeOp d b sb (.weak w) 0 s
/-- `st` with an offset word (R272). -/
def execStExt (d b sb : Nat) (acc : Acc) (off : Int) (s : State) : Result := storeOp d b sb acc off s
/-- `lds` without an offset word (R273). -/
def execLds (d b sb w : Nat) (s : State) : Result := scalarLoadOp d b sb (.weak w) 0 s
/-- `lds` with an offset word (R273). -/
def execLdsExt (d b sb : Nat) (acc : Acc) (off : Int) (s : State) : Result := scalarLoadOp d b sb acc off s

/-! ## Local-store loads and stores (R274) -/

/-- The bytes of a block's scratchpad on a side (R109). -/
def Block.scratchBytes (b : Block) (side : Nat) : Nat := (b.spBanks side).length * Config.bankBytes

/-- A lane's local address: an exact integer (R274). -/
def Group.localAddr (g : Group) (b : Src) (off : Int) (lane : Nat) : Int := (g.src lane b).toNat + off

/-- The checks of local addresses: misalignment, then the scratchpad's window (R110, R266, R274). -/
def localFail (size n : Nat) (lanes : List Nat) (addr : Nat → Int) : Option Fail :=
  match lanes.find? fun i => addr i % n != 0 with
  | some i => some (Fail.misaligned (BitVec.ofInt 64 (addr i)))
  | none =>
    (lanes.find? fun i => decide (addr i < 0) || decide ((size : Int) < addr i + n)).map fun i =>
      Fail.windowAt (BitVec.ofInt 64 (addr i))

/-- The scratchpad size of the issuing group's core (R274). -/
def State.scratchSize (s : State) : Nat :=
  let g := s.grp s.cur.grp
  let b := s.blk g.blk
  b.scratchBytes (b.side g.core)

/-- The shape of `ldl` and `stl` (R274). -/
def localOp (store : Bool) (d : Nat) (b : Src) (sb w : Nat) (off : Int) (s : State) : Result :=
  let n := widthBytes w
  let lanes := lanesOf s.cur.lanes
  let regs := vregs d (widthRegs w)
  memoryOp s (if store then b.uses ++ regs else b.uses) (if store then [] else regs)
    (fun g => localFail s.scratchSize n lanes (g.localAddr b off))
    (fun _ => [])
    noPost
    (fun s g _ =>
      let o := s.opOf sb (if store then .lstore else .lload n (widthSigned w))
      { o with
        parts := lanes.map fun i => localPart o.core i (g.localAddr b off i).toNat n
          (if store then g.storeData i d (widthRegs w) % 2 ^ (8 * n) else 0)
        dsts := if store then [] else lanes.flatMap fun i => (List.range (widthRegs w)).map fun k =>
          (i, k, .v i (g.entry i (d + k))) })

/-- `ldl` without an offset word (R274). -/
def execLdl (d : Nat) (b : Src) (sb w : Nat) (s : State) : Result := localOp false d b sb w 0 s
/-- `ldl` with an offset word (R274). -/
def execLdlExt (d : Nat) (b : Src) (sb w : Nat) (off : Int) (s : State) : Result := localOp false d b sb w off s
/-- `stl` without an offset word (R274). -/
def execStl (d : Nat) (b : Src) (sb w : Nat) (s : State) : Result := localOp true d b sb w 0 s
/-- `stl` with an offset word (R274). -/
def execStlExt (d : Nat) (b : Src) (sb w : Nat) (off : Int) (s : State) : Result := localOp true d b sb w off s

/-! ## Haze (R282 to R284) -/

/-- The shape of `hzadd` (R282). -/
def hazeAddOp (a b sb : Nat) (off : Int) (s : State) : Result :=
  let lanes := lanesOf s.cur.lanes
  memoryOp s (.v a :: vpair b) []
    (fun g => misalignedLane lanes 16 (g.address b off))
    (fun g => lanes.map fun i => ⟨i, g.address b off i, .write, []⟩)
    State.hazeRange
    (fun s g l =>
      let o := s.opOf sb .hzadd
      { o with parts := l.map fun e => s.partOf o.ctx e.1.lane e.1.va e.2 16 (g.v e.1.lane a).toNat 0 })

/-- `hzadd` without an offset word (R282). -/
def execHzadd (a b sb : Nat) (s : State) : Result := hazeAddOp a b sb 0 s
/-- `hzadd` with an offset word (R282). -/
def execHzaddExt (a b sb : Nat) (off : Int) (s : State) : Result := hazeAddOp a b sb off s

/-- `ldt` (R283): the tolerance code is sK[7:0]. -/
def execLdt (d b sb k : Nat) (s : State) : Result :=
  let lanes := lanesOf s.cur.lanes
  memoryOp s (.s k :: vpair b) (vpair d)
    (fun g => misalignedLane lanes 16 (g.address b 0))
    (fun g => lanes.map fun i => ⟨i, g.address b 0 i, .read, [4]⟩)
    State.hazeRange
    (fun s g l =>
      let o := s.opOf sb (.ldt ((g.s k).toNat % 256))
      { o with
        parts := l.map fun e => s.partOf o.ctx e.1.lane e.1.va e.2 16 0 0
        dsts := lanes.flatMap fun i => [(i, 0, .v i (g.entry i d)), (i, 1, .v i (g.entry i (d + 1)))] })

/-- The pieces of a range within pages of 64 KiB, in ascending order: address and length (R284). -/
def rangePieces (a : Nat) : Nat → Nat → List (Nat × Nat)
  | 0, _ => []
  | fuel + 1, len =>
    if len = 0 then []
    else
      let n := min len (65536 - a % 65536)
      (a, n) :: rangePieces (a + n) fuel (len - n)

/-- The pieces up to the first whose page does not translate (R284). -/
def State.goodPieces (s : State) (g : Nat) : List (Nat × Nat) → List (Nat × Nat)
  | [] => []
  | p :: t =>
    let core := (s.grp g).core
    match s.lookup (.group g (firstLane s.cur.lanes)) (some core) (isleOf core) (s.ctxOf g) (BitVec.ofNat 64 p.1) .both with
    | .ok _ => p :: s.goodPieces g t
    | _ => [p]

/-- The regions that overlap the physical bytes behind the pieces (R284). -/
def State.regionsBehind (s : State) (l : List (Nat × Nat)) : List Nat :=
  (s.regions.filter fun e => e.2.v && l.any fun p =>
    decide (p.1 < e.2.base + 2 ^ e.2.log2sz) && decide (e.2.base < p.1 + p.2)).map (·.1)

/-- `hzsettle` (R284): once for the set, over the bytes from A to A + sL - 1. -/
def execHzsettle (l b sb : Nat) (s : State) : Result :=
  let lane := firstLane s.cur.lanes
  let pieces (g : Group) : List (Nat × Nat) := rangePieces (g.sp b).toNat 65537 (g.s l).toNat
  let behind (r : List (Want × Xl)) : List (Nat × Nat) :=
    r.map fun e => (e.2.pa, (rangePieces e.1.va.toNat 1 65536).headD (0, 0) |>.2)
  let reach (s : State) (r : List (Want × Xl)) : List Nat :=
    let g := s.grp s.cur.grp
    s.regionsBehind ((behind r).zipWith (fun e p => (e.1, min e.2 p.2)) (pieces g))
  memoryOp s (.s l :: spair b) []
    (fun g => if (g.sp b).toNat % 16 ≠ 0 ∨ (g.s l).toNat % 16 ≠ 0 then some (Fail.misaligned (g.sp b)) else none)
    (fun g => (s.goodPieces s.cur.grp (pieces g)).map fun p => ⟨lane, BitVec.ofNat 64 p.1, .both, []⟩)
    (fun s r =>
      let g := s.grp s.cur.grp
      if (g.s l).toNat = 0 then none
      else if (reach s r).isEmpty then some (Fail.hazeRange (g.sp b)) else none)
    (fun s _ r =>
      { s.opOf sb .settle with
        parts := (reach s r).map fun k => ⟨k, 0, k, 2 ^ 62 + k, 0, 0, 6, 1, 0, 0, .todo, false⟩ })

/-! ## Prefetch, write-back and fences (R275 to R277) -/

/-- The lanes of a `pref` that are not dropped: their address translates to a line that a cache may hold,
outside every haze region (R275). -/
def State.prefWants (s : State) (g : Group) (b : Nat) (off : Int) : List Want :=
  let k := s.cur.grp
  (lanesOf s.cur.lanes).filterMap fun i =>
    let va := g.address b off i
    match s.lookup (.group k i) (some g.core) (isleOf g.core) (s.ctxOf k) va .read with
    | .ok x => if 3 ≤ spaceOf x.pa ∨ (s.regionAt x.pa).isSome = true then none else some ⟨i, va, .read, []⟩
    | .miss => some ⟨i, va, .read, []⟩
    | .bad _ => none

/-- The shape of `pref` (R275): it raises no misalignment or translation trap. -/
def prefOp (b sb : Nat) (off : Int) (s : State) : Result :=
  memoryOp s (vpair b) [] noFail (fun g => s.prefWants g b off) noPost
    (fun s _ l =>
      let o := s.opOf sb .pref
      { o with parts := l.map fun e => s.partOf o.ctx e.1.lane e.1.va e.2 1 0 0 })

/-- `pref` without an offset word (R275). -/
def execPref (b sb : Nat) (s : State) : Result := prefOp b sb 0 s
/-- `pref` with an offset word (R275). -/
def execPrefExt (b sb : Nat) (off : Int) (s : State) : Result := prefOp b sb off s

/-- The shape of `wback` with an address (R276). -/
def wbackOp (b sb : Nat) (off : Int) (s : State) : Result :=
  memoryOp s (vpair b) [] noFail
    (fun g => (lanesOf s.cur.lanes).map fun i => ⟨i, g.address b off i, .write, []⟩) noPost
    (fun s _ l =>
      let o := s.opOf sb (.wback false)
      { o with parts := l.map fun e => s.partOf o.ctx e.1.lane e.1.va e.2 1 0 0 })

/-- `wback` without an offset word, and `wback.all` (R276). -/
def execWback (b sb : Nat) (all : Bool) (s : State) : Result :=
  if all then
    memoryOp s [] [] noFail (fun _ => []) noPost fun s _ _ =>
      let o := s.opOf sb (.wback true)
      { o with parts := (s.dirtyLines o.core o.ctx).map fun l =>
          ⟨firstLane s.cur.lanes, 0, l.pa, l.loc, l.isle, l.slice, spaceOf l.pa, 1, 0, 0, .todo, false⟩ }
  else wbackOp b sb 0 s

/-- `wback` with an offset word (R276). -/
def execWbackExt (b sb : Nat) (off : Int) (s : State) : Result := wbackOp b sb off s

/-- `fence` (R137, R277): kinds 0 `.ar`, 1 `.acq`, 2 `.rel`. -/
def execFence (sb kind scope : Nat) (s : State) : Result :=
  memoryOp s [] [] noFail (fun _ => []) noPost fun s _ _ =>
    { s.opOf sb .fence with
      acq := kind != 2, rel := kind != 1, scope := s.effScope s.cur.grp scope }

/-! ## Atomics (R278 to R281) -/

/-- The access permission of an atomic (R380). -/
def atomicAccess (op : Nat) (ret : Bool) : Access :=
  if op % 16 = 13 then .read else if ret then .both else .write

/-- The shape of `atom` and `redm` (R278, R279, R281): the operand block starts at vB. -/
def atomicOp (op b sb ord scope : Nat) (ret : Bool) (s : State) : Result :=
  let wide := decide (16 ≤ op)
  let n := if wide then 8 else 4
  let k := if wide then 2 else 1
  let lanes := lanesOf s.cur.lanes
  let cas := op % 16 == 9
  let fma := op % 16 == 14
  let second := if cas then vregs (b + 2 + k) k else if fma then [.v (b + 3)] else []
  memoryOp s (vpair b ++ (if op % 16 = 13 then [] else vregs (b + 2) k) ++ second)
    (if ret then vregs (b + 2) k else [])
    (fun g => misalignedLane lanes n (g.address b 0))
    (fun g => lanes.map fun i => ⟨i, g.address b 0 i, atomicAccess op ret, [3, 4]⟩)
    noPost
    (fun s g l =>
      let o := s.opOf sb (.atomic op 0 wide false ret)
      { o with
        strong := true
        acq := ord % 2 == 1
        rel := 2 ≤ ord
        scope := s.effScope s.cur.grp scope
        parts := l.map fun e =>
          let i := e.1.lane
          s.partOf o.ctx i e.1.va e.2 n (g.storeData i (b + 2) k)
            (if cas then g.storeData i (b + 2 + k) k else if fma then (g.v i (b + 3)).toNat else 0)
        dsts := if ret then lanes.flatMap fun i => (List.range k).map fun w => (i, w, .v i (g.entry i (b + 2 + w)))
          else [] })

/-- `atom` (R279). -/
def execAtom (op b sb ord scope : Nat) (s : State) : Result := atomicOp op b sb ord scope true s
/-- `redm` (R279). -/
def execRedm (op b sb ord scope : Nat) (s : State) : Result := atomicOp op b sb ord scope false s

/-- `atomv` (R280). -/
def execAtomv (esz op b sb ord scope : Nat) (s : State) : Result :=
  let lanes := lanesOf s.cur.lanes
  memoryOp s (vregs b 10) (vregs (b + 2) 8)
    (fun g => misalignedLane lanes 32 (g.address b 0))
    (fun g => lanes.map fun i => ⟨i, g.address b 0 i, .both, [3, 4]⟩)
    noPost
    (fun s g l =>
      let o := s.opOf sb (.atomic op esz false true true)
      { o with
        strong := true
        acq := ord % 2 == 1
        rel := 2 ≤ ord
        scope := s.effScope s.cur.grp scope
        parts := l.map fun e => s.partOf o.ctx e.1.lane e.1.va e.2 32 (g.storeData e.1.lane (b + 2) 8) 0
        dsts := lanes.flatMap fun i => (List.range 8).map fun w => (i, w, .v i (g.entry i (b + 2 + w))) })

/-! ## Barriers (R285 to R287) -/

/-- The active lanes that arrive at barrier `k` again: their bit is set, or an earlier arrival of theirs is still to be made.
DEDUCED: this is found when the instruction issues (notes/assumptions/49). -/
def State.againAt (s : State) (k : Nat) : W32 :=
  let coming := s.ops.filter fun o => o.grp == s.cur.grp && o.kind == .bar k none
  s.cur.lanes &&& coming.foldl (fun m o => m ||| o.lanes) ((s.grp s.cur.grp).barArr k)

/-- `bar` (R285): every active lane waits from now until the phase at which it arrives has completed. -/
def execBar (k sb : Nat) (s : State) : Result :=
  asGroup s fun _ =>
    let s := s.addOp { s.opOf sb (.bar k none) with scope := s.effScope s.cur.grp 3, again := s.againAt k }
    .next ((s.finish).updGrp s.cur.grp fun g => g.updFibs s.cur.lanes fun _ f => { f with wait := .bar k none })

/-- `bar.arv` (R285): the lanes go on, but for those that arrive again, which wait until their arrival is made. -/
def execBarArv (k sb : Nat) (s : State) : Result :=
  asGroup s fun _ =>
    let again := s.againAt k
    let s := s.addOp { s.opOf sb (.bar k none) with scope := s.effScope s.cur.grp 3, again := again }
    .next ((s.finish).updGrp s.cur.grp fun g => g.updFibs again fun _ f => { f with wait := .arv k })

/-- `bar.exp` (R286): sets EXPECT, and the rule of R285 is evaluated; its counter follows at once. -/
def execBarExp (k cnt sb : Nat) (s : State) : Result :=
  asGroup s fun g =>
    let s := s.addOp (s.opOf sb .engine)
    let s := s.updBlk g.blk fun b => b.updBar k fun z => { z with expect := cnt }
    .next (s.barCheck g.blk k).finish

/-- `gbar` (R287): an index at or above the launch's count fails, and so does one in handler mode
(R360). -/
def execGbar (g sb : Nat) (s : State) : Result :=
  asGroup s fun x =>
    if (s.gang (s.gangOf s.cur.grp)).field 529 5 ≤ g then .next (s.fail (Fail.illegal 3))
    else if x.handler ≠ .none then .next (s.fail (Fail.illegal 4))
    else .next (s.addOp { s.opOf sb (.gbar g false) with acq := true, scope := 0 }).finish

end Sys2Proof.Machine
end

