-- ==== Sys2Proof/Machine/Dispatch.lean ====
section
/-!
DEFINITION. The dispatch: one arm for each constructor of `Instr`.
-/
namespace Sys2Proof.Machine

/-- The meaning of each instruction and event. -/
def exec (i : Instr) (s : State) : Host.Outcome State Fault Refusal :=
  match i with
  | .iadd d a b => Sys2Proof.Machine.execIadd d a b s
  | .isub d a b => Sys2Proof.Machine.execIsub d a b s
  | .iaddc d a c b => Sys2Proof.Machine.execIaddc d a c b s
  | .isubb d a c b => Sys2Proof.Machine.execIsubb d a c b s
  | .imul d a b => Sys2Proof.Machine.execImul d a b s
  | .imulh d a b u => Sys2Proof.Machine.execImulh d a b u s
  | .imad d a b c => Sys2Proof.Machine.execImad d a b c s
  | .imin d a b u => Sys2Proof.Machine.execImin d a b u s
  | .imax d a b u => Sys2Proof.Machine.execImax d a b u s
  | .iabs d a sat => Sys2Proof.Machine.execIabs d a sat s
  | .ineg d a sat => Sys2Proof.Machine.execIneg d a sat s
  | .idot4 d a b ua ub => Sys2Proof.Machine.execIdot4 d a b ua ub s
  | .iadd64 d a b => Sys2Proof.Machine.execIadd64 d a b s
  | .lea d a b k u => Sys2Proof.Machine.execLea d a b k u s
  | .sel d a p b => Sys2Proof.Machine.execSel d a p b s
  | .isetp p a code u b => Sys2Proof.Machine.execIsetp p a code u b s
  | .and d a b => Sys2Proof.Machine.execAnd d a b s
  | .or d a b => Sys2Proof.Machine.execOr d a b s
  | .xor d a b => Sys2Proof.Machine.execXor d a b s
  | .andn d a b => Sys2Proof.Machine.execAndn d a b s
  | .orn d a b => Sys2Proof.Machine.execOrn d a b s
  | .not d a => Sys2Proof.Machine.execNot d a s
  | .lop3 d a b c t => Sys2Proof.Machine.execLop3 d a b c t s
  | .shl d a b => Sys2Proof.Machine.execShl d a b s
  | .shr d a b => Sys2Proof.Machine.execShr d a b s
  | .sar d a b => Sys2Proof.Machine.execSar d a b s
  | .rol d a b => Sys2Proof.Machine.execRol d a b s
  | .fshl d a b c => Sys2Proof.Machine.execFshl d a b c s
  | .shl64 d a b => Sys2Proof.Machine.execShl64 d a b s
  | .popc d a => Sys2Proof.Machine.execPopc d a s
  | .clz d a => Sys2Proof.Machine.execClz d a s
  | .ctz d a => Sys2Proof.Machine.execCtz d a s
  | .brev d a => Sys2Proof.Machine.execBrev d a s
  | .bfx d a pos len sx => Sys2Proof.Machine.execBfx d a pos len sx s
  | .bfi d a b pos len => Sys2Proof.Machine.execBfi d a b pos len s
  | .mov d a w64 => Sys2Proof.Machine.execMov d a w64 s
  | .movi d imm => Sys2Proof.Machine.execMovi d imm s
  | .movs d k w64 => Sys2Proof.Machine.execMovs d k w64 s
  | .sread d kind rsel => Sys2Proof.Machine.execSread d kind rsel s
  | .plop p pa pb pc t => Sys2Proof.Machine.execPlop p pa pb pc t s
  | .pmov wr r => Sys2Proof.Machine.execPmov wr r s
  | .sadd d a b => Sys2Proof.Machine.execSadd d a b s
  | .ssub d a b => Sys2Proof.Machine.execSsub d a b s
  | .smul d a b => Sys2Proof.Machine.execSmul d a b s
  | .sand d a b => Sys2Proof.Machine.execSand d a b s
  | .sor d a b => Sys2Proof.Machine.execSor d a b s
  | .sxor d a b => Sys2Proof.Machine.execSxor d a b s
  | .sshl d a b => Sys2Proof.Machine.execSshl d a b s
  | .sshr d a b ar => Sys2Proof.Machine.execSshr d a b ar s
  | .smov d a w64 => Sys2Proof.Machine.execSmov d a w64 s
  | .smovi d imm => Sys2Proof.Machine.execSmovi d imm s
  | .ssetp p a code u b => Sys2Proof.Machine.execSsetp p a code u b s
  | .slane d a lane w64 => Sys2Proof.Machine.execSlane d a lane w64 s
  | .bra p off => Sys2Proof.Machine.execBra p off s
  | .braLong p off => Sys2Proof.Machine.execBraLong p off s
  | .bany p off => Sys2Proof.Machine.execBany p off s
  | .banyLong p off => Sys2Proof.Machine.execBanyLong p off s
  | .ball p off => Sys2Proof.Machine.execBall p off s
  | .ballLong p off => Sys2Proof.Machine.execBallLong p off s
  | .bnone p off => Sys2Proof.Machine.execBnone p off s
  | .bnoneLong p off => Sys2Proof.Machine.execBnoneLong p off s
  | .bdiv p off => Sys2Proof.Machine.execBdiv p off s
  | .bdivLong p off => Sys2Proof.Machine.execBdivLong p off s
  | .jmp tgt => Sys2Proof.Machine.execJmp tgt s
  | .call f off => Sys2Proof.Machine.execCall f off s
  | .calli f tgt => Sys2Proof.Machine.execCalli f tgt s
  | .ret link f => Sys2Proof.Machine.execRet link f s
  | .exit p => Sys2Proof.Machine.execExit p s
  | .fspawn d p w off => Sys2Proof.Machine.execFspawn d p w off s
  | .bkpt code => Sys2Proof.Machine.execBkpt code s
  | .utrap code => Sys2Proof.Machine.execUtrap code s
  | .mjoin m => Sys2Proof.Machine.execMjoin m s
  | .mleave m => Sys2Proof.Machine.execMleave m s
  | .mwait m => Sys2Proof.Machine.execMwait m s
  | .mset m k mode => Sys2Proof.Machine.execMset m k mode s
  | .mget d m mode => Sys2Proof.Machine.execMget d m mode s
  | .vote d pa m q mode => Sys2Proof.Machine.execVote d pa m q mode s
  | .matchl d a m w64 => Sys2Proof.Machine.execMatchl d a m w64 s
  | .shfl d a mlo mhi b w64 m seg z => Sys2Proof.Machine.execShfl d a mlo mhi b w64 m seg z s
  | .redmin d a m idx ty => Sys2Proof.Machine.execRedmin d a m idx ty s
  | .redmax d a m idx ty => Sys2Proof.Machine.execRedmax d a m idx ty s
  | .redadd d a m mode => Sys2Proof.Machine.execRedadd d a m mode s
  | .fredadd d a m w64 => Sys2Proof.Machine.execFredadd d a m w64 s
  | .scan d a m excl op => Sys2Proof.Machine.execScan d a m excl op s
  | .redlog d a m op => Sys2Proof.Machine.execRedlog d a m op s
  | .fadd d a rnd b => Sys2Proof.Machine.execFadd d a rnd b s
  | .fsub d a rnd b => Sys2Proof.Machine.execFsub d a rnd b s
  | .fmul d a rnd b => Sys2Proof.Machine.execFmul d a rnd b s
  | .ffma d a b c rnd np => Sys2Proof.Machine.execFfma d a b c rnd np s
  | .fmin d a b nan => Sys2Proof.Machine.execFmin d a b nan s
  | .fmax d a b nan => Sys2Proof.Machine.execFmax d a b nan s
  | .fsetp p a cond b => Sys2Proof.Machine.execFsetp p a cond b s
  | .fclass d a w64 => Sys2Proof.Machine.execFclass d a w64 s
  | .frcp d a => Sys2Proof.Machine.execFrcp d a s
  | .frsq d a => Sys2Proof.Machine.execFrsq d a s
  | .fsqrt d a => Sys2Proof.Machine.execFsqrt d a s
  | .fdiv d a b => Sys2Proof.Machine.execFdiv d a b s
  | .fexp2 d a => Sys2Proof.Machine.execFexp2 d a s
  | .flog2 d a => Sys2Proof.Machine.execFlog2 d a s
  | .fsinpi d a => Sys2Proof.Machine.execFsinpi d a s
  | .fcospi d a => Sys2Proof.Machine.execFcospi d a s
  | .dadd d a b rnd => Sys2Proof.Machine.execDadd d a b rnd s
  | .dmul d a b rnd => Sys2Proof.Machine.execDmul d a b rnd s
  | .dfma d a b c rnd np => Sys2Proof.Machine.execDfma d a b c rnd np s
  | .dmin d a b nan => Sys2Proof.Machine.execDmin d a b nan s
  | .dmax d a b nan => Sys2Proof.Machine.execDmax d a b nan s
  | .dsetp p a cond b => Sys2Proof.Machine.execDsetp p a cond b s
  | .ddiv d a b => Sys2Proof.Machine.execDdiv d a b s
  | .hadd2 d a b rnd bf => Sys2Proof.Machine.execHadd2 d a b rnd bf s
  | .hmul2 d a b rnd bf => Sys2Proof.Machine.execHmul2 d a b rnd bf s
  | .hfma2 d a b c rnd bf => Sys2Proof.Machine.execHfma2 d a b c rnd bf s
  | .cmul d a b rnd cj => Sys2Proof.Machine.execCmul d a b rnd cj s
  | .cfma d a b c rnd cj => Sys2Proof.Machine.execCfma d a b c rnd cj s
  | .cvtff d a rnd sat df sf dp sp => Sys2Proof.Machine.execCvtff d a rnd sat df sf dp sp s
  | .cvtfi d a rnd sf sp dt => Sys2Proof.Machine.execCvtfi d a rnd sf sp dt s
  | .cvtif d a rnd sat df ty dp => Sys2Proof.Machine.execCvtif d a rnd sat df ty dp s
  | .cvtpk d a rnd ty slot m => Sys2Proof.Machine.execCvtpk d a rnd ty slot m s
  | .cvtunpk d a b k slot => Sys2Proof.Machine.execCvtunpk d a b k slot s
  | .cvtw d a q w => Sys2Proof.Machine.execCvtw d a q w s
  | .ld d b sb w => Sys2Proof.Machine.execLd d b sb w s
  | .ldExt d b sb acc off => Sys2Proof.Machine.execLdExt d b sb acc off s
  | .st d b sb w => Sys2Proof.Machine.execSt d b sb w s
  | .stExt d b sb acc off => Sys2Proof.Machine.execStExt d b sb acc off s
  | .lds d b sb w => Sys2Proof.Machine.execLds d b sb w s
  | .ldsExt d b sb acc off => Sys2Proof.Machine.execLdsExt d b sb acc off s
  | .ldl d b sb w => Sys2Proof.Machine.execLdl d b sb w s
  | .ldlExt d b sb w off => Sys2Proof.Machine.execLdlExt d b sb w off s
  | .stl d b sb w => Sys2Proof.Machine.execStl d b sb w s
  | .stlExt d b sb w off => Sys2Proof.Machine.execStlExt d b sb w off s
  | .ldt d b sb k => Sys2Proof.Machine.execLdt d b sb k s
  | .hzadd a b sb => Sys2Proof.Machine.execHzadd a b sb s
  | .hzaddExt a b sb off => Sys2Proof.Machine.execHzaddExt a b sb off s
  | .hzsettle l b sb => Sys2Proof.Machine.execHzsettle l b sb s
  | .pref b sb => Sys2Proof.Machine.execPref b sb s
  | .prefExt b sb off => Sys2Proof.Machine.execPrefExt b sb off s
  | .wback b sb all => Sys2Proof.Machine.execWback b sb all s
  | .wbackExt b sb off => Sys2Proof.Machine.execWbackExt b sb off s
  | .fence sb kind scope => Sys2Proof.Machine.execFence sb kind scope s
  | .atom op b sb ord scope => Sys2Proof.Machine.execAtom op b sb ord scope s
  | .atomv esz op b sb ord scope => Sys2Proof.Machine.execAtomv esz op b sb ord scope s
  | .redm op b sb ord scope => Sys2Proof.Machine.execRedm op b sb ord scope s
  | .bar k sb => Sys2Proof.Machine.execBar k sb s
  | .barArv k sb => Sys2Proof.Machine.execBarArv k sb s
  | .barExp k cnt sb => Sys2Proof.Machine.execBarExp k cnt sb s
  | .gbar g sb => Sys2Proof.Machine.execGbar g sb s
  | .mma ta tb r k c0 z ea eb pr => Sys2Proof.Machine.execMma ta tb r k c0 z ea eb pr s
  | .mmas ta tb r k c0 z ea eb pr => Sys2Proof.Machine.execMmas ta tb r k c0 z ea eb pr s
  | .mzero r n1 sb => Sys2Proof.Machine.execMzero r n1 sb s
  | .maccOut t r sb rnd hi c0 => Sys2Proof.Machine.execMaccOut t r sb rnd hi c0 s
  | .maccIn t r sb rnd add hi c0 => Sys2Proof.Machine.execMaccIn t r sb rnd add hi c0 s
  | .mloop ta tb sd => Sys2Proof.Machine.execMloop ta tb sd s
  | .talloc p t sg sb => Sys2Proof.Machine.execTalloc p t sg sb s
  | .tfree t sb => Sys2Proof.Machine.execTfree t sb s
  | .tcopy t sd acq rel scope ir sb rnd slot cv hi => Sys2Proof.Machine.execTcopy t sd acq rel scope ir sb rnd slot cv hi s
  | .tchain sh ch ir scope sb => Sys2Proof.Machine.execTchain sh ch ir scope sb s
  | .tstore t sd acq rel scope ir sb rnd slot cv hi => Sys2Proof.Machine.execTstore t sd acq rel scope ir sb rnd slot cv hi s
  | .tstoreHz sd acq rel scope ir sb hi r rows1 c0 => Sys2Proof.Machine.execTstoreHz sd acq rel scope ir sb hi r rows1 c0 s
  | .tfill t sv hi sb => Sys2Proof.Machine.execTfill t sv hi sb s
  | .seqbar k => Sys2Proof.Machine.execSeqbar k s
  | .seqbarArv k => Sys2Proof.Machine.execSeqbarArv k s
  | .seqbarWait k => Sys2Proof.Machine.execSeqbarWait k s
  | .accrd d a sb => Sys2Proof.Machine.execAccrd d a sb s
  | .accwr k a sb => Sys2Proof.Machine.execAccwr k a sb s
  | .awset sg sb0 sl last => Sys2Proof.Machine.execAwset sg sb0 sl last s
  | .txinit x c sb => Sys2Proof.Machine.execTxinit x c sb s
  | .txexp x cnt sb => Sys2Proof.Machine.execTxexp x cnt sb s
  | .txarv x cnt exp one sb => Sys2Proof.Machine.execTxarv x cnt exp one sb s
  | .txwait x ph => Sys2Proof.Machine.execTxwait x ph s
  | .txtest p x ph sb => Sys2Proof.Machine.execTxtest p x ph sb s
  | .twait t state => Sys2Proof.Machine.execTwait t state s
  | .tstate d t sb => Sys2Proof.Machine.execTstate d t sb s
  | .srdp d rsel => Sys2Proof.Machine.execSrdp d rsel s
  | .swrp rsel k => Sys2Proof.Machine.execSwrp rsel k s
  | .pdone k => Sys2Proof.Machine.execPdone k s
  | .tlbinv a all => Sys2Proof.Machine.execTlbinv a all s
  | .dbgrd d a obj => Sys2Proof.Machine.execDbgrd d a obj s
  | .scoreboardDecrement op => Sys2Proof.Machine.execScoreboardDecrement op s
  | .groupRetire g => Sys2Proof.Machine.execGroupRetire g s
  | .blockRetire b => Sys2Proof.Machine.execBlockRetire b s
  | .gangRetire ga => Sys2Proof.Machine.execGangRetire ga s
  | .joinDecrement ga => Sys2Proof.Machine.execJoinDecrement ga s
  | .portDown port => Sys2Proof.Machine.execPortDown port s
  | .peerRequest port => Sys2Proof.Machine.execPeerRequest port s
  | .matrixBurstStart core => Sys2Proof.Machine.execMatrixBurstStart core s
  | .matrixBurstEnd core => Sys2Proof.Machine.execMatrixBurstEnd core s
  | .tokenPass chip => Sys2Proof.Machine.execTokenPass chip s
  | .matrixWriteComplete core => Sys2Proof.Machine.execMatrixWriteComplete core s
  | .mloopIteration core cmd => Sys2Proof.Machine.execMloopIteration core cmd s
  | .copyEngineTransfer core cmd => Sys2Proof.Machine.execCopyEngineTransfer core cmd s
  | .copySectorArrival core cmd => Sys2Proof.Machine.execCopySectorArrival core cmd s
  | .chainRecord isle ch => Sys2Proof.Machine.execChainRecord isle ch s
  | .commandResume core cmd => Sys2Proof.Machine.execCommandResume core cmd s
  | .translationWalk isle ctx vpn => Sys2Proof.Machine.execTranslationWalk isle ctx vpn s
  | .arbitrationCycle isle port => Sys2Proof.Machine.execArbitrationCycle isle port s
  | .packetArrival k => Sys2Proof.Machine.execPacketArrival k s
  | .stopSignal isle input vc => Sys2Proof.Machine.execStopSignal isle input vc s
  | .goSignal isle input vc => Sys2Proof.Machine.execGoSignal isle input vc s
  | .rd isle unit => Sys2Proof.Machine.execRd isle unit s
  | .rdh isle unit => Sys2Proof.Machine.execRdh isle unit s
  | .wt isle unit => Sys2Proof.Machine.execWt isle unit s
  | .atomAtHome isle unit => Sys2Proof.Machine.execAtomAtHome isle unit s
  | .hzq isle unit => Sys2Proof.Machine.execHzq isle unit s
  | .tolerantLoadRequest isle unit => Sys2Proof.Machine.execTolerantLoadRequest isle unit s
  | .drn isle unit => Sys2Proof.Machine.execDrn isle unit s
  | .hzd isle unit => Sys2Proof.Machine.execHzd isle unit s
  | .cpr isle unit => Sys2Proof.Machine.execCpr isle unit s
  | .cpw isle unit => Sys2Proof.Machine.execCpw isle unit s
  | .dataArrive isle unit => Sys2Proof.Machine.execDataArrive isle unit s
  | .ackArrive isle unit => Sys2Proof.Machine.execAckArrive isle unit s
  | .atr isle unit => Sys2Proof.Machine.execAtr isle unit s
  | .xgnt isle unit => Sys2Proof.Machine.execXgnt isle unit s
  | .xret isle unit => Sys2Proof.Machine.execXret isle unit s
  | .recall isle unit => Sys2Proof.Machine.execRecall isle unit s
  | .exclusiveLeaseEnd core loc => Sys2Proof.Machine.execExclusiveLeaseEnd core loc s
  | .dreq isle unit => Sys2Proof.Machine.execDreq isle unit s
  | .ddone isle unit => Sys2Proof.Machine.execDdone isle unit s
  | .shreq isle unit => Sys2Proof.Machine.execShreq isle unit s
  | .shgnt isle unit => Sys2Proof.Machine.execShgnt isle unit s
  | .splitShare isle unit => Sys2Proof.Machine.execSplitShare isle unit s
  | .spdone isle unit => Sys2Proof.Machine.execSpdone isle unit s
  | .settle isle unit => Sys2Proof.Machine.execSettle isle unit s
  | .surr isle unit => Sys2Proof.Machine.execSurr isle unit s
  | .dopen isle unit => Sys2Proof.Machine.execDopen isle unit s
  | .dclose isle unit => Sys2Proof.Machine.execDclose isle unit s
  | .hazeIdleSurrender core ctx region => Sys2Proof.Machine.execHazeIdleSurrender core ctx region s
  | .barArrival isle unit => Sys2Proof.Machine.execBarArrival isle unit s
  | .barRelease isle unit => Sys2Proof.Machine.execBarRelease isle unit s
  | .preemptQuiesced ga => Sys2Proof.Machine.execPreemptQuiesced ga s
  | .preemptDeadline ga => Sys2Proof.Machine.execPreemptDeadline ga s
  | .livenessProbe m => Sys2Proof.Machine.execLivenessProbe m s
  | .probeTimeout m => Sys2Proof.Machine.execProbeTimeout m s
  | .backpressureTimeout m => Sys2Proof.Machine.execBackpressureTimeout m s
  | .fstepEnd n => Sys2Proof.Machine.execFstepEnd n s
  | .rampEnd n => Sys2Proof.Machine.execRampEnd n s
  | .mheavySample n => Sys2Proof.Machine.execMheavySample n s
  | .budgetInterval n => Sys2Proof.Machine.execBudgetInterval n s
  | .gwctPassed d => Sys2Proof.Machine.execGwctPassed d s
  | .pendingWriteLands g => Sys2Proof.Machine.execPendingWriteLands g s
  | .operandReadsComplete core => Sys2Proof.Machine.execOperandReadsComplete core s
  | .probeAnswer core => Sys2Proof.Machine.execProbeAnswer core s
  | .tileWaitTimeout g lanes => Sys2Proof.Machine.execTileWaitTimeout g lanes s
  | .seqTileWaitTimeout b => Sys2Proof.Machine.execSeqTileWaitTimeout b s
  | .memoryErrorTrap g lanes => Sys2Proof.Machine.execMemoryErrorTrap g lanes s
  | .yield => Sys2Proof.Machine.execYield s
  | .nop => Sys2Proof.Machine.execNop s
  | .trapret => Sys2Proof.Machine.execTrapret s
  | .ctxwb => Sys2Proof.Machine.execCtxwb s
  | .hzreclaim => Sys2Proof.Machine.execHzreclaim s
  | .bypass => Sys2Proof.Machine.execBypass s
  | .idcode => Sys2Proof.Machine.execIdcode s
  | .frzsel => Sys2Proof.Machine.execFrzsel s
  | .frzread => Sys2Proof.Machine.execFrzread s
  | .clauseSkip g lanes => Sys2Proof.Machine.execClauseSkip g lanes s
  | .queuePop => Sys2Proof.Machine.execQueuePop s
  | .placementPass => Sys2Proof.Machine.execPlacementPass s
  | .pendingEntryBlocks => Sys2Proof.Machine.execPendingEntryBlocks s
  | .holdbackWindow => Sys2Proof.Machine.execHoldbackWindow s
  | .trafficWindow => Sys2Proof.Machine.execTrafficWindow s
  | .slewWindow => Sys2Proof.Machine.execSlewWindow s
  | .vrelesFlit port seq crcOk vc msg => Sys2Proof.Machine.execVrelesFlit port seq crcOk vc msg s
  | .nak port seq => Sys2Proof.Machine.execNak port seq s
  | .hostMemoryRead off len => Sys2Proof.Machine.execHostMemoryRead off len s
  | .hostMemoryWrite off bytes => Sys2Proof.Machine.execHostMemoryWrite off bytes s
  | .registerWrite off len val => Sys2Proof.Machine.execRegisterWrite off len val s
  | .wake port off len val => Sys2Proof.Machine.execWake port off len val s
  | .mint off len val => Sys2Proof.Machine.execMint off len val s
  | .qctl q off len val => Sys2Proof.Machine.execQctl q off len val s
  | .regionTable n off len val => Sys2Proof.Machine.execRegionTable n off len val s
  | .cgcfg val => Sys2Proof.Machine.execCgcfg val s
  | .pageans => Sys2Proof.Machine.execPageans s
  | .preempt => Sys2Proof.Machine.execPreempt s
  | .dbgrun => Sys2Proof.Machine.execDbgrun s
  | .dbgstep => Sys2Proof.Machine.execDbgstep s
  | .dbghalt => Sys2Proof.Machine.execDbghalt s
  | .freezeCmd => Sys2Proof.Machine.execFreezeCmd s
  | .unknownCommand code => Sys2Proof.Machine.execUnknownCommand code s
  | .freezePin => Sys2Proof.Machine.execFreezePin s
  | .packageReset => Sys2Proof.Machine.execPackageReset s
  | .hotReset => Sys2Proof.Machine.execHotReset s
  | .powerOn yehamOk baseOk chips hostOk ports => Sys2Proof.Machine.execPowerOn yehamOk baseOk chips hostOk ports s
  | .attestationRequest algOk nonce => Sys2Proof.Machine.execAttestationRequest algOk nonce s
  | .storeChunk => Sys2Proof.Machine.execStoreChunk s
  | .commitImage sigOk flashOk => Sys2Proof.Machine.execCommitImage sigOk flashOk s
  | .restart => Sys2Proof.Machine.execRestart s
  | .identify => Sys2Proof.Machine.execIdentify s
  | .mailboxUnknown code => Sys2Proof.Machine.execMailboxUnknown code s
  | .chipctlFence m => Sys2Proof.Machine.execChipctlFence m s
  | .rejoin m => Sys2Proof.Machine.execRejoin m s
  | .selfTestComplete m ok => Sys2Proof.Machine.execSelfTestComplete m ok s
  | .telemetrySample pwr plim => Sys2Proof.Machine.execTelemetrySample pwr plim s
  | .earlyBite lim => Sys2Proof.Machine.execEarlyBite lim s
  | .scrub loc uncorrectable => Sys2Proof.Machine.execScrub loc uncorrectable s
  | .linkCalibration port => Sys2Proof.Machine.execLinkCalibration port s
  | .limit m => Sys2Proof.Machine.execLimit m s
  | .heartbeat m => Sys2Proof.Machine.execHeartbeat m s
  | .join m => Sys2Proof.Machine.execJoin m s
  | .leave m => Sys2Proof.Machine.execLeave m s
  | .emergency m => Sys2Proof.Machine.execEmergency m s
  | .heartbeatDue => Sys2Proof.Machine.execHeartbeatDue s
  | .applyInstant => Sys2Proof.Machine.execApplyInstant s
  | .suspectTimeout => Sys2Proof.Machine.execSuspectTimeout s
  | .expelTimeout => Sys2Proof.Machine.execExpelTimeout s
  | .expelled => Sys2Proof.Machine.execExpelled s
  | .syncInterval => Sys2Proof.Machine.execSyncInterval s
  | .sync port sender seqid corr => Sys2Proof.Machine.execSync port sender seqid corr s
  | .followUp port seqid t1 => Sys2Proof.Machine.execFollowUp port seqid t1 s
  | .delayReq port sender seqid corr => Sys2Proof.Machine.execDelayReq port sender seqid corr s
  | .delayResp port seqid t4 corr => Sys2Proof.Machine.execDelayResp port seqid t4 corr s
  | .lockLoss => Sys2Proof.Machine.execLockLoss s
  | .portTrainsAgain port => Sys2Proof.Machine.execPortTrainsAgain port s

end Sys2Proof.Machine
end

