-- ==== Sys2Proof/Machine/Step.lean ====
section
/-!
DEFINITION. One step of the machine, and the placing of an instruction where the next step takes it from.
-/
namespace Sys2Proof.Machine

/-- One step: what comes next happens, and the step ends (Cycle.lean). -/
def step (s : State) : Host.Outcome State Fault Refusal := s.cycle exec

/-- The state in which the next step runs the instruction whose bits are `w`, numbered as
spec/opcode_table.json numbers them (notes/assumptions/18): an 8-bit instruction stands in the test port; any
other is the only instruction of a clause that a new gang's group, or sequencer, holds as fetched. -/
def State.withFetchWord (s : State) (nbits w : Nat) : State :=
  if nbits ≤ 8 then { s with agenda := decodeTap (w % 256) :: s.agenda }
  else s.placeWord (w % 2 ^ 32) (w / 2 ^ 32 % 2 ^ 32)

end Sys2Proof.Machine
end

