-- ==== Sys2Proof/Laws/PerInstr.lean ====
section
/-!
SUPPORT. What holds of every instruction as syntax, one lemma per constructor.
-/
namespace Sys2Proof.Laws

/-- Where an instruction has words, they belong to one of the four classes of a clause (R162). -/
def WordShape.Statement (i : Instr) : Prop := ∀ c, encode i = some c → c.cls < 4

theorem WordShape.iadd : ∀ x0 x1 x2, WordShape.Statement (.iadd x0 x1 x2) := by
  intros; intro c h; cases h; simp
theorem WordShape.isub : ∀ x0 x1 x2, WordShape.Statement (.isub x0 x1 x2) := by
  intros; intro c h; cases h; simp
theorem WordShape.iaddc : ∀ x0 x1 x2 x3, WordShape.Statement (.iaddc x0 x1 x2 x3) := by
  intros; intro c h; cases h; simp
theorem WordShape.isubb : ∀ x0 x1 x2 x3, WordShape.Statement (.isubb x0 x1 x2 x3) := by
  intros; intro c h; cases h; simp
theorem WordShape.imul : ∀ x0 x1 x2, WordShape.Statement (.imul x0 x1 x2) := by
  intros; intro c h; cases h; simp
theorem WordShape.imulh : ∀ x0 x1 x2 x3, WordShape.Statement (.imulh x0 x1 x2 x3) := by
  intros; intro c h; cases h; simp
theorem WordShape.imad : ∀ x0 x1 x2 x3, WordShape.Statement (.imad x0 x1 x2 x3) := by
  intros; intro c h; cases h; simp
theorem WordShape.imin : ∀ x0 x1 x2 x3, WordShape.Statement (.imin x0 x1 x2 x3) := by
  intros; intro c h; cases h; simp
theorem WordShape.imax : ∀ x0 x1 x2 x3, WordShape.Statement (.imax x0 x1 x2 x3) := by
  intros; intro c h; cases h; simp
theorem WordShape.iabs : ∀ x0 x1 x2, WordShape.Statement (.iabs x0 x1 x2) := by
  intros; intro c h; cases h; simp
theorem WordShape.ineg : ∀ x0 x1 x2, WordShape.Statement (.ineg x0 x1 x2) := by
  intros; intro c h; cases h; simp
theorem WordShape.idot4 : ∀ x0 x1 x2 x3 x4, WordShape.Statement (.idot4 x0 x1 x2 x3 x4) := by
  intros; intro c h; cases h; simp
theorem WordShape.iadd64 : ∀ x0 x1 x2, WordShape.Statement (.iadd64 x0 x1 x2) := by
  intros; intro c h; cases h; simp
theorem WordShape.lea : ∀ x0 x1 x2 x3 x4, WordShape.Statement (.lea x0 x1 x2 x3 x4) := by
  intros; intro c h; cases h; simp
theorem WordShape.sel : ∀ x0 x1 x2 x3, WordShape.Statement (.sel x0 x1 x2 x3) := by
  intros; intro c h; cases h; simp
theorem WordShape.isetp : ∀ x0 x1 x2 x3 x4, WordShape.Statement (.isetp x0 x1 x2 x3 x4) := by
  intros; intro c h; cases h; simp
theorem WordShape.and : ∀ x0 x1 x2, WordShape.Statement (.and x0 x1 x2) := by
  intros; intro c h; cases h; simp
theorem WordShape.or : ∀ x0 x1 x2, WordShape.Statement (.or x0 x1 x2) := by
  intros; intro c h; cases h; simp
theorem WordShape.xor : ∀ x0 x1 x2, WordShape.Statement (.xor x0 x1 x2) := by
  intros; intro c h; cases h; simp
theorem WordShape.andn : ∀ x0 x1 x2, WordShape.Statement (.andn x0 x1 x2) := by
  intros; intro c h; cases h; simp
theorem WordShape.orn : ∀ x0 x1 x2, WordShape.Statement (.orn x0 x1 x2) := by
  intros; intro c h; cases h; simp
theorem WordShape.not : ∀ x0 x1, WordShape.Statement (.not x0 x1) := by
  intros; intro c h; cases h; simp
theorem WordShape.lop3 : ∀ x0 x1 x2 x3 x4, WordShape.Statement (.lop3 x0 x1 x2 x3 x4) := by
  intros; intro c h; cases h; simp
theorem WordShape.shl : ∀ x0 x1 x2, WordShape.Statement (.shl x0 x1 x2) := by
  intros; intro c h; cases h; simp
theorem WordShape.shr : ∀ x0 x1 x2, WordShape.Statement (.shr x0 x1 x2) := by
  intros; intro c h; cases h; simp
theorem WordShape.sar : ∀ x0 x1 x2, WordShape.Statement (.sar x0 x1 x2) := by
  intros; intro c h; cases h; simp
theorem WordShape.rol : ∀ x0 x1 x2, WordShape.Statement (.rol x0 x1 x2) := by
  intros; intro c h; cases h; simp
theorem WordShape.fshl : ∀ x0 x1 x2 x3, WordShape.Statement (.fshl x0 x1 x2 x3) := by
  intros; intro c h; cases h; simp
theorem WordShape.shl64 : ∀ x0 x1 x2, WordShape.Statement (.shl64 x0 x1 x2) := by
  intros; intro c h; cases h; simp
theorem WordShape.popc : ∀ x0 x1, WordShape.Statement (.popc x0 x1) := by
  intros; intro c h; cases h; simp
theorem WordShape.clz : ∀ x0 x1, WordShape.Statement (.clz x0 x1) := by
  intros; intro c h; cases h; simp
theorem WordShape.ctz : ∀ x0 x1, WordShape.Statement (.ctz x0 x1) := by
  intros; intro c h; cases h; simp
theorem WordShape.brev : ∀ x0 x1, WordShape.Statement (.brev x0 x1) := by
  intros; intro c h; cases h; simp
theorem WordShape.bfx : ∀ x0 x1 x2 x3 x4, WordShape.Statement (.bfx x0 x1 x2 x3 x4) := by
  intros; intro c h; cases h; simp
theorem WordShape.bfi : ∀ x0 x1 x2 x3 x4, WordShape.Statement (.bfi x0 x1 x2 x3 x4) := by
  intros; intro c h; cases h; simp
theorem WordShape.mov : ∀ x0 x1 x2, WordShape.Statement (.mov x0 x1 x2) := by
  intros; intro c h; cases h; simp
theorem WordShape.movi : ∀ x0 x1, WordShape.Statement (.movi x0 x1) := by
  intros; intro c h; cases h; simp
theorem WordShape.movs : ∀ x0 x1 x2, WordShape.Statement (.movs x0 x1 x2) := by
  intros; intro c h; cases h; simp
theorem WordShape.sread : ∀ x0 x1 x2, WordShape.Statement (.sread x0 x1 x2) := by
  intros; intro c h; cases h; simp
theorem WordShape.plop : ∀ x0 x1 x2 x3 x4, WordShape.Statement (.plop x0 x1 x2 x3 x4) := by
  intros; intro c h; cases h; simp
theorem WordShape.pmov : ∀ x0 x1, WordShape.Statement (.pmov x0 x1) := by
  intros; intro c h; cases h; simp
theorem WordShape.sadd : ∀ x0 x1 x2, WordShape.Statement (.sadd x0 x1 x2) := by
  intros; intro c h; cases h; simp
theorem WordShape.ssub : ∀ x0 x1 x2, WordShape.Statement (.ssub x0 x1 x2) := by
  intros; intro c h; cases h; simp
theorem WordShape.smul : ∀ x0 x1 x2, WordShape.Statement (.smul x0 x1 x2) := by
  intros; intro c h; cases h; simp
theorem WordShape.sand : ∀ x0 x1 x2, WordShape.Statement (.sand x0 x1 x2) := by
  intros; intro c h; cases h; simp
theorem WordShape.sor : ∀ x0 x1 x2, WordShape.Statement (.sor x0 x1 x2) := by
  intros; intro c h; cases h; simp
theorem WordShape.sxor : ∀ x0 x1 x2, WordShape.Statement (.sxor x0 x1 x2) := by
  intros; intro c h; cases h; simp
theorem WordShape.sshl : ∀ x0 x1 x2, WordShape.Statement (.sshl x0 x1 x2) := by
  intros; intro c h; cases h; simp
theorem WordShape.sshr : ∀ x0 x1 x2 x3, WordShape.Statement (.sshr x0 x1 x2 x3) := by
  intros; intro c h; cases h; simp
theorem WordShape.smov : ∀ x0 x1 x2, WordShape.Statement (.smov x0 x1 x2) := by
  intros; intro c h; cases h; simp
theorem WordShape.smovi : ∀ x0 x1, WordShape.Statement (.smovi x0 x1) := by
  intros; intro c h; cases h; simp
theorem WordShape.ssetp : ∀ x0 x1 x2 x3 x4, WordShape.Statement (.ssetp x0 x1 x2 x3 x4) := by
  intros; intro c h; cases h; simp
theorem WordShape.slane : ∀ x0 x1 x2 x3, WordShape.Statement (.slane x0 x1 x2 x3) := by
  intros; intro c h; cases h; simp
theorem WordShape.bra : ∀ x0 x1, WordShape.Statement (.bra x0 x1) := by
  intros; intro c h; cases h; simp
theorem WordShape.braLong : ∀ x0 x1, WordShape.Statement (.braLong x0 x1) := by
  intros; intro c h; cases h; simp
theorem WordShape.bany : ∀ x0 x1, WordShape.Statement (.bany x0 x1) := by
  intros; intro c h; cases h; simp
theorem WordShape.banyLong : ∀ x0 x1, WordShape.Statement (.banyLong x0 x1) := by
  intros; intro c h; cases h; simp
theorem WordShape.ball : ∀ x0 x1, WordShape.Statement (.ball x0 x1) := by
  intros; intro c h; cases h; simp
theorem WordShape.ballLong : ∀ x0 x1, WordShape.Statement (.ballLong x0 x1) := by
  intros; intro c h; cases h; simp
theorem WordShape.bnone : ∀ x0 x1, WordShape.Statement (.bnone x0 x1) := by
  intros; intro c h; cases h; simp
theorem WordShape.bnoneLong : ∀ x0 x1, WordShape.Statement (.bnoneLong x0 x1) := by
  intros; intro c h; cases h; simp
theorem WordShape.bdiv : ∀ x0 x1, WordShape.Statement (.bdiv x0 x1) := by
  intros; intro c h; cases h; simp
theorem WordShape.bdivLong : ∀ x0 x1, WordShape.Statement (.bdivLong x0 x1) := by
  intros; intro c h; cases h; simp
theorem WordShape.jmp : ∀ x0, WordShape.Statement (.jmp x0) := by
  intros; intro c h; cases h; simp
theorem WordShape.call : ∀ x0 x1, WordShape.Statement (.call x0 x1) := by
  intros; intro c h; cases h; simp
theorem WordShape.calli : ∀ x0 x1, WordShape.Statement (.calli x0 x1) := by
  intros; intro c h; cases h; simp
theorem WordShape.ret : ∀ x0 x1, WordShape.Statement (.ret x0 x1) := by
  intros; intro c h; cases h; simp
theorem WordShape.exit : ∀ x0, WordShape.Statement (.exit x0) := by
  intros; intro c h; cases h; simp
theorem WordShape.fspawn : ∀ x0 x1 x2 x3, WordShape.Statement (.fspawn x0 x1 x2 x3) := by
  intros; intro c h; cases h; simp
theorem WordShape.yield : WordShape.Statement .yield := by
  intro c h; cases h; decide
theorem WordShape.nop : WordShape.Statement .nop := by
  intro c h; cases h; decide
theorem WordShape.bkpt : ∀ x0, WordShape.Statement (.bkpt x0) := by
  intros; intro c h; cases h; simp
theorem WordShape.utrap : ∀ x0, WordShape.Statement (.utrap x0) := by
  intros; intro c h; cases h; simp
theorem WordShape.mjoin : ∀ x0, WordShape.Statement (.mjoin x0) := by
  intros; intro c h; cases h; simp
theorem WordShape.mleave : ∀ x0, WordShape.Statement (.mleave x0) := by
  intros; intro c h; cases h; simp
theorem WordShape.mwait : ∀ x0, WordShape.Statement (.mwait x0) := by
  intros; intro c h; cases h; simp
theorem WordShape.mset : ∀ x0 x1 x2, WordShape.Statement (.mset x0 x1 x2) := by
  intros; intro c h; cases h; simp
theorem WordShape.mget : ∀ x0 x1 x2, WordShape.Statement (.mget x0 x1 x2) := by
  intros; intro c h; cases h; simp
theorem WordShape.vote : ∀ x0 x1 x2 x3 x4, WordShape.Statement (.vote x0 x1 x2 x3 x4) := by
  intros; intro c h; cases h; simp
theorem WordShape.matchl : ∀ x0 x1 x2 x3, WordShape.Statement (.matchl x0 x1 x2 x3) := by
  intros; intro c h; cases h; simp
theorem WordShape.shfl : ∀ x0 x1 x2 x3 x4 x5 x6 x7 x8, WordShape.Statement (.shfl x0 x1 x2 x3 x4 x5 x6 x7 x8) := by
  intros; intro c h; cases h; simp
theorem WordShape.redmin : ∀ x0 x1 x2 x3 x4, WordShape.Statement (.redmin x0 x1 x2 x3 x4) := by
  intros; intro c h; cases h; simp
theorem WordShape.redmax : ∀ x0 x1 x2 x3 x4, WordShape.Statement (.redmax x0 x1 x2 x3 x4) := by
  intros; intro c h; cases h; simp
theorem WordShape.redadd : ∀ x0 x1 x2 x3, WordShape.Statement (.redadd x0 x1 x2 x3) := by
  intros; intro c h; cases h; simp
theorem WordShape.fredadd : ∀ x0 x1 x2 x3, WordShape.Statement (.fredadd x0 x1 x2 x3) := by
  intros; intro c h; cases h; simp
theorem WordShape.scan : ∀ x0 x1 x2 x3 x4, WordShape.Statement (.scan x0 x1 x2 x3 x4) := by
  intros; intro c h; cases h; simp
theorem WordShape.redlog : ∀ x0 x1 x2 x3, WordShape.Statement (.redlog x0 x1 x2 x3) := by
  intros; intro c h; cases h; simp
theorem WordShape.fadd : ∀ x0 x1 x2 x3, WordShape.Statement (.fadd x0 x1 x2 x3) := by
  intros; intro c h; cases h; simp
theorem WordShape.fsub : ∀ x0 x1 x2 x3, WordShape.Statement (.fsub x0 x1 x2 x3) := by
  intros; intro c h; cases h; simp
theorem WordShape.fmul : ∀ x0 x1 x2 x3, WordShape.Statement (.fmul x0 x1 x2 x3) := by
  intros; intro c h; cases h; simp
theorem WordShape.ffma : ∀ x0 x1 x2 x3 x4 x5, WordShape.Statement (.ffma x0 x1 x2 x3 x4 x5) := by
  intros; intro c h; cases h; simp
theorem WordShape.fmin : ∀ x0 x1 x2 x3, WordShape.Statement (.fmin x0 x1 x2 x3) := by
  intros; intro c h; cases h; simp
theorem WordShape.fmax : ∀ x0 x1 x2 x3, WordShape.Statement (.fmax x0 x1 x2 x3) := by
  intros; intro c h; cases h; simp
theorem WordShape.fsetp : ∀ x0 x1 x2 x3, WordShape.Statement (.fsetp x0 x1 x2 x3) := by
  intros; intro c h; cases h; simp
theorem WordShape.fclass : ∀ x0 x1 x2, WordShape.Statement (.fclass x0 x1 x2) := by
  intros; intro c h; cases h; simp
theorem WordShape.frcp : ∀ x0 x1, WordShape.Statement (.frcp x0 x1) := by
  intros; intro c h; cases h; simp
theorem WordShape.frsq : ∀ x0 x1, WordShape.Statement (.frsq x0 x1) := by
  intros; intro c h; cases h; simp
theorem WordShape.fsqrt : ∀ x0 x1, WordShape.Statement (.fsqrt x0 x1) := by
  intros; intro c h; cases h; simp
theorem WordShape.fdiv : ∀ x0 x1 x2, WordShape.Statement (.fdiv x0 x1 x2) := by
  intros; intro c h; cases h; simp
theorem WordShape.fexp2 : ∀ x0 x1, WordShape.Statement (.fexp2 x0 x1) := by
  intros; intro c h; cases h; simp
theorem WordShape.flog2 : ∀ x0 x1, WordShape.Statement (.flog2 x0 x1) := by
  intros; intro c h; cases h; simp
theorem WordShape.fsinpi : ∀ x0 x1, WordShape.Statement (.fsinpi x0 x1) := by
  intros; intro c h; cases h; simp
theorem WordShape.fcospi : ∀ x0 x1, WordShape.Statement (.fcospi x0 x1) := by
  intros; intro c h; cases h; simp
theorem WordShape.dadd : ∀ x0 x1 x2 x3, WordShape.Statement (.dadd x0 x1 x2 x3) := by
  intros; intro c h; cases h; simp
theorem WordShape.dmul : ∀ x0 x1 x2 x3, WordShape.Statement (.dmul x0 x1 x2 x3) := by
  intros; intro c h; cases h; simp
theorem WordShape.dfma : ∀ x0 x1 x2 x3 x4 x5, WordShape.Statement (.dfma x0 x1 x2 x3 x4 x5) := by
  intros; intro c h; cases h; simp
theorem WordShape.dmin : ∀ x0 x1 x2 x3, WordShape.Statement (.dmin x0 x1 x2 x3) := by
  intros; intro c h; cases h; simp
theorem WordShape.dmax : ∀ x0 x1 x2 x3, WordShape.Statement (.dmax x0 x1 x2 x3) := by
  intros; intro c h; cases h; simp
theorem WordShape.dsetp : ∀ x0 x1 x2 x3, WordShape.Statement (.dsetp x0 x1 x2 x3) := by
  intros; intro c h; cases h; simp
theorem WordShape.ddiv : ∀ x0 x1 x2, WordShape.Statement (.ddiv x0 x1 x2) := by
  intros; intro c h; cases h; simp
theorem WordShape.hadd2 : ∀ x0 x1 x2 x3 x4, WordShape.Statement (.hadd2 x0 x1 x2 x3 x4) := by
  intros; intro c h; cases h; simp
theorem WordShape.hmul2 : ∀ x0 x1 x2 x3 x4, WordShape.Statement (.hmul2 x0 x1 x2 x3 x4) := by
  intros; intro c h; cases h; simp
theorem WordShape.hfma2 : ∀ x0 x1 x2 x3 x4 x5, WordShape.Statement (.hfma2 x0 x1 x2 x3 x4 x5) := by
  intros; intro c h; cases h; simp
theorem WordShape.cmul : ∀ x0 x1 x2 x3 x4, WordShape.Statement (.cmul x0 x1 x2 x3 x4) := by
  intros; intro c h; cases h; simp
theorem WordShape.cfma : ∀ x0 x1 x2 x3 x4 x5, WordShape.Statement (.cfma x0 x1 x2 x3 x4 x5) := by
  intros; intro c h; cases h; simp
theorem WordShape.cvtff : ∀ x0 x1 x2 x3 x4 x5 x6 x7, WordShape.Statement (.cvtff x0 x1 x2 x3 x4 x5 x6 x7) := by
  intros; intro c h; cases h; simp
theorem WordShape.cvtfi : ∀ x0 x1 x2 x3 x4 x5, WordShape.Statement (.cvtfi x0 x1 x2 x3 x4 x5) := by
  intros; intro c h; cases h; simp
theorem WordShape.cvtif : ∀ x0 x1 x2 x3 x4 x5 x6, WordShape.Statement (.cvtif x0 x1 x2 x3 x4 x5 x6) := by
  intros; intro c h; cases h; simp
theorem WordShape.cvtpk : ∀ x0 x1 x2 x3 x4 x5, WordShape.Statement (.cvtpk x0 x1 x2 x3 x4 x5) := by
  intros; intro c h; cases h; simp
theorem WordShape.cvtunpk : ∀ x0 x1 x2 x3 x4, WordShape.Statement (.cvtunpk x0 x1 x2 x3 x4) := by
  intros; intro c h; cases h; simp
theorem WordShape.cvtw : ∀ x0 x1 x2 x3, WordShape.Statement (.cvtw x0 x1 x2 x3) := by
  intros; intro c h; cases h; simp
theorem WordShape.ld : ∀ x0 x1 x2 x3, WordShape.Statement (.ld x0 x1 x2 x3) := by
  intros; intro c h; cases h; simp
theorem WordShape.ldExt : ∀ x0 x1 x2 x3 x4, WordShape.Statement (.ldExt x0 x1 x2 x3 x4) := by
  intros; intro c h; cases h; simp
theorem WordShape.st : ∀ x0 x1 x2 x3, WordShape.Statement (.st x0 x1 x2 x3) := by
  intros; intro c h; cases h; simp
theorem WordShape.stExt : ∀ x0 x1 x2 x3 x4, WordShape.Statement (.stExt x0 x1 x2 x3 x4) := by
  intros; intro c h; cases h; simp
theorem WordShape.lds : ∀ x0 x1 x2 x3, WordShape.Statement (.lds x0 x1 x2 x3) := by
  intros; intro c h; cases h; simp
theorem WordShape.ldsExt : ∀ x0 x1 x2 x3 x4, WordShape.Statement (.ldsExt x0 x1 x2 x3 x4) := by
  intros; intro c h; cases h; simp
theorem WordShape.ldl : ∀ x0 x1 x2 x3, WordShape.Statement (.ldl x0 x1 x2 x3) := by
  intros; intro c h; cases h; simp
theorem WordShape.ldlExt : ∀ x0 x1 x2 x3 x4, WordShape.Statement (.ldlExt x0 x1 x2 x3 x4) := by
  intros; intro c h; cases h; simp
theorem WordShape.stl : ∀ x0 x1 x2 x3, WordShape.Statement (.stl x0 x1 x2 x3) := by
  intros; intro c h; cases h; simp
theorem WordShape.stlExt : ∀ x0 x1 x2 x3 x4, WordShape.Statement (.stlExt x0 x1 x2 x3 x4) := by
  intros; intro c h; cases h; simp
theorem WordShape.ldt : ∀ x0 x1 x2 x3, WordShape.Statement (.ldt x0 x1 x2 x3) := by
  intros; intro c h; cases h; simp
theorem WordShape.hzadd : ∀ x0 x1 x2, WordShape.Statement (.hzadd x0 x1 x2) := by
  intros; intro c h; cases h; simp
theorem WordShape.hzaddExt : ∀ x0 x1 x2 x3, WordShape.Statement (.hzaddExt x0 x1 x2 x3) := by
  intros; intro c h; cases h; simp
theorem WordShape.hzsettle : ∀ x0 x1 x2, WordShape.Statement (.hzsettle x0 x1 x2) := by
  intros; intro c h; cases h; simp
theorem WordShape.pref : ∀ x0 x1, WordShape.Statement (.pref x0 x1) := by
  intros; intro c h; cases h; simp
theorem WordShape.prefExt : ∀ x0 x1 x2, WordShape.Statement (.prefExt x0 x1 x2) := by
  intros; intro c h; cases h; simp
theorem WordShape.wback : ∀ x0 x1 x2, WordShape.Statement (.wback x0 x1 x2) := by
  intros; intro c h; cases h; simp
theorem WordShape.wbackExt : ∀ x0 x1 x2, WordShape.Statement (.wbackExt x0 x1 x2) := by
  intros; intro c h; cases h; simp
theorem WordShape.fence : ∀ x0 x1 x2, WordShape.Statement (.fence x0 x1 x2) := by
  intros; intro c h; cases h; simp
theorem WordShape.atom : ∀ x0 x1 x2 x3 x4, WordShape.Statement (.atom x0 x1 x2 x3 x4) := by
  intros; intro c h; cases h; simp
theorem WordShape.atomv : ∀ x0 x1 x2 x3 x4 x5, WordShape.Statement (.atomv x0 x1 x2 x3 x4 x5) := by
  intros; intro c h; cases h; simp
theorem WordShape.redm : ∀ x0 x1 x2 x3 x4, WordShape.Statement (.redm x0 x1 x2 x3 x4) := by
  intros; intro c h; cases h; simp
theorem WordShape.bar : ∀ x0 x1, WordShape.Statement (.bar x0 x1) := by
  intros; intro c h; cases h; simp
theorem WordShape.barArv : ∀ x0 x1, WordShape.Statement (.barArv x0 x1) := by
  intros; intro c h; cases h; simp
theorem WordShape.barExp : ∀ x0 x1 x2, WordShape.Statement (.barExp x0 x1 x2) := by
  intros; intro c h; cases h; simp
theorem WordShape.gbar : ∀ x0 x1, WordShape.Statement (.gbar x0 x1) := by
  intros; intro c h; cases h; simp
theorem WordShape.mma : ∀ x0 x1 x2 x3 x4 x5 x6 x7 x8, WordShape.Statement (.mma x0 x1 x2 x3 x4 x5 x6 x7 x8) := by
  intros; intro c h; cases h; simp
theorem WordShape.mmas : ∀ x0 x1 x2 x3 x4 x5 x6 x7 x8, WordShape.Statement (.mmas x0 x1 x2 x3 x4 x5 x6 x7 x8) := by
  intros; intro c h; cases h; simp
theorem WordShape.mzero : ∀ x0 x1 x2, WordShape.Statement (.mzero x0 x1 x2) := by
  intros; intro c h; cases h; simp
theorem WordShape.maccOut : ∀ x0 x1 x2 x3 x4 x5, WordShape.Statement (.maccOut x0 x1 x2 x3 x4 x5) := by
  intros; intro c h; cases h; simp
theorem WordShape.maccIn : ∀ x0 x1 x2 x3 x4 x5 x6, WordShape.Statement (.maccIn x0 x1 x2 x3 x4 x5 x6) := by
  intros; intro c h; cases h; simp
theorem WordShape.mloop : ∀ x0 x1 x2, WordShape.Statement (.mloop x0 x1 x2) := by
  intros; intro c h; cases h; simp
theorem WordShape.talloc : ∀ x0 x1 x2 x3, WordShape.Statement (.talloc x0 x1 x2 x3) := by
  intros; intro c h; cases h; simp
theorem WordShape.tfree : ∀ x0 x1, WordShape.Statement (.tfree x0 x1) := by
  intros; intro c h; cases h; simp
theorem WordShape.tcopy : ∀ x0 x1 x2 x3 x4 x5 x6 x7 x8 x9 x10, WordShape.Statement (.tcopy x0 x1 x2 x3 x4 x5 x6 x7 x8 x9 x10) := by
  intros; intro c h; cases h; simp
theorem WordShape.tchain : ∀ x0 x1 x2 x3 x4, WordShape.Statement (.tchain x0 x1 x2 x3 x4) := by
  intros; intro c h; cases h; simp
theorem WordShape.tstore : ∀ x0 x1 x2 x3 x4 x5 x6 x7 x8 x9 x10, WordShape.Statement (.tstore x0 x1 x2 x3 x4 x5 x6 x7 x8 x9 x10) := by
  intros; intro c h; cases h; simp
theorem WordShape.tstoreHz : ∀ x0 x1 x2 x3 x4 x5 x6 x7 x8 x9, WordShape.Statement (.tstoreHz x0 x1 x2 x3 x4 x5 x6 x7 x8 x9) := by
  intros; intro c h; cases h; simp
theorem WordShape.tfill : ∀ x0 x1 x2 x3, WordShape.Statement (.tfill x0 x1 x2 x3) := by
  intros; intro c h; cases h; simp
theorem WordShape.seqbar : ∀ x0, WordShape.Statement (.seqbar x0) := by
  intros; intro c h; cases h; simp
theorem WordShape.seqbarArv : ∀ x0, WordShape.Statement (.seqbarArv x0) := by
  intros; intro c h; cases h; simp
theorem WordShape.seqbarWait : ∀ x0, WordShape.Statement (.seqbarWait x0) := by
  intros; intro c h; cases h; simp
theorem WordShape.accrd : ∀ x0 x1 x2, WordShape.Statement (.accrd x0 x1 x2) := by
  intros; intro c h; cases h; simp
theorem WordShape.accwr : ∀ x0 x1 x2, WordShape.Statement (.accwr x0 x1 x2) := by
  intros; intro c h; cases h; simp
theorem WordShape.awset : ∀ x0 x1 x2 x3, WordShape.Statement (.awset x0 x1 x2 x3) := by
  intros; intro c h; cases h; simp
theorem WordShape.txinit : ∀ x0 x1 x2, WordShape.Statement (.txinit x0 x1 x2) := by
  intros; intro c h; cases h; simp
theorem WordShape.txexp : ∀ x0 x1 x2, WordShape.Statement (.txexp x0 x1 x2) := by
  intros; intro c h; cases h; simp
theorem WordShape.txarv : ∀ x0 x1 x2 x3 x4, WordShape.Statement (.txarv x0 x1 x2 x3 x4) := by
  intros; intro c h; cases h; simp
theorem WordShape.txwait : ∀ x0 x1, WordShape.Statement (.txwait x0 x1) := by
  intros; intro c h; cases h; simp
theorem WordShape.txtest : ∀ x0 x1 x2 x3, WordShape.Statement (.txtest x0 x1 x2 x3) := by
  intros; intro c h; cases h; simp
theorem WordShape.twait : ∀ x0 x1, WordShape.Statement (.twait x0 x1) := by
  intros; intro c h; cases h; simp
theorem WordShape.tstate : ∀ x0 x1 x2, WordShape.Statement (.tstate x0 x1 x2) := by
  intros; intro c h; cases h; simp
theorem WordShape.srdp : ∀ x0 x1, WordShape.Statement (.srdp x0 x1) := by
  intros; intro c h; cases h; simp
theorem WordShape.swrp : ∀ x0 x1, WordShape.Statement (.swrp x0 x1) := by
  intros; intro c h; cases h; simp
theorem WordShape.trapret : WordShape.Statement .trapret := by
  intro c h; cases h; decide
theorem WordShape.pdone : ∀ x0, WordShape.Statement (.pdone x0) := by
  intros; intro c h; cases h; simp
theorem WordShape.tlbinv : ∀ x0 x1, WordShape.Statement (.tlbinv x0 x1) := by
  intros; intro c h; cases h; simp
theorem WordShape.ctxwb : WordShape.Statement .ctxwb := by
  intro c h; cases h; decide
theorem WordShape.hzreclaim : WordShape.Statement .hzreclaim := by
  intro c h; cases h; decide
theorem WordShape.dbgrd : ∀ x0 x1 x2, WordShape.Statement (.dbgrd x0 x1 x2) := by
  intros; intro c h; cases h; simp
theorem WordShape.bypass : WordShape.Statement .bypass := by
  intro c h; cases h
theorem WordShape.idcode : WordShape.Statement .idcode := by
  intro c h; cases h
theorem WordShape.frzsel : WordShape.Statement .frzsel := by
  intro c h; cases h
theorem WordShape.frzread : WordShape.Statement .frzread := by
  intro c h; cases h
theorem WordShape.clauseSkip : ∀ x0 x1, WordShape.Statement (.clauseSkip x0 x1) := by
  intros; intro c h; cases h
theorem WordShape.memoryErrorTrap : ∀ x0 x1, WordShape.Statement (.memoryErrorTrap x0 x1) := by
  intros; intro c h; cases h
theorem WordShape.scoreboardDecrement : ∀ x0, WordShape.Statement (.scoreboardDecrement x0) := by
  intros; intro c h; cases h
theorem WordShape.groupRetire : ∀ x0, WordShape.Statement (.groupRetire x0) := by
  intros; intro c h; cases h
theorem WordShape.blockRetire : ∀ x0, WordShape.Statement (.blockRetire x0) := by
  intros; intro c h; cases h
theorem WordShape.gangRetire : ∀ x0, WordShape.Statement (.gangRetire x0) := by
  intros; intro c h; cases h
theorem WordShape.joinDecrement : ∀ x0, WordShape.Statement (.joinDecrement x0) := by
  intros; intro c h; cases h
theorem WordShape.queuePop : WordShape.Statement .queuePop := by
  intro c h; cases h
theorem WordShape.placementPass : WordShape.Statement .placementPass := by
  intro c h; cases h
theorem WordShape.pendingEntryBlocks : WordShape.Statement .pendingEntryBlocks := by
  intro c h; cases h
theorem WordShape.holdbackWindow : WordShape.Statement .holdbackWindow := by
  intro c h; cases h
theorem WordShape.trafficWindow : WordShape.Statement .trafficWindow := by
  intro c h; cases h
theorem WordShape.slewWindow : WordShape.Statement .slewWindow := by
  intro c h; cases h
theorem WordShape.matrixBurstStart : ∀ x0, WordShape.Statement (.matrixBurstStart x0) := by
  intros; intro c h; cases h
theorem WordShape.matrixBurstEnd : ∀ x0, WordShape.Statement (.matrixBurstEnd x0) := by
  intros; intro c h; cases h
theorem WordShape.tokenPass : ∀ x0, WordShape.Statement (.tokenPass x0) := by
  intros; intro c h; cases h
theorem WordShape.matrixWriteComplete : ∀ x0, WordShape.Statement (.matrixWriteComplete x0) := by
  intros; intro c h; cases h
theorem WordShape.mloopIteration : ∀ x0 x1, WordShape.Statement (.mloopIteration x0 x1) := by
  intros; intro c h; cases h
theorem WordShape.copyEngineTransfer : ∀ x0 x1, WordShape.Statement (.copyEngineTransfer x0 x1) := by
  intros; intro c h; cases h
theorem WordShape.copySectorArrival : ∀ x0 x1, WordShape.Statement (.copySectorArrival x0 x1) := by
  intros; intro c h; cases h
theorem WordShape.chainRecord : ∀ x0 x1, WordShape.Statement (.chainRecord x0 x1) := by
  intros; intro c h; cases h
theorem WordShape.commandResume : ∀ x0 x1, WordShape.Statement (.commandResume x0 x1) := by
  intros; intro c h; cases h
theorem WordShape.tileWaitTimeout : ∀ x0 x1, WordShape.Statement (.tileWaitTimeout x0 x1) := by
  intros; intro c h; cases h
theorem WordShape.seqTileWaitTimeout : ∀ x0, WordShape.Statement (.seqTileWaitTimeout x0) := by
  intros; intro c h; cases h
theorem WordShape.translationWalk : ∀ x0 x1 x2, WordShape.Statement (.translationWalk x0 x1 x2) := by
  intros; intro c h; cases h
theorem WordShape.arbitrationCycle : ∀ x0 x1, WordShape.Statement (.arbitrationCycle x0 x1) := by
  intros; intro c h; cases h
theorem WordShape.packetArrival : ∀ x0, WordShape.Statement (.packetArrival x0) := by
  intros; intro c h; cases h
theorem WordShape.stopSignal : ∀ x0 x1 x2, WordShape.Statement (.stopSignal x0 x1 x2) := by
  intros; intro c h; cases h
theorem WordShape.goSignal : ∀ x0 x1 x2, WordShape.Statement (.goSignal x0 x1 x2) := by
  intros; intro c h; cases h
theorem WordShape.rd : ∀ x0 x1, WordShape.Statement (.rd x0 x1) := by
  intros; intro c h; cases h
theorem WordShape.rdh : ∀ x0 x1, WordShape.Statement (.rdh x0 x1) := by
  intros; intro c h; cases h
theorem WordShape.wt : ∀ x0 x1, WordShape.Statement (.wt x0 x1) := by
  intros; intro c h; cases h
theorem WordShape.atomAtHome : ∀ x0 x1, WordShape.Statement (.atomAtHome x0 x1) := by
  intros; intro c h; cases h
theorem WordShape.hzq : ∀ x0 x1, WordShape.Statement (.hzq x0 x1) := by
  intros; intro c h; cases h
theorem WordShape.tolerantLoadRequest : ∀ x0 x1, WordShape.Statement (.tolerantLoadRequest x0 x1) := by
  intros; intro c h; cases h
theorem WordShape.drn : ∀ x0 x1, WordShape.Statement (.drn x0 x1) := by
  intros; intro c h; cases h
theorem WordShape.hzd : ∀ x0 x1, WordShape.Statement (.hzd x0 x1) := by
  intros; intro c h; cases h
theorem WordShape.cpr : ∀ x0 x1, WordShape.Statement (.cpr x0 x1) := by
  intros; intro c h; cases h
theorem WordShape.cpw : ∀ x0 x1, WordShape.Statement (.cpw x0 x1) := by
  intros; intro c h; cases h
theorem WordShape.dataArrive : ∀ x0 x1, WordShape.Statement (.dataArrive x0 x1) := by
  intros; intro c h; cases h
theorem WordShape.ackArrive : ∀ x0 x1, WordShape.Statement (.ackArrive x0 x1) := by
  intros; intro c h; cases h
theorem WordShape.atr : ∀ x0 x1, WordShape.Statement (.atr x0 x1) := by
  intros; intro c h; cases h
theorem WordShape.xgnt : ∀ x0 x1, WordShape.Statement (.xgnt x0 x1) := by
  intros; intro c h; cases h
theorem WordShape.xret : ∀ x0 x1, WordShape.Statement (.xret x0 x1) := by
  intros; intro c h; cases h
theorem WordShape.recall : ∀ x0 x1, WordShape.Statement (.recall x0 x1) := by
  intros; intro c h; cases h
theorem WordShape.exclusiveLeaseEnd : ∀ x0 x1, WordShape.Statement (.exclusiveLeaseEnd x0 x1) := by
  intros; intro c h; cases h
theorem WordShape.dreq : ∀ x0 x1, WordShape.Statement (.dreq x0 x1) := by
  intros; intro c h; cases h
theorem WordShape.ddone : ∀ x0 x1, WordShape.Statement (.ddone x0 x1) := by
  intros; intro c h; cases h
theorem WordShape.shreq : ∀ x0 x1, WordShape.Statement (.shreq x0 x1) := by
  intros; intro c h; cases h
theorem WordShape.shgnt : ∀ x0 x1, WordShape.Statement (.shgnt x0 x1) := by
  intros; intro c h; cases h
theorem WordShape.splitShare : ∀ x0 x1, WordShape.Statement (.splitShare x0 x1) := by
  intros; intro c h; cases h
theorem WordShape.spdone : ∀ x0 x1, WordShape.Statement (.spdone x0 x1) := by
  intros; intro c h; cases h
theorem WordShape.settle : ∀ x0 x1, WordShape.Statement (.settle x0 x1) := by
  intros; intro c h; cases h
theorem WordShape.surr : ∀ x0 x1, WordShape.Statement (.surr x0 x1) := by
  intros; intro c h; cases h
theorem WordShape.dopen : ∀ x0 x1, WordShape.Statement (.dopen x0 x1) := by
  intros; intro c h; cases h
theorem WordShape.dclose : ∀ x0 x1, WordShape.Statement (.dclose x0 x1) := by
  intros; intro c h; cases h
theorem WordShape.hazeIdleSurrender : ∀ x0 x1 x2, WordShape.Statement (.hazeIdleSurrender x0 x1 x2) := by
  intros; intro c h; cases h
theorem WordShape.barArrival : ∀ x0 x1, WordShape.Statement (.barArrival x0 x1) := by
  intros; intro c h; cases h
theorem WordShape.barRelease : ∀ x0 x1, WordShape.Statement (.barRelease x0 x1) := by
  intros; intro c h; cases h
theorem WordShape.vrelesFlit : ∀ x0 x1 x2 x3 x4, WordShape.Statement (.vrelesFlit x0 x1 x2 x3 x4) := by
  intros; intro c h; cases h
theorem WordShape.nak : ∀ x0 x1, WordShape.Statement (.nak x0 x1) := by
  intros; intro c h; cases h
theorem WordShape.portDown : ∀ x0, WordShape.Statement (.portDown x0) := by
  intros; intro c h; cases h
theorem WordShape.peerRequest : ∀ x0, WordShape.Statement (.peerRequest x0) := by
  intros; intro c h; cases h
theorem WordShape.hostMemoryRead : ∀ x0 x1, WordShape.Statement (.hostMemoryRead x0 x1) := by
  intros; intro c h; cases h
theorem WordShape.hostMemoryWrite : ∀ x0 x1, WordShape.Statement (.hostMemoryWrite x0 x1) := by
  intros; intro c h; cases h
theorem WordShape.registerWrite : ∀ x0 x1 x2, WordShape.Statement (.registerWrite x0 x1 x2) := by
  intros; intro c h; cases h
theorem WordShape.wake : ∀ x0 x1 x2 x3, WordShape.Statement (.wake x0 x1 x2 x3) := by
  intros; intro c h; cases h
theorem WordShape.mint : ∀ x0 x1 x2, WordShape.Statement (.mint x0 x1 x2) := by
  intros; intro c h; cases h
theorem WordShape.qctl : ∀ x0 x1 x2 x3, WordShape.Statement (.qctl x0 x1 x2 x3) := by
  intros; intro c h; cases h
theorem WordShape.regionTable : ∀ x0 x1 x2 x3, WordShape.Statement (.regionTable x0 x1 x2 x3) := by
  intros; intro c h; cases h
theorem WordShape.cgcfg : ∀ x0, WordShape.Statement (.cgcfg x0) := by
  intros; intro c h; cases h
theorem WordShape.pageans : WordShape.Statement .pageans := by
  intro c h; cases h
theorem WordShape.preempt : WordShape.Statement .preempt := by
  intro c h; cases h
theorem WordShape.preemptQuiesced : ∀ x0, WordShape.Statement (.preemptQuiesced x0) := by
  intros; intro c h; cases h
theorem WordShape.preemptDeadline : ∀ x0, WordShape.Statement (.preemptDeadline x0) := by
  intros; intro c h; cases h
theorem WordShape.dbgrun : WordShape.Statement .dbgrun := by
  intro c h; cases h
theorem WordShape.dbgstep : WordShape.Statement .dbgstep := by
  intro c h; cases h
theorem WordShape.dbghalt : WordShape.Statement .dbghalt := by
  intro c h; cases h
theorem WordShape.freezeCmd : WordShape.Statement .freezeCmd := by
  intro c h; cases h
theorem WordShape.unknownCommand : ∀ x0, WordShape.Statement (.unknownCommand x0) := by
  intros; intro c h; cases h
theorem WordShape.freezePin : WordShape.Statement .freezePin := by
  intro c h; cases h
theorem WordShape.packageReset : WordShape.Statement .packageReset := by
  intro c h; cases h
theorem WordShape.hotReset : WordShape.Statement .hotReset := by
  intro c h; cases h
theorem WordShape.powerOn : ∀ x0 x1 x2 x3 x4, WordShape.Statement (.powerOn x0 x1 x2 x3 x4) := by
  intros; intro c h; cases h
theorem WordShape.attestationRequest : ∀ x0 x1, WordShape.Statement (.attestationRequest x0 x1) := by
  intros; intro c h; cases h
theorem WordShape.storeChunk : WordShape.Statement .storeChunk := by
  intro c h; cases h
theorem WordShape.commitImage : ∀ x0 x1, WordShape.Statement (.commitImage x0 x1) := by
  intros; intro c h; cases h
theorem WordShape.restart : WordShape.Statement .restart := by
  intro c h; cases h
theorem WordShape.identify : WordShape.Statement .identify := by
  intro c h; cases h
theorem WordShape.mailboxUnknown : ∀ x0, WordShape.Statement (.mailboxUnknown x0) := by
  intros; intro c h; cases h
theorem WordShape.chipctlFence : ∀ x0, WordShape.Statement (.chipctlFence x0) := by
  intros; intro c h; cases h
theorem WordShape.rejoin : ∀ x0, WordShape.Statement (.rejoin x0) := by
  intros; intro c h; cases h
theorem WordShape.selfTestComplete : ∀ x0 x1, WordShape.Statement (.selfTestComplete x0 x1) := by
  intros; intro c h; cases h
theorem WordShape.livenessProbe : ∀ x0, WordShape.Statement (.livenessProbe x0) := by
  intros; intro c h; cases h
theorem WordShape.probeTimeout : ∀ x0, WordShape.Statement (.probeTimeout x0) := by
  intros; intro c h; cases h
theorem WordShape.backpressureTimeout : ∀ x0, WordShape.Statement (.backpressureTimeout x0) := by
  intros; intro c h; cases h
theorem WordShape.fstepEnd : ∀ x0, WordShape.Statement (.fstepEnd x0) := by
  intros; intro c h; cases h
theorem WordShape.rampEnd : ∀ x0, WordShape.Statement (.rampEnd x0) := by
  intros; intro c h; cases h
theorem WordShape.mheavySample : ∀ x0, WordShape.Statement (.mheavySample x0) := by
  intros; intro c h; cases h
theorem WordShape.budgetInterval : ∀ x0, WordShape.Statement (.budgetInterval x0) := by
  intros; intro c h; cases h
theorem WordShape.telemetrySample : ∀ x0 x1, WordShape.Statement (.telemetrySample x0 x1) := by
  intros; intro c h; cases h
theorem WordShape.earlyBite : ∀ x0, WordShape.Statement (.earlyBite x0) := by
  intros; intro c h; cases h
theorem WordShape.scrub : ∀ x0 x1, WordShape.Statement (.scrub x0 x1) := by
  intros; intro c h; cases h
theorem WordShape.linkCalibration : ∀ x0, WordShape.Statement (.linkCalibration x0) := by
  intros; intro c h; cases h
theorem WordShape.limit : ∀ x0, WordShape.Statement (.limit x0) := by
  intros; intro c h; cases h
theorem WordShape.heartbeat : ∀ x0, WordShape.Statement (.heartbeat x0) := by
  intros; intro c h; cases h
theorem WordShape.join : ∀ x0, WordShape.Statement (.join x0) := by
  intros; intro c h; cases h
theorem WordShape.leave : ∀ x0, WordShape.Statement (.leave x0) := by
  intros; intro c h; cases h
theorem WordShape.emergency : ∀ x0, WordShape.Statement (.emergency x0) := by
  intros; intro c h; cases h
theorem WordShape.heartbeatDue : WordShape.Statement .heartbeatDue := by
  intro c h; cases h
theorem WordShape.applyInstant : WordShape.Statement .applyInstant := by
  intro c h; cases h
theorem WordShape.suspectTimeout : WordShape.Statement .suspectTimeout := by
  intro c h; cases h
theorem WordShape.expelTimeout : WordShape.Statement .expelTimeout := by
  intro c h; cases h
theorem WordShape.expelled : WordShape.Statement .expelled := by
  intro c h; cases h
theorem WordShape.syncInterval : WordShape.Statement .syncInterval := by
  intro c h; cases h
theorem WordShape.sync : ∀ x0 x1 x2 x3, WordShape.Statement (.sync x0 x1 x2 x3) := by
  intros; intro c h; cases h
theorem WordShape.followUp : ∀ x0 x1 x2, WordShape.Statement (.followUp x0 x1 x2) := by
  intros; intro c h; cases h
theorem WordShape.delayReq : ∀ x0 x1 x2 x3, WordShape.Statement (.delayReq x0 x1 x2 x3) := by
  intros; intro c h; cases h
theorem WordShape.delayResp : ∀ x0 x1 x2 x3, WordShape.Statement (.delayResp x0 x1 x2 x3) := by
  intros; intro c h; cases h
theorem WordShape.lockLoss : WordShape.Statement .lockLoss := by
  intro c h; cases h
theorem WordShape.gwctPassed : ∀ x0, WordShape.Statement (.gwctPassed x0) := by
  intros; intro c h; cases h
theorem WordShape.pendingWriteLands : ∀ x0, WordShape.Statement (.pendingWriteLands x0) := by
  intros; intro c h; cases h
theorem WordShape.operandReadsComplete : ∀ x0, WordShape.Statement (.operandReadsComplete x0) := by
  intros; intro c h; cases h
theorem WordShape.probeAnswer : ∀ x0, WordShape.Statement (.probeAnswer x0) := by
  intros; intro c h; cases h
theorem WordShape.portTrainsAgain : ∀ x0, WordShape.Statement (.portTrainsAgain x0) := by
  intros; intro c h; cases h

end Sys2Proof.Laws
end

