-- ==== Sys2Proof/Safety.lean ====
section
/-!
DEFINITION. What counts as a safe run, and the terms in which statements speak of the machine.
-/
namespace Sys2Proof.Machine

/-- A state after which the machine goes on: its next step neither faults nor refuses. -/
def State.Goes (s : State) : Prop := ∃ t, step s = .next t

/-- Every one of `n` steps goes on. -/
def State.SafeFor (s : State) : Nat → Prop
  | 0 => True
  | n + 1 => ∃ t, step s = .next t ∧ State.SafeFor t n

/-! ## Who issues, and what it may name -/

/-- A group that exists, in a block that exists, issues the instruction (R27, R28). -/
abbrev State.groupIssues (s : State) : Prop :=
  s.cur.kind = .group ∧ s.cur.grp < s.groups.length ∧ (s.grp s.cur.grp).blk < s.blocks.length

/-- The tile sequencer of a block that exists issues the instruction (R295). -/
abbrev State.streamIssues (s : State) : Prop := s.cur.kind = .stream ∧ s.cur.blk < s.blocks.length

/-- Every register that the instruction names lies in each active lane's window (R62), and with the context's CHK bit
set none that it reads has a write on its way and none that it writes has one that would land later (R177). -/
abbrev State.regsFree (s : State) (rd wr : List Reg) (lat : Nat) : Prop :=
  s.shortStall s.cur.grp s.cur.lanes rd wr lat = false ∧
  ∀ r ∈ rd ++ wr, (s.grp s.cur.grp).inWindow s.cur.lanes r = true

/-- The same for a cross-lane instruction, which reads the registers `rd` in the lanes of `use` alone (R259). -/
abbrev State.crossFree (s : State) (lat : Nat) (use : W32) (rd own wr : List Reg) : Prop :=
  s.shortStall s.cur.grp use rd [] lat = false ∧ s.shortStall s.cur.grp s.cur.lanes own wr lat = false ∧
  ∀ r ∈ rd ++ own ++ wr, (s.grp s.cur.grp).inWindow s.cur.lanes r = true

/-- An engine instruction's registers, which a stream does not check (R295, R296). -/
abbrev State.engRegsFree (s : State) (rd wr : List Reg) : Prop :=
  s.cur.kind = .group → s.regsFree rd wr 4096

/-! ## What an instruction leaves -/

/-- The state after a fixed-latency instruction of the issuing group (R176, R193): in each active lane the writes that
`f` lists will land `lat` clocks after the issue, and the active lanes have moved past the instruction. -/
def State.afterWrites (s : State) (lat : Nat) (f : Nat → List (Reg × W32)) : State :=
  (s.queue lat ((lanesOf s.cur.lanes).flatMap fun i => (s.grp s.cur.grp).resolve i (f i))).finish

/-- The state after a scalar instruction (R214): the listed writes once for the set. -/
def State.afterScalar (s : State) (lat : Nat) (l : List (Reg × W32)) : State :=
  (s.queue lat ((s.grp s.cur.grp).resolve (firstLane s.cur.lanes) l)).finish

/-- The instruction writes, in each active lane, the registers that `f` lists, `lat` clocks after its issue, and does
nothing else but move on. -/
def LaneResult (i : Instr) (lat : Nat) (rd wr : List Reg) (f : State → Group → Nat → List (Reg × W32)) : Prop :=
  ∀ s : State, s.cur.kind = .group → s.regsFree rd wr lat →
    exec i s = .next (s.afterWrites lat (f s (s.grp s.cur.grp)))

/-- The instruction writes the listed scalar registers, `lat` clocks after its issue, and does nothing else but move
on. -/
def ScalarResult (i : Instr) (lat : Nat) (rd wr : List Reg) (f : State → Group → List (Reg × W32)) : Prop :=
  ∀ s : State, s.cur.kind = .group → s.regsFree rd wr lat →
    exec i s = .next (s.afterScalar lat (f s (s.grp s.cur.grp)))

/-- The cross-lane instruction writes, in each active lane, the registers that `f` lists from the lanes `use`. -/
def CrossResult (i : Instr) (lat : Nat) (use : State → W32) (rd own wr : List Reg)
    (f : State → Group → Nat → List (Reg × W32)) : Prop :=
  ∀ s : State, s.cur.kind = .group → s.crossFree lat (use s) rd own wr →
    exec i s = .next (s.afterWrites lat (f s (s.grp s.cur.grp)))

/-- The fibres of the issuing group go to addresses: lane `i` of the active lanes to the header at `f i` (R163). -/
abbrev State.lanesAt (s t : State) (f : Nat → W64) : Prop :=
  ∀ i, i < (s.grp s.cur.grp).ctl.fibs.length → s.cur.lanes.getLsbD i = true →
    ((t.grp s.cur.grp).fib i).pc = f i ∧ ((t.grp s.cur.grp).fib i).code = none

/-- The active lanes of the issuing group have moved past the instruction (R163): to the next word of the clause, or to
the header after it. -/
def State.movedOn (s t : State) : Prop :=
  ∀ i, i < (s.grp s.cur.grp).ctl.fibs.length → s.cur.lanes.getLsbD i = true →
    ((t.grp s.cur.grp).fib i).pc =
      if s.cur.idx + s.cur.len ≤ s.cur.nwords then s.cur.hdr + BitVec.ofNat 64 (4 * (s.cur.idx + s.cur.len))
      else s.cur.hdr + BitVec.ofNat 64 (4 * (s.cur.nwords + 1))

/-- The registers of a group, landed and on their way, are what they were (R61, R64, R176). -/
def Group.sameRegs (x y : Group) : Prop := y.regs = x.regs ∧ y.sregs = x.sregs ∧ y.pend = x.pend

/-- The trap registers and the masks of a group are what they were (R44, R343). -/
def Group.sameTrap (x y : Group) : Prop :=
  y.ctl.trapMode = x.ctl.trapMode ∧ y.ctl.tvec = x.ctl.tvec ∧ y.ctl.tcause = x.ctl.tcause ∧
  y.ctl.tlanes = x.ctl.tlanes ∧ y.ctl.tolanes = x.ctl.tolanes ∧ y.ctl.tpc = x.ctl.tpc ∧
  y.ctl.tidx = x.ctl.tidx ∧ y.ctl.taddr = x.ctl.taddr

/-- An operation has joined the memory pipeline of the issuing group (R67, R269): it stands behind all others, its
counter has gone up by one, the registers are what they were, and memory is untouched. -/
def State.joined (s t : State) (sb : Nat) (o : Op) : Prop :=
  (∃ id, t.ops = s.ops ++ [{ o with id := id }]) ∧
  (t.grp s.cur.grp).ctl.sb = ((s.grp s.cur.grp).incCounter sb).ctl.sb ∧
  (s.grp s.cur.grp).sameRegs (t.grp s.cur.grp) ∧ t.mem = s.mem

/-- The addresses that an instruction of the issuing group wants all translate, to `l` (R121, R266). -/
abbrev State.translates (s : State) (wants : List Want) (l : List (Want × Xl)) : Prop :=
  let g := s.cur.grp
  s.xlateAll g (some (s.grp g).core) (isleOf (s.grp g).core) (s.ctxOf g) wants = .all l

/-- The instruction has started an operation with property `P` on the translated addresses `l`: it stands last in the
pipeline with its counter raised, it is the issuing lanes' own, its parts are `l`, and the lanes have moved on. -/
def State.starts (s : State) (i : Instr) (sb : Nat) (l : List (Want × Xl)) (P : Op → Prop) : Prop :=
  ∃ t o, exec i s = .next t ∧ s.joined t sb o ∧ s.movedOn t ∧ o.grp = s.cur.grp ∧ o.lanes = s.cur.lanes ∧
    o.parts.map (fun p => (p.lane, p.va, p.pa)) = l.map (fun e => (e.1.lane, e.1.va, e.2.pa)) ∧ P o

/-- The issuer has moved past the instruction: a group's active lanes, or the sequencer (R163, R295). -/
def State.went (s t : State) : Prop :=
  (s.cur.kind = .group → s.movedOn t) ∧
  (s.cur.kind = .stream →
    (t.blk s.cur.blk).seq.off = (if s.cur.idx + s.cur.len ≤ s.cur.nwords then (s.blk s.cur.blk).seq.off
      else (s.blk s.cur.blk).seq.off + s.cur.nwords + 1) ∧
    (t.blk s.cur.blk).seq.next = (if s.cur.idx + s.cur.len ≤ s.cur.nwords then s.cur.idx + s.cur.len else 0))

/-- A group or a sequencer issues an engine instruction, in a block that exists (R294). -/
abbrev State.engineIssues (s : State) : Prop := s.groupIssues ∨ s.streamIssues

/-! ## Messages and events -/

/-- A unit takes a packet of a type now: none that it must take before it stands at the unit's input, and it may be served
(R389, R395, R492). -/
abbrev State.takesPacket (s : State) (isle unit typ : Nat) (p : Packet) : Prop := s.nextOf isle unit typ = some p

/-! ## Invariants -/

/-- No lane mask of a group has all its live lanes arrived and a fibre that still waits for it (R45). -/
def Group.masksSettled (g : Group) : Prop :=
  ∀ m, m < 12 → g.maskFull m = true → ∀ i, (g.fib i).wait ≠ .mask m

/-- Between steps nobody issues, and no full lane mask holds a waiting fibre (R45). -/
def State.Settled (s : State) : Prop :=
  s.cur = Issue.none ∧ ∀ g ∈ s.groups, g.masksSettled

end Sys2Proof.Machine
end

