-- ==== Sys2Proof/Certificates/Slice0/Obligations.lean ====
section
/-!
DEFINITION. The statements for the provers.
-/
open Sys2Proof Sys2Proof.Machine

/-- For iadd, isub, imul, and, or, xor, andn, orn, shl, shr, sar, rol, imulh, imin, imax and the unary iabs, ineg,
not, popc, clz, ctz and brev: where a group issues the instruction, its registers lie in the windows of its
active lanes and none is in the way of an earlier write, exec answers the state in which each active lane is to
receive, after the latency, the function of the rules in vD, and has moved past the instruction; nothing else is
different. (R198, R199, R200, R201) -/
def Obligations.IntegerResults : Prop :=
  ∀ (d a : Nat) (b : Src) (u sat : Bool),
    LaneResult (.iadd d a b) 4 (.v a :: b.uses) [.v d] (fun _ g i => [(.v d, g.v i a + g.src i b)]) ∧
    LaneResult (.isub d a b) 4 (.v a :: b.uses) [.v d] (fun _ g i => [(.v d, g.v i a - g.src i b)]) ∧
    LaneResult (.imul d a b) 6 (.v a :: b.uses) [.v d] (fun _ g i => [(.v d, g.v i a * g.src i b)]) ∧
    LaneResult (.and d a b) 4 (.v a :: b.uses) [.v d] (fun _ g i => [(.v d, g.v i a &&& g.src i b)]) ∧
    LaneResult (.or d a b) 4 (.v a :: b.uses) [.v d] (fun _ g i => [(.v d, g.v i a ||| g.src i b)]) ∧
    LaneResult (.xor d a b) 4 (.v a :: b.uses) [.v d] (fun _ g i => [(.v d, g.v i a ^^^ g.src i b)]) ∧
    LaneResult (.andn d a b) 4 (.v a :: b.uses) [.v d] (fun _ g i => [(.v d, g.v i a &&& ~~~(g.src i b))]) ∧
    LaneResult (.orn d a b) 4 (.v a :: b.uses) [.v d] (fun _ g i => [(.v d, g.v i a ||| ~~~(g.src i b))]) ∧
    LaneResult (.shl d a b) 4 (.v a :: b.uses) [.v d]
      (fun _ g i => [(.v d, BitVec.ofNat 32 ((g.v i a).toNat * 2 ^ (g.src i b).toNat))]) ∧
    LaneResult (.shr d a b) 4 (.v a :: b.uses) [.v d]
      (fun _ g i => [(.v d, BitVec.ofNat 32 ((g.v i a).toNat / 2 ^ (g.src i b).toNat))]) ∧
    LaneResult (.sar d a b) 4 (.v a :: b.uses) [.v d]
      (fun _ g i => [(.v d, BitVec.ofInt 32 ((g.v i a).toInt / 2 ^ (g.src i b).toNat))]) ∧
    LaneResult (.rol d a b) 4 (.v a :: b.uses) [.v d]
      (fun _ g i => [(.v d, (g.v i a).rotateLeft ((g.src i b).toNat % 32))]) ∧
    LaneResult (.imulh d a b u) 6 (.v a :: b.uses) [.v d]
      (fun _ g i => [(.v d, if u then BitVec.ofNat 32 ((g.v i a).toNat * (g.src i b).toNat / 2 ^ 32)
        else BitVec.ofInt 32 ((g.v i a).toInt * (g.src i b).toInt / 2 ^ 32))]) ∧
    LaneResult (.imin d a b u) 4 (.v a :: b.uses) [.v d]
      (fun _ g i => [(.v d, if u then (if (g.v i a).toNat < (g.src i b).toNat then g.v i a else g.src i b)
        else (if (g.v i a).toInt < (g.src i b).toInt then g.v i a else g.src i b))]) ∧
    LaneResult (.imax d a b u) 4 (.v a :: b.uses) [.v d]
      (fun _ g i => [(.v d, if u then (if (g.v i a).toNat < (g.src i b).toNat then g.src i b else g.v i a)
        else (if (g.v i a).toInt < (g.src i b).toInt then g.src i b else g.v i a))]) ∧
    LaneResult (.iabs d a sat) 4 [.v a] [.v d]
      (fun _ g i => [(.v d, if sat = true ∧ g.v i a = 0x80000000#32 then 0x7FFFFFFF#32
        else BitVec.ofInt 32 |(g.v i a).toInt|)]) ∧
    LaneResult (.ineg d a sat) 4 [.v a] [.v d]
      (fun _ g i => [(.v d, if sat = true ∧ g.v i a = 0x80000000#32 then 0x7FFFFFFF#32 else -(g.v i a))]) ∧
    LaneResult (.not d a) 4 [.v a] [.v d] (fun _ g i => [(.v d, ~~~(g.v i a))]) ∧
    LaneResult (.popc d a) 4 [.v a] [.v d]
      (fun _ g i => [(.v d, BitVec.ofNat 32 ((List.range 32).countP (g.v i a).getLsbD))]) ∧
    LaneResult (.clz d a) 4 [.v a] [.v d]
      (fun _ g i => [(.v d, BitVec.ofNat 32 (((List.range 32).find? fun k => (g.v i a).getLsbD (31 - k)).getD 32))]) ∧
    LaneResult (.ctz d a) 4 [.v a] [.v d]
      (fun _ g i => [(.v d, BitVec.ofNat 32 (((List.range 32).find? (g.v i a).getLsbD).getD 32))]) ∧
    LaneResult (.brev d a) 4 [.v a] [.v d] (fun _ g i => [(.v d, (g.v i a).reverse)])

/-- For iaddc, isubb, imad, idot4, iadd64, shl64 and lea: where a group issues the instruction, its registers lie in
the windows and none is in the way of an earlier write, exec answers the state in which each active lane is to
receive the sum modulo 2^32 and the carry or borrow, the multiply-add, the dot product added to the old vD, or
the 64-bit result in the pair, and nothing else is different. (R202, R203, R204, R205, R206) -/
def Obligations.CarryAndWideResults : Prop :=
  ∀ (d a c k : Nat) (b e : Src) (ua ub u : Bool) (vb : Nat),
    LaneResult (.iaddc d a c b) 4 (.v a :: .p c :: b.uses) [.v d, .p c] (fun _ g i =>
      let sum := (g.v i a).toNat + (g.src i b).toNat + (g.p i c).toNat
      [(.v d, BitVec.ofNat 32 sum), (.p c, boolWord (decide (2 ^ 32 ≤ sum)))]) ∧
    LaneResult (.isubb d a c b) 4 (.v a :: .p c :: b.uses) [.v d, .p c] (fun _ g i =>
      let diff : Int := (g.v i a).toNat - (g.src i b).toNat - (g.p i c).toNat
      [(.v d, BitVec.ofInt 32 diff), (.p c, boolWord (decide (diff < 0)))]) ∧
    LaneResult (.imad d a b e) 6 (.v a :: b.uses ++ e.uses) [.v d]
      (fun _ g i => [(.v d, g.v i a * g.src i b + g.src i e)]) ∧
    LaneResult (.idot4 d a vb ua ub) 6 [.v d, .v a, .v vb] [.v d] (fun _ g i =>
      let byte (un : Bool) (x : W32) (j : Nat) : Int :=
        if un then ((x.extractLsb' (8 * j) 8).toNat : Int) else (x.extractLsb' (8 * j) 8).toInt
      let term (j : Nat) : Int := byte ua (g.v i a) j * byte ub (g.v i vb) j
      [(.v d, BitVec.ofInt 32 ((g.v i d).toInt + term 0 + term 1 + term 2 + term 3))]) ∧
    LaneResult (.iadd64 d a b) 6 (vpair a ++ b.usesPair) (vpair d)
      (fun _ g i => putPair d (g.vp i a + g.srcp i b)) ∧
    LaneResult (.shl64 d a b) 6 (vpair a ++ b.uses) (vpair d)
      (fun _ g i => putPair d (BitVec.ofNat 64 ((g.vp i a).toNat * 2 ^ (g.src i b).toNat))) ∧
    LaneResult (.lea d a b k u) 4 (vpair a ++ b.uses) (vpair d) (fun _ g i =>
      let x : Int := if u then ((g.src i b).toNat : Int) else (g.src i b).toInt
      putPair d (BitVec.ofInt 64 ((g.vp i a).toNat + x * 2 ^ k)))

/-- For lop3, fshl, bfx, bfi, isetp, sel, mov, movi and movs, with every form of each: where a group issues the
instruction and its registers are free, exec answers the state in which each active lane is to receive the table
lookup of its bits, the funnel shift, the extracted or inserted field clipped at bit 31, the truth of the
relation, the selected operand or the copy, and nothing else is different. (R207, R208, R209, R210, R211, R212) -/
def Obligations.FieldAndMoveResults : Prop :=
  ∀ (d a vb vc t p code imm k pos len : Nat) (b : Src) (u sx w64 : Bool),
    LaneResult (.lop3 d a vb vc t) 4 [.v a, .v vb, .v vc] [.v d] (fun _ g i =>
      [(.v d, laneSet fun j => t.testBit (((g.v i a).getLsbD j).toNat + 2 * ((g.v i vb).getLsbD j).toNat +
            4 * ((g.v i vc).getLsbD j).toNat))]) ∧
    LaneResult (.fshl d a vb b) 4 ([.v a, .v vb] ++ b.uses) [.v d] (fun _ g i =>
      [(.v d, BitVec.ofNat 32 (((g.v i a).toNat * 2 ^ 32 + (g.v i vb).toNat) * 2 ^ ((g.src i b).toNat % 32) / 2 ^ 32))]) ∧
    (pos < 32 → 1 ≤ len → len ≤ 32 →
      LaneResult (.bfx d a pos len sx) 4 [.v a] [.v d] (fun _ g i =>
        let f := (g.v i a).extractLsb' pos (min len (32 - pos))
        [(.v d, if sx then f.signExtend 32 else f.setWidth 32)]) ∧
      LaneResult (.bfi d a vb pos len) 4 [.v a, .v vb] [.v d] (fun _ g i =>
        [(.v d, laneSet fun j => if pos ≤ j ∧ j < pos + len then (g.v i vb).getLsbD (j - pos) else (g.v i a).getLsbD j)])) ∧
    LaneResult (.isetp p a code u b) 4 (.v a :: b.uses) [.p p] (fun _ g i =>
      let less := if u then decide ((g.v i a).toNat < (g.src i b).toNat) else decide ((g.v i a).toInt < (g.src i b).toInt)
      let greater := if u then decide ((g.src i b).toNat < (g.v i a).toNat) else decide ((g.src i b).toInt < (g.v i a).toInt)
      [(.p p, boolWord ((less && code.testBit 2) || (greater && code.testBit 1) || (!less && !greater && !code.testBit 0)))]) ∧
    LaneResult (.sel d a p b) 4 (.v a :: .p p :: b.uses) [.v d]
      (fun _ g i => [(.v d, if g.p i p then g.v i a else g.src i b)]) ∧
    LaneResult (.mov d a w64) 4 (if w64 then vpair a else [.v a]) (if w64 then vpair d else [.v d])
      (fun _ g i => if w64 then putPair d (g.vp i a) else [(.v d, g.v i a)]) ∧
    LaneResult (.movi d imm) 4 [] [.v d] (fun _ _ _ => [(.v d, BitVec.ofNat 32 imm)]) ∧
    LaneResult (.movs d k w64) 4 (if w64 then spair k else [.s k]) (if w64 then vpair d else [.v d])
      (fun _ g _ => if w64 then putPair d (g.sp k) else [(.v d, g.s k)])

/-- sread with kind 0 or 2 writes in each active lane the low half or both halves of the special register of R76 as
it stands in the issue clock; with kind 1 or 3 it writes the scalars once, with the value of the lowest active
lane; the high half of a 32-bit selector is 0. Each selector of the table of R76 names the value that the table
gives it: lane, group, block and gang numbers, TASK, the place of the core, CTX, CLOCK, PTIME, SCHED, GSHAPE,
the format slots and words of the launch descriptor, and the accumulator and register windows. (R213, R76) -/
def Obligations.SpecialRegisterReads : Prop :=
  ∀ (d n : Nat),
    let half (x : W64) : W32 := if special64 n then hi32 x else 0
    LaneResult (.sread d 0 n) 6 [] [.v d] (fun s _ i => [(.v d, lo32 (s.special s.cur.grp i n))]) ∧
    LaneResult (.sread d 2 n) 6 [] (vpair d) (fun s _ i =>
      [(.v d, lo32 (s.special s.cur.grp i n)), (.v (d + 1), half (s.special s.cur.grp i n))]) ∧
    ScalarResult (.sread d 1 n) 6 [] [.s d] (fun s _ =>
      [(.s d, lo32 (s.special s.cur.grp (firstLane s.cur.lanes) n))]) ∧
    ScalarResult (.sread d 3 n) 6 [] (spair d) (fun s _ =>
      [(.s d, lo32 (s.special s.cur.grp (firstLane s.cur.lanes) n)),
       (.s (d + 1), half (s.special s.cur.grp (firstLane s.cur.lanes) n))]) ∧
    ∀ (s : State) (g i k : Nat),
      let x := s.grp g
      let b := s.blk x.blk
      let z := s.gang b.gang
      let is (sel v : Nat) : Prop := s.special g i sel = BitVec.ofNat 64 v
      is 0 i ∧ is 1 x.num ∧ is 2 b.num ∧ is 3 (z.gno % 2 ^ 32) ∧ s.special g i 4 = z.task ∧
      is 6 (x.core / 16) ∧ is 7 (x.core / 4) ∧ is 8 x.core ∧ is 9 z.ctx ∧ is 10 (s.clockOf g) ∧ is 12 s.ptime ∧
      is 14 x.sched ∧ is 15 (bits z.desc 521 5 + 1 + bits z.desc 512 8 * 2 ^ 8 + x.n * 2 ^ 16) ∧
      (k < 8 → is (16 + 2 * k) (bits z.desc (64 * k) 64)) ∧ (k < 32 → is (32 + k) (bits z.desc (32 * k) 32)) ∧
      is 64 x.ctl.awb ∧ is 65 x.ctl.awl ∧ is 66 (x.fib i).wb

/-- sadd, ssub, smul, sand, sor, sxor, sshl, sshr, smov, smovi, ssetp, plop and pmov: where a group issues the
instruction and its registers are free, exec answers the state in which the scalar, once for the set, or the
predicates or registers of each active lane, are to receive the function of the rule; nothing else is different.
(R214, R215, R216, R217, R219, R220) -/
def Obligations.ScalarResults : Prop :=
  ∀ (d a p pa pb pc t code imm : Nat) (b : Src) (u w64 ar : Bool),
    ScalarResult (.sadd d a b) 4 (.s a :: b.uses) [.s d] (fun _ g => [(.s d, g.s a + g.src 0 b)]) ∧
    ScalarResult (.ssub d a b) 4 (.s a :: b.uses) [.s d] (fun _ g => [(.s d, g.s a - g.src 0 b)]) ∧
    ScalarResult (.smul d a b) 6 (.s a :: b.uses) [.s d] (fun _ g => [(.s d, g.s a * g.src 0 b)]) ∧
    ScalarResult (.sand d a b) 4 (.s a :: b.uses) [.s d] (fun _ g => [(.s d, g.s a &&& g.src 0 b)]) ∧
    ScalarResult (.sor d a b) 4 (.s a :: b.uses) [.s d] (fun _ g => [(.s d, g.s a ||| g.src 0 b)]) ∧
    ScalarResult (.sxor d a b) 4 (.s a :: b.uses) [.s d] (fun _ g => [(.s d, g.s a ^^^ g.src 0 b)]) ∧
    ScalarResult (.sshl d a b) 4 (.s a :: b.uses) [.s d]
      (fun _ g => [(.s d, BitVec.ofNat 32 ((g.s a).toNat * 2 ^ (g.src 0 b).toNat))]) ∧
    ScalarResult (.sshr d a b ar) 4 (.s a :: b.uses) [.s d]
      (fun _ g => [(.s d, if ar then BitVec.ofInt 32 ((g.s a).toInt / 2 ^ (g.src 0 b).toNat)
        else BitVec.ofNat 32 ((g.s a).toNat / 2 ^ (g.src 0 b).toNat))]) ∧
    ScalarResult (.smov d a w64) 4 (if w64 then spair a else [.s a]) (if w64 then spair d else [.s d])
      (fun _ g => if w64 then [(.s d, g.s a), (.s (d + 1), g.s (a + 1))] else [(.s d, g.s a)]) ∧
    ScalarResult (.smovi d imm) 4 [] [.s d] (fun _ _ => [(.s d, BitVec.ofNat 32 imm)]) ∧
    LaneResult (.ssetp p a code u b) 4 (.s a :: b.uses) [.p p] (fun _ g i =>
      let less := if u then decide ((g.s a).toNat < (g.src i b).toNat) else decide ((g.s a).toInt < (g.src i b).toInt)
      let greater := if u then decide ((g.src i b).toNat < (g.s a).toNat) else decide ((g.src i b).toInt < (g.s a).toInt)
      [(.p p, boolWord ((less && code.testBit 2) || (greater && code.testBit 1) || (!less && !greater && !code.testBit 0)))]) ∧
    LaneResult (.plop p pa pb pc t) 2 [.p pa, .p pb, .p pc] [.p p] (fun _ g i =>
      [(.p p, boolWord (t.testBit ((g.p i pa).toNat + 2 * (g.p i pb).toNat + 4 * (g.p i pc).toNat)))]) ∧
    LaneResult (.pmov true a) 2 [.v a] ((List.range 15).map .p) (fun _ g i =>
      (List.range 15).map fun k => (.p k, boolWord ((g.v i a).getLsbD k))) ∧
    LaneResult (.pmov false d) 2 ((List.range 15).map .p) [.v d] (fun _ g i =>
      [(.v d, laneSet fun k => decide (k < 16) && g.p i k)])

/-- slane, for every lane operand: the lane is the operand modulo 32. Where a group issues the instruction, the
scalars it names are free, and the lane, if active, has its register in its window and free, exec answers the
state in which the scalar (or pair) is to receive the lane's register, or 0 where the lane is not active. (R218) -/
def Obligations.LaneToScalar : Prop :=
  ∀ (d a : Nat) (lane : Src) (w64 : Bool) (s : State),
    let g := s.grp s.cur.grp
    let l := (g.src 0 lane).toNat % 32
    let active := s.cur.lanes.getLsbD l
    let one : W32 := if active then laneBit l else 0
    s.cur.kind = .group →
    s.shortStall s.cur.grp s.cur.lanes lane.uses (if w64 then spair d else [.s d]) 6 = false →
    s.shortStall s.cur.grp one (if w64 then vpair a else [.v a]) [] 6 = false →
    (active = true → g.entry l (if w64 then a + 1 else a) < g.n) →
    exec (.slane d a lane w64) s = .next
      ((s.queue 6 ((Dst.s d, if active then g.v l a else 0) ::
        (if w64 then [(Dst.s (d + 1), if active then g.v l (a + 1) else 0)] else []))).finish)

/-- bra, bany, ball, bnone and bdiv, in the short and the long form: where a group issues the branch and its
predicate is not in the way of an earlier write, exec answers the state in which every active lane stands at the
target H + 4 x offset or at the next header: bra lane by lane, bany, ball and bnone by one decision over the
active lanes, bdiv by lane while an occupied lane held another PC; nothing but the lanes' fibres is different.
(R221, R222, R223) -/
def Obligations.BranchesGo : Prop :=
  ∀ (p : Nat) (off : Int) (s : State),
    let g := s.grp s.cur.grp
    let target := s.cur.hdr + BitVec.ofInt 64 (4 * off)
    let next := s.cur.hdr + BitVec.ofNat 64 (4 * (s.cur.nwords + 1))
    let go (taken : Nat → Bool) : State := s.updGrp s.cur.grp fun x => x.updFibs s.cur.lanes fun i f =>
      { f with pc := if taken i then target else next, code := none, next := 0, waited := false, bad := none }
    s.cur.kind = .group → s.regsFree [.p p] [] 1 →
      exec (.bra p off) s = .next (go fun i => g.p i p) ∧
      exec (.braLong p off) s = .next (go fun i => g.p i p) ∧
      exec (.bany p off) s = .next (go fun _ => (lanesOf s.cur.lanes).any fun j => g.p j p) ∧
      exec (.banyLong p off) s = .next (go fun _ => (lanesOf s.cur.lanes).any fun j => g.p j p) ∧
      exec (.ball p off) s = .next (go fun _ => (lanesOf s.cur.lanes).all fun j => g.p j p) ∧
      exec (.ballLong p off) s = .next (go fun _ => (lanesOf s.cur.lanes).all fun j => g.p j p) ∧
      exec (.bnone p off) s = .next (go fun _ => (lanesOf s.cur.lanes).all fun j => !g.p j p) ∧
      exec (.bnoneLong p off) s = .next (go fun _ => (lanesOf s.cur.lanes).all fun j => !g.p j p) ∧
      exec (.bdiv p off) s = .next (go fun i => s.cur.diverged && g.p i p) ∧
      exec (.bdivLong p off) s = .next (go fun i => s.cur.diverged && g.p i p)

/-- Where a group issues jmp, calli or ret, its registers are free, every active lane's target is a multiple of 4
and canonical, and the window base stays within 0 to 62, exec answers the state in which each active lane stands
at its target with its window base moved by 0, +F or -F; call, whose target is not held in a register, needs the
window alone. A target that is misaligned in the lowest such lane traps with cause 0x05, a window base that
leaves the range with cause 0x04, a target that is not canonical with the unrecoverable translation fault (INFO
3), and no lane moves; that the window is checked before the canonical form is the model's reading (log entry
71). (R224, R225, R226, R227, R228) -/
def Obligations.JumpsMoveWindow : Prop :=
  ∀ (f link : Nat) (off : Int) (tgt : Src) (s : State),
    let g := s.grp s.cur.grp
    let lanes := lanesOf s.cur.lanes
    let go (t : Nat → W64) (delta : Int) : State := s.updGrp s.cur.grp fun x => x.updFibs s.cur.lanes fun i y =>
      { y with pc := t i, code := none, next := 0, waited := false, bad := none, wb := ((y.wb : Int) + delta).toNat }
    let good (t : Nat → W64) : Prop := ∀ i ∈ lanes, (t i).toNat % 4 = 0 ∧ canonical (t i) = true
    let aligned (t : Nat → W64) : Prop := ∀ i ∈ lanes, (t i).toNat % 4 = 0
    let stays (delta : Int) : Prop := ∀ i ∈ lanes, 0 ≤ (g.fib i).wb + delta ∧ (g.fib i).wb + delta ≤ 62
    s.cur.kind = .group →
      (s.regsFree tgt.usesPair [] 1 → good (fun i => g.srcp i tgt) → stays 0 →
        exec (.jmp tgt) s = .next (go (fun i => g.srcp i tgt) 0)) ∧
      (stays f → exec (.call f off) s = .next (go (fun _ => s.cur.hdr + BitVec.ofInt 64 (4 * off)) f)) ∧
      (s.regsFree tgt.usesPair [] 1 → good (fun i => g.srcp i tgt) → stays f →
        exec (.calli f tgt) s = .next (go (fun i => g.srcp i tgt) f)) ∧
      (s.regsFree (vpair link) [] 1 → good (fun i => g.vp i link) → stays (-(f : Int)) →
        exec (.ret link f) s = .next (go (fun i => g.vp i link) (-(f : Int)))) ∧
      (¬ stays f → exec (.call f off) s = .next (s.fail Fail.window)) ∧
      (s.regsFree tgt.usesPair [] 1 → aligned (fun i => g.srcp i tgt) → ¬ stays f →
        exec (.calli f tgt) s = .next (s.fail Fail.window)) ∧
      (s.regsFree (vpair link) [] 1 → aligned (fun i => g.vp i link) → ¬ stays (-(f : Int)) →
        exec (.ret link f) s = .next (s.fail Fail.window)) ∧
      (∀ j, s.regsFree tgt.usesPair [] 1 → lanes.find? (fun i => (g.srcp i tgt).toNat % 4 != 0) = some j →
        exec (.jmp tgt) s = .next (s.fail (Fail.misaligned (g.srcp j tgt))) ∧
        exec (.calli f tgt) s = .next (s.fail (Fail.misaligned (g.srcp j tgt)))) ∧
      (∀ j, s.regsFree (vpair link) [] 1 → lanes.find? (fun i => (g.vp i link).toNat % 4 != 0) = some j →
        exec (.ret link f) s = .next (s.fail (Fail.misaligned (g.vp j link)))) ∧
      (∀ j, s.regsFree tgt.usesPair [] 1 → aligned (fun i => g.srcp i tgt) →
        lanes.find? (fun i => !canonical (g.srcp i tgt)) = some j →
        (stays 0 → exec (.jmp tgt) s = .next (s.fail (Fail.translation 3 (g.srcp j tgt)))) ∧
        (stays f → exec (.calli f tgt) s = .next (s.fail (Fail.translation 3 (g.srcp j tgt))))) ∧
      (∀ j, s.regsFree (vpair link) [] 1 → aligned (fun i => g.vp i link) →
        lanes.find? (fun i => !canonical (g.vp i link)) = some j → stays (-(f : Int)) →
        exec (.ret link f) s = .next (s.fail (Fail.translation 3 (g.vp j link))))

/-- Where a group issues yield, nop or bkpt, exec answers a state that differs in the issuing group's active lanes
alone: they have moved past the instruction, with yield they are marked as yielding, and with bkpt they hold the
code that takes effect at the end of the clause; that the later of two codes stands is the model's choice (log
entry 67). (R231, R232, R233) -/
def Obligations.HintsAndBreakpoints : Prop :=
  ∀ (code : Nat) (s : State), s.cur.kind = .group →
    exec .nop s = .next s.finish ∧
    exec .yield s = .next
      (s.updGrp s.cur.grp fun g => g.updFibs s.cur.lanes fun _ f => { f with yielding := true }).finish ∧
    exec (.bkpt code) s = .next
      (s.updGrp s.cur.grp fun g => g.updFibs s.cur.lanes fun _ f => { f with bkptCode := some code }).finish

/-- Where a group that exists issues utrap, is in no handler and not in trap mode, and TVEC is not 0 and a multiple
of 4, exec answers the state in which the group is in trap mode with cause 0x0B and the code, TLANES holds the
active lanes, TPC and TIDX name the next word of the clause, or word 0 of the next header after its last word,
and every active lane stands at TVEC. (R234) -/
def Obligations.UserTrapCompletes : Prop :=
  ∀ (code : Nat) (s : State), s.groupIssues →
    let g := s.grp s.cur.grp
    g.handler = .none → g.ctl.trapMode = false → g.ctl.tvec ≠ 0 → g.ctl.tvec.toNat % 4 = 0 →
    ∃ t, exec (.utrap code) s = .next t ∧
      let x := t.grp s.cur.grp
      x.ctl.trapMode = true ∧ x.ctl.tcause = BitVec.ofNat 32 (0x0B + s.cur.port * 2 ^ 8 + code * 2 ^ 16) ∧
      x.ctl.tlanes = s.cur.lanes ∧ x.ctl.tolanes = s.cur.other ∧
      x.ctl.tpc = (if s.cur.idx + 1 ≤ s.cur.nwords then s.cur.hdr
        else s.cur.hdr + BitVec.ofNat 64 (4 * (s.cur.nwords + 1))) ∧
      x.ctl.tidx = (if s.cur.idx + 1 ≤ s.cur.nwords then s.cur.idx + 1 else 0) ∧
      s.lanesAt t (fun _ => g.ctl.tvec) ∧ g.sameRegs x ∧ t.mem = s.mem

/-- Where a group that exists issues exit and its predicate is free, exec answers a state in which every active lane
whose predicate is true is a vacant slot, every other active lane stands at the next header, a lane that has
ended is in no lane mask and no arrival set of the group any more, a lane that is not active keeps its PC and
predicates, and memory and the group's registers are what they were; that the writes on their way of an ended
lane stay is the model's choice (log entry 53). (R229, R43) -/
def Obligations.ExitEndsLanes : Prop :=
  ∀ (p : Nat) (s : State), s.groupIssues → s.regsFree [.p p] [] 1 →
    ∃ t, exec (.exit p) s = .next t ∧ t.mem = s.mem ∧
      (s.grp s.cur.grp).sameRegs (t.grp s.cur.grp) ∧
      ∀ i, i < (s.grp s.cur.grp).ctl.fibs.length → i < 32 →
        let f := (s.grp s.cur.grp).fib i
        let f' := (t.grp s.cur.grp).fib i
        (s.cur.lanes.getLsbD i = true → (s.grp s.cur.grp).p i p = true → f'.occ = false ∧
          ∀ m, ((t.grp s.cur.grp).mask m).getLsbD i = false ∧ ((t.grp s.cur.grp).marr m).getLsbD i = false) ∧
        (s.cur.lanes.getLsbD i = true → (s.grp s.cur.grp).p i p = false →
          f'.pc = s.cur.hdr + BitVec.ofNat 64 (4 * (s.cur.nwords + 1)) ∧ f'.occ = f.occ) ∧
        (s.cur.lanes.getLsbD i = false → f'.pc = f.pc ∧ f'.pred = f.pred ∧ f'.occ = f.occ)

/-- Where a group that exists issues fspawn with 32 lane slots and its registers free, exec answers a state in which
the n-th active lane has started, in the n-th vacant slot if there is one, a fibre at H + 4 x offset with its
own predicate word, window base W, age 0 and its bit clear in every mask; its vD is to receive the slot and its
predicate true, and where no slot is left the predicate false; that writes still on their way to the slot stay
is the model's choice (log entry 53). (R230, R41, R42) -/
def Obligations.SpawnFillsVacantSlots : Prop :=
  ∀ (d p w : Nat) (off : Int) (s : State), s.groupIssues → s.regsFree ((List.range 15).map .p) [.v d, .p p] 6 →
    (s.grp s.cur.grp).ctl.fibs.length = 32 →
    let g := s.grp s.cur.grp
    let lanes := lanesOf s.cur.lanes
    let slots := (List.range 32).filter fun i => !(g.fib i).occ && !s.cur.occ.getLsbD i
    ∃ t, exec (.fspawn d p w off) s = .next t ∧ t.mem = s.mem ∧
      (t.grp s.cur.grp).pend = g.pend ++ ((lanes.mapIdx fun n i => (i, slots[n]?)).flatMap fun e =>
        match e.2 with
        | some slot => g.resolve e.1 [(.v d, BitVec.ofNat 32 slot), (.p p, 1)]
        | none => g.resolve e.1 [(.p p, 0)]).map (fun x => ⟨s.clockOf s.cur.grp + 6, s.cur.port, x.1, x.2, false⟩) ∧
      ∀ (n i slot : Nat), lanes[n]? = some i → slots[n]? = some slot → s.cur.lanes.getLsbD slot = false →
        let f := (t.grp s.cur.grp).fib slot
        f.occ = true ∧ f.pc = s.cur.hdr + BitVec.ofInt 64 (4 * off) ∧ f.pred = (g.fib i).pred ∧ f.wb = w ∧ f.age = 0 ∧
        ∀ m, ((t.grp s.cur.grp).mask m).getLsbD slot = false

/-- Where a group that exists issues mjoin, mleave, mset, mwait or mget and its registers are free, exec answers a
state in which mask k is ORed with the active lanes, cleared of them or written from the scalar; with mwait the
active lanes in the mask have arrived and wait for it and the others do not wait; every other mask, the
registers and memory are what they were. mget is to write the mask, the arrivals, the active lanes or the lanes
occupied when the slot began to the scalar. (R44, R45, R235, R236, R237) -/
def Obligations.LaneMasks : Prop :=
  ∀ (m k d : Nat) (s : State), s.groupIssues →
    let g := s.grp s.cur.grp
    let wrote (i : Instr) (v : W32) : Prop := ∃ t, exec i s = .next t ∧ (t.grp s.cur.grp).mask m = v ∧
      (∀ j, j ≠ m → (t.grp s.cur.grp).mask j = g.mask j) ∧ (∀ j, (t.grp s.cur.grp).marr j = g.marr j) ∧
      g.sameRegs (t.grp s.cur.grp) ∧ s.movedOn t ∧ t.mem = s.mem
    wrote (.mjoin m) (g.mask m ||| s.cur.lanes) ∧ wrote (.mleave m) (g.mask m &&& ~~~s.cur.lanes) ∧
    (s.regsFree [.s k] [] 1 → wrote (.mset m k 0) (g.s k) ∧ wrote (.mset m k 1) (g.mask m ||| g.s k) ∧
      wrote (.mset m k 2) (g.mask m &&& ~~~(g.s k))) ∧
    (∃ t, exec (.mwait m) s = .next t ∧ (t.grp s.cur.grp).marr m = g.marr m ||| (s.cur.lanes &&& g.mask m) ∧
      (∀ j, (t.grp s.cur.grp).mask j = g.mask j) ∧ g.sameRegs (t.grp s.cur.grp) ∧ s.movedOn t ∧ t.mem = s.mem ∧
      ∀ i, i < g.ctl.fibs.length → ((t.grp s.cur.grp).fib i).wait =
        if (s.cur.lanes &&& g.mask m).getLsbD i then .mask m else (g.fib i).wait) ∧
    ScalarResult (.mget d m 0) 6 [] [.s d] (fun _ g => [(.s d, g.mask m)]) ∧
    ScalarResult (.mget d m 1) 6 [] [.s d] (fun _ g => [(.s d, g.marr m)]) ∧
    ScalarResult (.mget d m 2) 6 [] [.s d] (fun s _ => [(.s d, s.cur.lanes)]) ∧
    ScalarResult (.mget d m 3) 6 [] [.s d] (fun s _ => [(.s d, s.cur.occ)])

/-- vote in its mask, count and quorum forms and match in both widths: where a group issues the instruction and its
registers are free, exec answers the state in which every active lane is to receive the mask of contributing
lanes whose predicate is true, their count with the count of contributors, the quorum, or the mask of
contributing lanes that hold the same bits (0 in a lane that does not contribute); nothing else is different.
(R238, R239) -/
def Obligations.VotesAndMatches : Prop :=
  ∀ (d a m q : Nat) (w64 : Bool),
    let c (s : State) : W32 := s.cur.lanes &&& (s.grp s.cur.grp).mask m
    let yes (s : State) (g : Group) : Nat := (List.range 32).countP fun j => (c s).getLsbD j && g.p j a
    let all (s : State) : Nat := (List.range 32).countP (c s).getLsbD
    CrossResult (.vote d a m q 0) 6 c [.p a] [] [.v d]
      (fun s g _ => [(.v d, laneSet fun j => (c s).getLsbD j && g.p j a)]) ∧
    CrossResult (.vote d a m q 1) 6 c [.p a] [] [.v d]
      (fun s g _ => [(.v d, BitVec.ofNat 32 (yes s g + all s * 256))]) ∧
    CrossResult (.vote d a m 0 2) 6 c [.p a] [] [.p d] (fun s g _ => [(.p d, boolWord (decide (1 ≤ yes s g)))]) ∧
    CrossResult (.vote d a m 1 2) 6 c [.p a] [] [.p d] (fun s g _ => [(.p d, boolWord (decide (all s < 2 * yes s g)))]) ∧
    CrossResult (.vote d a m 2 2) 6 c [.p a] [] [.p d] (fun s g _ => [(.p d, boolWord (yes s g == all s))]) ∧
    CrossResult (.vote d a m 3 2) 6 c [.p a] [] [.p d]
      (fun s g _ => [(.p d, boolWord (yes s g == 0 || yes s g == all s))]) ∧
    CrossResult (.matchl d a m w64) 6 c (if w64 then vpair a else [.v a]) [] [.v d] (fun s g i =>
      let same (j : Nat) : Bool := if w64 then g.vp i a == g.vp j a else g.v i a == g.v j a
      [(.v d, if (c s).getLsbD i then laneSet fun j => (c s).getLsbD j && same j else 0)])

/-- redmin and redmax give the extreme of the contributing lanes' values under the type, or the identity, and with
.idx the lowest lane that holds it; redadd the sum modulo 2^32 or 2^64 or clamped; redlog the bitwise
combination; fredadd the fixed tree with -0.0 for lanes that do not contribute; scan the prefix of each lane.
Every active lane is to receive its result, and nothing else is different. (R261, R262, R263, R264, R102) -/
def Obligations.ReductionResults : Prop :=
  ∀ (d a m op ty : Nat) (idx w64 excl : Bool),
    let c (s : State) : W32 := s.cur.lanes &&& (s.grp s.cur.grp).mask m
    let vals (s : State) (g : Group) : List (Nat × W32) := (lanesOf (c s)).map fun j => (j, g.v j a)
    let ext (mx : Bool) (s : State) (g : Group) : List (Reg × W32) :=
      let r := extreme mx ty (vals s g)
      if idx then [(.v d, r.1), (.v (d + 1), r.2)] else [(.v d, r.1)]
    CrossResult (.redmin d a m idx ty) 10 c [.v a] [] (if idx then vpair d else [.v d]) (fun s g _ => ext false s g) ∧
    CrossResult (.redmax d a m idx ty) 10 c [.v a] [] (if idx then vpair d else [.v d]) (fun s g _ => ext true s g) ∧
    CrossResult (.redadd d a m 0) 10 c [.v a] [] [.v d] (fun s g _ =>
      [(.v d, BitVec.ofNat 32 (((lanesOf (c s)).map fun j => (g.v j a).toNat).sum))]) ∧
    CrossResult (.redadd d a m 1) 10 c (vpair a) [] (vpair d) (fun s g _ =>
      putPair d (BitVec.ofNat 64 (((lanesOf (c s)).map fun j => (g.vp j a).toNat).sum))) ∧
    CrossResult (.redadd d a m 2) 10 c [.v a] [] [.v d] (fun s g _ =>
      [(.v d, BitVec.ofInt 32 (max (-(2 ^ 31)) (min (2 ^ 31 - 1) (((lanesOf (c s)).map fun j => (g.v j a).toInt).sum))))]) ∧
    CrossResult (.redlog d a m op) 10 c [.v a] [] [.v d] (fun s g _ =>
      [(.v d, if op = 0 then laneSet fun k => (lanesOf (c s)).all fun j => (g.v j a).getLsbD k
        else if op = 1 then laneSet fun k => (lanesOf (c s)).any fun j => (g.v j a).getLsbD k
        else laneSet fun k => (lanesOf (c s)).countP (fun j => (g.v j a).getLsbD k) % 2 == 1)]) ∧
    CrossResult (.fredadd d a m w64) 14 c (if w64 then vpair a else [.v a]) [] (if w64 then vpair d else [.v d])
      (fun s g _ => if w64 then
          putPair d (BitVec.ofNat 64 (treeSum fp64 ((List.range 32).map fun j =>
            if (c s).getLsbD j then (g.vp j a).toNat else 0x8000000000000000)))
        else [(.v d, BitVec.ofNat 32 (treeSum fp32 ((List.range 32).map fun j =>
            if (c s).getLsbD j then (g.v j a).toNat else 0x80000000)))]) ∧
    CrossResult (.scan d a m excl op) 14 c [.v a] [] [.v d] (fun s g i => [(.v d, scanPrefix op excl (vals s g) i)])

/-- shfl in every mode, segment width and size: where a group issues it and its registers are free in the lanes it
reads, exec answers the state in which each active lane is to receive vA (or the pair) of its source lane if
that contributes, 0 if it does not, and out of range its own value, or 0 with .z; nothing else is different.
(R259, R260) -/
def Obligations.ShuffleResults : Prop :=
  ∀ (d a mlo mhi m seg : Nat) (b : Src) (w64 z : Bool) (s : State),
    let g := s.grp s.cur.grp
    let c : W32 := s.cur.lanes &&& g.mask m
    let src (i : Nat) : Option Nat := shuffleSource (mlo + 4 * mhi) (segWidth seg) i (g.src i b).toNat
    let use : W32 := laneSet fun j => (lanesOf s.cur.lanes).any fun i =>
      match src i with
      | some k => k == j && c.getLsbD k
      | none => i == j && !z
    let val (i k : Nat) : W32 := match src i with
      | none => if z then 0 else g.v i k
      | some j => if c.getLsbD j then g.v j k else 0
    s.cur.kind = .group →
    s.crossFree 6 use (if w64 then vpair a else [.v a]) b.uses (if w64 then vpair d else [.v d]) →
    exec (.shfl d a mlo mhi b w64 m seg z) s = .next (s.afterWrites 6 fun i =>
      if w64 then [(.v d, val i a), (.v (d + 1), val i (a + 1))] else [(.v d, val i a)])

/-- fadd, fsub, fmul, ffma, fmin, fmax, fsetp and fclass: where a group issues the instruction and its registers are
free, exec answers the state in which each active lane is to receive the exact result of the FP32 operands
rounded once in the mode of the instruction, the smaller or larger operand, the truth of the condition or the
class word, and nothing else is different. (R245, R246, R247, R248, R84) -/
def Obligations.Fp32Results : Prop :=
  ∀ (d a p rnd cond : Nat) (b e : Src) (nan w64 np : Bool),
    LaneResult (.fadd d a rnd b) 5 (.v a :: b.uses) [.v d]
      (fun _ g i => [(.v d, round32 (Machine.Num.add rnd (num32 (g.v i a)) (num32 (g.src i b))) rnd)]) ∧
    LaneResult (.fsub d a rnd b) 5 (.v a :: b.uses) [.v d]
      (fun _ g i => [(.v d, round32 (Machine.Num.add rnd (num32 (g.v i a)) (num32 (g.src i b)).neg) rnd)]) ∧
    LaneResult (.fmul d a rnd b) 5 (.v a :: b.uses) [.v d]
      (fun _ g i => [(.v d, round32 ((num32 (g.v i a)).mul (num32 (g.src i b))) rnd)]) ∧
    LaneResult (.ffma d a b e rnd np) 5 (.v a :: b.uses ++ e.uses) [.v d] (fun _ g i =>
      let ab := (num32 (g.v i a)).mul (num32 (g.src i b))
      [(.v d, round32 (Machine.Num.add rnd (if np then ab.neg else ab) (num32 (g.src i e))) rnd)]) ∧
    LaneResult (.fmin d a b nan) 4 (.v a :: b.uses) [.v d]
      (fun _ g i => [(.v d, BitVec.ofNat 32 (minMax fp32 false nan (g.v i a).toNat (g.src i b).toNat))]) ∧
    LaneResult (.fmax d a b nan) 4 (.v a :: b.uses) [.v d]
      (fun _ g i => [(.v d, BitVec.ofNat 32 (minMax fp32 true nan (g.v i a).toNat (g.src i b).toNat))]) ∧
    LaneResult (.fsetp p a cond b) 4 (.v a :: b.uses) [.p p]
      (fun _ g i => [(.p p, boolWord (fcond cond ((num32 (g.v i a)).compare (num32 (g.src i b)))))]) ∧
    LaneResult (.fclass d a w64) 4 (if w64 then vpair a else [.v a]) [.v d] (fun _ g i =>
      [(.v d, BitVec.ofNat 32 (if w64 then classWord fp64 (g.vp i a).toNat else classWord fp32 (g.v i a).toNat))])

/-- frcp, frsq, fsqrt, fexp2, flog2, fsinpi, fcospi (16 clocks), fdiv (24) and ddiv (48): where a group issues the
instruction and its registers are free, exec answers the state in which each active lane is to receive the
function of its operand and nothing else is different. That 512-bit fixed point decides every rounding of the
transcendental ones is the model's reading (log entry 13). (R249, R103, R179) -/
def Obligations.SpecialFunctionResults : Prop :=
  ∀ (d a : Nat) (b : Src),
    let one (i : Instr) (f : Machine.Num → Nat) : Prop :=
      LaneResult i 16 [.v a] [.v d] (fun _ g k => [(.v d, BitVec.ofNat 32 (f (num32 (g.v k a))))])
    one (.frcp d a) (divNum fp32 (numOfInt 1)) ∧ one (.frsq d a) rsqrtNum ∧ one (.fsqrt d a) sqrtNum ∧
    one (.fexp2 d a) exp2Num ∧ one (.flog2 d a) log2Num ∧ one (.fsinpi d a) sinpiNum ∧ one (.fcospi d a) cospiNum ∧
    LaneResult (.fdiv d a b) 24 (.v a :: b.uses) [.v d]
      (fun _ g k => [(.v d, BitVec.ofNat 32 (divNum fp32 (num32 (g.v k a)) (num32 (g.src k b))))]) ∧
    LaneResult (.ddiv d a b) 48 (vpair a ++ b.usesPair) (vpair d)
      (fun _ g k => putPair d (BitVec.ofNat 64 (divNum fp64 (num64 (g.vp k a)) (num64 (g.srcp k b)))))

/-- dadd, dmul, dfma, dmin, dmax, dsetp on pairs, hadd2, hmul2, hfma2 on the two halves of a register, and cmul and
cfma on complex pairs: where a group issues the instruction and its registers are free, exec answers the state
in which each active lane is to receive each exact component rounded once, and nothing else is different. (R250,
R251, R252, R246, R247) -/
def Obligations.WideAndPackedResults : Prop :=
  ∀ (d a p vb vc rnd cond : Nat) (b e : Src) (nan np bf cj : Bool),
    LaneResult (.dadd d a b rnd) 8 (vpair a ++ b.usesPair) (vpair d)
      (fun _ g i => putPair d (round64 (Machine.Num.add rnd (num64 (g.vp i a)) (num64 (g.srcp i b))) rnd)) ∧
    LaneResult (.dmul d a b rnd) 8 (vpair a ++ b.usesPair) (vpair d)
      (fun _ g i => putPair d (round64 ((num64 (g.vp i a)).mul (num64 (g.srcp i b))) rnd)) ∧
    LaneResult (.dfma d a b e rnd np) 8 (vpair a ++ b.usesPair ++ e.usesPair) (vpair d) (fun _ g i =>
      let ab := (num64 (g.vp i a)).mul (num64 (g.srcp i b))
      putPair d (round64 (Machine.Num.add rnd (if np then ab.neg else ab) (num64 (g.srcp i e))) rnd)) ∧
    LaneResult (.dmin d a b nan) 5 (vpair a ++ b.usesPair) (vpair d)
      (fun _ g i => putPair d (BitVec.ofNat 64 (minMax fp64 false nan (g.vp i a).toNat (g.srcp i b).toNat))) ∧
    LaneResult (.dmax d a b nan) 5 (vpair a ++ b.usesPair) (vpair d)
      (fun _ g i => putPair d (BitVec.ofNat 64 (minMax fp64 true nan (g.vp i a).toNat (g.srcp i b).toNat))) ∧
    LaneResult (.dsetp p a cond b) 5 (vpair a ++ b.usesPair) [.p p]
      (fun _ g i => [(.p p, boolWord (fcond cond ((num64 (g.vp i a)).compare (g.srcDouble i b))))]) ∧
    (let fm : Fmt := if bf then bf16 else fp16
     let half (x : W32) (h : Nat) : Machine.Num := fm.decode (x.toNat / 2 ^ (16 * h) % 2 ^ 16)
     let both (x : Nat → Machine.Num) : W32 := BitVec.ofNat 32 (roundF (x 0) fm rnd false + roundF (x 1) fm rnd false * 2 ^ 16)
     LaneResult (.hadd2 d a b rnd bf) 5 (.v a :: b.uses) [.v d]
       (fun _ g i => [(.v d, both fun h => Machine.Num.add rnd (half (g.v i a) h) (half (g.src i b) h))]) ∧
     LaneResult (.hmul2 d a b rnd bf) 5 (.v a :: b.uses) [.v d]
       (fun _ g i => [(.v d, both fun h => (half (g.v i a) h).mul (half (g.src i b) h))]) ∧
     LaneResult (.hfma2 d a b e rnd bf) 5 (.v a :: b.uses ++ e.uses) [.v d]
       (fun _ g i => [(.v d, both fun h =>
         Machine.Num.add rnd ((half (g.v i a) h).mul (half (g.src i b) h)) (half (g.src i e) h))])) ∧
    (let re (g : Group) (i k : Nat) : Machine.Num := num32 (g.v i k)
     let bi (g : Group) (i : Nat) : Machine.Num := if cj then (re g i (vb + 1)).neg else re g i (vb + 1)
     LaneResult (.cmul d a vb rnd cj) 7 (vpair a ++ vpair vb) (vpair d) (fun _ g i =>
       [(.v d, round32 (sumNums rnd [(re g i a).mul (re g i vb), ((re g i (a + 1)).mul (bi g i)).neg]) rnd),
        (.v (d + 1), round32 (sumNums rnd [(re g i a).mul (bi g i), (re g i (a + 1)).mul (re g i vb)]) rnd)]) ∧
     LaneResult (.cfma d a vb vc rnd cj) 7 (vpair a ++ vpair vb ++ vpair vc) (vpair d) (fun _ g i =>
       [(.v d, round32 (sumNums rnd [(re g i a).mul (re g i vb), ((re g i (a + 1)).mul (bi g i)).neg, re g i vc]) rnd),
        (.v (d + 1), round32 (sumNums rnd [(re g i a).mul (bi g i), (re g i (a + 1)).mul (re g i vb), re g i (vc + 1)])
          rnd)]))

/-- cvtff, cvtfi, cvtif, cvtw, cvtpk and cvtunpk: where a group issues the instruction and its registers are free,
exec answers the state in which each active lane is to receive the conversion; a narrow destination keeps its
other bits. cvtpk and cvtunpk do so where the gang's format slot is one they take, and otherwise raise the
illegal-instruction trap of class 3. (R253, R254, R255, R256, R257, R258) -/
def Obligations.ConversionResults : Prop :=
  ∀ (d a vb rnd df sf dp sp dt ty w k slot m : Nat) (sat : Bool),
    LaneResult (.cvtff d a rnd sat df sf dp sp) 6 (fmtRegs sf a ++ narrowReads df d) (fmtRegs df d) (fun _ g i =>
      g.putPart i df d dp (roundF ((fmtOf sf).decode (g.partOf i sf a sp)) (fmtOf df) rnd sat)) ∧
    LaneResult (.cvtfi d a rnd sf sp dt) 6 (fmtRegs sf a) (intRegs dt d) (fun _ g i =>
      let lo : Int := if dt = 0 then -(2 ^ 31) else if dt = 2 then -(2 ^ 63) else 0
      let hi : Int := if dt = 0 then 2 ^ 31 - 1 else if dt = 1 then 2 ^ 32 - 1 else if dt = 2 then 2 ^ 63 - 1 else 2 ^ 64 - 1
      let n := roundInt ((fmtOf sf).decode (g.partOf i sf a sp)) rnd lo hi
      if dt < 2 then [(.v d, BitVec.ofInt 32 n)] else putPair d (BitVec.ofInt 64 n)) ∧
    LaneResult (.cvtif d a rnd sat df ty dp) 6 (intRegs ty a ++ narrowReads df d) (fmtRegs df d) (fun _ g i =>
      g.putPart i df d dp (roundF (numOfInt (g.intOf i ty a)) (fmtOf df) rnd sat)) ∧
    LaneResult (.cvtw d a true w) 6 [.v a] (vregs d 4) (fun _ g i =>
      let r := quantise96 (g.v i a) (signedOf 8 w)
      putQuad d r.1 r.2) ∧
    LaneResult (.cvtw d a false w) 6 (vregs a 4) [.v d] (fun _ g i =>
      [(.v d, readW96 (g.quadX i a) ((g.v i (a + 3)).toNat % 256) (signedOf 8 w))]) ∧
    ∀ s : State, s.cur.kind = .group →
      let f := s.slot slot
      let c : W32 := s.cur.lanes &&& (s.grp s.cur.grp).mask m
      let n := slotBlock f
      (packSlotOk f ty = true → s.crossFree 6 c [.v a] [] [.v d] →
        exec (.cvtpk d a rnd ty slot m) s = .next (s.afterWrites 6 fun i =>
          let g := s.grp s.cur.grp
          let vals := (List.range n).map fun j =>
            if c.getLsbD (i / n * n + j) then some (num32 (g.v (i / n * n + j) a)) else none
          [(.v d, packWord (slotForm f) ty rnd n vals (i - i / n * n))])) ∧
      (unpackSlotOk f k = true → s.regsFree [.v a, .v vb] [.v d] 6 →
        exec (.cvtunpk d a vb k slot) s = .next (s.afterWrites 6 fun i =>
          let g := s.grp s.cur.grp
          [(.v d, round32 (unpackNum f (g.v i a).toNat ((g.v i vb).toNat % 256) k) 0)])) ∧
      (packSlotOk f ty = false → exec (.cvtpk d a rnd ty slot m) s = .next (s.fail (Fail.illegal 3))) ∧
      (unpackSlotOk f k = false → exec (.cvtunpk d a vb k slot) s = .next (s.fail (Fail.illegal 3)))

/-- ld, lds, with and without an offset word, in every width and ordering: where a group that exists issues the
load, its registers are free, every address is a multiple of the width and translates, exec answers a state in
which one operation has joined the pipeline: its counter is one higher, its accesses are at the lanes'
addresses, acquire marks it only for an acquiring access, the registers it will write are listed, and the
registers and memory are what they were. (R272, R273, R269, R271, R67) -/
def Obligations.LoadsIssue : Prop :=
  ∀ (d b sb : Nat) (acc : Acc) (off : Int) (s : State) (l : List (Want × Xl)), s.groupIssues →
    let g := s.grp s.cur.grp
    let n := widthBytes acc.width
    let k := widthRegs acc.width
    let lanes := lanesOf s.cur.lanes
    let va (i : Nat) : W64 := g.vp i b + BitVec.ofInt 64 off
    let sa : W64 := g.sp b + BitVec.ofInt 64 off
    let good (dsts : List (Nat × Nat × Dst)) (op : Op) : Prop :=
      op.kind = .load n (widthSigned acc.width) ∧ op.rel = false ∧ (∀ p ∈ op.parts, p.width = n) ∧ op.dsts = dsts ∧
      (op.acq = true ↔ ∃ sc, acc = .ordered true sc)
    (s.regsFree (vpair b) (vregs d k) laterLat → (∀ i ∈ lanes, (va i).toNat % n = 0) →
      s.translates (lanes.map fun i => ⟨i, va i, .read, []⟩) l →
      let dsts := lanes.flatMap fun i => (List.range k).map fun j => (i, j, Dst.v i (g.entry i (d + j)))
      s.starts (.ldExt d b sb acc off) sb l (good dsts) ∧
      (∀ w, off = 0 → acc = .weak w → s.starts (.ld d b sb w) sb l (good dsts))) ∧
    (s.regsFree (spair b) (sregs d k) laterLat → sa.toNat % n = 0 →
      s.translates [⟨firstLane s.cur.lanes, sa, .read, []⟩] l →
      (∀ e ∈ l, e.1.lane = firstLane s.cur.lanes) →
      let dsts := (List.range k).map fun j => (firstLane s.cur.lanes, j, Dst.s (d + j))
      s.starts (.ldsExt d b sb acc off) sb l (good dsts) ∧
      (∀ w, off = 0 → acc = .weak w → s.starts (.lds d b sb w) sb l (good dsts)))

/-- st, with and without an offset word, in every width and ordering: where a group that exists issues the store,
its registers are free, every address is a multiple of the width and translates for writing, exec answers a
state in which one operation has joined the pipeline whose access of each lane holds the lane's register bytes;
release marks it only for a releasing access; the registers and memory are what they were. (R272, R269, R271,
R67) -/
def Obligations.StoresIssue : Prop :=
  ∀ (d b sb : Nat) (acc : Acc) (off : Int) (s : State) (l : List (Want × Xl)), s.groupIssues →
    let g := s.grp s.cur.grp
    let n := widthBytes acc.width
    let lanes := lanesOf s.cur.lanes
    let va (i : Nat) : W64 := g.vp i b + BitVec.ofInt 64 off
    let good (op : Op) : Prop :=
      op.kind = .store n ∧ op.acq = false ∧ op.dsts = [] ∧
      (∀ p ∈ op.parts, p.width = n ∧ p.data = g.storeData p.lane d (widthRegs acc.width) % 2 ^ (8 * n)) ∧
      (op.rel = true ↔ ∃ sc, acc = .ordered true sc)
    s.regsFree (vpair b ++ vregs d (widthRegs acc.width)) [] laterLat → (∀ i ∈ lanes, (va i).toNat % n = 0) →
    s.translates (lanes.map fun i => ⟨i, va i, .write, []⟩) l →
      s.starts (.stExt d b sb acc off) sb l good ∧
      (∀ w, off = 0 → acc = .weak w → s.starts (.st d b sb w) sb l good)

/-- ldl and stl, with and without an offset word: where a group that exists issues the instruction, its registers
are free and every lane's address is a multiple of the width, then if each access lies inside the block's
scratchpad exec answers a state in which one operation on these addresses has joined the pipeline, and if the
access of some lane does not, the lowest such lane's address is in a window fault and nothing is performed.
(R274, R109, R120, R271) -/
def Obligations.ScratchpadAccessesIssue : Prop :=
  ∀ (d sb w : Nat) (b : Src) (off : Int) (s : State), s.groupIssues →
    let g := s.grp s.cur.grp
    let n := widthBytes w
    let lanes := lanesOf s.cur.lanes
    let va (i : Nat) : Int := (g.src i b).toNat + off
    let size : Int := s.scratchSize
    let inside (i : Nat) : Bool := decide (0 ≤ va i) && decide (va i + n ≤ size)
    let does (i : Instr) (P : Op → Prop) : Prop := ∃ t op, exec i s = .next t ∧ s.joined t sb op ∧ s.movedOn t ∧
      op.parts.map (fun p => (p.lane, p.pa, p.width)) = lanes.map (fun j => (j, (va j).toNat, n)) ∧ P op
    let loads (op : Op) : Prop := op.kind = .lload n (widthSigned w) ∧
      op.dsts = lanes.flatMap fun i => (List.range (widthRegs w)).map fun j => (i, j, Dst.v i (g.entry i (d + j)))
    let stores (op : Op) : Prop := op.kind = .lstore ∧ op.dsts = [] ∧
      ∀ p ∈ op.parts, p.data = g.storeData p.lane d (widthRegs w) % 2 ^ (8 * n)
    (∀ i ∈ lanes, va i % n = 0) →
    (s.regsFree b.uses (vregs d (widthRegs w)) laterLat →
      ((∀ i ∈ lanes, inside i = true) → does (.ldlExt d b sb w off) loads ∧ (off = 0 → does (.ldl d b sb w) loads)) ∧
      (∀ j, lanes.find? (fun i => !inside i) = some j →
        let trapped := s.fail (Fail.windowAt (BitVec.ofInt 64 (va j)))
        exec (.ldlExt d b sb w off) s = .next trapped ∧ (off = 0 → exec (.ldl d b sb w) s = .next trapped))) ∧
    (s.regsFree (b.uses ++ vregs d (widthRegs w)) [] laterLat →
      ((∀ i ∈ lanes, inside i = true) → does (.stlExt d b sb w off) stores ∧ (off = 0 → does (.stl d b sb w) stores)) ∧
      (∀ j, lanes.find? (fun i => !inside i) = some j →
        let trapped := s.fail (Fail.windowAt (BitVec.ofInt 64 (va j)))
        exec (.stlExt d b sb w off) s = .next trapped ∧ (off = 0 → exec (.stl d b sb w) s = .next trapped)))

/-- atom, redm and atomv: where a group that exists issues the instruction, its operand registers are free, every
address is a multiple of the element (32 bytes for atomv) and translates with the permission the operation
needs, exec answers a state in which one strong operation has joined the pipeline, acquiring and releasing as
its order field says; only atom and atomv list registers to be written. (R278, R279, R280, R281, R269) -/
def Obligations.AtomicsIssue : Prop :=
  ∀ (op esz b sb ord scope : Nat) (s : State) (l : List (Want × Xl)), s.groupIssues →
    let g := s.grp s.cur.grp
    let lanes := lanesOf s.cur.lanes
    let n := if 16 ≤ op then 8 else 4
    let k := if 16 ≤ op then 2 else 1
    let va (i : Nat) : W64 := g.vp i b + BitVec.ofInt 64 0
    let reads := vpair b ++ (if op % 16 = 13 then [] else vregs (b + 2) k) ++
      (if op % 16 = 9 then vregs (b + 2 + k) k else if op % 16 = 14 then [.v (b + 3)] else [])
    let ordered (o : Op) : Prop := o.strong = true ∧ (o.acq = true ↔ ord % 2 = 1) ∧ (o.rel = true ↔ 2 ≤ ord)
    ((∀ i ∈ lanes, (va i).toNat % n = 0) →
      (s.regsFree reads (vregs (b + 2) k) laterLat →
        s.translates (lanes.map fun i => ⟨i, va i, atomicAccess op true, [3, 4]⟩) l →
        s.starts (.atom op b sb ord scope) sb l fun o => ordered o ∧
          o.kind = .atomic op 0 (decide (16 ≤ op)) false true ∧
          o.dsts = lanes.flatMap fun i => (List.range k).map fun w => (i, w, Dst.v i (g.entry i (b + 2 + w)))) ∧
      (s.regsFree reads [] laterLat →
        s.translates (lanes.map fun i => ⟨i, va i, atomicAccess op false, [3, 4]⟩) l →
        s.starts (.redm op b sb ord scope) sb l fun o => ordered o ∧
          o.kind = .atomic op 0 (decide (16 ≤ op)) false false ∧ o.dsts = [])) ∧
    ((∀ i ∈ lanes, (va i).toNat % 32 = 0) → s.regsFree (vregs b 10) (vregs (b + 2) 8) laterLat →
      s.translates (lanes.map fun i => ⟨i, va i, .both, [3, 4]⟩) l →
      s.starts (.atomv esz op b sb ord scope) sb l fun o => ordered o ∧ o.kind = .atomic op esz false true true ∧
        o.dsts = lanes.flatMap fun i => (List.range 8).map fun w => (i, w, Dst.v i (g.entry i (b + 2 + w))))

/-- hzadd with and without an offset word and ldt: where a group that exists issues the instruction, its registers
are free, every address is a multiple of 16 and translates, and each element lies in a region, one operation
joins the pipeline. If some lane's element of hzadd lies in none, the group, with a handler to go to, takes the
haze-range trap with the lowest such lane's address, and nothing is performed. hzsettle joins the pipeline once
for its set with the regions that overlap the range, of which there is at least one unless the length is 0.
(R282, R283, R284, R148) -/
def Obligations.HazeInstructionsIssue : Prop :=
  ∀ (a d b sb k : Nat) (off : Int) (s : State) (l : List (Want × Xl)), s.groupIssues →
    let g := s.grp s.cur.grp
    let lanes := lanesOf s.cur.lanes
    let va (i : Nat) : W64 := g.vp i b + BitVec.ofInt 64 off
    let inRegion (e : Want × Xl) : Bool := (s.regionAt e.2.pa).isSome
    let traps (i : Instr) (at_ : W64) : Prop := ∃ t, exec i s = .next t ∧ t.mem = s.mem ∧ t.ops = s.ops ∧
      (t.grp s.cur.grp).ctl.taddr = at_ ∧ g.sameRegs (t.grp s.cur.grp) ∧
      (t.grp s.cur.grp).ctl.tcause = BitVec.ofNat 32 (6 + s.cur.port * 2 ^ 8 + 2 ^ 9)
    let adds (o : Op) : Prop := o.kind = .hzadd ∧ o.dsts = [] ∧ ∀ p ∈ o.parts, p.data = (g.v p.lane a).toNat
    let pieces := rangePieces (g.sp b).toNat 65537 (g.s k).toNat
    let regions := s.regionsBehind ((l.zip pieces).map fun e => (e.1.2.pa, e.2.2))
    ((∀ i ∈ lanes, (va i).toNat % 16 = 0) → s.regsFree (.v a :: vpair b) [] laterLat →
      s.translates (lanes.map fun i => ⟨i, va i, .write, []⟩) l →
      ((∀ e ∈ l, inRegion e = true) →
        s.starts (.hzaddExt a b sb off) sb l adds ∧ (off = 0 → s.starts (.hzadd a b sb) sb l adds)) ∧
      (∀ e, l.find? (fun e => !inRegion e) = some e → g.handler = .none → g.ctl.trapMode = false → g.ctl.tvec ≠ 0 →
        g.ctl.tvec.toNat % 4 = 0 → traps (.hzaddExt a b sb off) e.1.va ∧ (off = 0 → traps (.hzadd a b sb) e.1.va))) ∧
    ((∀ i ∈ lanes, (g.vp i b).toNat % 16 = 0) → s.regsFree (.s k :: vpair b) (vpair d) laterLat →
      s.translates (lanes.map fun i => ⟨i, g.vp i b + BitVec.ofInt 64 0, .read, [4]⟩) l → (∀ e ∈ l, inRegion e = true) →
      s.starts (.ldt d b sb k) sb l fun o => o.kind = .ldt ((g.s k).toNat % 256) ∧
        o.dsts = lanes.flatMap fun i => [(i, 0, Dst.v i (g.entry i d)), (i, 1, Dst.v i (g.entry i (d + 1)))]) ∧
    (s.regsFree (.s k :: spair b) [] laterLat → (g.sp b).toNat % 16 = 0 → (g.s k).toNat % 16 = 0 →
      s.translates ((s.goodPieces s.cur.grp pieces).map fun p =>
        ⟨firstLane s.cur.lanes, BitVec.ofNat 64 p.1, .both, []⟩) l → (g.s k = 0 ∨ regions ≠ []) →
      ∃ t op, exec (.hzsettle k b sb) s = .next t ∧ s.joined t sb op ∧ s.movedOn t ∧ op.kind = .settle ∧
        op.parts.map (fun p => p.lane) = regions)

/-- fence joins the pipeline for every kind and scope; pref, with and without an offset word, joins it with the
lanes it does not drop; wback, with and without an offset word, joins it where its addresses translate for
writing, and wback.all joins it with the dirty lines of the context in the core. (R275, R276, R277, R137) -/
def Obligations.FencesAndPrefetchesIssue : Prop :=
  ∀ (b sb kind scope : Nat) (off : Int) (s : State) (l : List (Want × Xl)), s.groupIssues →
    let g := s.grp s.cur.grp
    let lanes := lanesOf s.cur.lanes
    let va (i : Nat) : W64 := g.vp i b + BitVec.ofInt 64 off
    s.starts (.fence sb kind scope) sb [] (fun o => o.kind = .fence ∧ (o.acq = true ↔ kind ≠ 2) ∧ (o.rel = true ↔ kind ≠ 1)) ∧
    (∃ t o, exec (.wback b sb true) s = .next t ∧ s.joined t sb o ∧ s.movedOn t ∧ o.kind = .wback true ∧
      o.parts.map (fun p => (p.loc, p.pa)) = (s.dirtyLines g.core (s.ctxOf s.cur.grp)).map fun x => (x.loc, x.pa)) ∧
    (s.regsFree (vpair b) [] laterLat →
      (s.translates (lanes.map fun i => ⟨i, va i, .write, []⟩) l →
        s.starts (.wbackExt b sb off) sb l (fun o => o.kind = .wback false) ∧
        (off = 0 → s.starts (.wback b sb false) sb l fun o => o.kind = .wback false)) ∧
      (s.translates (s.prefWants g b off) l →
        s.starts (.prefExt b sb off) sb l (fun o => o.kind = .pref) ∧
        (off = 0 → s.starts (.pref b sb) sb l fun o => o.kind = .pref)))

/-- bar.arv and bar join the pipeline as arrivals at block barrier k; with bar every active lane waits for it from
now, and with bar.arv those lanes wait that have arrived already and arrive again, as is found when the
instruction issues (log entry 49); gbar with an index below the launch's count, outside a handler, joins the
pipeline as an acquiring arrival at gang barrier g, and with an index at or above the count raises the illegal-
instruction trap of class 3; bar.exp leaves EXPECT of the barrier at the count. (R285, R286, R287) -/
def Obligations.BarrierInstructionsIssue : Prop :=
  ∀ (k cnt g sb : Nat) (s : State), s.groupIssues →
    let x := s.grp s.cur.grp
    let coming := s.ops.filter fun o => o.grp == s.cur.grp && o.kind == .bar k none
    let again : W32 := s.cur.lanes &&& coming.foldl (fun m o => m ||| o.lanes) (x.barArr k)
    let arrives (i : Instr) (P : State → Op → Prop) : Prop := ∃ t op, exec i s = .next t ∧ s.joined t sb op ∧
      s.movedOn t ∧ op.lanes = s.cur.lanes ∧ P t op
    arrives (.barArv k sb) (fun t op => op.kind = .bar k none ∧
      ∀ i, i < x.ctl.fibs.length → ((t.grp s.cur.grp).fib i).wait = if again.getLsbD i then .arv k else (x.fib i).wait) ∧
    arrives (.bar k sb) (fun t op => op.kind = .bar k none ∧
      ∀ i, i < x.ctl.fibs.length → s.cur.lanes.getLsbD i = true → ((t.grp s.cur.grp).fib i).wait = .bar k none) ∧
    (g < (s.gang (s.gangOf s.cur.grp)).field 529 5 → x.handler = .none →
      arrives (.gbar g sb) (fun _ op => op.kind = .gbar g false ∧ op.acq = true ∧ op.scope = 0)) ∧
    ((s.gang (s.gangOf s.cur.grp)).field 529 5 ≤ g → exec (.gbar g sb) s = .next (s.fail (Fail.illegal 3))) ∧
    ∃ t, exec (.barExp k cnt sb) s = .next t ∧ t.mem = s.mem ∧
      (k < (s.blk x.blk).bars.length → ((t.blk x.blk).bar k).expect = cnt)

/-- mma and mmas: where a sequencer issues the instruction, both operands (on both sides with .p, in a pair block
with equal shapes) are allocated and readable, their slots are a legal pair and the shape and the scales fit,
exec answers a state in which on each side the core's array holds the operation with its rows, both tiles have a
read pending, a tile named for emptying waits to become EMPTY, and the sequencer has moved on. (R301, R302,
R116, R117, R71) -/
def Obligations.MatrixMultiplyIssues : Prop :=
  ∀ (ta tb r k c0 : Nat) (z ea eb pr scaled : Bool) (s : State), s.streamIssues →
    let b := s.blk s.cur.blk
    let sides := if pr then [0, 1] else [0]
    let wa := s.slotFor s.cur.blk (b.tile 0 ta).fslot
    let wb (side : Nat) : Nat := s.slotFor s.cur.blk (b.tile side tb).fslot
    (pr = true → b.pair = true) →
    (∀ side ∈ sides, b.named 0 ta = true ∧ b.named side tb = true ∧ (b.tile 0 ta).readable = true ∧
      (b.tile side tb).readable = true ∧ pairOk scaled wa (wb side) = true ∧
      s.mmaShape side (b.tile 0 ta) (b.tile side tb) wa (wb side) k r c0 = true ∧
      s.scalesFit s.cur.blk 0 wa (b.tile 0 ta) k (b.tile 0 ta).rowCount = true ∧
      s.scalesFit s.cur.blk side (wb side) (b.tile side tb) k (b.tile side tb).rowCount = true) →
    (pr = true → (b.tile 0 tb).rows = (b.tile 1 tb).rows ∧ (b.tile 0 tb).rowb = (b.tile 1 tb).rowb ∧
      (b.tile 0 tb).fslot = (b.tile 1 tb).fslot) →
    ∃ t, exec (if scaled then .mmas ta tb r k c0 z ea eb pr else .mma ta tb r k c0 z ea eb pr) s = .next t ∧
      s.went t ∧ t.mem = s.mem ∧
      ∀ side ∈ sides,
        (∃ m ∈ (t.core (b.coreAt side)).mq, m.blk = s.cur.blk ∧ m.side = side ∧
          m.kind = .mma ta tb k c0 z ea eb pr scaled ∧ m.row = b.accFirst side + r ∧ m.rows = (b.tile 0 ta).rowCount) ∧
        0 < ((t.blk s.cur.blk).tile 0 ta).reads ∧ 0 < ((t.blk s.cur.blk).tile side tb).reads ∧
        (ea = true → ((t.blk s.cur.blk).tile 0 ta).goal = some 0) ∧
        (eb = true → ((t.blk s.cur.blk).tile side tb).goal = some 0)

/-- mzero of rows inside the allocation or window joins the array on its side with that many rows, and in the stream
of a pair block the upper core's array as well, with the same rows of its allocation; macc.out and macc.in,
where the tile is allocated, its slot is one they take, rows and columns fit, .hi is allowed and tile and rows
are free, join the array; the tile of macc.out is FILLING and that of macc.in has a read pending; a group's
counter is one higher. (R304, R305, R67, R71) -/
def Obligations.AccumulatorMovesIssue : Prop :=
  ∀ (t r sb rnd c0 n1 : Nat) (add hi : Bool) (s : State), s.engineIssues →
    let b := s.engBlock
    let side := s.engSide hi
    let tile := b.tile side t
    let counted (u : State) : Prop := s.cur.kind = .group →
      (u.grp s.cur.grp).ctl.sb = ((s.grp s.cur.grp).incCounter sb).ctl.sb
    let fits : Prop := b.named side t = true ∧ maccSlot (s.slotFor s.engBlk tile.fslot) = true ∧ s.hiBad hi = false ∧
      s.rowsInside r tile.rowCount = true ∧ 16 * c0 + maccCols (s.slotFor s.engBlk tile.fslot) tile ≤ 256 ∧
      s.maccRows t r = true
    (s.rowsInside r (n1 + 1) = true → ∃ u, exec (.mzero r n1 sb) s = .next u ∧ s.went u ∧ u.mem = s.mem ∧ counted u ∧
      ∃ m ∈ (u.core (s.engCore false)).mq, m.kind = .zero ∧ m.row = s.firstRow (s.engSide false) r ∧ m.rows = n1 + 1) ∧
    (s.rowsInside r (n1 + 1) = true → s.cur.kind = .stream → b.pair = true → ∃ u, exec (.mzero r n1 sb) s = .next u ∧
      ∃ m ∈ (u.core (b.core + 1)).mq, m.kind = .zero ∧ m.side = 1 ∧ m.row = b.accFirst 1 + r ∧ m.rows = n1 + 1) ∧
    (fits → tile.state = 0 → ∃ u, exec (.maccOut t r sb rnd hi c0) s = .next u ∧ s.went u ∧ u.mem = s.mem ∧ counted u ∧
      ((u.blk s.engBlk).tile side t).state = 1 ∧
      ∃ m ∈ (u.core (s.engCore hi)).mq, m.kind = .accOut t c0 rnd ∧ m.rows = tile.rowCount) ∧
    (fits → tile.readable = true → ∃ u, exec (.maccIn t r sb rnd add hi c0) s = .next u ∧ s.went u ∧ u.mem = s.mem ∧
      counted u ∧ ((u.blk s.engBlk).tile side t).reads = tile.reads + 1 ∧
      ∃ m ∈ (u.core (s.engCore hi)).mq, m.kind = .accIn t c0 rnd add ∧ m.rows = tile.rowCount)

/-- Where a group issues talloc for a free reserved entry with a legal geometry, exec answers a state in which the
new entry is allocated and EMPTY with the geometry's rows, row bytes, slot and barrier and pD of every active
lane is to receive true where a range of the operand buffer is free, and the entry is as it was and pD is to
receive false where none is. tfree of an EMPTY or READY tile with no read pending leaves the empty entry; tstate
is to write the 64 bits of the entry to the pair of every active lane. tfill, of a group or a stream, of an
EMPTY tile leaves it FILLING with the fill handed over. Each raises its counter and moves on, and memory is what
it was. An entry that may not be named is a window fault. (R308, R309, R310, R291, R70, R71) -/
def Obligations.TileTableInstructions : Prop :=
  ∀ (p t sg sv d sb : Nat) (hi : Bool) (s : State), s.engineIssues →
    let g := s.grp s.cur.grp
    let b := s.engBlock
    let side := s.engSide false
    let lanes := lanesOf s.cur.lanes
    let w := (g.s sg).toNat
    let tile := b.tile side t
    let after (u : State) : Tile := (u.blk s.engBlk).tile side t
    let left (u : State) : Prop := s.went u ∧ u.mem = s.mem ∧
      (s.cur.kind = .group → (u.grp s.cur.grp).ctl.sb = (g.incCounter sb).ctl.sb)
    let answer (u : State) (dsts : List (Nat × Nat × Dst)) (n : Nat) : Prop :=
      ∃ op ∈ u.ops, op.stage = .finished ∧ op.sb = sb ∧ op.dsts = dsts ∧ ∀ x ∈ op.parts, x.data = n
    let toPred : List (Nat × Nat × Dst) := if p = 15 then [] else lanes.map fun i => (i, 0, Dst.p i p)
    (s.cur.kind = .group →
      (s.regsFree [.s sg] [.p p] 4096 → t < b.nTiles → tile.alloc = false → w / 2 ^ 11 % 2 ^ 3 = 0 →
        (∀ at_, b.findRange side ((16 * (w % 16 + 1)) * (64 * (w / 2 ^ 4 % 16 + 1))) = some at_ →
          ∃ u, exec (.talloc p t sg sb) s = .next u ∧ left u ∧ answer u toPred 1 ∧
            (after u).alloc = true ∧ (after u).state = 0 ∧ (after u).rows = w % 16 ∧
            (after u).rowb = w / 2 ^ 4 % 16 ∧ (after u).fslot = w / 2 ^ 8 % 8 ∧ (after u).txb = w / 2 ^ 14 % 2 ^ 18 ∧
            (after u).start = at_) ∧
        (b.findRange side ((16 * (w % 16 + 1)) * (64 * (w / 2 ^ 4 % 16 + 1))) = none →
          ∃ u, exec (.talloc p t sg sb) s = .next u ∧ left u ∧ answer u toPred 0 ∧ after u = tile)) ∧
      (s.regsFree [.s sg] [.p p] 4096 → b.nTiles ≤ t ∨ tile.alloc = true ∨ w / 2 ^ 11 % 2 ^ 3 ≠ 0 →
        exec (.talloc p t sg sb) s = .next (s.fail Fail.window)) ∧
      (b.named side t = true → tile.reads = 0 → (tile.state = 0 ∨ tile.state = 2) →
        ∃ u, exec (.tfree t sb) s = .next u ∧ left u ∧ after u = Tile.empty) ∧
      (b.named side t = false → exec (.tfree t sb) s = .next (s.fail Fail.window)) ∧
      (s.regsFree [] (vpair d) 4096 → t < b.nTiles →
        ∃ u, exec (.tstate d t sb) s = .next u ∧ left u ∧ after u = tile ∧ answer u (lanes.flatMap fun i =>
          [(i, 0, Dst.v i (g.entry i d)), (i, 1, Dst.v i (g.entry i (d + 1)))]) tile.bits) ∧
      (s.regsFree [] (vpair d) 4096 → b.nTiles ≤ t → exec (.tstate d t sb) s = .next (s.fail Fail.window))) ∧
    (s.engRegsFree [.s sv] [] → s.hiBad hi = false → b.named (s.engSide hi) t = true → (b.tile (s.engSide hi) t).state = 0 →
      ∃ u, exec (.tfill t sv hi sb) s = .next u ∧ left u ∧ ((u.blk s.engBlk).tile (s.engSide hi) t).state = 1 ∧
        ∃ m ∈ (u.core (b.coreAt (s.engSide hi))).mq, m.kind = .fill t (s.engS sv)) ∧
    (s.engRegsFree [.s sv] [] → s.hiBad hi = false → b.named (s.engSide hi) t = false →
      exec (.tfill t sv hi sb) s = .next (s.fail Fail.window))

/-- tcopy, tstore and tstore.hz: where a group or a sequencer issues the instruction, its registers are free, tile
or rows are ready, the queue has room, base and strides are multiples of 32, counts and sizes fit and .hi is
allowed, exec answers a state in which the command, with the runs of its descriptor, stands in the list and in
the core's copy queue; the tile of tcopy is FILLING under the copy and that of tstore moves to DRAINING or waits
to. (R311, R312, R313, R314, R315) -/
def Obligations.CopiesEnterTheQueue : Prop :=
  ∀ (t sd scope sb rnd slot r rows1 c0 : Nat) (acq rel ir cv hi : Bool) (s : State), s.engineIssues →
    let b := s.engBlock
    let side := s.engSide hi
    let tile := b.tile side t
    let wt := s.slotFor s.engBlk tile.fslot
    let w := s.slotFor s.engBlk slot
    let run := s.runOf sd
    let queued (u : State) (P : Cmd → Prop) : Prop := s.went u ∧ u.mem = s.mem ∧
      ∃ c ∈ u.cmds, c.id ∈ (u.core (s.engCore hi)).cq ∧ c.run = run ∧ c.blk = s.engBlk ∧ c.core = s.engCore hi ∧ P c
    s.engRegsFree (sregs sd 11) [] → s.hiBad hi = false → (s.core (s.engCore hi)).cq.length < 16 →
    run.base.toNat % 32 = 0 → (∀ x ∈ run.stride, x % 32 = 0) →
    (∀ n ∈ run.n0 :: run.n, 1 ≤ n ∧ n < 65536) →
    (b.named side t = true → (cv = true → copySlot w = true ∧ copySlot wt = true) → copySize cv w wt run tile = true →
      (tile.state = 0 → s.txInside s.engBlk side tile.txb = true →
        ∃ u, exec (.tcopy t sd acq rel scope ir sb rnd slot cv hi) s = .next u ∧
          ((u.blk s.engBlk).tile side t).state = 1 ∧ ((u.blk s.engBlk).tile side t).copy = true ∧
          queued u fun c => c.kind = .tcopy ∧ c.tile = t ∧ c.acq = acq ∧ c.rel = rel) ∧
      (tile.readable = true →
        ∃ u, exec (.tstore t sd acq rel scope ir sb rnd slot cv hi) s = .next u ∧
          (tile.reads = 0 → ((u.blk s.engBlk).tile side t).state = 3) ∧
          queued u fun c => c.kind = .tstore ∧ c.tile = t ∧ c.acq = acq ∧ c.rel = rel)) ∧
    (s.tstoreHzReady hi r (rows1 + 1) = true → run.sectors * 2 % (rows1 + 1) = 0 →
      16 * c0 + run.sectors * 2 / (rows1 + 1) ≤ 256 → s.rowsInside r (rows1 + 1) = true →
      ∃ u, exec (.tstoreHz sd acq rel scope ir sb hi r rows1 c0) s = .next u ∧
        queued u fun c => c.kind = .tstoreHz ∧ c.rows = rows1 + 1 ∧ c.c0 = c0)

/-- mloop: where a sequencer issues it, both staging tiles are allocated and EMPTY, the queue has room, bases,
pitches and strides are multiples of 32 and slots, shape, span and scales fit, exec answers a state in which the
command stands in the core's copy queue and both tiles are FILLING. tchain: where a group issues it, its scalars
are free, the channel has room and the head is a multiple of 64, the counter is raised, and without .ir the head
stands last in the channel's FIFO; with .ir it waits for the drain of its context. (R306, R307, R311, R316,
R141) -/
def Obligations.LoopsAndChainsStart : Prop :=
  ∀ (ta tb sd sh ch scope sb : Nat) (ir : Bool) (s : State),
    (s.streamIssues →
      let b := s.blk s.cur.blk
      let wa := s.slotFor s.cur.blk (b.tile 0 ta).fslot
      let wb := s.slotFor s.cur.blk (b.tile 0 tb).fslot
      let c := s.loopCmd ta tb sd
      b.named 0 ta = true → b.named 0 tb = true → (b.tile 0 ta).state = 0 → (b.tile 0 tb).state = 0 →
      (s.core (b.coreAt 0)).cq.length < 16 → pairOk (slotForm wa != 0 || slotForm wb != 0) wa wb = true →
      c.run.base.toNat % 32 = 0 → c.runB.base.toNat % 32 = 0 → (∀ x ∈ c.pitch, x % 32 = 0) →
      (∀ x ∈ c.run.stride ++ c.runB.stride, x % 32 = 0) → (∀ n ∈ c.run.n, 1 ≤ n) → bits (s.engS (sd + 4)).toNat 24 8 = 0 →
      s.mmaShape 0 (b.tile 0 ta) (b.tile 0 tb) wa wb c.kk 0 0 = true →
      s.loopSpan c (b.tile 0 ta).rowCount (b.tile 0 tb).rowCount = true →
      s.scalesFit s.cur.blk 0 wa (b.tile 0 ta) c.kk (b.tile 0 ta).rowCount = true →
      s.scalesFit s.cur.blk 0 wb (b.tile 0 tb) c.kk (b.tile 0 tb).rowCount = true →
      ∃ u, exec (.mloop ta tb sd) s = .next u ∧ s.went u ∧ u.mem = s.mem ∧
        ((u.blk s.cur.blk).tile 0 ta).state = 1 ∧ ((u.blk s.cur.blk).tile 0 tb).state = 1 ∧
        ∃ d ∈ u.cmds, d.kind = .mloop ∧ d.id ∈ (u.core (b.coreAt 0)).cq ∧ d.tile = ta ∧ d.tileB = tb ∧ d.run = c.run) ∧
    (s.groupIssues → s.regsFree (spair sh) [] 4096 →
      let g := s.grp s.cur.grp
      let key := chanKey (isleOf (s.engCore false)) ch
      (s.chan key).heads.length < 16 → (g.sp sh).toNat % 64 = 0 →
      ∃ u, exec (.tchain sh ch ir scope sb) s = .next u ∧ s.movedOn u ∧ u.mem = s.mem ∧
        (u.grp s.cur.grp).ctl.sb = (g.incCounter sb).ctl.sb ∧
        (ir = false → (u.chan key).heads = (s.chan key).heads ++ [⟨s.ctxOf s.cur.grp, g.sp sh⟩] ∧
          (u.chan key).coming = (s.chan key).coming) ∧
        (ir = true → (u.chan key).heads = (s.chan key).heads ∧
          (u.chan key).coming = (s.chan key).coming ++ [(s.fresh, false, ⟨s.ctxOf s.cur.grp, g.sp sh⟩)] ∧
          ∃ e ∈ u.drains, e.2.owner = .head key s.fresh ∧ e.2.core = s.engCore false ∧ e.2.ctx = s.ctxOf s.cur.grp))

/-- Where a sequencer issues seqbar or seqbar.arv for a barrier that exists, exec answers a state in which the
sequencer has moved on and P_k has stepped; where P_k is the barrier's phase the arrival is counted, under the
rule of the barrier, and otherwise it is held for its phase; with seqbar the sequencer waits for that phase.
seqbar.wait goes on and steps P_k where the barrier is past it, with no arrival, and issues in no state before
that. Where a group issues mma, mmas, mloop or one of the three, the illegal-instruction trap of class 4 is
taken, and where a stream holds talloc, tfree, tchain, accrd, accwr, awset, txinit, txwait, txtest, twait or
tstate, the stream fault. (R318, R294) -/
def Obligations.SequencerMeetingPoints : Prop :=
  ∀ (k a b c d e : Nat) (p q r x : Bool) (s : State),
    (s.streamIssues → k < (s.blk s.cur.blk).bars.length →
      let z := (s.blk s.cur.blk).bar k
      let s1 := s.updBlk s.cur.blk fun y => y.updBar k fun z => { z with arrived := z.arrived + 1 }
      let arrived (u : State) : Prop := s.went u ∧ u.mem = s.mem ∧
        (z.pk = z.phase → (u.blk s.cur.blk).bar k =
          { ((s1.barCheck s.cur.blk k).blk s.cur.blk).bar k with pk := (z.pk + 1) % 16 }) ∧
        (z.pk ≠ z.phase → (u.blk s.cur.blk).bar k = { z with pk := (z.pk + 1) % 16, early := z.early ++ [z.pk] })
      (∃ u, exec (.seqbar k) s = .next u ∧ arrived u ∧ (u.blk s.cur.blk).seq.waitBar = some (k * 16 + z.pk)) ∧
      (∃ u, exec (.seqbarArv k) s = .next u ∧ arrived u ∧
        (u.blk s.cur.blk).seq.waitBar = (s.blk s.cur.blk).seq.waitBar) ∧
      ((z.phase + 16 - z.pk) % 16 ≠ 0 → ∃ u, exec (.seqbarWait k) s = .next u ∧ s.went u ∧ u.mem = s.mem ∧
        (u.blk s.cur.blk).bar k = { z with pk := (z.pk + 1) % 16 } ∧
        (u.blk s.cur.blk).seq.waitBar = (s.blk s.cur.blk).seq.waitBar) ∧
      ((z.phase + 16 - z.pk) % 16 = 0 → exec (.seqbarWait k) s = .next s)) ∧
    (s.cur.kind = .group → ∀ i ∈ [Instr.mma a b c d e p q r x, .mmas a b c d e p q r x, .mloop a b c, .seqbar k,
      .seqbarArv k, .seqbarWait k], exec i s = .next (s.fail (Fail.illegal 4))) ∧
    (s.cur.kind = .stream → ∀ i ∈ [Instr.talloc a b c d, .tfree a b, .tchain a b p c d, .accrd a b c, .accwr a b c,
      .awset a b c p, .txinit a b c, .txwait a b, .txtest a b c d, .twait a b, .tstate a b c],
      exec i s = .next (s.fail (Fail.illegal 4)))

/-- accrd and accwr: where a group issues the instruction, its registers are free, every lane names a cell of a row
in the group's window, the rows are free and no cell read is in error, accrd is to write each lane's cell to its
vD and accwr leaves in each cell the value of the highest lane that names it and every other cell as it was;
each raises its counter. A lane that names no cell of the window makes it a window fault. awset: where group 0
issues it in the allocation phase, for a group of the block and rows inside the allocation, that group's window
is the one given, every other group's is as it was, and .last ends the phase; rows outside, or no such group,
are a window fault, and outside the phase or by another group it is the illegal-instruction trap of class 4.
(R319, R320, R68, R69) -/
def Obligations.AccumulatorAccess : Prop :=
  ∀ (d a sb sg sf sl : Nat) (last : Bool) (s : State), s.groupIssues →
    let g := s.grp s.cur.grp
    let b := s.blk g.blk
    let lanes := lanesOf s.cur.lanes
    let cell (i : Nat) : Nat := (g.v i a).toNat
    let inside (i : Nat) : Prop := cell i < 65536 ∧ g.ctl.awb ≤ cell i / 256 ∧ cell i / 256 < g.ctl.awb + g.ctl.awl
    let left (u : State) : Prop := s.movedOn u ∧ u.mem = s.mem ∧ (u.grp s.cur.grp).ctl.sb = (g.incCounter sb).ctl.sb
    ((∀ i ∈ lanes, inside i) → s.accReady a = true →
      (s.regsFree [.v a] [.v d] 4096 → (∀ i ∈ lanes, ErrAt.cell g.core (cell i) ∉ s.errs) →
        ∃ u, exec (.accrd d a sb) s = .next u ∧ left u ∧ (u.core g.core).acc = (s.core g.core).acc ∧
          ∃ op ∈ u.ops, op.stage = .finished ∧ op.sb = sb ∧ op.dsts = lanes.map (fun i => (i, 0, Dst.v i (g.entry i d))) ∧
            ∀ p ∈ op.parts, p.data = (look 0 (s.core g.core).acc (cell p.lane)).toNat) ∧
      (s.regsFree [.v d, .v a] [] 4096 → ∃ u, exec (.accwr d a sb) s = .next u ∧ left u ∧
        ∀ c, look 0 (u.core g.core).acc c =
          match lanes.reverse.find? fun i => cell i == c with
          | some i => g.v i d
          | none => look 0 (s.core g.core).acc c)) ∧
    ((∃ i ∈ lanes, ¬ inside i) → s.accReady a = true →
      (s.regsFree [.v a] [.v d] 4096 → exec (.accrd d a sb) s = .next (s.fail Fail.window)) ∧
      (s.regsFree [.v d, .v a] [] 4096 → exec (.accwr d a sb) s = .next (s.fail Fail.window))) ∧
    (let target := b.groups.getD (g.s sg).toNat 0
     let base := b.accFirst (b.side (s.grp target).core)
     let given : Prop := (g.s sg).toNat < b.groups.length ∧ (g.s sl).toNat ≤ 256 ∧ base ≤ (g.s sf).toNat ∧
       (g.s sf).toNat + (g.s sl).toNat ≤ base + b.accRows
     (b.allocOpen = false ∨ g.num ≠ 0 → exec (.awset sg sf sl last) s = .next (s.fail (Fail.illegal 4))) ∧
     (s.regsFree [.s sg, .s sf, .s sl] [] 4096 → b.allocOpen = true → g.num = 0 →
       (given → target < s.groups.length → ∃ u, exec (.awset sg sf sl last) s = .next u ∧ s.movedOn u ∧ u.mem = s.mem ∧
         (u.grp target).ctl.awb = (g.s sf).toNat ∧ (u.grp target).ctl.awl = (g.s sl).toNat ∧
         (∀ k, k ≠ target → (u.grp k).ctl.awb = (s.grp k).ctl.awb ∧ (u.grp k).ctl.awl = (s.grp k).ctl.awl) ∧
         (u.blk g.blk).allocOpen = !last) ∧
       (¬ given → exec (.awset sg sf sl last) s = .next (s.fail Fail.window))))

/-- Where the index names 16 bytes of the scratchpad and the registers are free: txinit of a group with a count of 1
to 65,535 leaves phase 0, that count pending and initial, no sectors and no error, and with another count is the
illegal-instruction trap of class 5; txexp and txarv, of a group or a stream, add the count to the sectors and
let the lanes, or one, arrive; each update is tested at the end of the clock, where a barrier with nothing
pending steps its phase and its arrivals start again. txtest is to write to pD of every active lane whether the
phase differs from the expected one; txwait and twait move on when the phase differs or the tile is in the
state, and otherwise the lanes stay at the instruction and wait for it. Memory is what it was. An index or tile
that may not be named is a window fault. The test at the end of the clock (log entry 24), the window cause
beside a bad count (25) and that waiting lanes stay at the instruction (28) are the model's readings. (R289,
R290, R291, R72, R73, R74, R71) -/
def Obligations.TransactionBarriers : Prop :=
  ∀ (x c p ph sb t st : Nat) (s : State), s.engineIssues →
    let g := s.grp s.cur.grp
    let side := s.engSide false
    let idx := (s.engS x).toNat
    let old := s.txBar s.engBlk side idx
    let n := (s.engS c).toNat
    let lanes := if s.cur.kind = .stream then 1 else popCount s.cur.lanes
    let left (u : State) : Prop := s.went u ∧ u.mem = s.mem ∧
      (s.cur.kind = .group → (u.grp s.cur.grp).ctl.sb = (g.incCounter sb).ctl.sb)
    let updated (u : State) (y : TxBar) : Prop := left u ∧ u.txBar s.engBlk side idx = y ∧ (s.engBlk, side, idx) ∈ u.txDue
    let inside : Prop := idx < 2 ^ 18 ∧ s.txInside s.engBlk side idx = true ∧ ((s.blk s.engBlk).spBanks side).Nodup
    let outside : Prop := 2 ^ 18 ≤ idx ∨ s.txInside s.engBlk side idx = false
    (inside →
      (s.cur.kind = .group → s.regsFree [.s x, .s c] [] 4096 →
        (1 ≤ n → n ≤ 65535 → ∃ u, exec (.txinit x c sb) s = .next u ∧ updated u ⟨0, n, n, 0, 0⟩) ∧
        (n = 0 ∨ 65535 < n → exec (.txinit x c sb) s = .next (s.fail (Fail.illegal 5)))) ∧
      (s.engRegsFree [.s x, .s c] [] →
        (∃ u, exec (.txexp x c sb) s = .next u ∧ updated u (old.addSectors n)) ∧
        (∃ u, exec (.txarv x c true true sb) s = .next u ∧ updated u (old.arrive.addSectors n)) ∧
        (∃ u, exec (.txarv x c true false sb) s = .next u ∧ updated u ((old.arrivals lanes).addSectors n))) ∧
      (s.engRegsFree [.s x] [] →
        (∃ u, exec (.txarv x c false true sb) s = .next u ∧ updated u old.arrive) ∧
        (∃ u, exec (.txarv x c false false sb) s = .next u ∧ updated u (old.arrivals lanes))) ∧
      ((s.blk s.engBlk).live = true → (s.txTest s.engBlk side idx).txBar s.engBlk side idx =
        if old.arrPend = 0 ∧ old.secPend = 0 then { old with phase := (old.phase + 1) % 16, arrPend := old.arrInit }
        else old) ∧
      (s.cur.kind = .group → s.regsFree [.s x, .s ph] [.p p] 4096 → ∃ u, exec (.txtest p x ph sb) s = .next u ∧ left u ∧
        ∃ op ∈ u.ops, op.stage = .finished ∧ op.sb = sb ∧
          op.dsts = (if p = 15 then [] else (lanesOf s.cur.lanes).map fun i => (i, 0, Dst.p i p)) ∧
          ∀ q ∈ op.parts, q.data = if old.phase = (g.s ph).toNat % 16 then 0 else 1) ∧
      (s.cur.kind = .group → s.regsFree [.s x, .s ph] [] 4096 →
        (old.phase ≠ (g.s ph).toNat % 16 → exec (.txwait x ph) s = .next s.finish) ∧
        (old.phase = (g.s ph).toNat % 16 → s.cur.trapped = false → ∃ u, exec (.txwait x ph) s = .next u ∧
          u.mem = s.mem ∧ ∀ i, i < g.ctl.fibs.length → s.cur.lanes.getLsbD i = true →
            ((u.grp s.cur.grp).fib i).wait = .tx side idx ((g.s ph).toNat % 16) ∧
            ((u.grp s.cur.grp).fib i).pc = s.cur.hdr + BitVec.ofNat 64 (4 * s.cur.idx)))) ∧
    (outside →
      (s.cur.kind = .group → s.regsFree [.s x, .s c] [] 4096 → exec (.txinit x c sb) s = .next (s.fail Fail.window)) ∧
      (s.engRegsFree [.s x, .s c] [] → exec (.txexp x c sb) s = .next (s.fail Fail.window))) ∧
    (s.cur.kind = .group →
      ((s.blk g.blk).named side t = true →
        (((s.blk g.blk).tile side t).state = st → exec (.twait t st) s = .next s.finish) ∧
        (((s.blk g.blk).tile side t).state ≠ st → s.cur.trapped = false → ∃ u, exec (.twait t st) s = .next u ∧
          u.mem = s.mem ∧ ∀ i, i < g.ctl.fibs.length → s.cur.lanes.getLsbD i = true →
            ((u.grp s.cur.grp).fib i).wait = .tile t st ∧
            ((u.grp s.cur.grp).fib i).pc = s.cur.hdr + BitVec.ofNat 64 (4 * s.cur.idx))) ∧
      ((s.blk g.blk).named side t = false → s.cur.trapped = false → exec (.twait t st) s = .next (s.fail Fail.window)))

/-- srdp is to write the scalar, or the pair for a 64-bit selector, with BROLE, TVEC, TCAUSE, TLANES, TOLANES, TPC,
TIDX, TADDR, the low half of the context control block or PRSTAT as it stands in the issue clock. swrp of TVEC
leaves it at the pair's value at any time; swrp of TPC or of TIDX (0 to 15) does so in trap mode, and outside it
raises the illegal-instruction trap of class 4; swrp of BROLE by group 0 in the allocation phase with roles that
R107 allows leaves the block's roles at the pair's value, by another group or after the phase it raises that
trap, and a value that R107 or R343 does not allow raises it with class 5. Nothing else of the group's control
state, its registers and memory change. (R343, R106, R107) -/
def Obligations.SystemRegisters : Prop :=
  ∀ (d k n : Nat) (s : State),
    let v (n : Nat) (s : State) : W64 :=
      let g := s.grp s.cur.grp
      if n = 0 then (s.blk g.blk).brole else if n = 1 then g.ctl.tvec else if n = 2 then g.ctl.tcause.setWidth 64
      else if n = 3 then g.ctl.tlanes.setWidth 64 else if n = 4 then g.ctl.tolanes.setWidth 64
      else if n = 5 then g.ctl.tpc else if n = 6 then BitVec.ofNat 64 g.ctl.tidx else if n = 7 then g.ctl.taddr
      else if n = 8 then BitVec.ofNat 64 (s.ctx (s.ctxOf s.cur.grp)).control else g.prstat.setWidth 64
    (n = 0 ∨ n = 1 ∨ n = 5 ∨ n = 7 →
      ScalarResult (.srdp d n) 1 [] (spair d) (fun s _ => [(.s d, lo32 (v n s)), (.s (d + 1), hi32 (v n s))])) ∧
    (n = 2 ∨ n = 3 ∨ n = 4 ∨ n = 6 ∨ n = 8 ∨ n = 9 →
      ScalarResult (.srdp d n) 1 [] [.s d] (fun s _ => [(.s d, lo32 (v n s))])) ∧
    (s.groupIssues →
      let g := s.grp s.cur.grp
      let left (u : State) (ctl : Control) : Prop := s.movedOn u ∧ u.mem = s.mem ∧
        { (u.grp s.cur.grp).ctl with fibs := [] } = { ctl with fibs := [] } ∧ g.sameRegs (u.grp s.cur.grp)
      (s.regsFree (spair k) [] 1 →
        (∃ u, exec (.swrp 1 k) s = .next u ∧ left u { g.ctl with tvec := g.sp k }) ∧
        (g.ctl.trapMode = true → ∃ u, exec (.swrp 5 k) s = .next u ∧ left u { g.ctl with tpc := g.sp k }) ∧
        (g.num = 0 → (s.blk g.blk).allocOpen = true →
          ((s.blk g.blk).roleOk (g.sp k).toNat = true →
            ∃ u, exec (.swrp 0 k) s = .next u ∧ left u g.ctl ∧ (u.blk g.blk).brole = g.sp k) ∧
          ((s.blk g.blk).roleOk (g.sp k).toNat = false → exec (.swrp 0 k) s = .next (s.fail (Fail.illegal 5))))) ∧
      (s.regsFree [.s k] [] 1 → g.ctl.trapMode = true →
        ((g.s k).toNat ≤ 15 → ∃ u, exec (.swrp 6 k) s = .next u ∧ left u { g.ctl with tidx := (g.s k).toNat }) ∧
        (15 < (g.s k).toNat → exec (.swrp 6 k) s = .next (s.fail (Fail.illegal 5)))) ∧
      (g.ctl.trapMode = false → exec (.swrp 5 k) s = .next (s.fail (Fail.illegal 4)) ∧
        exec (.swrp 6 k) s = .next (s.fail (Fail.illegal 4))) ∧
      (g.num ≠ 0 ∨ (s.blk g.blk).allocOpen = false → exec (.swrp 0 k) s = .next (s.fail (Fail.illegal 4))))

/-- Where a group issues trapret in trap mode and TPC is canonical and a multiple of 4, exec answers a state in
which trap mode has ended, every occupied lane of TLANES stands at the header at TPC with TIDX as the word to
begin with and a breakpoint that the trap interrupted pending again, and every other lane, the registers, the
other trap registers and memory are what they were; where the gang is being pre-empted and the group's handler
is due, it enters that handler from this state, which is kept. A TPC that is misaligned or not canonical raises
its trap there, and outside trap mode the illegal-instruction trap of class 4 is taken. The checks of TPC (log
entry 48) and the entry of the handler at trapret (33) are the model's readings. (R352, R349, R359) -/
def Obligations.TrapReturnResumes : Prop :=
  ∀ s : State, s.groupIssues →
    let g := s.grp s.cur.grp
    let k := s.gang (s.gangOf s.cur.grp)
    let back (i : Nat) : Fibre := if (g.ctl.tlanes &&& g.occupied).getLsbD i then
        { g.fib i with pc := g.ctl.tpc, code := none, next := g.ctl.tidx, waited := false, bad := none,
                       bkptCode := (g.fib i).bkptHeld, bkptHeld := none }
      else g.fib i
    let due : Prop := (∃ d, k.pre = .handlers d) ∧ g.live = true ∧ g.retired = false ∧ g.halted = false ∧
      g.handler = .none ∧ g.pdone = none
    (g.ctl.trapMode = false → exec .trapret s = .next (s.fail (Fail.illegal 4))) ∧
    (g.ctl.trapMode = true →
      (g.ctl.tpc.toNat % 4 ≠ 0 → exec .trapret s = .next (s.fail (Fail.misaligned g.ctl.tpc))) ∧
      (g.ctl.tpc.toNat % 4 = 0 → canonical g.ctl.tpc = false →
        exec .trapret s = .next (s.fail (Fail.translation 3 g.ctl.tpc))) ∧
      (g.ctl.tpc.toNat % 4 = 0 → canonical g.ctl.tpc = true →
        ∃ t, exec .trapret s = .next t ∧ t.mem = s.mem ∧ g.sameRegs (t.grp s.cur.grp) ∧
          ∃ c : Control, { c with fibs := [] } = { g.ctl with fibs := [], trapMode := false } ∧
            (∀ i, i < g.ctl.fibs.length → c.fibs[i]? = some (back i)) ∧
            (¬ due → (t.grp s.cur.grp).ctl = c) ∧
            (due → (t.grp s.cur.grp).saved = some c ∧ (t.grp s.cur.grp).handler = .preempt ∧
              (t.grp s.cur.grp).ctl.trapMode = false ∧ ∀ i, i < g.ctl.fibs.length → (g.fib i).occ = true →
                ((t.grp s.cur.grp).fib i).pc = k.preemptPc)))

/-- tlbinv, with the context's TLBI permission, leaves no entry of the context for the address (or for any) in a
translation cache, and completes where no walk is in flight and otherwise waits for those that are; ctxwb drains
the context on every core that holds lines of it, so that none is dirty there, and hzreclaim sends a SETTLE for
every delta line and share of the context on cores that run no gang of it; each completes at once where there is
nothing to wait for, and its lanes move on when what it waits for is over; that tlbinv waits for flying walks is
the model's reading (log entry 34). Without the permission tlbinv, and dbgrd without DBGR, raise the illegal-
instruction trap of class 2. pdone in a pre-emption handler stops the group's fibres with the mask of what is to
be saved, in a resume handler restores the captured control state and stands until its gang goes on, and
elsewhere traps. dbgrd writes the object to the pair of each lane, among them an accumulator row's busy bit, a
block barrier and a fibre's PC, and an index out of range is a window fault. (R344, R345, R346, R360, R363,
R366, R340) -/
def Obligations.ContextMaintenance : Prop :=
  ∀ (a k d obj : Nat) (all : Bool) (s : State), s.groupIssues →
    let g := s.grp s.cur.grp
    let ctx := s.ctxOf s.cur.grp
    let va : Option Nat := if all then none else some (vaBits (g.sp a))
    let flying := s.walks.filter fun w => w.failed.isNone || w.ctx != ctx
    let settled (l : List (Nat × Nat)) : State := l.foldl (fun (u : State) e => u.send
      { Packet.basic 0x26 vcC 0 (isleOf g.core) (unitOfCore g.core) (isleOf e.1) (unitOfCore e.1) ctx 0 with
        aux := [e.2] }) s
    let waits (t : State) (w : SysWait) : Prop := (t.grp s.cur.grp).sysWait = some w ∧ (t.grp s.cur.grp).ctl = g.ctl
    ((s.ctx ctx).tlbi = false → exec (.tlbinv a all) s = .next (s.fail (Fail.illegal 2))) ∧
    ((s.ctx ctx).tlbi = true → s.regsFree (if all then [] else spair a) [] 1 →
      ∃ t, exec (.tlbinv a all) s = .next t ∧ t.mem = s.mem ∧ g.sameRegs (t.grp s.cur.grp) ∧
        (flying = [] → s.movedOn t ∧ (t.grp s.cur.grp).sysWait = g.sysWait) ∧
        (flying ≠ [] → waits t (.tlbinv s.cur va (flying.map (·.id)))) ∧
        (∀ c ∈ t.cores, ∀ e ∈ c.2.tlb, if all then e.ctx ≠ ctx else e.hits ctx (vaBits (g.sp a)) = false) ∧
        (∀ c ∈ t.itlb, ∀ e ∈ c.2, if all then e.ctx ≠ ctx else e.hits ctx (vaBits (g.sp a)) = false)) ∧
    (∃ t, exec .ctxwb s = .next t ∧ t.mem = s.mem ∧ g.sameRegs (t.grp s.cur.grp) ∧
      (s.coresHolding ctx = [] → t = s.finish) ∧
      (s.coresHolding ctx ≠ [] → ∃ ids, ids.length = (s.coresHolding ctx).length ∧ waits t (.ctxwb s.cur ids)) ∧
      ∀ c ∈ s.coresHolding ctx, ∀ l ∈ (t.core c).lines, l.ctx = ctx → l.dirty = 0) ∧
    (g.handler = .none → ∃ t, exec .hzreclaim s = .next t ∧ t.mem = s.mem ∧ g.sameRegs (t.grp s.cur.grp) ∧
      (s.toReclaim ctx = [] → t = s.finish) ∧
      (s.toReclaim ctx ≠ [] → waits t (.hzreclaim s.cur (s.toReclaim ctx)) ∧
        t = (settled (s.toReclaim ctx)).updGrp s.cur.grp fun x =>
          { x with sysWait := some (.hzreclaim s.cur (s.toReclaim ctx)) })) ∧
    (∀ c r, (c, r) ∈ s.toReclaim ctx ↔ c ∈ s.cores.map (·.1) ∧ s.runsOn c ctx = false ∧
      ((∃ y ∈ (s.core c).deltas, y.ctx = ctx ∧ y.region = r) ∨ ∃ y ∈ (s.core c).shares, y.ctx = ctx ∧ y.region = r)) ∧
    (g.handler ≠ .none → exec .hzreclaim s = .next (s.fail (Fail.illegal 4))) ∧
    (∀ w c, g.sysWait = some w → s.sysOver ctx w = true → c.kind = .group → c.grp = s.cur.grp →
      ((∃ va l, w = .tlbinv c va l) ∨ (∃ l, w = .ctxwb c l) ∨ ∃ l, w = .hzreclaim c l) →
      ((s.endSystem s.cur.grp).grp s.cur.grp).sysWait = none ∧ { s with cur := c }.movedOn (s.endSystem s.cur.grp)) ∧
    (g.handler = .none → exec (.pdone k) s = .next (s.fail (Fail.illegal 4))) ∧
    (g.handler = .preempt → s.regsFree [.s k] [] 1 →
      ((g.s k).toNat < 32 →
        ∃ t, exec (.pdone k) s = .next t ∧ t.mem = s.mem ∧ s.movedOn t ∧ g.sameRegs (t.grp s.cur.grp) ∧
          (t.grp s.cur.grp).pdone = some (g.s k).toNat ∧ (t.grp s.cur.grp).stopped = true) ∧
      (32 ≤ (g.s k).toNat → exec (.pdone k) s = .next (s.fail (Fail.illegal 5)))) ∧
    (g.handler = .resume → s.regsFree [.s k] [] 1 → ∀ c, g.saved = some c →
      ∃ t, exec (.pdone k) s = .next t ∧ t.mem = s.mem ∧ g.sameRegs (t.grp s.cur.grp) ∧
        (t.grp s.cur.grp).ctl = c ∧ (t.grp s.cur.grp).handler = .none ∧ (t.grp s.cur.grp).stopped = true) ∧
    ((s.ctx ctx).dbgr = false → exec (.dbgrd d a obj) s = .next (s.fail (Fail.illegal 2))) ∧
    ((s.ctx ctx).dbgr = true → s.regsFree [.v a] (vpair d) 1 →
      ((∀ i ∈ lanesOf s.cur.lanes, (s.debugObject s.cur.grp obj (g.v i a).toNat).isSome = true) →
        exec (.dbgrd d a obj) s = .next (s.afterWrites 1 fun i =>
          putPair d (BitVec.ofNat 64 ((s.debugObject s.cur.grp obj (g.v i a).toNat).getD 0)))) ∧
      ((∃ i ∈ lanesOf s.cur.lanes, s.debugObject s.cur.grp obj (g.v i a).toNat = none) →
        exec (.dbgrd d a obj) s = .next (s.fail Fail.window))) ∧
    (∀ n, (s.debugObject s.cur.grp 4 n = if n < 32 then some (if (g.fib n).occ then (g.fib n).pc.toNat else 0) else none) ∧
      (s.debugObject s.cur.grp 2 n = if n < 16 then
          let z := (s.blk g.blk).bar n
          some (z.expect % 64 + z.arrived % 64 * 64 + z.phase % 16 * 4096 + (g.barArr n).toNat * 2 ^ 32) else none) ∧
      (256 ≤ n → s.debugObject s.cur.grp 0 n = none) ∧ (16 ≤ n → s.debugObject s.cur.grp 1 n = none) ∧
      (n ≠ 0 → s.debugObject s.cur.grp 3 n = none))

/-- A request that a slice takes for a line under no exclusive lease, and that is no acquire of a line with a record
of another core or context: RD is answered by DATA with TIME P + lease, and LEXP becomes max(LEXP, TIME); RDH
and CPR by DATA with the line as it stands; WT, DRN and CPW write their masked bytes and are answered by ACK
with max(P, LEXP), and a WT with the mark leaves the release record of its core and context. At the management
unit reads and writes go to the device registers; at the host port a read asks the host, whose answer is a free
value, and a write leaves the part as one posted memory write for each run of its bytes, with their address, and
is acknowledged; at the Vreles ports both are kept for the peer's answer. (R394, R395, R398, R399, R133, R374,
R491) -/
def Obligations.HomeAnswersRequests : Prop :=
  ∀ (isle unit : Nat) (p : Packet) (s : State),
    let s0 := s.popUnit isle unit p
    let s1 := s0.updHome p.disle p.dunit p.loc p.pa fun h => h
    let h := s.homeLine p.disle p.dunit p.loc p.pa
    let line := p.pa % 2 ^ 26 / 128 * 128
    let off := p.aux.headD 0
    let len := 32 * p.aux.getD 1 4
    let data (q : Packet) (flits time lease : Nat) : Packet := { q.reply 0x10 vcR flits with
      time := time, data := s.lineAt p.loc, poison := s.poisonAt p.loc, aux := lease :: p.aux }
    let flits (q : Packet) : Nat := if q.sunit = unitWalker then 1 else 2
    let far : Packet := if p.aux.getD 1 0 = 1 then { p with sisle := p.aux.getD 2 0, sunit := p.aux.getD 3 0 } else p
    let written (u : State) : State :=
      let w := u.writeHome p.loc p.bmask p.data p.poison
      w.send { p.reply 0x11 vcR 0 with time := max s.ptime (w.homeLine p.disle p.dunit p.loc p.pa).lexp, aux := p.aux }
    let marked : State := if p.aux.headD 0 = 1 then s1.updHome p.disle p.dunit p.loc p.pa fun h =>
      { h with rrec := some (p.srcCore, p.ctx), renewed := h.draining } else s1
    let register (o n k : Nat) : State := s0.send { p.reply 0x10 vcR k with
      data := lineSet 0 o n (s0.devRead (line + o) n), poison := 0, aux := 0 :: p.aux }
    let stored : State := s0.writeBytes false
      (((List.range 128).filter fun i => p.bmask.getLsbD i).map fun i => (line + i, lineGet p.data i 1))
    let fromHost (o n k : Nat) (u : State) : Prop := ∃ v, u = (s0.emit (.hostRead ((p.pa + o) % 2 ^ 51) n)).send
      { p.reply 0x10 vcR k with data := lineSet 0 o n v, poison := 0, aux := 0 :: p.aux }
    let posted : State := { s0 with
      out := s.out ++ p.runs.map fun e => Out.hostWrite ((p.pa + e.1) % 2 ^ 51) e.2 }
    let accepted : State := if p.srcCore < 256 ∧ p.aux.getD 1 0 = 1 then
      posted.send { p.reply 0x11 vcR 0 with time := s.ptime, aux := p.aux } else posted
    let acked : State := accepted.send { p.reply 0x11 vcR 0 with
      tag := if p.srcCore < 256 then p.aux.headD 0 else p.tag, time := s.ptime, aux := p.aux }
    let kept (u : State) : Prop := u.mem = s.mem ∧ ∃ t : Nat, (t, p) ∈ u.mgmt.outWait
    (unit = unitMgmt → (s.takesPacket isle unit 0x02 p → exec (.rdh isle unit) s = .next (register 0 128 2)) ∧
      (s.takesPacket isle unit 0x09 p → exec (.cpr isle unit) s = .next (register off len (if off % 64 + len ≤ 64 then 1 else 2))) ∧
      (s.takesPacket isle unit 0x03 p → exec (.wt isle unit) s = .next (stored.send { p.reply 0x11 vcR 0 with time := stored.ptime, aux := p.aux })) ∧
      (s.takesPacket isle unit 0x0A p → exec (.cpw isle unit) s = .next (stored.send { p.reply 0x11 vcR 0 with time := stored.ptime, aux := p.aux }))) ∧
    (unit = unitHost → (s.takesPacket isle unit 0x02 p → ∃ u, exec (.rdh isle unit) s = .next u ∧ fromHost 0 128 2 u) ∧
      (s.takesPacket isle unit 0x09 p → ∃ u, exec (.cpr isle unit) s = .next u ∧
        fromHost off len (if off % 64 + len ≤ 64 then 1 else 2) u) ∧
      (s.takesPacket isle unit 0x03 p → exec (.wt isle unit) s = .next acked) ∧
      (s.takesPacket isle unit 0x0A p → exec (.cpw isle unit) s = .next acked) ∧
      (p.runs.flatMap fun e => e.2.mapIdx fun k b => (e.1 + k, b)) =
        ((List.range 128).filter fun i => p.bmask.getLsbD i).map fun i => (i, lineGet p.data i 1)) ∧
    (unit = unitVreles → (s.takesPacket isle unit 0x02 p → ∃ u, exec (.rdh isle unit) s = .next u ∧ kept u) ∧
      (s.takesPacket isle unit 0x09 p → ∃ u, exec (.cpr isle unit) s = .next u ∧ kept u) ∧
      (s.takesPacket isle unit 0x03 p → ∃ u, exec (.wt isle unit) s = .next u ∧ kept u) ∧
      (s.takesPacket isle unit 0x0A p → ∃ u, exec (.cpw isle unit) s = .next u ∧ kept u)) ∧
    (unit ≠ unitMgmt → unit ≠ unitHost → unit ≠ unitVreles → h.xhold = none →
      (p.isAcquire = true → (∀ r, h.rrec = some r → r = (p.srcCore, p.ctx)) ∧ h.draining = false) →
      (s.takesPacket isle unit 0x01 p → exec (.rd isle unit) s = .next
        ((s1.updHome p.disle p.dunit p.loc p.pa fun h => { h with lexp := max h.lexp (s.ptime + p.aux.headD 0) }).send
          (data p (flits p) (s.ptime + p.aux.headD 0) 1))) ∧
      (s.takesPacket isle unit 0x02 p → exec (.rdh isle unit) s = .next (s1.send (data far (flits far) 0 0))) ∧
      (s.takesPacket isle unit 0x09 p → exec (.cpr isle unit) s = .next
        (s1.send (data p (carried (lineMask off len)) 0 0))) ∧
      (s.takesPacket isle unit 0x03 p → exec (.wt isle unit) s = .next (written marked)) ∧
      (s.takesPacket isle unit 0x07 p → exec (.drn isle unit) s = .next (written s1)) ∧
      (s.takesPacket isle unit 0x0A p → exec (.cpw isle unit) s = .next (written s1)))

/-- After a write at home each byte of the line whose mask bit is set is the written byte, every other byte of
memory is what it was, the memory keeps its canonical form, and a packet sent afterwards changes no byte. An add
of X and status into the unpoisoned element at a location leaves there SatAdd96 of the element and the add, and
no other byte of memory changes; a poisoned element stays as it is, and a poisoned addend marks the element's
sector. HZQ applies its one add in one clock of the slice's arithmetic unit, HZD the elements of its line that
are not zero in ascending order in eight, and each is answered by ACK with the GWCT. (R95, R96, R149, R399,
R401, R5) -/
def Obligations.WritesAndAddsAtHome : Prop :=
  (∀ (s : State) (loc : Nat) (mask : BitVec 128) (d : LineData) (poison : Nat) (k : Packet),
    let t := (s.writeHome loc mask d poison).send k
    (∀ i, i < 128 → Memory.read t.mem (loc / 128 * 128 + i) =
      if mask.getLsbD i then BitVec.ofNat 8 (lineGet d i 1) else Memory.read s.mem (loc / 128 * 128 + i)) ∧
    (∀ a, a < loc / 128 * 128 ∨ loc / 128 * 128 + 128 ≤ a → Memory.read t.mem a = Memory.read s.mem a) ∧
    (Memory.wf s.mem = true → Memory.wf t.mem = true)) ∧
  (∀ (isle unit : Nat) (p : Packet) (s : State),
    let s1 := (s.popUnit isle unit p).updHome p.disle p.dunit p.loc p.pa fun h => h
    let acked (u : State) (l : List Nat) : State := u.send { p.reply 0x11 vcR 0 with
      time := max u.ptime (u.homeLine p.disle p.dunit p.loc p.pa).lexp, aux := l }
    (∀ (loc : Nat) (q : Int) (st : Nat), loc % 16 = 0 →
      let e := lineGet (s.lineAt loc) (loc % 128) 16
      let t := s.addElement loc q st false
      let n := lineGet (t.lineAt loc) (loc % 128) 16
      ((s.poisonAt loc).testBit (loc % 128 / 32) = true → t = s ∧ s.addElement loc q st true = s) ∧
      ((s.poisonAt loc).testBit (loc % 128 / 32) = false →
        ((s.addElement loc q st true).poisonAt loc).testBit (loc % 128 / 32) = true ∧
        ∀ a, a < loc ∨ loc + 16 ≤ a → Memory.read (s.addElement loc q st true).mem a = Memory.read s.mem a) ∧
      ((s.poisonAt loc).testBit (loc % 128 / 32) = false →
        elemX n = (satAdd96 (elemX e) (elemSt e) q st).1 ∧ elemSt n = (satAdd96 (elemX e) (elemSt e) q st).2 % 256 ∧
        ∀ a, a < loc ∨ loc + 16 ≤ a → Memory.read t.mem a = Memory.read s.mem a)) ∧
    ((s.homeLine p.disle p.dunit p.loc p.pa).xhold = none →
      (s.takesPacket isle unit 0x05 p → exec (.hzq isle unit) s = .next
        (acked ((s1.occupy p 1).addElement (p.loc + p.aux.getD 1 0) (signedOf 96 (p.aux.getD 2 0)) (p.aux.getD 3 0)
          (p.poison != 0))
          [p.aux.getD 4 0])) ∧
      (s.takesPacket isle unit 0x08 p → exec (.hzd isle unit) s = .next
        (acked ((List.range 8).foldl (fun (s : State) i =>
          let n := lineGet p.data (16 * i) 16
          if n = 0 then s else s.addElement (p.loc + 16 * i) (elemX n) (elemSt n) (p.poison.testBit (i / 2)))
          (s1.occupy p 8)) []))))

/-- ATOM_AT_HOME of a line under no lease: where a lease may be granted, the line is held for its core until P +
2000 ns and XGNT carries it; otherwise the predictor takes the core, the lanes apply one after the other in
ascending order, each for one clock of the slice's arithmetic unit, a mark leaves the release record, and ATR or
ACK answers. A request for a line under a lease waits, raises the counter, and the first one recalls the line.
RECALL and the lease end make the holder return the line by XRET, send its own dirty bytes after it and drop it;
XRET from the holder writes the line, ends the lease and serves what waits, and one from another core is
discarded; XGNT brings the line to the core, which performs the atomic that asked for it there, and returns it
at once where the core has no cache bank left. That an access of no core leaves LCORE and LTIME (log entry 19),
and that a core's own dirty bytes follow the line (60), are the model's choices. (R144, R279, R401, R402) -/
def Obligations.AtomicsAndLeasesAtHome : Prop :=
  ∀ (isle unit core loc : Nat) (p : Packet) (l : L1Line) (s : State),
    let s0 := s.popUnit isle unit p
    let s1 := s0.updHome p.disle p.dunit p.loc p.pa fun h => h
    let h := s.homeLine p.disle p.dunit p.loc p.pa
    let upd (u : State) (f : HomeLine → HomeLine) : State := u.updHome p.disle p.dunit p.loc p.pa f
    let back (c : Nat) (u : State) : State :=
      let v := if l.excl.isSome then u.send { Packet.toHome 0x14 vcR 2 c l.ctx 0 ⟨l.isle, l.slice, l.loc⟩ l.pa with
        data := l.xdata, poison := l.poison } else u
      (if l.dirty = 0 then v else v.sendDirty c l []).updCore c fun c =>
        { c with lines := c.lines.filter fun x => !(x.ctx == l.ctx && x.loc == l.loc) }
    let granted : State := match s.l1 p.dstCore p.ctx p.loc with
      | some _ => s0.updLines p.dstCore (fun x => x.ctx == p.ctx && x.loc == p.loc) fun x =>
        { x with valid := true, lease := p.time, data := lineMerge x.dirty x.data p.data, poison := p.poison
                 excl := some p.time, recalled := false, xdata := p.data }
      | none => (s0.makeRoom p.dstCore).updCore p.dstCore fun c => { c with lines := c.lines ++
        [⟨p.ctx, p.loc, p.pa, p.sisle, p.sunit, true, p.time, 0, p.data, p.poison, some p.time, false, p.data⟩] }
    (s.takesPacket isle unit 0x04 p → h.xhold = none → s1.joinWaits p = false →
      (p.isAcquire = true → (∀ r, h.rrec = some r → r = (p.srcCore, p.ctx)) ∧ h.draining = false) →
      (s.mayGrant p = true → exec (.atomAtHome isle unit) s = .next
        ((upd s1 fun h => { h with xhold := some (p.srcCore, s.ptime + 2000), recalled := false, waited := false }).send
          { p.reply 0x13 vcR 2 with
            time := s.ptime + 2000, data := s.lineAt p.loc, poison := s.poisonAt p.loc, aux := p.aux })) ∧
      (s.mayGrant p = false →
        let lanes := atomLanes (p.aux.drop 8)
        let s2 := if 256 ≤ p.srcCore then s1.occupy p lanes.length else (s1.occupy p lanes.length).updPred p fun x => ⟨
          if p.srcCore = x.lcore then (if x.ltime + 2000 ≤ s.ptime then x.cnt - 1 else x.cnt) else min (x.cnt + 1) 3,
          p.srcCore, s.ptime⟩
        let r := s2.atomAtLine p (p.aux.getD 0 0) (p.aux.getD 1 0) (p.aux.getD 2 0) lanes
        let s3 := if p.aux.getD 4 0 = 1 then
          upd r.1 fun h => { h with rrec := some (p.srcCore, p.ctx), renewed := h.draining } else r.1
        let s4 := if anyPoisoned r.2 then s3.logEvent else s3
        exec (.atomAtHome isle unit) s = .next
          (if p.aux.getD 3 0 = 1 then s3.send { p.reply 0x12 vcR 1 with aux := r.2 }
          else s4.send { p.reply 0x11 vcR 0 with
            time := max s4.ptime (s4.homeLine p.disle p.dunit p.loc p.pa).lexp, aux := [] }))) ∧
    (∀ x ∈ [(0x01, Instr.rd isle unit), (0x02, Instr.rdh isle unit), (0x03, Instr.wt isle unit),
        (0x04, Instr.atomAtHome isle unit), (0x05, Instr.hzq isle unit), (0x07, Instr.drn isle unit),
        (0x08, Instr.hzd isle unit), (0x09, Instr.cpr isle unit), (0x0A, Instr.cpw isle unit)],
      s.takesPacket isle unit x.1 p → unit ≠ unitMgmt → unit ≠ unitHost → unit ≠ unitVreles → s1.joinWaits p = false → ∀ holder, h.xhold = some holder →
        let s2 := upd (s1.updPred p fun x => { x with cnt := min (x.cnt + 1) 3 }) fun h =>
          { h with waited := true, recalled := true }
        exec x.2 s = .next (upd (if h.recalled then s2 else s2.send
          { Packet.basic 0x28 vcC 0 p.disle p.dunit (isleOf holder.1) (unitOfCore holder.1) p.ctx 0 with
            pa := p.pa, loc := p.loc }) fun h => { h with waiting := h.waiting ++ [p] })) ∧
    (s.takesPacket isle unit 0x28 p →
      (s.core p.dstCore).lines.find? (fun l => l.loc == p.loc && l.excl.isSome) = some l →
      exec (.recall isle unit) s = .next (back p.dstCore s0)) ∧
    (s.endedLease core loc = some l → exec (.exclusiveLeaseEnd core loc) s = .next (back core s)) ∧
    (s.takesPacket isle unit 0x14 p →
      (h.xhold.map Prod.fst ≠ some p.srcCore → exec (.xret isle unit) s = .next s0) ∧
      (h.xhold.map Prod.fst = some p.srcCore →
      let sp := if s.disp.pending.any (·.record.resume) then s0.updDisp fun d => { d with passDue := true } else s0
      let s2 := sp.writeHome p.loc (BitVec.allOnes 128) p.data p.poison
      let s3 := if h.waited then s2 else s2.updPred p fun x => { x with cnt := x.cnt - 1 }
      exec (.xret isle unit) s = .next (h.waiting.foldl (fun (s : State) q => s.atHome q)
        (upd s3 fun h => { h with xhold := none, recalled := false, waited := false, waiting := [] })))) ∧
    (s.takesPacket isle unit 0x13 p →
      let kept (u : State) : State := match u.l1 p.dstCore p.ctx p.loc with
        | some l => if u.lineRoom p.dstCore = 0 then u.evict p.dstCore l else u
        | none => u
      (granted.op? p.tag = none → exec (.xgnt isle unit) s = .next (kept granted)) ∧
      ∀ o op esz wide vec ret, granted.op? p.tag = some o → o.kind = .atomic op esz wide vec ret →
        exec (.xgnt isle unit) s = .next (kept ((granted.atomicHere o op (if vec then 8 * 2 ^ esz else if wide then 64 else 32)
          (if vec then 32 / 2 ^ esz else 1) (o.parts.filter fun x => x.st == .sent && x.line == p.loc / 128 * 128)).completeOp
            o.id)))

/-- An acquire of a line under no lease whose record names another core or context is held and DREQ goes to the
recorded core, or the base answers for a fenced one; DREQ makes the core drain the context, so that none of its
lines there is dirty; DDONE starts the wait for Gmax at the slice; and once package time has passed the largest
GWCT of a drain with no write-back left, the drain ends and its owner goes on: for a record it is cleared,
unless it was renewed since, which is the model's reading (log entry 17), and the acquires are served. (R130,
R134, R400) -/
def Obligations.RecordsAndDrains : Prop :=
  ∀ (isle unit d core ctx : Nat) (p : Packet) (e : Drain) (s : State),
    let s0 := s.popUnit isle unit p
    let s1 := s0.updHome p.disle p.dunit p.loc p.pa fun h => h
    let h := s.homeLine p.disle p.dunit p.loc p.pa
    let held := s1.updHome p.disle p.dunit p.loc p.pa fun h => { h with acquires := h.acquires ++ [p], draining := true }
    let q : Packet := { Packet.basic 0x20 vcC 0 p.disle p.dunit (isleOf core) (unitOfCore core) ctx 0 with
      pa := p.pa, loc := p.loc }
    let asked : State := if (s.chip (isleOf core)).state = 0 then held.send q
      else held.toUnit p.disle p.dunit { q.reply 0x21 vcC 0 with time := s.ptime } (s.bclk + 1)
    (∀ x ∈ [(0x02, Instr.rdh isle unit), (0x04, Instr.atomAtHome isle unit)], s.takesPacket isle unit x.1 p →
      unit ≠ unitMgmt → unit ≠ unitHost → unit ≠ unitVreles → p.isAcquire = true → h.xhold = none → s1.joinWaits p = false → h.rrec = some (core, ctx) →
      (h.draining = false → (core, ctx) ≠ (p.srcCore, p.ctx) → exec x.2 s = .next asked) ∧
      (h.draining = true → exec x.2 s = .next held)) ∧
    (s.takesPacket isle unit 0x20 p →
      (s.closedUnit isle unit = true →
        exec (.dreq isle unit) s = .next (s0.send { p.reply 0x21 vcC 0 with time := s.ptime })) ∧
      (s.closedUnit isle unit = false → ∃ t, exec (.dreq isle unit) s = .next t ∧
        ∀ l ∈ (t.core p.dstCore).lines, l.ctx = p.ctx → l.dirty = 0)) ∧
    (s.takesPacket isle unit 0x21 p → exec (.ddone isle unit) s = .next { s0 with
      nextId := s.nextId + 1
      drains := place s.drains s.nextId ⟨256, p.ctx, [], p.time, .home p.disle p.dunit p.loc p.pa⟩ }) ∧
    (s.drains.find? (fun x => x.1 == d) = some (d, e) →
      let u := { s with drains := s.drains.filter fun x => x.1 != d }
      (s.drainOver e = false → exec (.gwctPassed d) s = .next s) ∧
      (s.drainOver e = true → exec (.gwctPassed d) s = .next (u.passed e)) ∧
      (s.drainOver e = true → ∀ hi hs hl hp, e.owner = .home hi hs hl hp →
        let h := s.homeLine hi hs hl hp
        exec (.gwctPassed d) s = .next (h.acquires.foldl (fun (s : State) q => s.atHome q)
          (u.updHome hi hs hl hp fun h =>
            { h with rrec := if h.renewed then h.rrec else none, renewed := false, draining := false, acquires := [] }))))

/-- An answer to a core: DATA of a load gives each waiting part of its line its bytes, with the dirty bytes of the
core's own line over them when the line came under a lease, and installs such a line; DATA of an ldt gives each
waiting element of its line its value and status; ATR gives each lane its old value; ACK of a write, add or
settle completes the parts it acknowledges; and an operation all of whose parts are done is finished. An answer
for an engine goes to its command, and one whose operation is gone has no effect. (R113, R122, R276, R279, R283,
R394) -/
def Obligations.AnswersReachTheirOperations : Prop :=
  ∀ (isle unit : Nat) (p : Packet) (s : State),
    let s1 := s.popUnit isle unit p
    let ours (o : Op) : Part → Bool := fun x => (o.parts.filter fun x => x.st == .sent && x.line == p.loc / 128 * 128).contains x
    (s.takesPacket isle unit 0x10 p →
      (s.isTicket p.tag = true → exec (.dataArrive isle unit) s = .next (s1.answerTicket p.tag p.data p.poison 0)) ∧
      (s.isTicket p.tag = false → p.dstCore < 256 → s.op? p.tag = none → exec (.dataArrive isle unit) s = .next s1) ∧
      (s.isTicket p.tag = false → 256 ≤ p.dstCore → 176 ≤ p.dunit ∧ p.dunit < 184 →
        exec (.dataArrive isle unit) s = .next (s1.engineData isle p)) ∧
      (s.isTicket p.tag = false → 256 ≤ p.dstCore → p.dunit < 176 ∨ 184 ≤ p.dunit →
        exec (.dataArrive isle unit) s = .next s1) ∧
      ∀ o, s.isTicket p.tag = false → p.dstCore < 256 → s.op? p.tag = some o →
        ((∀ eps, o.kind ≠ .ldt eps) →
          (p.aux.headD 0 ≠ 1 → exec (.dataArrive isle unit) s = .next
            ((s1.updParts o.id (ours o) fun x => x.take p.data p.poison).completeOp o.id)) ∧
          (p.aux.headD 0 = 1 → s.l1 o.core o.ctx p.loc = none →
            let s2 := s1.updParts o.id (ours o) fun x => x.take p.data p.poison
            exec (.dataArrive isle unit) s = .next ((if o.mark then s2 else
              s2.installLine o.core { p with disle := p.sisle, dunit := p.sunit }).completeOp o.id)) ∧
          (∀ l, p.aux.headD 0 = 1 → s.l1 o.core o.ctx p.loc = some l →
            let s2 := s1.updParts o.id (ours o) fun x =>
              x.take (lineMerge l.dirty l.data p.data) (p.poison &&& (15 - fullSectors l.dirty))
            exec (.dataArrive isle unit) s = .next ((if o.mark then s2 else
              s2.installLine o.core { p with disle := p.sisle, dunit := p.sunit }).completeOp o.id))) ∧
        (∀ eps, o.kind = .ldt eps → exec (.dataArrive isle unit) s = .next
          ((s1.updParts o.id (ours o) fun x =>
            let n := lineGet p.data x.off 16
            let w := match s.regionAt x.pa with
              | some r => (s.region r).exponent
              | none => 0
            { x with data := (readW96 (elemX n) (elemSt n) w).toNat + elemSt n * 2 ^ 32
                     st := .done, poison := x.poisoned p.poison }).completeOp o.id))) ∧
    (s.takesPacket isle unit 0x12 p →
      (s.isTicket p.tag = true → exec (.atr isle unit) s = .next (s1.answerTicket p.tag
        (BitVec.ofNat 1024 (p.aux.getD 1 0)) (if p.aux.getD 2 0 = 1 then 15 else p.poison) 0)) ∧
      (s.isTicket p.tag = false → s.op? p.tag = none → exec (.atr isle unit) s = .next s1) ∧
      ∀ o, s.isTicket p.tag = false → s.op? p.tag = some o → exec (.atr isle unit) s = .next
        (((oldValues p.aux).foldl (fun (u : State) e => u.updParts o.id (fun x => x.lane == e.1 && x.st == .sent) fun x =>
          { x with data := e.2.1, poison := e.2.2 || p.poison != 0, st := .done }) s1).completeOp o.id)) ∧
    (s.takesPacket isle unit 0x11 p →
      (s.isTicket p.tag = true → exec (.ackArrive isle unit) s = .next (s1.answerTicket p.tag 0 0 p.time)) ∧
      (s.isTicket p.tag = false → 256 ≤ p.dstCore → 176 ≤ p.dunit ∧ p.dunit < 184 →
        exec (.ackArrive isle unit) s = .next (s1.engineAck p.tag p.time)) ∧
      (s.isTicket p.tag = false → 256 ≤ p.dstCore → p.dunit < 176 ∨ 184 ≤ p.dunit →
        exec (.ackArrive isle unit) s = .next s1) ∧
      (s.isTicket p.tag = false → p.dstCore < 256 → p.sunit ≠ unitFilter → ∀ x, s.flights.find? (fun e => e.1 == p.tag) = some x →
        exec (.ackArrive isle unit) s = .next (s1.landFlight p.tag p.time x.2)) ∧
      (s.isTicket p.tag = false → p.dstCore < 256 → p.sunit = unitFilter → exec (.ackArrive isle unit) s = .next (s1.openAnswer p)) ∧
      (s.isTicket p.tag = false → p.dstCore < 256 → p.sunit ≠ unitFilter → s.flights.find? (fun e => e.1 == p.tag) = none →
        (s.op? p.tag = none → exec (.ackArrive isle unit) s = .next s1) ∧
        ∀ o, s.op? p.tag = some o → exec (.ackArrive isle unit) s = .next
          ((s1.updParts o.id (o.acknowledged p) fun x => { x with st := .done }).completeOp o.id)))

/-- SHREQ of a core in the map: while a split is under way it waits; otherwise it is refused while loads wait,
granted half of U where U is at least 2^32, and else the largest holder is told to split, or it is refused when
that holder has fewer than 2 units. SHGNT installs the units or sends the waiting adds home. SPLIT halves the
share, draining first where the tracker exceeds the half; SETTLE and 64 us without an add give it up; a holder
already giving it up answers 0. Refusing an SHREQ after SPDONE while loads wait, answering 0 while a message is
owed, and sending the adds home on a grant of 0 are log entry 27's readings, draining at a split only past the
new S log 70's. SPDONE and SURR of a holder in the map give units back to U and serve what waits; messages of a
core that has left the map have no effect. (R149, R150, R152, R404, R405, R408) -/
def Obligations.HazeSharesMove : Prop :=
  ∀ (isle unit : Nat) (p : Packet) (s : State),
    let s1 := s.popUnit isle unit p
    let n := p.aux.headD 0
    let r := s.region n
    let toCore (u : State) (typ c ctx : Nat) (aux : List Nat) : State := u.send
      { Packet.basic typ vcC 0 r.hisle r.hslice (isleOf c) (unitOfCore c) ctx 0 with aux := aux }
    let toHome (u : State) (typ units : Nat) : State := u.send
      { Packet.basic typ vcC 0 (isleOf p.dstCore) (unitOfCore p.dstCore) r.hisle r.hslice p.ctx 0 with
        aux := [n, units, p.dstCore] }
    let gone (u : State) (l : List Packet) : State := u.updRegion n fun r => { r with asks := l }
    let asker := p.aux.getD 1 0
    let refused := gone (toCore s1 0x23 asker p.ctx [n, 0]) []
    (s.takesPacket isle unit 0x22 p →
      ((s.chip (isleOf asker)).state ≠ 0 → exec (.shreq isle unit) s = .next s1) ∧
      ((s.chip (isleOf asker)).state = 0 →
        (∀ k, r.splitting = some k → exec (.shreq isle unit) s = .next (gone s1 (r.asks ++ [p]))) ∧
        (r.splitting = none →
          (r.loads ≠ [] → exec (.shreq isle unit) s = .next refused) ∧
          (r.loads = [] → 2 ^ 32 ≤ r.unalloc → exec (.shreq isle unit) s = .next
            (gone (toCore (s1.updRegion n fun r => { r with unalloc := r.unalloc - r.unalloc / 2 }.record asker p.ctx
              (r.unitsOf asker p.ctx + r.unalloc / 2)) 0x23 asker p.ctx [n, r.unalloc / 2]) [])) ∧
          (r.loads = [] → r.unalloc < 2 ^ 32 → r.largest = none → exec (.shreq isle unit) s = .next refused) ∧
          ∀ x, r.loads = [] → r.unalloc < 2 ^ 32 → r.largest = some x →
            (x.2.2 < 2 → exec (.shreq isle unit) s = .next refused) ∧
            (2 ≤ x.2.2 → exec (.shreq isle unit) s = .next ((toCore s1 0x24 x.1 x.2.1 [n]).updRegion n fun r =>
              { r with splitting := some x.1, asks := [p] }))))) ∧
    (s.takesPacket isle unit 0x23 p →
      (asker ≠ 0 → exec (.shgnt isle unit) s = .next (s1.updShare p.dstCore p.ctx n fun h =>
        { h with asked := false, units := asker, tracker := 0, lastAdd := s.ptime })) ∧
      (asker = 0 → ((s1.waitersHome p.dstCore p.ctx n fun _ => true).share? p.dstCore p.ctx n) = none →
        exec (.shgnt isle unit) s = .next (s1.waitersHome p.dstCore p.ctx n fun _ => true)) ∧
      (∀ h, asker = 0 → ((s1.waitersHome p.dstCore p.ctx n fun _ => true).share? p.dstCore p.ctx n) = some h →
        exec (.shgnt isle unit) s = .next (if h.answer.isEmpty && h.drains.isEmpty then
          (s1.waitersHome p.dstCore p.ctx n fun _ => true).updCore p.dstCore fun c =>
            { c with shares := c.shares.filter fun x => !(x.ctx == p.ctx && x.region == n) }
          else (s1.waitersHome p.dstCore p.ctx n fun _ => true).updShare p.dstCore p.ctx n fun h =>
            { h with asked := false }))) ∧
    (s.takesPacket isle unit 0x24 p →
      (s.share? p.dstCore p.ctx n = none → exec (.splitShare isle unit) s = .next (toHome s1 0x25 0)) ∧
      ∀ h, s.share? p.dstCore p.ctx n = some h →
        (h.answer ≠ [] → exec (.splitShare isle unit) s = .next (s1.owe p.dstCore p.ctx n 0x25 0)) ∧
        (h.answer = [] →
          let beyond := (num32 h.tracker).compare (r.shareBound (h.units / 2)) == some .greater
          let s2 := if beyond then s1.drainRegion p.dstCore p.ctx n else s1
          exec (.splitShare isle unit) s = .next ((s2.updShare p.dstCore p.ctx n fun h' => { h' with units := h.units / 2 }).owe
            p.dstCore p.ctx n 0x25 (h.units - h.units / 2)))) ∧
    (s.takesPacket isle unit 0x26 p →
      (s.share? p.dstCore p.ctx n = none → exec (.settle isle unit) s = .next (toHome s1 0x27 0)) ∧
      ∀ h, s.share? p.dstCore p.ctx n = some h →
        (h.answer ≠ [] → exec (.settle isle unit) s = .next (s1.owe p.dstCore p.ctx n 0x27 0)) ∧
        (h.answer = [] → exec (.settle isle unit) s = .next
          (((s1.drainRegion p.dstCore p.ctx n).updShare p.dstCore p.ctx n fun h =>
            { h with units := 0, tracker := 0 }).owe p.dstCore p.ctx n 0x27 h.units))) ∧
    (∀ core ctx region h, s.share? core ctx region = some h →
      (h.units ≠ 0 → h.answer = [] → h.lastAdd + 64000 ≤ s.ptime → exec (.hazeIdleSurrender core ctx region) s = .next
        (((s.drainRegion core ctx region).updShare core ctx region fun h =>
          { h with units := 0, tracker := 0 }).owe core ctx region 0x27 h.units)) ∧
      (h.units = 0 ∨ h.answer ≠ [] ∨ s.ptime < h.lastAdd + 64000 → exec (.hazeIdleSurrender core ctx region) s = .next s)) ∧
    (s.takesPacket isle unit 0x25 p →
      ((s.chip (isleOf (p.aux.getD 2 0))).state ≠ 0 → exec (.spdone isle unit) s = .next s1) ∧
      ((s.chip (isleOf (p.aux.getD 2 0))).state = 0 →
        let s2 := s1.giveBack n (p.aux.getD 2 0) p.ctx asker
        let s3 := s2.updRegion n fun r => { r with splitting := none, asks := [] }
        (r.asks = [] → exec (.spdone isle unit) s = .next s3) ∧
        ∀ q t, r.asks = q :: t → exec (.spdone isle unit) s = .next
          ((if r.loads.isEmpty then s3.grantShare n q else s3.refuseShare n q).serveAsks n t))) ∧
    (s.takesPacket isle unit 0x27 p →
      ((s.chip (isleOf (p.aux.getD 2 0))).state ≠ 0 → exec (.surr isle unit) s = .next s1) ∧
      ((s.chip (isleOf (p.aux.getD 2 0))).state = 0 → exec (.surr isle unit) s = .next
        (((s1.giveBack n (p.aux.getD 2 0) p.ctx asker).updRegion n fun r =>
          { r with settling := r.settling.filter (· != (p.aux.getD 2 0, p.ctx)) }).serveLoads n)))

/-- A tolerant load or settle joins those that wait at its region home. Every waiting load whose tolerance the
outstanding units satisfy is read for its core at the element's home; an hzsettle all of whose regions have
every unit back is acknowledged for all of them together; and where loads still wait with no settle under way
the largest holder is told to SETTLE. DOPEN at a cluster filter of a core in the map records the core and
forwards the notice, or refuses a new line where the filter is full; at a directory it records the cluster and
answers, or refuses where it is full; that of another core has no effect. DCLOSE takes the core, and with the
cluster's last line of the tracking region the cluster, out again. (R152, R153, R406, R407) -/
def Obligations.TolerantLoadsAndFilters : Prop :=
  ∀ (isle unit : Nat) (p : Packet) (s : State),
    let s1 := s.popUnit isle unit p
    let n := p.aux.headD 0
    let core := p.aux.getD 1 0
    let r := s.region n
    let all := r.loads ++ [(core, p)]
    let answer (u : State) (code : Nat) : State := u.send
      { Packet.basic 0x11 vcR 0 p.disle unitFilter (isleOf core) (unitOfCore core) p.ctx p.tag with
        pa := p.pa, loc := p.loc, aux := [code, n] }
    let onward (u : State) : State := u.send { p with
      sisle := p.disle, sunit := unitFilter, disle := p.aux.getD 2 0, dunit := unitFilter, aux := p.aux ++ [1] }
    let read (u : State) (q : Packet) : State := u.send
      { Packet.basic 0x02 vcL 0 r.hisle r.hslice (q.aux.getD 2 0) (q.aux.getD 3 0) q.ctx q.tag with
        pa := q.pa / 128 * 128, loc := q.loc / 128 * 128, aux := [0, 1, q.sisle, q.sunit, q.aux.getD 4 0] }
    let ready : Nat × Packet → Bool := fun e => e.1 != 256 && r.within e.1
    let returned (u : State) : State := (all.filter ready).foldl
      (fun (u : State) e => if e.2.aux.getD 1 0 = 256 then u.answerAck e.2 u.ptime else read u e.2)
      (u.updRegion n fun r => { r with loads := all.filter fun e => !ready e })
    let settled (u : State) : State := (all.filter fun e => e.1 == 256).foldl (fun (u : State) e => u.finishSettle e.2) u
    let fkey := filterKey (clusterOf core) n
    let dkey := dirKey p.disle n
    (s.takesPacket isle unit 0x06 p →
      let u := settled (returned (s1.updRegion n fun r => { r with loads := all }))
      ((u.region n).loads = [] ∨ (u.region n).settling ≠ [] ∨ (u.region n).largest = none →
        exec (.tolerantLoadRequest isle unit) s = .next u) ∧
      ∀ x, (u.region n).loads ≠ [] → (u.region n).settling = [] → (u.region n).largest = some x →
        exec (.tolerantLoadRequest isle unit) s = .next
          ((u.send { Packet.basic 0x26 vcC 0 (u.region n).hisle (u.region n).hslice (isleOf x.1) (unitOfCore x.1) x.2.1 0 with
            aux := [n] }).updRegion n fun r => { r with settling := [(x.1, x.2.1)] })) ∧
    (∀ (q : Packet) (u : State), (u.allSettled q = true → u.finishSettle q = u.regions.foldl (fun (v : State) e =>
        (e.2.loads.filter (sameSettle q)).foldl
          (fun (v : State) x => if x.2.aux.getD 1 0 = 256 then v.answerAck x.2 v.ptime else v.finishLoad e.1 x.2)
          (v.updRegion e.1 fun r => { r with loads := r.loads.filter fun x => !sameSettle q x })) u) ∧
      (u.allSettled q = false → u.finishSettle q = u)) ∧
    (s.takesPacket isle unit 0x29 p → (s.chip (isleOf core)).state = 0 →
      (p.aux.length = 5 →
        (look [] s.directory dkey = [] → 65536 ≤ entriesOf s.directory p.disle →
          exec (.dopen isle unit) s = .next (answer s1 2)) ∧
        (look [] s.directory dkey ≠ [] ∨ entriesOf s.directory p.disle < 65536 → exec (.dopen isle unit) s = .next
          (answer { s1 with directory := place s.directory dkey ((clusterOf core :: look [] s.directory dkey).dedup) } 0))) ∧
      (p.aux.length ≠ 5 →
        (look [] s.filters fkey = [] → 16384 ≤ entriesOf s.filters (clusterOf core) →
          exec (.dopen isle unit) s = .next (answer s1 1)) ∧
        (look [] s.filters fkey ≠ [] ∨ entriesOf s.filters (clusterOf core) < 16384 → exec (.dopen isle unit) s = .next
          (onward { s1 with filters := place s.filters fkey ((core :: look [] s.filters fkey).dedup) })))) ∧
    (s.takesPacket isle unit 0x29 p → (s.chip (isleOf core)).state ≠ 0 → exec (.dopen isle unit) s = .next s1) ∧
    (s.takesPacket isle unit 0x2A p →
      (p.aux.length = 5 → exec (.dclose isle unit) s = .next { s1 with
        directory := put [] s.directory dkey ((look [] s.directory dkey).filter (· != clusterOf core)) }) ∧
      (p.aux.length ≠ 5 →
        let s2 := { s1 with filters := put [] s.filters fkey ((look [] s.filters fkey).filter (· != core)) }
        exec (.dclose isle unit) s = .next (if s2.filterHolds (clusterOf core) n then s2 else onward s2)))

/-- An arrival at a barrier unit is recorded under its gang, barrier and level and the phase is checked; a release
at a core completes the barrier there, for the fibres whose arrival the phase counted, those of the next phase
waiting on, and at an isle's unit goes on to its blocks; a slew window admits the first SLEWA cores from
SLEWPTR. A port that may arbitrate sends its chosen candidate, ages the others, and gives the packet consecutive
slots; an arriving packet, with poison marks for its flits with uncorrectable errors, joins its buffer, or is a
fabric error on a channel not its own; STOP at 72 flits and GO at 64 take effect two base clocks later (that GO
acts two later is log entry 39's reading; flit errors named by TAG in errs are log 59's choice). (R287, R389,
R391, R392, R393, R394, R425, R426) -/
def Obligations.BarrierUnitsAndRouters : Prop :=
  ∀ (isle unit port input vc k : Nat) (p : Packet) (f : Flying) (s : State),
    let s1 := s.popUnit isle unit p
    let gang := p.aux.headD 0
    let g := p.aux.getD 1 0
    let from_ := p.aux.getD 2 0
    let e : Nat × Nat := if 1000 ≤ from_ then (g + 272, from_ - 1000)
      else if (s.gang gang).field 540 1 = 1 then ((1 + p.disle) * 16 + g, from_) else (g, from_)
    let sk := stopKey isle input vc
    (s.takesPacket isle unit 0x30 p → p.aux.getD 3 0 = 0 → exec (.barArrival isle unit) s = .next
      ((s1.setArrived gang e.1 (s.arrivedAt gang e.1 ++ [e.2])).unitCheck gang g)) ∧
    (s.takesPacket isle unit 0x30 p → p.aux.getD 3 0 = 1 →
      (1000 ≤ from_ → exec (.barRelease isle unit) s = .next (s1.releaseBlocks gang g p.disle false)) ∧
      (∀ b, from_ < 1000 → (s.gang gang).blocks.find? (fun b => (s.blk b).num == from_ && (s.blk b).live) = some b →
        (let ctx := (s.gang (s.blk b).gang).ctx
        let s2 := ((s.blk b).cores.foldl (fun (u : State) c => u.selfInvalidate c ctx) s1).updBlk b fun y =>
          { y with gbarDone := y.gbarDone.filter (· != g) }
        let ended (o : Op) : Op :=
          if o.stage = .phase ∧ (s.blk b).groups.contains o.grp then
            if o.kind = .gbar g false then { o with stage := .finished }
            else if o.kind = .gbar g true then { o with kind := .gbar g false } else o
          else o
        exec (.barRelease isle unit) s = .next ({ s2 with ops := s2.ops.map ended }.gbarCheck b g))) ∧
      (from_ < 1000 → (s.gang gang).blocks.find? (fun b => (s.blk b).num == from_ && (s.blk b).live) = none →
        exec (.barRelease isle unit) s = .next s1)) ∧
    (s.slewDue = true → ∃ t, exec .slewWindow s = .next t ∧
      (∀ c ∈ (s.slewOrder (s.disp.slewGang.getD 0)).take s.disp.slewa, (t.core c).admitted = true) ∧
      (∀ c, c ∉ (s.slewOrder (s.disp.slewGang.getD 0)).take s.disp.slewa → t.core c = s.core c) ∧
      ∀ c, ((s.slewOrder (s.disp.slewGang.getD 0)).take s.disp.slewa).getLast? = some c →
        t.disp.slewptr = (c + 1) % 256) ∧
    (∀ u c, s.arbitrates isle port = true → s.choose isle port (s.candidates isle port) = (u, some c) →
      ∃ t, exec (.arbitrationCycle isle port) s = .next t ∧ t.mem = s.mem ∧
        t.mesh.links = s.mesh.links ++ [if port = 4 then ⟨s.bclk + 1, isle, none, c.pkt⟩
          else ⟨s.bclk + 2, neighbour isle port, some (farInput port), c.pkt⟩] ∧
        look 0 t.mesh.slot (isle * 5 + port) = s.freeSlot isle port + 1 + c.pkt.dlen) ∧
    (s.mesh.links[k]? = some f → s.arrives k = true →
      let landed := (s.updMesh fun m => { m with links := m.links.eraseIdx k }).markFlits f.pkt
      let s2 := landed.1
      (∀ i, (landed.2).poison.testBit i = (f.pkt.poison.testBit i ||
        s.errs.any fun e => match e with
          | .flit tag j => tag == f.pkt.tag && decide (j ≤ f.pkt.dlen) && (f.pkt.flitMarks j).testBit i
          | _ => false)) ∧
      (f.input = none → exec (.packetArrival k) s = .next (s2.toUnit f.isle f.pkt.dunit landed.2 s.bclk)) ∧
      ∀ i, f.input = some i →
        (channelOf f.pkt.typ ≠ f.pkt.vc → exec (.packetArrival k) s = .next s2.logEvent) ∧
        (channelOf f.pkt.typ = f.pkt.vc → exec (.packetArrival k) s = .next (s2.updMesh fun m => { m with
          inputs := place m.inputs (inKey f.isle i f.pkt.vc) (look [] m.inputs (inKey f.isle i f.pkt.vc) ++
            [{ landed.2 with elig := s.bclk + 1, age := 0 }]) }))) ∧
    (s.signalsStop sk = false → 72 ≤ s.bufferFlits isle input vc →
      exec (.stopSignal isle input vc) s = .next (s.updMesh fun m => { m with stops := place m.stops sk (((look [] m.stops sk).filter fun e => decide (s.bclk < e.2)) ++ [(s.bclk + 2, 0)]) })) ∧
    (s.signalsStop sk = true → s.bufferFlits isle input vc ≤ 64 →
      exec (.goSignal isle input vc) s = .next (s.updMesh fun m => { m with stops := place m.stops sk ((look [] m.stops sk).map fun e => if e.2 = 0 then (e.1, s.bclk + 2) else e) }))

/-- A trap of a group outside trap mode and handler mode whose TVEC is neither 0 nor misaligned: the group is in
trap mode; TCAUSE, TLANES, TOLANES, TPC, TIDX and TADDR are those of the trap; every lane of the trap set has PC
= TVEC, keeps a breakpoint of its clause for the return, and has its window base, predicates and occupancy as
they were; every other lane, the registers, masks and counters, every other group, and memory are what they
were. With TVEC 0 or misaligned, in trap mode, or in a resume handler, the group's gang is terminated with a
report of kind 0x02; in a pre-emption handler the group stops and is to be saved by hardware. (R349, R351, R353,
R44, R233, R361, R363) -/
def Obligations.TakingATrap : Prop :=
  ∀ (s : State) (g cause info port : Nat) (set tolanes : W32) (tpc : W64) (tidx : Nat) (addr : Option W64),
    let x := s.grp g
    let t := s.takeTrap g set cause info port tolanes tpc tidx addr
    let y := t.grp g
    (g < s.groups.length → x.handler = .none → x.ctl.trapMode = false → x.ctl.tvec ≠ 0 → x.ctl.tvec.toNat % 4 = 0 →
      y.ctl.trapMode = true ∧ y.ctl.tlanes = set ∧ y.ctl.tolanes = tolanes ∧ y.ctl.tpc = tpc ∧ y.ctl.tidx = tidx ∧
      y.ctl.taddr = addr.getD 0 ∧ y.ctl.tvec = x.ctl.tvec ∧
      y.ctl.tcause = BitVec.ofNat 32 (cause + port * 256 + (if addr.isSome then 512 else 0) + info * 65536) ∧
      (∀ i, i < x.ctl.fibs.length → set.getLsbD i = true → (y.fib i).pc = x.ctl.tvec ∧ (y.fib i).code = none ∧
        (y.fib i).wait = .none ∧ (y.fib i).bkptHeld = (x.fib i).bkptCode ∧ (y.fib i).wb = (x.fib i).wb ∧ (y.fib i).pred = (x.fib i).pred ∧
        (y.fib i).occ = (x.fib i).occ) ∧
      (∀ i, i < x.ctl.fibs.length → set.getLsbD i = false → y.fib i = x.fib i) ∧
      x.sameRegs y ∧ y.ctl.masks = x.ctl.masks ∧ y.ctl.sb = x.ctl.sb ∧ t.mem = s.mem ∧
      (∀ k, k ≠ g → t.grp k = s.grp k)) ∧
    (g < s.groups.length → x.handler = .preempt → t.mem = s.mem ∧ y.stopped = true ∧ y.hwsave = true ∧ y.ctl = x.ctl ∧
      x.sameRegs y) ∧
    (x.handler = .resume ∨ x.handler = .none ∧ (x.ctl.tvec = 0 ∨ x.ctl.tvec.toNat % 4 ≠ 0 ∨ x.ctl.trapMode = true) →
      t = s.terminate (s.gangOf g) (s.trapReport g cause (tpc + BitVec.ofNat 64 (4 * tidx)) (addr.getD 0)) ∧
      (s.trapReport g cause (tpc + BitVec.ofNat 64 (4 * tidx)) (addr.getD 0)).kind = 2)

/-- SCOREBOARD_DECREMENT of a finished operation whose time has come removes it, lowers its counter and writes its
registers, or with a failure writes none and records it. PENDING_WRITE_LANDS gives the due writes in order and
keeps the rest. CLAUSE_SKIP sends the lanes whose guard is false to the next header and no other lane.
TRANSLATION_WALK asks the home, or the unit its space goes to, for the entry of its level by RDH, or takes the
one that has come: a table is walked on at the next level, a leaf is put into the isle's cache, and a failure is
left with its waiters. MEMORY_ERROR_TRAP takes trap 0x09 at the header, in the slot's port, and
TILE_WAIT_TIMEOUT trap 0x0A at the waiting instruction; a sequencer's time-out is a stream fault. The order of
equally due writes of a port is log entry 51's choice, PORT 0 and TOLANES 0 of a time-out log 52's, the address
and moment of trap 0x09 log 28's reading. (R31, R67, R175, R176, R267, R292, R297, R347, R375, R382, R383) -/
def Obligations.GroupEventsAct : Prop :=
  ∀ (op g lanes b isle ctx vpn : Nat) (s : State),
    let x := s.grp g
    (∀ o, s.op? op = some o → o.stage = .finished → o.notBefore ≤ s.clockOf o.grp → o.grp < s.groups.length →
      let failed := o.failed || (!o.dsts.isEmpty && o.parts.any (·.poison))
      let y := s.grp o.grp
      ∃ t, exec (.scoreboardDecrement op) s = .next t ∧ t.mem = s.mem ∧ (∀ z ∈ t.ops, z.id ≠ o.id) ∧
        (t.grp o.grp).ctl.sb = (y.decCounter o.sb).ctl.sb ∧
        (failed = false → (t.grp o.grp).regs = (y.landAll o.writes).regs ∧
          (t.grp o.grp).sregs = (y.landAll o.writes).sregs) ∧
        (failed = true → (t.grp o.grp).regs = y.regs ∧ (t.grp o.grp).sregs = y.sregs ∧
          (t.grp o.grp).ctl.memErr = y.ctl.memErr ++ [(o.id * 8 + o.sb, o.addr)])) ∧
    (x.live = true → x.pend.any (fun p => decide (p.due ≤ s.clockOf g)) = true → exec (.pendingWriteLands g) s = .next
      (s.updGrp g fun x => { (x.landAll ((sortBy
        (fun a b => decide (a.due < b.due ∨ (a.due = b.due ∧ a.port < b.port)))
        (x.pend.filter fun p => decide (p.due ≤ s.clockOf g))).map fun p => (p.dst, p.val))) with
          pend := x.pend.filter fun p => decide (s.clockOf g < p.due) })) ∧
    (g < s.groups.length → ∃ t, exec (.clauseSkip g lanes) s = .next t ∧ t.mem = s.mem ∧ x.sameRegs (t.grp g) ∧
      ∀ i, i < x.ctl.fibs.length → i < 32 →
        (∀ c, (BitVec.ofNat 32 lanes).getLsbD i = true → (x.fib i).occ = true → (x.fib i).code = some c →
          (x.fib i).guardTrue c = false →
          (t.grp g).fib i = (x.fib i).atHeader (c.addr + BitVec.ofNat 64 (4 * (headWords c.head + 1)))) ∧
        ((BitVec.ofNat 32 lanes).getLsbD i = false ∨ (x.fib i).code = none → (t.grp g).fib i = x.fib i)) ∧
    (∀ w, (s.walksReady isle).find? (fun k => k.ctx == ctx && k.vpn == vpn) = some w →
      let va := w.vpn * 2 ^ 16
      let ends (r : Walked) : Prop := ∃ t, exec (.translationWalk isle ctx vpn) s = .next t ∧ t.mem = s.mem ∧
        match r with
        | .leaf e => e ∈ look [] t.itlb w.isle ∧ w ∉ t.walks
        | .absent => { w with failed := some .notPresent } ∈ t.walks
        | .poisoned => { w with failed := some .poisoned } ∈ t.walks
      (levels.drop w.level = [] ∨ w.level = 0 ∧ w.table = 0 → ends .absent) ∧
      ∀ l, (levels.drop w.level).head? = some l → ¬ (w.level = 0 ∧ w.table = 0) →
        let entry := w.table + 8 * bits va l.lo l.wd
        (s.namesMemory entry = false → ends .absent) ∧
        (s.namesMemory entry = true →
          let come := (s.ticket (.walk w.id)).lines.find? fun e => e.1 == w.level
          (come = none → exec (.translationWalk isle ctx vpn) s = .next
            ((s.took.setTicket { s.ticket (.walk w.id) with pend := [(s.fresh, w.level)] }).send
              { linePacket 0x02 vcL 0 w.isle unitWalker w.ctx (s.physHome entry) entry with
                aux := [0, 0, 0, 0, entry % 128 / 64], tag := s.fresh })) ∧
          ∀ k d poison, come = some (k, d, poison) →
            (poison.testBit (entry % 128 / 32) = true → ends .poisoned) ∧
            (poison.testBit (entry % 128 / 32) = false →
              match s.entryOf w.ctx va (levels.drop w.level) (lineGet d (entry % 128) 8) with
              | .leaf e => ends (.leaf e)
              | .absent => ends .absent
              | .table p => exec (.translationWalk isle ctx vpn) s = .next { s with walks := s.walks.map fun k =>
                  if k.id = w.id then { k with level := w.level + 1, table := p } else k }))) ∧
    (∀ c, let set := s.errorLanes g (x.fib (firstLane (BitVec.ofNat 32 lanes))).pc
      set ≠ 0 → set = BitVec.ofNat 32 lanes → (x.fib (firstLane set)).code = some c →
      let first := (x.errorsAt c).foldl (fun a e => if e.1 < a.1 then e else a) ((x.errorsAt c).headD (0, 0))
      let s' := s.updGrp g fun y => y.updCtl fun k =>
        { k with memErr := k.memErr.filter fun e => !(headWaits c.head).contains (e.1 % 8) }
      exec (.memoryErrorTrap g lanes) s = .next (s'.takeTrap g set 9 0 s.cur.port s.cur.other c.addr 0 (some first.2))) ∧
    (∀ c, s.timeoutLanes g ≠ 0 → s.timeoutLanes g = BitVec.ofNat 32 lanes →
      (x.fib (firstLane (s.timeoutLanes g))).code = some c →
      let s' := s.updGrp g fun y => y.updFibs (s.timeoutLanes g) fun _ f => { f with wdog := 0 }
      exec (.tileWaitTimeout g lanes) s = .next (s'.takeTrap g (s.timeoutLanes g) 0x0A 0 0 0 c.addr
        (x.fib (firstLane (s.timeoutLanes g))).word none)) ∧
    (∀ c, (s.blk b).live = true → (s.blk b).seq.stopped = false → 2 ^ 24 ≤ (s.blk b).seq.wdog →
      (s.blk b).seq.code = some c → exec (.seqTileWaitTimeout b) s = .next
        (s.streamFault b 0x1A (c.addr + BitVec.ofNat 64 (4 * max (s.blk b).seq.next 1))))

/-- GROUP_RETIRE of an empty group with every counter 0 retires it and makes a placement pass due; BLOCK_RETIRE
retires the block and starts its release; GANG_RETIRE frees the gang and makes its join decrement due;
JOIN_DECREMENT translates the counter, sends the atomic to its home and, when the old value was 1, reads the
block and pushes its record or drops it; a decrement that cannot be made or found 0 is reported. QUEUE_POP takes
a popped record that has been read into the pending list, or refuses it; asks for a head that holdback may hold;
or pops the record of the queue the arbiter picks, asks for it and tries held pushes again. PLACEMENT_PASS
places a gang that fits, keeps one that does not, or whose image a core holds exclusively, recalling it, refuses
one that never will; a pending entry blocks after 100 us. The windows latch the strait counters, slots from now
on counting in the new window, and compute M and HOT. GANG 0 and BLOCK 0 of a refused record's report are log
entry 61's choice, the decrement's packet log 19's, the readings of the dispatch rules log 37's. (R22, R55, R56,
R58, R59, R409, R414, R418, R420, R423, R427, R428) -/
def Obligations.GangsComeAndGo : Prop :=
  ∀ (g b ga : Nat) (s : State),
    (s.mayRetireGroup g = true → g < s.groups.length → ∃ t, exec (.groupRetire g) s = .next t ∧
      (t.grp g).retired = true ∧ t.disp.passDue = true ∧ t.mem = s.mem) ∧
    (s.mayRetireBlock b = true → b < s.blocks.length → ∃ t, exec (.blockRetire b) s = .next t ∧
      (t.blk b).retired = true ∧ (t.blk b).releasing = true ∧ t.drains? (.block b) = true ∧ t.mem = s.mem) ∧
    (s.mayRetireGang ga = true →
      ((s.gang ga).record.join = 0 → exec (.gangRetire ga) s = .next (s.freeGang ga)) ∧
      ((s.gang ga).record.join ≠ 0 → exec (.gangRetire ga) s = .next ((s.freeGang ga).updDisp fun d =>
        { d with joins := d.joins ++ [⟨ga, (s.gang ga).record.join, (s.gang ga).ctx⟩] }))) ∧
    (∀ j, s.disp.joins.find? (fun j => j.gang == ga && s.joinDue j) = some j →
      let a : Agent := .join j.gang
      let gone (u : State) : State := (u.schedForget a).updDisp fun d => { d with joins := d.joins.erase j }
      let fails : State := (gone s).report { (gone s).reportOf 0x05 j.gang with aux := j.va }
      let load := s.schedLoad a 1 j.ctx j.va
      let come := (s.ticket a).lines.find? fun e => e.1 == 0
      let hit := s.lookup (.agent a) none 0 j.ctx j.va .both
      (∀ k old poison, come = some (k, old, poison) →
        (poison ≠ 0 ∨ old = 0 → exec (.joinDecrement ga) s = .next fails) ∧
        (poison = 0 → old ≠ 0 → old ≠ 1 → exec (.joinDecrement ga) s = .next (gone s)) ∧
        (poison = 0 → old = 1 →
          (∀ u, load = .wait u → exec (.joinDecrement ga) s = .next u) ∧
          (load = .bad → exec (.joinDecrement ga) s = .next fails) ∧
          ∀ d poison, load = .got d poison →
            let cap := lineGet d 32 32
            (poison ≠ 0 → exec (.joinDecrement ga) s = .next fails) ∧
            (poison = 0 → exec (.joinDecrement ga) s = .next
              (if (gone s).capOk cap 107 then (gone s).pushRecord (capQueue cap) (leBytes 64 (lineGet d 64 64))
              else (gone s).dropQueue (capQueue cap))))) ∧
      (come = none →
        (hit = .miss → exec (.joinDecrement ga) s = .next (s.startWalk (.agent a) 0 j.ctx j.va)) ∧
        (∀ f, hit = .bad f → exec (.joinDecrement ga) s = .next fails) ∧
        ∀ x, hit = .ok x →
          (s.homeOfXl j.ctx x = none → exec (.joinDecrement ga) s = .next fails) ∧
          ∀ h, s.homeOfXl j.ctx x = some h →
            let v := s.tookWalks (.agent a)
            exec (.joinDecrement ga) s = .next
              ((v.took.setTicket { v.ticket a with pend := [(v.fresh, 0)] }).send
                { linePacket 0x04 vcL 1 0 unitSched j.ctx (some h) x.pa with
                  aux := [15, 32, 1, 1, 0, 0, 0, 1, 0, x.pa % 128, 0, 0], tag := v.fresh }))) ∧
    (∀ p, s.popReady = some p →
      let gone (u : State) : State := (u.schedForget (.pop p.id)).updDisp fun d =>
        { d with popping := d.popping.erase p }
      (∀ u, s.readRecord (.pop p.id) p.ctx p.pa = .wait u → exec .queuePop s = .next u) ∧
      ∀ w desc header, s.readRecord (.pop p.id) p.ctx p.pa = .got w desc header →
        (recordOk w desc header = true → exec .queuePop s = .next ((gone s).updDisp fun d => { d with
          passDue := true
          pending := (d.pending.filter fun x => decide (p.pri ≤ x.pri)) ++
            [⟨p.queue, BitVec.ofNat 64 p.pa, recordOf w, desc.getD 0, p.ctx, p.pri, s.ptime, false⟩] ++
            d.pending.filter fun x => decide (x.pri < p.pri) })) ∧
        (recordOk w desc header = false → exec .queuePop s = .next
          ((gone s).report ⟨0x06, 0, p.ctx, 1023, 0, 0, 255, 0, 0, 0, 0, BitVec.ofNat 64 p.pa⟩))) ∧
    (∀ n, s.popReady = none → s.askHead = some n → ∃ u, exec .queuePop s = .next u ∧ s.readHead n = .wait u ∧
      u.disp = s.disp ∧ u.mem = s.mem) ∧
    (s.popReady = none → s.askHead = none → s.popDue = true →
      let n := s.arbiter.1
      let q := s.qctl n
      let p : Popping := ⟨s.fresh, n, q.base + 64 * (q.head % q.len), q.owner, q.pri⟩
      let s1 := { s with timers := place s.timers 5600 (s.bclk + 1) }.updDisp fun d => { d with
        rr := place d.rr s.arbiter.2.1 (n + 1)
        hc := (s.arbiter.2.2.filter (· < s.arbiter.2.1)).foldl (fun m x => place m x (min (look 0 m x + 1) 256))
          (put 0 d.hc s.arbiter.2.1 0) }
      let s2 := (s1.took.schedForget (.queue n)).updQ n fun q => { q with head := (q.head + 1) % 2 ^ 32 }
      let s3 := s2.updDisp fun d => { d with popping := d.popping ++ [p] }
      let s4 := match s3.readRecord (.pop p.id) p.ctx p.pa with
        | .wait t => t
        | .got .. => s3
      n ∈ s.eligibleQueues ∧ exec .queuePop s = .next (s4.retryHeld n s4.disp.held)) ∧
    (s.disp.passDue = true →
      let s1 := s.updDisp fun d => { d with passDue := false }
      exec .placementPass s = .next (s1.pass [] s.disp.pending) ∧
      (s.disp.pending = [] → exec .placementPass s = .next (s1.updDisp fun d => { d with pending := [] })) ∧
      (∀ p cores u, s.disp.pending = [p] → s1.neverFits p = false → s1.heldBack p.ctx p.desc = false →
        s1.imageBusy p = false →
        s1.fitting p = some (cores, u) →
        exec .placementPass s = .next ((s1.addGang p cores u).updDisp fun d => { d with pending := [] })) ∧
      (∀ p, s.disp.pending = [p] → s1.neverFits p = false → 
          s1.heldBack p.ctx p.desc = true ∨ s1.imageBusy p = false ∧ s1.fitting p = none →
        exec .placementPass s = .next (s1.updDisp fun d => { d with pending := [p] })) ∧
      (∀ p, s.disp.pending = [p] → s1.neverFits p = false → s1.heldBack p.ctx p.desc = false → s1.imageBusy p = true →
        exec .placementPass s = .next ((s1.recallWithin p.record.image.toNat (s1.imageLength p)).updDisp fun d =>
          { d with pending := [p] })) ∧
      (∀ p, s.disp.pending = [p] → s1.neverFits p = true →
        exec .placementPass s = .next ((s1.refuseGang p.ctx p.task).updDisp fun d => { d with pending := [] }))) ∧
    (∀ k, (List.range s.disp.pending.length).find? s.blocksNow = some k → exec .pendingEntryBlocks s = .next
      (s.updDisp fun d => { d with pending := d.pending.modify k fun p => { p with blocks := true } })) ∧
    (look 0 s.timers 5601 < s.ptime / 10000 →
      let after (k : Nat) : Nat := min (look 0 s.mesh.slot (k / 4 * 5 + k % 4) - 16 * s.bclk) (look 0 s.mesh.util k)
      exec .trafficWindow s = .next
        ({ s with timers := place s.timers 5601 (s.ptime / 10000) }.updMesh fun m => { m with
          utilLast := m.util.map fun (e : Nat × Nat) => (e.1, e.2 - after e.1)
          util := (m.util.map fun (e : Nat × Nat) => (e.1, after e.1)).filter fun e => e.2 != 0 })) ∧
    (look 0 s.timers 5602 < s.ptime / 10000 → s.ptime / 10000 ≤ look 0 s.timers 5601 →
      ∃ t, exec .holdbackWindow s = .next t ∧
        (∀ i, i < 16 → (look 0 t.disp.hot i = 1 ↔ ∃ d, d < 4 ∧ s.disp.hbthr ≤ look 0 s.mesh.utilLast (4 * i + d))) ∧
        (∀ c, c < 64 →
          let remote := ((List.range 16).map fun i => look 0 s.mesh.lreqRemote (i * 64 + c)).sum
          look 0 t.disp.mload c = (remote - look 0 s.disp.lastRemote c) /
            max 1 (s.blocks.filter fun b => b.live && (s.gang b.gang).ctx == c).length ∧
          look 0 t.disp.lastRemote c = remote) ∧
        t.disp.passDue = (s.disp.passDue || !s.disp.pending.isEmpty))

/-- OPERAND_READS_COMPLETE captures the products of a multiply and lowers the read counts of both tiles;
MATRIX_WRITE_COMPLETE folds them into the accumulators in ascending K, one rounding per addition, from zero with
.z, and mzero clears its rows alone. An uncorrectable error in an operand faults the operation. A burst starts
with a token and ends after 256 clocks, which a clock with nothing to run completes, when its token is freed;
free tokens move on by one core. A copy or a loop's slab transfers, a copied sector stands in its tile, and the
last one ends the command; a loop iterates; a channel reads its record, stops on a bad one with the code the
rule names, passes one it does not own, and copies and gives back the others; a stopped command goes on once its
address translates. That a bad count is found before a bad alignment, and that a record is read once, is log
entry 26's reading. (R99, R117, R118, R301, R304, R307, R311, R313, R317, R323, R440, R441) -/
def Obligations.EnginesAct : Prop :=
  ∀ (core cmd isle ch : Nat) (s : State),
    (∀ m, (s.core core).mq.find? MatOp.readsDue = some m →
      exec (.operandReadsComplete core) s = .next ((if s.operandsBad m then s.matFault m else s).captureReads m) ∧
      ∀ a bt k c0 z ea eb pair scaled, s.operandsBad m = false → m.kind = .mma a bt k c0 z ea eb pair scaled →
        let b := s.blk m.blk
        let sa := if pair then 0 else m.side
        let wa := s.slotFor m.blk (b.tile sa a).fslot
        let wb := s.slotFor m.blk (b.tile m.side bt).fslot
        exec (.operandReadsComplete core) s = .next (((s.updMat (b.coreAt m.side) m.id fun x => { x with
          read := true, cells := s.products m.blk sa m.side (b.tile sa a) (b.tile m.side bt) wa wb k c0 }).updTile
            m.blk sa a Tile.readDone).updTile m.blk m.side bt Tile.readDone)) ∧
    (∀ m, (s.core core).mq.find? (s.mayLand core) = some m →
      exec (.matrixWriteComplete core) s = .next ((s.landMat m).afterLoop m) ∧
      (m.owner = none → m.cmd = none →
        let c := (s.blk m.blk).coreAt m.side
        ∃ t, exec (.matrixWriteComplete core) s = .next t ∧ (∀ x ∈ (t.core c).mq, x.id ≠ m.id) ∧
          (∀ a bt k c0 z ea eb pair scaled, m.kind = .mma a bt k c0 z ea eb pair scaled →
            (t.core c).acc = foldCells (s.core c).acc m.row z m.cells) ∧
          (m.kind = .zero → ∀ cell, look 0 (t.core c).acc cell =
            if m.row * 256 ≤ cell ∧ cell < (m.row + m.rows) * 256 then 0 else look 0 (s.core c).acc cell))) ∧
    (∀ (acc : SMap W32) (first cell : Nat) (z : Bool) (l : List W32), l ≠ [] → l.length ≤ 4096 →
      look 0 (foldCells acc first z (l.mapIdx fun j v => (cell * 4096 + j, v))) (first * 256 + cell) =
        l.foldl fpSum (if z then 0 else look 0 acc (first * 256 + cell))) ∧
    (s.burstStarts core = true → exec (.matrixBurstStart core) s =
      .next (s.updCore core fun c => { c with bursting := true, burst := 0 })) ∧
    (s.burstEnds core = true →
      let s1 := s.updCore core fun c => { c with bursting := false, burst := 0 }
      ((s.core core).token = false → exec (.matrixBurstEnd core) s = .next s1) ∧
      ((s.core core).token = true → exec (.matrixBurstEnd core) s = .next (s1.freeToken core))) ∧
    (s.tokensDue isle = true → exec (.tokenPass isle) s = .next ((s.chip isle).ring.foldl
      (fun (u : State) at_ =>
        if u.needsToken (16 * isle + (at_ + 1) % 16) then
          u.updCore (16 * isle + (at_ + 1) % 16) fun c => { c with token := true }
        else u.updChip isle fun c => { c with ring := c.ring ++ [(at_ + 1) % 16] })
      ({ s with timers := place s.timers (5400 + isle) (s.bclk + 1) }.updChip isle fun c => { c with ring := [] }))) ∧
    (∀ c, s.cmd? cmd = some c →
      (s.mayIterate c = true → exec (.mloopIteration core cmd) s = .next (s.iterate c)) ∧
      (s.mayTransfer c = true →
        (c.kind = .tcopy → exec (.copyEngineTransfer core cmd) s = .next (s.readPiece c)) ∧
        (c.kind = .tstore → c.sent < c.total → exec (.copyEngineTransfer core cmd) s = .next (s.writePiece c)) ∧
        (c.kind = .tstore → c.total ≤ c.sent → exec (.copyEngineTransfer core cmd) s = .next (s.lastWrite c)) ∧
        (c.kind = .mloop → exec (.copyEngineTransfer core cmd) s = .next (s.slabPiece c)) ∧
        (c.kind = .tstoreHz → c.sent < c.total → exec (.copyEngineTransfer core cmd) s = .next (s.hazePiece c)) ∧
        (c.kind = .tstoreHz → c.total ≤ c.sent → exec (.copyEngineTransfer core cmd) s = .next (s.endCmd c))) ∧
      (∀ d, s.readySector c = some d →
        (c.arrived.length + 1 ≠ ((s.blk c.blk).tile c.side c.tile).bytes / 32 →
          exec (.copySectorArrival core cmd) s = .next (s.arrive c d)) ∧
        (c.arrived.length + 1 = ((s.blk c.blk).tile c.side c.tile).bytes / 32 →
          exec (.copySectorArrival core cmd) s = .next ((s.arrive c d).endCmd c))) ∧
      (s.mayResume c = true → exec (.commandResume core cmd) s =
        .next (s.updCmd cmd fun c => { c with fault := none }))) ∧
    (∀ h l, (s.chan (chanKey isle ch)).heads = h :: l → s.mayWalk (chanKey isle ch) = true →
      let key := chanKey isle ch
      let u := s.updChan key fun c => { c with fault := none }
      let goes (t : State) : Prop := exec (.chainRecord isle ch) s = .next t
      (∀ code va iter, (s.chan key).stop = some (code, va, iter) → goes (u.chanCode key h code va iter)) ∧
      ((s.chan key).stop = none →
        (∀ v, u.chanRecord key 3 h = .wait v → goes v) ∧
        (∀ f va, u.chanRecord key 3 h = .fault f va → goes (u.chanFault key h f va [])) ∧
        ∀ d poison, u.chanRecord key 3 h = .got d poison →
          let sector := h.va.toNat % 128 / 32
          let r := transferOf (lineGet d (h.va.toNat % 128) 64)
          let bad := poison.testBit sector || poison.testBit (sector + 1)
          (bad = true → goes (u.chanStop key 0x13 h.va [])) ∧
          (bad = false → r.own = false → goes (u.nextHead key)) ∧
          (bad = false → r.own = true → r.emptyRun = true → goes (u.chanStop key 0x15 h.va [])) ∧
          (bad = false → r.own = true → r.emptyRun = false → r.misaligned = true → goes (u.chanStop key 0x14 h.va [])) ∧
          (bad = false → r.own = true → r.emptyRun = false → r.misaligned = false →
            ((s.chan key).pos < r.src.sectors → goes (u.copyPiece key h r)) ∧
            (r.src.sectors ≤ (s.chan key).pos → goes (u.afterCopy key h r)))))

/-- A frequency step or ramp that ends takes its committed step; a sample sets the class from four intervals; a byte
interval starts again. LIMIT, JOIN and LEAVE taken wait for their apply instant or, late, apply at once and
count; HEARTBEAT fills an absent entry; EMERGENCY applies at once. The apply instant, suspicion after 1 ms,
expulsion after 2 ms, being expelled, and an early bite, which a power above 9,000 W over ten samples raises, do
their steps. A master sends SYNC by every port and answers DELAY_REQ; a follower notes t2 and t1, asks for t4,
corrects by the offset, and loses LOCKED after eight intervals. A message counts only while a port is up, and
every change of the ceiling retargets the clusters at once. The readings of early bites and expulsion are log
entry 42's, those of MHEAVY and the offset log 36's, those of the correction log 21's. (R435, R436, R437, R439,
R442, R445, R447, R448, R449, R450, R451) -/
def Obligations.ClocksCeilingsAndTime : Prop :=
  ∀ (n pwr plim lim port sender seqid t1 t4 : Nat) (corr : Int) (m : CeilMsg) (s : State),
    let c := s.ceil
    let time (u : State) (port kind id stamp : Nat) (corr : Int) : State := u.send
      { Packet.basic 0x31 vcC 0 0 unitMgmt 0 unitVreles 0 0 with
        time := stamp, aux := [kind, u.mgmt.peerSelf, id, (corr % 2 ^ 32).toNat, port] }
    let taken (kind : Nat) : Prop := s.upPorts ≠ [] ∧ c.en = true ∧ m.group = c.mcast ∧ m.sender ≠ c.self ∧
      (kind = 3 ∨ (c.member m.sender).gone = false)
    let heard := s.updCeil fun c => c.updMember m.sender fun x => { x with h := max x.h m.a, suspect := false }
    let waits (kind delay : Nat) : State := heard.updCeil fun c => { c with waiting := c.waiting ++ [⟨m.a + delay, kind, m⟩] }
    let late (kind delay : Nat) : State := heard.updCeil fun c =>
      { (c.applyMsg ⟨m.a + delay, kind, m⟩).recomputed false with late := min 65535 (c.late + 1) }
    ((s.cluster n).st = .fstep → (s.cluster n).endAt ≤ s.bclk →
      exec (.fstepEnd n) s = .next (s.updCluster n fun c => c.endMove s.bclk)) ∧
    ((s.cluster n).st = .ramp → (s.cluster n).endAt ≤ s.bclk →
      exec (.rampEnd n) s = .next (s.updCluster n fun c => c.endMove s.bclk)) ∧
    (∀ (k : Cluster) (now : Nat), k.pendStep = none →
      k.endMove now = { k with ratio := k.commitRatio, st := .steady, cur := k.commitStep }) ∧
    (look 0 s.timers (5200 + n) ≠ s.ptime / 1000 → ∃ t, exec (.mheavySample n) s = .next t ∧
      let l := (((s.cluster n).busyNow, (s.cluster n).clocksNow) :: (s.cluster n).samples).take 4
      (t.cluster n).samples = l ∧ (t.cluster n).busyNow = 0 ∧ (t.cluster n).clocksNow = 0 ∧
      ((l.map (·.2)).sum ≠ 0 →
        ((t.cluster n).mheavy = true ↔ s.ceil.mhfrac * 4 * (l.map (·.2)).sum < (l.map (·.1)).sum * 256))) ∧
    (look 0 s.timers (5300 + n) ≠ s.ptime / 1000 → ∃ t, exec (.budgetInterval n) s = .next t ∧
      ((s.cluster n).waiting = [] → (t.cluster n).sentBytes = 0) ∧
      ((s.cluster n).budget = 0 → (t.cluster n).waiting = [])) ∧
    (taken 1 → (s.ptime ≤ m.a + 100000 → exec (.limit m) s = .next (waits 1 100000)) ∧
      (m.a + 100000 < s.ptime → exec (.limit m) s = .next (late 1 100000))) ∧
    (taken 3 → (s.ptime ≤ m.a + 400000 → exec (.join m) s = .next (waits 3 400000)) ∧
      (m.a + 400000 < s.ptime → exec (.join m) s = .next (late 3 400000))) ∧
    (taken 4 → (s.ptime ≤ m.a + 100000 → exec (.leave m) s = .next (waits 4 100000)) ∧
      (m.a + 100000 < s.ptime → exec (.leave m) s = .next (late 4 100000))) ∧
    (taken 2 → exec (.heartbeat m) s = .next (heard.updCeil fun c => c.updMember m.sender fun x =>
      if x.present then x else { x with l := m.lcur, present := true })) ∧
    (taken 5 → exec (.emergency m) s = .next (((heard.updCeil fun c =>
      { (c.updMember m.sender fun x => { x with l := m.lnew }).recomputed false with
        ebite := min 65535 (c.ebite + 1) }).interrupt 68).retargetAll)) ∧
    (c.en = true → c.lastSent + c.hbint * 1000 ≤ s.ptime → exec .heartbeatDue s = .next (s.sendCeil 2 c.self_)) ∧
    (∀ at_, s.instantDue = some at_ →
      let now := sortBy (fun (a b : Waiting) => decide (a.msg.sender < b.msg.sender)) (c.waiting.filter fun w => w.at_ == at_)
      let joined := now.any fun w => w.kind == 3 && w.msg.sender == c.self
      let c1 := now.foldl Ceil.applyMsg { c with waiting := c.waiting.filter fun w => w.at_ != at_ }
      let ends (e : Nat × Member) : Nat × Member :=
        if e.2.expelAt = some at_ then (e.1, { e.2 with expelAt := none }) else e
      let c2 := { c1 with members := c1.members.map ends, joinAt := if joined then none else c1.joinAt }
      exec .applyInstant s = .next { s with ceil := if c2.en then { c2 with c := c2.minimum joined } else c2 }.retargetAll) ∧
    (s.newSuspects ≠ [] → exec .suspectTimeout s = .next (s.updCeil fun c => s.newSuspects.foldl
      (fun (c : Ceil) i => c.updMember i fun x => { x with suspect := true }) c)) ∧
    (s.newExpelled ≠ [] → exec .expelTimeout s = .next (s.newExpelled.foldl
      (fun (u : State) i => (u.updCeil fun c =>
        { c.updMember i fun x => { x with present := false, gone := true, expelAt := some (x.h + 2100000) } with
          expels := min 65535 (c.expels + 1) }).interrupt 68) s)) ∧
    (s.expelledDue = true → exec .expelled s = .next ((s.updCeil fun c => { c with expelled := true }).interrupt 68)) ∧
    (let l := (pwr % 65536 :: c.powers).take 10
      let u := (s.sampleErrors.updCeil fun c =>
        { c with pwr := pwr % 65536, plim := min 68 plim, powers := l }).limitChanged (min c.plim c.swcap)
      (l.sum ≤ 90000 → exec (.telemetrySample pwr plim) s = .next u) ∧
      (90000 < l.sum → exec (.telemetrySample pwr plim) s = .next (u.earlyBite (Config.earlyBiteStep u.tick)))) ∧
    (min c.plim c.swcap ≤ lim → exec (.earlyBite lim) s = .next s) ∧
    (lim < min c.plim c.swcap →
      (c.en = false → exec (.earlyBite lim) s = .next (s.updCeil fun c => { c with plim := lim, limit := lim }).retargetAll) ∧
      (c.en = true → exec (.earlyBite lim) s = .next
        (((((s.updCeil fun c => { c with plim := lim, limit := lim }).retargetAll.sendCeil 5 lim).updCeil fun c =>
          { (c.updMember c.self fun x => { x with l := lim }).recomputed false with
            ebite := min 65535 (c.ebite + 1) }).interrupt 68).retargetAll))) ∧
    (s.syncDue = true →
      let s1 := { s with timers := place s.timers 5800 s.ptime }
      (s.sync.master = false → exec .syncInterval s = .next (s1.updSync fun y =>
        { y with misses := if y.done then 0 else y.misses + 1, done := false })) ∧
      (s.sync.master = true → exec .syncInterval s = .next ((s.upPorts.foldl (fun (u : State) p =>
        time u p 8 s.sync.seqid 0 0) s1).updSync fun y =>
          { y with seqid := (s.sync.seqid + 1) % 65536 }))) ∧
    (s.sync.master = false → port = s.sync.upport → (s.port port).up = true →
      exec (.sync port sender seqid corr) s = .next (s.updSync fun y =>
        { y with t2 := some (seqid, s.ptime, corr) }) ∧
      (∀ t2 cs, s.sync.t2 = some (seqid, t2, cs) → exec (.followUp port seqid t1) s = .next
        ((time s port 0xA s.sync.seqid 0 0).updSync fun y => { y with
          t2 := none, exchanges := y.exchanges ++ [⟨s.sync.seqid, t1, t2, none, cs⟩]
          seqid := (s.sync.seqid + 1) % 65536 }))) ∧
    (s.sync.master = true → (s.port port).up = true →
      exec (.delayReq port sender seqid corr) s = .next (time s port 0xB seqid s.ptime corr)) ∧
    (∀ i a b d cs, s.sync.master = false → (s.port port).up = true → s.sync.exchanges.find? (fun e => e.id == seqid) = some ⟨i, a, b, some d, cs⟩ →
      let x : Int := (((b : Int) - a) * 256 - cs) - (((t4 : Int) - d) * 256 - corr)
      exec (.delayResp port seqid t4 corr) s = .next (((s.updSync fun y =>
        { y with exchanges := y.exchanges.filter fun e => e.id != seqid }).noteOffset x).correctTime x)) ∧
    (s.sync.locked = true → 8 ≤ s.sync.misses → exec .lockLoss s =
      .next ((s.updSync fun y => { y with locked := false, tskew := 0xFFFF }).interrupt 69))

/-- A probe is sent to every core of a chiplet in the map and stands until its answer; one unanswered for 16 us
fences the chiplet with cause 1, a port under pressure for 64 us with cause 2, the supervisor with cause 3,
whatever its STATE; REJOIN of a fenced chiplet resets its cores and starts the self-test, whose outcome joins it
to the map, its tokens on the ring again, or leaves it failed. A scrub counts a corrected error for its isle or
marks the 32 bytes of an uncorrectable one. A port goes down, trains again, and pauses 2 us for calibration,
each with its interrupt; NAK acknowledges the flits before its own, resends from it, and retrains at the eighth
(the counting and freeing of flits is log entry 41's reading; STATE 3 with CAUSE 4 and the place of the tokens
log 45's choice). (R397, R454, R455, R459, R460, R462, R464, R472) -/
def Obligations.ContainmentActs : Prop :=
  ∀ (m core loc port seq : Nat) (s : State),
    let p := s.port port
    (s.chipUp m = true → look 0 s.timers (5900 + m) < s.ptime / 4000 → ∃ t, exec (.livenessProbe m) s = .next t ∧
      (∀ c, c / 16 = m → (t.core c).probe = some ((s.core c).probe.getD s.ptime)) ∧
      (∀ c, c / 16 ≠ m → t.core c = s.core c)) ∧
    ((s.core core).hung = false →
      exec (.probeAnswer core) s = .next (s.updCore core fun x => { x with probe := none })) ∧
    (∀ e t, s.chipUp m = true → e ∈ s.cores → isleOf e.1 = m → e.2.probe = some t → t + 16000 ≤ s.ptime →
      exec (.probeTimeout m) s = .next (s.fence m 1)) ∧
    (∀ e t, s.chipUp m = true → e ∈ s.cores → isleOf e.1 = m → e.2.pressed = some t → t + 64000 ≤ s.ptime →
      exec (.backpressureTimeout m) s = .next (s.fence m 2)) ∧
    exec (.chipctlFence m) s = .next (s.fence m 3) ∧
    ((s.chip m).state = 1 → ∃ t, exec (.rejoin m) s = .next t ∧ (t.chip m).state = 2 ∧ t.mem = s.mem ∧
      (∀ c, c / 16 = m → t.core c = Core.reset) ∧ (∀ c, c / 16 ≠ m → t.core c = s.core c) ∧
      ∀ i, i < 4 → (t.cluster (4 * m + i)).clock = 0) ∧
    ((s.chip m).state = 2 →
      exec (.selfTestComplete m true) s = .next
        ((({ s with timers := place s.timers (5900 + m) (s.ptime / 4000) }.updChip m fun c => { c with
            state := 0, inMap := true
            ring := if (s.chip m).tokens = 16 then [] else List.replicate (s.chip m).tokens 0 }).updDisp
          fun d => { d with passDue := true }).interrupt 64) ∧
      exec (.selfTestComplete m false) s = .next (((s.updChip m fun c => { c with state := 3, cause := 4 }).updDisp
        fun d => { d with passDue := true }).interrupt 64)) ∧
    (∃ t, exec (.scrub loc true) s = .next t ∧ t.mem = s.mem ∧ (t.poisonAt loc).testBit (loc % 128 / 32) = true ∧
      ∀ i, i ≠ loc % 128 / 32 → (t.poisonAt loc).testBit i = (s.poisonAt loc).testBit i) ∧
    (∃ t, exec (.scrub loc false) s = .next t ∧ t.mem = s.mem ∧
      t.mgmt.corrected = place s.mgmt.corrected (loc / 2 ^ 48 % 16) (look 0 s.mgmt.corrected (loc / 2 ^ 48 % 16) + 1) ∧
      t.homes = s.homes) ∧
    (p.up = true →
      exec (.portDown port) s = .next ((s.updPort port fun p => { p with up := false, retraining := none }).interrupt 70) ∧
      exec (.linkCalibration port) s = .next (s.updPort port fun p => { p with calUntil := s.ptime + 2000 })) ∧
    (p.up = false ∨ p.retraining.isSome = true → 4 < s.mgmt.phase → exec (.portTrainsAgain port) s =
      .next (((s.updPort port fun p => { p with up := true, retraining := none }).flushPort port).interrupt 70)) ∧
    (p.up = true → p.retraining = none →
      let n := if p.nakSeq = seq then p.naks + 1 else 1
      let s1 := s.updPort port fun p => { p with nakSeq := seq, naks := n }
      (8 ≤ n → exec (.nak port seq) s = .next (s1.retrain port)) ∧
      (∀ e l, n < 8 → (p.left.dropWhile fun e => !holdsFlit seq e) = e :: l →
        let first : Out := if seqFrom e.1 seq = 0 then .peer port e.2.2 else .peerRest port (seqFrom e.1 seq) e.2.2
        exec (.nak port seq) s = .next ((l.foldl (fun (u : State) e => u.emit (.peer port e.2.2)) (s1.emit first)).updPort
          port fun p => { p with replay := p.replay.dropWhile fun e => !holdsFlit seq e, acked := seqFrom e.1 seq })) ∧
      (n < 8 → (∀ e ∈ p.left, holdsFlit seq e = false) → exec (.nak port seq) s = .next s1))

/-- The flits of a message that begin with the expected number are delivered, to the buffer of its channel, to its
agent or to what waits for it, and the last is acknowledged; a flit with a CRC error is discarded with those
after it and its number returned in a NAK, and the eighth for one number makes the port retrain; what is out of
sequence is discarded (without a NAK, log entry 41's reading, as the answers of refused peer requests are). A
peer request at the front of a port is refused, or asks the homes for its lines and is answered when all have
come. A request of the host joins those that wait, and each is performed in order, the next once the lines of
the one before have come: reads and writes through BAR2 in the window, register reads and writes through BAR0
(notes/assumptions/2), as wakes, capability bits, queue, region-table and ceiling registers are written. (R143,
R374, R397, R403, R415, R416, R417, R446, R470, R471, R472) -/
def Obligations.PortsAndHostActs : Prop :=
  ∀ (port seq vc off len val q i : Nat) (crcOk : Bool) (bytes : List Nat) (msg : PeerMsg) (s : State),
    let p := s.port port
    let served (u : State) : State := (u.dropTicket .host).updMgmt fun m => { m with hostQ := [] }
    let reg (o n v : Nat) : State := s.hostTakes (.reg o n v)
    let pa := s.mgmt.hwin + off % 2 ^ 36
    (p.up = true → p.retraining = none →
      let last := p.expect + (peerFlits msg - p.got)
      let s1 := (s.updPort port fun p => { p with expect := last % 4096, got := 0, refusing := false, rxNaks := 0 }).emit
        (.flitAck port ((last + 4095) % 4096))
      let k := seqFrom p.expect seq
      let n := if k = 0 then p.rxNaks + 1 else 1
      let bad := (s.updPort port fun p =>
        { p with expect := seq % 4096, got := p.got + k, refusing := true, rxNaks := n }).emit (.nak port seq)
      (seq = p.expect → crcOk = true →
        (∀ o n tag, msg = .read o n tag → exec (.vrelesFlit port seq crcOk vc msg) s = .next (s1.updPort port fun p =>
          { p with bufs := place p.bufs (vc % 4) (look [] p.bufs (vc % 4) ++ [msg]) })) ∧
        (∀ o l tag, msg = .write o l tag → exec (.vrelesFlit port seq crcOk vc msg) s = .next (s1.updPort port fun p =>
          { p with bufs := place p.bufs (vc % 4) (look [] p.bufs (vc % 4) ++ [msg]) })) ∧
        (∀ tag l b, msg = .readReply tag l b → exec (.vrelesFlit port seq crcOk vc msg) s = .next (s1.peerData tag l b)) ∧
        (∀ x m, msg = .ceil x m → exec (.vrelesFlit port seq crcOk vc msg) s = .next (s1.takeCeil x m)) ∧
        (∀ x y id t c, msg = .time x y id t c → exec (.vrelesFlit port seq crcOk vc msg) s =
          .next (s1.takeTime port x id t c)) ∧
        (∀ tag, msg = .writeAck tag → exec (.vrelesFlit port seq crcOk vc msg) s = .next (s1.peerAck tag)) ∧
        (∀ k, msg = .ack k → exec (.vrelesFlit port seq crcOk vc msg) s = .next (s1.peerHas port k)) ∧
        (∀ tag, msg = .undeliverable tag → exec (.vrelesFlit port seq crcOk vc msg) s = .next (s1.peerLost tag)) ∧
        (msg = .control → exec (.vrelesFlit port seq crcOk vc msg) s = .next s1)) ∧
      (crcOk = false → p.got + k < peerFlits msg → exec (.vrelesFlit port seq crcOk vc msg) s =
        .next (if 8 ≤ n then bad.retrain port else bad)) ∧
      (crcOk = false → peerFlits msg ≤ p.got + k → exec (.vrelesFlit port seq crcOk vc msg) s = .next s) ∧
      (seq ≠ p.expect → crcOk = true → exec (.vrelesFlit port seq crcOk vc msg) s = .next s)) ∧
    (∀ c m, p.request = some (c, m) →
      let done (u : State) : State := (u.dropTicket (.peer port)).updPort port fun p =>
        { p with bufs := put [] p.bufs c ((look [] p.bufs c).drop 1) }
      (∀ o n tag, m = .read o n tag →
        let a := s.mgmt.pwin + o % 2 ^ 39
        let lines := s.readLines (.peer port) unitVreles a n
        (s.peerOk a n = false → exec (.peerRequest port) s = .next (done (s.sendPeer port vcR (.readReply tag (List.replicate n 0) true)))) ∧
        (s.peerOk a n = true →
          (∀ u, lines = (u, none) → exec (.peerRequest port) s = .next u) ∧
          ∀ u l bad, lines = (u, some (l, bad)) → exec (.peerRequest port) s =
            .next (done (u.sendPeer port vcR (.readReply tag l bad))))) ∧
      (∀ o l tag, m = .write o l tag →
        let a := s.mgmt.pwin + o % 2 ^ 39
        let lines := s.writeLines (.peer port) unitVreles a l
        (s.peerOk a l.length = false → exec (.peerRequest port) s =
          .next (done (s.logEvent.sendPeer port vcR (.writeAck tag)))) ∧
        (s.peerOk a l.length = true →
          (∀ u, lines = (u, false) → exec (.peerRequest port) s = .next u) ∧
          ∀ u, lines = (u, true) → exec (.peerRequest port) s = .next (done (u.sendPeer port vcR (.writeAck tag)))))) ∧
    (2 ^ 36 ≤ off → s.hostUp = true ∨ s.mgmt.recovery = true → exec (.hostMemoryRead off len) s = .next (s.hostTakes (.regRead (off - 2 ^ 36) len))) ∧
    (off < 2 ^ 36 → s.mgmt.recovery = false → s.hostUp = true →
      exec (.hostMemoryRead off len) s = .next (s.hostTakes (.read pa len))) ∧
    (s.mgmt.recovery = false → s.hostUp = true →
      exec (.hostMemoryWrite off bytes) s = .next (s.hostTakes (.write pa bytes))) ∧
    (s.mgmt.recovery = true → (off < 2 ^ 36 → exec (.hostMemoryRead off len) s = .next (s.emit .unsupported)) ∧
      exec (.hostMemoryWrite off bytes) s = .next s) ∧
    (s.mgmt.hostQ = [] →
      (s.windowOk pa len = true →
        (∀ u, s.readLines .host unitHost pa len = (u, none) →
          s.hostTakes (.read pa len) = u.updMgmt fun m => { m with hostQ := [.read pa len] }) ∧
        ∀ u l bad, s.readLines .host unitHost pa len = (u, some (l, bad)) →
          s.hostTakes (.read pa len) = served (u.emit (.readData l))) ∧
      (s.windowOk pa len = false → s.hostTakes (.read pa len) = served (s.emit .unsupported).logEvent)) ∧
    (s.mgmt.hostQ = [] →
      (s.windowOk pa bytes.length = true →
        (∀ u, s.writeLines .host unitHost pa bytes = (u, false) →
          s.hostTakes (.write pa bytes) = u.updMgmt fun m => { m with hostQ := [.write pa bytes] }) ∧
        ∀ u, s.writeLines .host unitHost pa bytes = (u, true) → s.hostTakes (.write pa bytes) = served u) ∧
      (s.windowOk pa bytes.length = false → s.hostTakes (.write pa bytes) = served s.logEvent)) ∧
    (s.mgmt.hostQ = [] → s.hostTakes (.regRead off len) = served (s.emit (.readData
      (leBytes len (if s.mgmt.recovery then s.mailboxRead off len else s.devRead off len))))) ∧
    (s.mgmt.hostQ = [] →
      (s.mgmt.recovery = false → reg off len val = served (s.writeBytes true (bytesAt off (leBytes len val)))) ∧
      (s.mgmt.recovery = true → reg off len val = served (s.writeMailbox (bytesAt off (leBytes len val))))) ∧
    exec (.registerWrite off len val) s = .next (reg off len val) ∧
    (port < 64 → exec (.wake port off len val) s = .next (reg (0x60000 + 64 * port + off) len val)) ∧
    exec (.wake 64 off len val) s = .next (reg (0x61000 + off) len val) ∧
    exec (.mint off len val) s = .next (reg (0x62000 + off) len val) ∧
    exec (.qctl q off len val) s = .next (reg (0x70000 + 32 * q + off) len val) ∧
    exec (.regionTable i off len val) s = .next (reg (0x40000 + 32 * i + off) len val) ∧
    exec (.cgcfg val) s = .next (reg 0x83000 8 val)

/-- While BUSY is set a write of CMD has no effect. PAGEANS answers, refuses or does not find its request; PREEMPT
refuses with 1, 2 or 3 or begins; the debug commands refuse what does not exist with 1 and a context without a
debugger with 2, and DBGRUN, DBGSTEP and DBGHALT act on halted or running groups; an unknown code ends with 4.
FREEZE and the pin set a time within 16 base clocks. A quiesced gang, its control state captured, enters its
handlers, or all its groups are to be saved by hardware without one or past its deadline, and at the deadline
the groups that have not executed pdone stop. RESULT 2 for an image address not a multiple of 64 and saving by
hardware with handler address 0 are log entry 33's readings, RESULT 2 for DBGRUN of a group not halted log 43's.
(R355, R358, R359, R361, R364, R367, R368) -/
def Obligations.SupervisorActs : Prop :=
  ∀ (code ga : Nat) (s : State),
    let c := s.mgmt.sv
    (c.busy = true → ∀ i ∈ [Instr.pageans, .preempt, .dbgrun, .dbgstep, .dbghalt, .freezeCmd, .unknownCommand code],
      exec i s = .next s) ∧
    (c.busy = false →
      exec (.unknownCommand code) s = .next (s.svEnd code 4) ∧
      (s.namedRequest c = none → exec .pageans s = .next (s.svEnd 1 1)) ∧
      (∀ r, s.namedRequest c = some r →
        (c.act = false → exec .pageans s = .next ((s.answerPage r).svEnd 1 0)) ∧
        (c.act = true → exec .pageans s = .next ({ s.svRun 1 with pageReqs := s.pageReqs.map fun (x : PageReq) =>
          if x.ctx = r.ctx ∧ x.id = r.id then { x with refused := true } else x }.refusePages))) ∧
      (s.namedGang c = none → exec .preempt s = .next (s.svEnd 2 1)) ∧
      (∀ k, s.namedGang c = some k →
        ((s.gang k).pre ≠ .none ∨ (s.gang k).terminated = true ∨ c.img % 64 ≠ 0 →
          exec .preempt s = .next (s.svEnd 2 2)) ∧
        ((s.gang k).pre = .none → (s.gang k).terminated = false → c.img % 64 = 0 →
          (c.imgLen < s.imageSize k → exec .preempt s = .next (s.svEnd 2 3)) ∧
          (s.imageSize k ≤ c.imgLen → exec .preempt s =
            .next ((s.svRun 2).beginPreempt k (BitVec.ofNat 64 c.img) c.imgLen)))) ∧
      (s.namedGroups c = none → exec .dbgrun s = .next (s.svEnd 3 1) ∧ exec .dbgstep s = .next (s.svEnd 4 1) ∧
        exec .dbghalt s = .next (s.svEnd 5 1)) ∧
      (∀ b gs, s.namedGroups c = some (b, gs) →
        ((s.ctx c.ctx).dbgatt = false → exec .dbgrun s = .next (s.svEnd 3 2) ∧
          exec .dbgstep s = .next (s.svEnd 4 2) ∧ exec .dbghalt s = .next (s.svEnd 5 2)) ∧
        ((s.ctx c.ctx).dbgatt = true →
          (∀ g, gs = [g] → c.arg / 256 ≠ 255 →
            ((s.grp g).halted = false → exec .dbgrun s = .next (s.svEnd 3 2) ∧ exec .dbgstep s = .next (s.svEnd 4 2)) ∧
            ((s.grp g).halted = true →
              exec .dbgrun s = .next (((s.resumeGroup g).resumeBlock b).svEnd 3 0) ∧
              exec .dbgstep s = .next (((s.svRun 4).resumeGroup g).updGrp g fun x => { x with stepping := true }))) ∧
          (c.arg / 256 = 255 → exec .dbgstep s = .next (s.svEnd 4 2)) ∧
          (c.arg / 256 = 255 → exec .dbgrun s = .next ((((gs.filter fun g => (s.grp g).halted).foldl
            (fun (u : State) g => u.resumeGroup g) s).resumeBlock b).svEnd 3 0)) ∧
          (let all := if (s.ctx c.ctx).dbgstop then s.standing b else gs
           let s1 := all.foldl (fun (u : State) g => u.updGrp g fun x => { x with haltReq := !x.halted }) (s.svRun 5)
           exec .dbghalt s = .next (all.foldl (fun (u : State) g => u.haltAt g) s1).svCheck))) ∧
      (∃ t x, exec .freezeCmd s = .next t ∧ t.mgmt.freezeAt = some x ∧ t.mgmt.sv.busy = true ∧
        (s.mgmt.freezeAt = none → s.bclk ≤ x ∧ x ≤ s.bclk + 16) ∧ t.mem = s.mem)) ∧
    (∃ t x, exec .freezePin s = .next t ∧ t.mgmt.freezeAt = some x ∧
      (s.mgmt.freezeAt = none → s.bclk ≤ x ∧ x ≤ s.bclk + 16) ∧ t.mem = s.mem) ∧
    (∀ d, s.quiesced ga = true → (s.gang ga).pre = .quiesce d →
      let s1 := (s.captureGang ga).updGang ga fun g => { g with pre := .handlers d }
      ((s1.gang ga).preemptPc = 0 ∨ d ≤ s1.ptime → exec (.preemptQuiesced ga) s = .next ((s1.liveOf ga).foldl
        (fun (u : State) g => u.updGrp g fun x => { x with stopped := true, hwsave := true }) s1)) ∧
      ((s1.gang ga).preemptPc ≠ 0 → s1.ptime < d →
        exec (.preemptQuiesced ga) s = .next ((s1.liveOf ga).foldl (fun (u : State) g =>
          (u.updGrp g fun x => { x with stopped := !x.ctl.trapMode }).handlerDue g) s1))) ∧
    (s.deadlinePassed ga = true → ∃ t, exec (.preemptDeadline ga) s = .next t ∧ t.mem = s.mem ∧
      ∀ g ∈ s.liveOf ga, g < s.groups.length → (s.grp g).doneSaving = false →
        (t.grp g).stopped = true ∧ (t.grp g).hwsave = true)

/-- PACKAGE_RESET and HOT_RESET leave every field at its reset value but the flash, what memory holds, what has been
sent and what the outside still brings. POWER_ON leaves the reset state with bring-up to go on; it goes to
recovery in phase 1, stops in phase 2 or 4 with FAIL, fences the chiplets that fail, joins those that pass to
the map, brings ports up, joins a ceiling group and ends in phase 7. An attestation request is answered with the
digests, the nonce and a signature, or refused. In recovery the mailbox stores, commits, restarts, identifies,
and refuses what is out of range or unknown. The test port's instructions select their register and shift out
identification, all ones before the freeze, or the raw words of the selected array, each with its check bits;
which selector names which array is open (notes/assumptions/63). DRAM kept by a reset is log entry 32's reading,
ERR 1 of a bad COMMIT length log 44's, the outcomes and clocks of bring-up and the digests log 45's choice.
(R367, R465, R466, R467, R468, R471) -/
def Obligations.ManagementActs : Prop :=
  ∀ (yehamOk baseOk hostOk algOk sigOk flashOk : Bool) (chips ports nonce code : Nat) (s : State),
    let fresh : State := { State.reset with
      agenda := s.agenda, tick := s.tick, mem := s.mem, out := s.out
      mgmt := { State.reset.mgmt with flash := s.mgmt.flash } }
    let ends (u : State) (st err : Nat) : State := u.updMgmt fun m => { m with mbState := st, mbErr := err }
    let tap (n : Nat) (x : Out) : State := { s with mgmt := { s.mgmt with tapIr := n }, out := s.out ++ [x] }
    let m := s.mgmt
    exec .packageReset s = .next fresh ∧ exec .hotReset s = .next fresh ∧
    exec (.powerOn yehamOk baseOk chips hostOk ports) s =
      .next (fresh.updMgmt fun m => { m with boot := some ⟨yehamOk, baseOk, hostOk, chips, ports⟩ }) ∧
    (∀ b, m.boot = some b →
      let goes (u : State) (n : Nat) : State := u.updMgmt fun m => { m with phase := n }
      let stops (u : State) (fail : Bool) : State := u.updMgmt fun m => { m with boot := none, fail := fail }
      (m.phase = 0 → s.bootStep = goes s 1) ∧
      (m.phase = 1 → (b.yehamOk = true → s.bootStep = goes s 2) ∧
        (b.yehamOk = false → s.bootStep = stops (s.updMgmt fun m => { m with recovery := true }) false)) ∧
      (m.phase = 2 → (b.baseOk = true → s.bootStep = goes (s.failChips b.chips) 3) ∧
        (b.baseOk = false → s.bootStep = stops s true)) ∧
      (m.phase = 3 → s.bootStep = goes (s.joinChips b.chips) 4 ∧ ∀ k, k < 16 → b.chips.testBit k = true →
        (s.bootStep.chip k).state = 0 ∧ (s.bootStep.chip k).inMap = true) ∧
      (m.phase = 4 → (b.hostOk = true → s.bootStep = goes s 5) ∧ (b.hostOk = false → s.bootStep = stops s true)) ∧
      (m.phase = 5 → s.bootStep = goes (s.trainPorts b.ports) 6 ∧ ∀ k, k < 32 → b.ports.testBit k = true →
        (s.bootStep.port k).up = true) ∧
      (m.phase = 6 → s.bootStep = stops (goes s.bootJoins 7) false)) ∧
    (4 < m.phase → m.recovery = false → exec (.attestationRequest algOk nonce) s =
      .next (s.emit (if algOk then
        .attest Config.imageDigest Config.configDigest Config.keyDigest Config.orderingNumber (nonce % 2 ^ 384)
          (Config.attestSignature s.tick
            [Config.imageDigest, Config.configDigest, Config.keyDigest, Config.orderingNumber, nonce % 2 ^ 384])
        else .refusedRequest))) ∧
    (m.recovery = true → m.mbState ≠ 1 →
      let fits : Prop := 1 ≤ m.mbLen ∧ m.mbLen ≤ 4096 ∧ m.mbOff % 4096 = 0 ∧ m.mbOff + m.mbLen ≤ 2 ^ 26
      (fits → exec .storeChunk s = .next (ends (s.updMgmt fun m => { m with
        staging := writeBytes m.staging m.mbOff m.mbLen (readBytes m.mbData 0 m.mbLen) }) 2 0)) ∧
      (¬ fits → exec .storeChunk s = .next (ends s 3 1)) ∧
      (m.mbLen = 0 ∨ 2 ^ 26 < m.mbLen → exec (.commitImage sigOk flashOk) s = .next (ends s 3 1)) ∧
      (0 < m.mbLen → m.mbLen ≤ 2 ^ 26 →
        (sigOk = false → exec (.commitImage sigOk flashOk) s = .next (ends s 3 2)) ∧
        (sigOk = true → flashOk = false → exec (.commitImage sigOk flashOk) s = .next (ends s 3 3)) ∧
        (sigOk = true → flashOk = true → exec (.commitImage sigOk flashOk) s = .next (ends (s.updMgmt fun m =>
          { m with flash := writeBytes m.flash 0 m.mbLen (readBytes m.staging 0 m.mbLen) }) 2 0))) ∧
      exec .restart s = .next fresh ∧
      (∃ t, exec .identify s = .next t ∧ t.mgmt.mbState = 2 ∧ t.mgmt.mbErr = 0 ∧ t.mem = s.mem ∧
        ∀ i, i < 4096 → look 0 t.mgmt.mbData i = Config.identityByte i) ∧
      exec (.mailboxUnknown code) s = .next (ends s 3 1)) ∧
    exec .bypass s = .next (tap 0xFF (.tap 1 0)) ∧ exec .idcode s = .next (tap 0x01 (.tap 32 0x0FA16C5B)) ∧
    (m.frozen = false → exec .frzsel s = .next (tap 0x20 (.tap 32 (2 ^ 32 - 1))) ∧
      ∃ n, exec .frzread s = .next (tap 0x21 (.tap n (2 ^ n - 1)))) ∧
    (m.frozen = true →
      (∃ sel, sel < 2 ^ 32 ∧ exec .frzsel s = .next { s with
        mgmt := { m with tapIr := 0x20, tapSel := sel }, out := s.out ++ [.tap 32 m.tapSel] }) ∧
      (∃ n w, w < 2 ^ n ∧ exec .frzread s = .next (tap 0x21 (.tap n w))) ∧
      ∀ isle unit array, Config.frozenArray m.tapSel = (isle, unit, array) →
        let a := s.arrayWords isle unit array
        let raw := rawWords a.1 a.2
        exec .frzread s = .next (tap 0x21 (.tap raw.1 raw.2)) ∧
        ∀ x t, a.2 = x :: t → raw.2 % 2 ^ a.1 = x % 2 ^ a.1 ∧
          raw.2 / 2 ^ (a.1 + Config.checkWidth a.1) = (rawWords a.1 t).2)

/-- Words written out from the encoding tables, one or more of every family, decode to the instruction that they
stand for: among them movi v12 with extension 0x301C, call with frame 12 and ret of R228 and the ffma of R244.
The headers of R228 hold 6 and 1 words of class compute, unguarded. The test port reads 0x01, 0x20 and 0x21 as
IDCODE, FRZSEL and FRZREAD and any other code as BYPASS. (R162, R168, R180, R181, R182, R183, R197, R228, R244,
R367) -/
def Obligations.DecodeWords : Prop :=
  decodeInstr 0 0x00025598 0x0 = .ok (.iadd 9 21 (.v 38)) ∧
  decodeInstr 0 0x0022552D 0xDEADBEEF = .ok (.iaddc 9 21 13 (.imm 0xDEADBEEF)) ∧
  decodeInstr 0 0x016255CA 0x1126 = .ok (.lop3 9 21 38 17 0xCA) ∧
  decodeInstr 0 0x02430000 0x301C = .ok (.movi 12 0x301C) ∧
  decodeInstr 0 0x02624106 0x0 = .ok (.sread 9 1 6) ∧
  decodeInstr 0 0x03224000 0xFFFFFFFF = .ok (.smovi 9 0xFFFFFFFF) ∧
  decodeInstr 0 0x035FFFFE 0x0 = .ok (.bra 15 (-2)) ∧
  decodeInstr 0 0x13B00600 0x100 = .ok (.call 12 0x100) ∧
  decodeInstr 0 0x03D00018 0x0 = .ok (.ret 0 12) ∧
  decodeInstr 0 0x04B25566 0x1311 = .ok (.shfl 9 21 2 0 (.imm 17) false 6 3 true) ∧
  decodeInstr 0 0x05520200 0x403 = .ok (.ffma 8 2 (.v 3) (.v 4) 0 false) ∧
  decodeInstr 0 0x06B25523 0x1126 = .ok (.hfma2 9 21 (.v 38) (.s 17) 3 false) ∧
  decodeInstr 0 0x06E2550B 0x724 = .ok (.cvtff 9 21 3 true 4 2 3 1) ∧
  decodeInstr 1 0x0002547D 0xFFFFFFF8 = .ok (.ldExt 9 20 3 (.ordered true 5) (-8)) ∧
  decodeInstr 1 0x00901428 0x80 = .ok (.wbackExt 20 1 128) ∧
  decodeInstr 1 0x00B2546C 0x0 = .ok (.atom 9 20 3 1 4) ∧
  decodeInstr 1 0x00E2E162 0x0 = .ok (.barExp 11 33 3) ∧
  decodeInstr 2 0x000266C8 0x25123 = .ok (.mma 9 38 200 0x123 5 false true false false) ∧
  decodeInstr 2 0x0079A54B 0x6A = .ok (.tcopy 38 18 true false 4 true 3 2 5 true false) ∧
  decodeInstr 2 0x00902443 0x40F9100 = .ok (.tstoreHz 18 false false 4 false 3 false 200 7 2) ∧
  decodeInstr 2 0x013DB183 0x0 = .ok (.txtest 13 22 6 3) ∧
  decodeInstr 3 0x001040B0 0x0 = .ok (.swrp 1 22) ∧
  decodeInstr 3 0x00721503 0x0 = .ok (.dbgrd 8 21 3) ∧
  (headWords 0x1803C000 = 6 ∧ headClass 0x1803C000 = 0 ∧ headOk 0x1803C000 = true ∧ bits 0x1803C000 14 4 = 15) ∧
  (headWords 0x0403C000 = 1 ∧ headClass 0x0403C000 = 0 ∧ headOk 0x0403C000 = true) ∧
  (decodeTap 0x01 = .idcode ∧ decodeTap 0x20 = .frzsel ∧ decodeTap 0x21 = .frzread ∧
    ∀ k, k ≠ 0x01 → k ≠ 0x20 → k ≠ 0x21 → decodeTap k = .bypass)

/-- For every well-formed instruction that has words, with every operand at every value that its encoding admits:
the instruction word and the extension word fit in 32 bits, the word asks for an extension word exactly where
the encoder gives one, and decoding the words gives the instruction back; where there is no extension word,
whatever follows does not matter. The four instructions of the test port are read back from their codes. (R166,
R167, R168, R171, R197, R244, R270, R288, R299, R342, R367) -/
def Obligations.RoundTrip : Prop :=
  (∀ (i : Instr) (c : Code), i.WellFormed → encode i = some c →
    c.w < 2 ^ 32 ∧ c.e.getD 0 < 2 ^ 32 ∧ needsExt c.cls c.w = c.e.isSome ∧
    (∀ x, c.e = some x → decodeInstr c.cls c.w x = .ok i) ∧
    (c.e = none → ∀ x, decodeInstr c.cls c.w x = .ok i)) ∧
  (∀ (i : Instr) (k : Nat), encodeTap i = some k → k < 2 ^ 8 ∧ decodeTap k = i)

/-- A step at which a group fetches reads the header at PC and its words and captures them for the fibres that stand
there. The next instruction of a fibre set is the one that its word, with the extension word, decodes to. In an
issue slot the step runs that instruction on port A, and then, where there are two, the one on port B, both or
neither, and ends the slot; a fault met at the header, an illegal clause, a refused word and a false guard take
their traps or move on in the slot; an access that the pipeline held runs once it is free; a sequencer's step
runs the stream's next instruction; a step with an event runs the event. A fault or refusal of the instruction
is the step's. Every step that goes on ends with the end of step. That the agenda comes before anything else is
log entry 2's choice, the order of the classes of steps log 3's; the fetch at home is log 14's reading, header
faults found in the slot log 28's. (R27, R28, R31, R163, R164, R166, R167, R175, R277, R295, R350) -/
def Obligations.StepRunsDecoded : Prop :=
  ∀ (s : State),
    let done (r : Result) : Result := match r with
      | .next u => .next u.close
      | r => r
    (∀ (i : Instr) (l : List Instr), s.mgmt.frozen = false → s.agenda = i :: l →
      step s = done (exec i { s with agenda := l })) ∧
    (∀ (i : Instr) (t : State), s.plan = .event i t → step s = done (exec i t)) ∧
    (∀ g, s.mgmt.frozen = false → s.agenda = [] → s.fetchDue = some g → step s = .next (s.fetchGroup g).close) ∧
    (∀ (g h : Nat) (ws : List Nat),
      let x := s.grp g
      let lanes := s.fetchLanes g
      let pc := (x.fib (firstLane lanes)).pc
      let c : Clause := ⟨pc, h, ws⟩
      let fetch (a : W64) (n : Nat) : Fetched :=
        s.fetchWords (.clause g) (.group g (firstLane lanes)) (some x.core) (isleOf x.core) (s.ctxOf g) a n
      (s.ctx (s.ctxOf g)).breaks pc = false ∨ lanes &&& ~~~x.skipBp = 0 →
      fetch pc 1 = .words [h] → headOk h = true → fetch (pc + 4) (headWords h) = .words ws →
      s.fetchGroup g = s.capture g lanes c none) ∧
    (∀ (i : Instr) (c : Clause) (idx : Nat),
      let len := if needsExt (headClass c.head) (c.word idx) then 2 else 1
      bits (c.word idx) 30 2 < 2 →
      decodeInstr (headClass c.head) (c.word idx) (if len = 2 then c.word (idx + 1) else 0) = .ok i →
      (i.endsClause = true → headWords c.head < idx + len) →
      c.instr idx = (some i, len)) ∧
    (∀ (g k : Nat) (lanes : W32) (c : Clause) (i : Instr) (len : Nat),
      let f := (s.grp g).fib (firstLane lanes)
      f.code = some c → c.instr f.word = (some i, len) → k < 32 → lanes.getLsbD k = true →
      ((s.grp g).fib k).guardTrue c = true → f.bad = none → c.legal f.word = true →
      (f.next = 0 → (s.grp g).errorsAt c = []) →
      ∃ a, (s.grp g).cand lanes = some a ∧ a.act = .run i ∧ a.clause = c ∧ a.idx = f.word ∧ a.len = len ∧
        a.lanes = lanes ∧ a.active.getLsbD k = true) ∧
    (∀ (g : Nat) (a : Cand) (i : Instr),
      let s1 := s.clearYields g
      let r := exec i { s1 with cur := s1.issueOf g a 0 0 }
      s.plan = .slot g → s.slotOf g = some (a, none) → a.act = .run i → s1.guardStall g a = false →
      { s1 with cur := s1.issueOf g a 0 0 }.mustHold (headClass a.clause.head) i = false →
      (∀ t, r = .next t → t.waitsForWalk g = false → step s = .next (s.slotEnd t g a none t.cur.trapped).close) ∧
      (∀ f, r = .fault f → step s = .fault f) ∧ (∀ f, r = .refused f → step s = .refused f)) ∧
    (∀ (g : Nat) (a b : Cand) (i j : Instr) (ta tb tc : State),
      let s1 := s.clearYields g
      let ctx := s1.ctxOf g
      let s2 := ta.withChk ctx false
      let t := tc.withChk ctx (s1.ctx ctx).chk
      let held (u : State) (c : Cand) (k : Issue) (i : Instr) : Bool := { u with cur := k }.mustHold (headClass c.clause.head) i
      s.plan = .slot g → s.slotOf g = some (a, some b) → a.act = .run i → b.act = .run j →
      s1.guardStall g a = false → held s1 a (s1.issueOf g a 0 b.active) i = false →
      exec i { s1 with cur := s1.issueOf g a 0 b.active } = .next ta →
      ta.waitsForWalk g = false →
      (ta.cur.trapped = true → step s = .next (s.slotEnd ta g a (some b) true).close) ∧
      (ta.cur.trapped = false → s1.guardStall g b = false → held s1 b (s1.issueOf g b 1 a.active) j = false →
        exec j { s1 with cur := s1.issueOf g b 1 a.active } = .next tb → tb.waitsForWalk g = false →
        (tb.cur.trapped = true → step s = .next (s.slotEnd tb g a (some b) true).close) ∧
        (tb.cur.trapped = false → s2.guardStall g b = false → held s2 b (s1.issueOf g b 1 a.active) j = false →
          exec j { s2 with cur := s1.issueOf g b 1 a.active } = .next tc → tc.waitsForWalk g = false →
          step s = .next (s.slotEnd t g a (some b) t.cur.trapped).close))) ∧
    (∀ (g : Nat) (a : Cand),
      let s1 := s.clearYields g
      let u := { s1 with cur := s1.issueOf g a 0 0 }
      let ends (t : State) : Prop := t.waitsForWalk g = false → step s = .next (s.slotEnd t g a none t.cur.trapped).close
      s.plan = .slot g → s.slotOf g = some (a, none) →
      (∀ f va, a.act = .fetch f va → ends (u.fetchFault g a.lanes a.clause.addr va f 0 0)) ∧
      (a.act = .illegal → ends (u.illegalClause g a.lanes a.clause.addr 0 0)) ∧
      (a.act = .bad → ends (u.fail (Fail.illegal 1))) ∧
      (∀ t, a.act = .error → exec (.memoryErrorTrap g a.lanes.toNat) u = .next t → ends t.markTrapped) ∧
      (a.act = .skip → s1.guardStall g a = false → ends (u.skipClause g a.lanes))) ∧
    (∀ (h : HeldEng) (t : State),
      let x := s.grp h.issue.grp
      s.plan = .held h → exec h.instr (h.within { s with heldEng := s.heldEng.erase h }) = .next t →
      t.cur.trapped = false → step s = .next ((if writesAcc h.instr then t.stampAcc h.issue.grp else t).updGrp
        h.issue.grp fun y =>
        { y with ctl := x.ctl, regs := x.regs, sregs := x.sregs }).close) ∧
    (∀ (b idx len : Nat) (c : Clause) (i : Instr),
      let s1 := s.updBlk b fun x => { x with seq := { x.seq with waitBar := none, readyAt := s.blockClock b + 1 } }
      s.plan = .stream b → s.streamReady b = true → (s.blk b).seq.instr = some (c, idx, len, some i) →
      step s = done (exec i { s1 with cur := s1.streamIssue b c idx len }))

/-- From every state in which nobody issues and no lane mask with all its live lanes arrived keeps a fibre waiting,
a step that goes on leaves a state of the same kind, whatever it did: an instruction, an event, a fetch or a
clock. (R44, R45) -/
def Obligations.StepSettles : Prop :=
  ∀ s t : State, s.Settled → step s = .next t → t.Settled

/-- Right after power-on the part is in bring-up phase 0 with package time 0, nobody issues, no mask holds a fibre,
memory is in its canonical form. Every context control block, translation register, region entry and queue
register reads as its table resets it, and so do the scheduler, clock, power, time, ceiling-group and chiplet
registers. (R341, R379, R403, R415, R424, R433, R437, R443, R446, R459, R467, R441) -/
def Obligations.ResetValues : Prop :=
  let s := State.reset
  s.Settled ∧ Memory.wf s.mem = true ∧ s.mgmt.phase = 0 ∧ s.ptime = 0 ∧
  (∀ c, (s.ctx c).chk = false ∧ (s.ctx c).demand = false ∧ (s.ctx c).dbgatt = false ∧ (s.ctx c).dbgstop = false ∧
    (s.ctx c).tlbi = false ∧ (s.ctx c).dbgr = false ∧ (s.ctx c).lease = 15 ∧ (s.ctx c).frlog = 0 ∧ (s.ctx c).frbase = 0 ∧
    (s.ctx c).frtail = 0 ∧ (s.ctx c).frhead = 0 ∧ (s.ctx c).frdrop = 0 ∧ (s.ctx c).bp0en = false ∧ (s.ctx c).bp0 = 0 ∧
    (s.ctx c).bp1en = false ∧ (s.ctx c).bp1 = 0 ∧ (s.ctx c).root = 0 ∧ (s.ctx c).part = 0) ∧
  (∀ i, (s.region i).v = false ∧ (s.region i).log2sz = 0 ∧ (s.region i).w = 0 ∧ (s.region i).hisle = 0 ∧
    (s.region i).hslice = 0 ∧ (s.region i).bound = 0 ∧ (s.region i).base = 0 ∧ (s.region i).unalloc = 0 ∧
    (s.region i).lost = 0) ∧
  (∀ n, (s.qctl n).en = false ∧ (s.qctl n).pri = 0 ∧ (s.qctl n).owner = 0 ∧ (s.qctl n).len = 0 ∧ (s.qctl n).base = 0 ∧
    (s.qctl n).nonce = 0 ∧ (s.qctl n).head = 0 ∧ (s.qctl n).tail = 0 ∧ (s.qctl n).drops = 0) ∧
  (s.disp.hbthr = 240000 ∧ s.disp.slewa = 32 ∧ s.disp.slewptr = 0) ∧
  (∀ n, (s.cluster n).st = .steady ∧ (s.cluster n).pendStep = none ∧ (s.cluster n).req = 54 ∧ (s.cluster n).budget = 0 ∧ (s.cluster n).mheavy = false) ∧
  (s.ceil.plim = 68 ∧ s.ceil.swcap = 68 ∧ s.ceil.pwr = 0 ∧ s.ceil.mhfrac = 64) ∧
  (s.sync.master = true ∧ s.sync.upport = 0 ∧ s.sync.locked = false ∧ s.sync.syncint = 7 ∧ s.sync.tskew = 0xFFFF) ∧
  (s.ceil.en = false ∧ s.ceil.self = 0 ∧ s.ceil.nmem = 0 ∧ s.ceil.mcast = 0 ∧ s.ceil.hbint = 100 ∧ s.ceil.c = 68 ∧
    s.ceil.expelled = false ∧ s.ceil.ebite = 0 ∧ s.ceil.late = 0 ∧ s.ceil.expels = 0) ∧
  (∀ m, (s.chip m).cause = 0 ∧ (s.chip m).discard = 0 ∧ (s.chip m).ftime = 0 ∧ (s.chip m).tokens = 16)
end

