-- ==== Sys2Proof/Laws/Exec.lean ====
section
/-!
SUPPORT. The meaning of each instruction, one equation per constructor (each holds by definition): to be cited in place
of unfolding `exec`.
-/
namespace Sys2Proof.Laws
open Sys2Proof.Machine

theorem exec_iadd (d : Nat) (a : Nat) (b : Src) (s : State) :
    exec (.iadd d a b) s = Sys2Proof.Machine.execIadd d a b s := rfl
theorem exec_isub (d : Nat) (a : Nat) (b : Src) (s : State) :
    exec (.isub d a b) s = Sys2Proof.Machine.execIsub d a b s := rfl
theorem exec_iaddc (d : Nat) (a : Nat) (c : Nat) (b : Src) (s : State) :
    exec (.iaddc d a c b) s = Sys2Proof.Machine.execIaddc d a c b s := rfl
theorem exec_isubb (d : Nat) (a : Nat) (c : Nat) (b : Src) (s : State) :
    exec (.isubb d a c b) s = Sys2Proof.Machine.execIsubb d a c b s := rfl
theorem exec_imul (d : Nat) (a : Nat) (b : Src) (s : State) :
    exec (.imul d a b) s = Sys2Proof.Machine.execImul d a b s := rfl
theorem exec_imulh (d : Nat) (a : Nat) (b : Src) (u : Bool) (s : State) :
    exec (.imulh d a b u) s = Sys2Proof.Machine.execImulh d a b u s := rfl
theorem exec_imad (d : Nat) (a : Nat) (b : Src) (c : Src) (s : State) :
    exec (.imad d a b c) s = Sys2Proof.Machine.execImad d a b c s := rfl
theorem exec_imin (d : Nat) (a : Nat) (b : Src) (u : Bool) (s : State) :
    exec (.imin d a b u) s = Sys2Proof.Machine.execImin d a b u s := rfl
theorem exec_imax (d : Nat) (a : Nat) (b : Src) (u : Bool) (s : State) :
    exec (.imax d a b u) s = Sys2Proof.Machine.execImax d a b u s := rfl
theorem exec_iabs (d : Nat) (a : Nat) (sat : Bool) (s : State) :
    exec (.iabs d a sat) s = Sys2Proof.Machine.execIabs d a sat s := rfl
theorem exec_ineg (d : Nat) (a : Nat) (sat : Bool) (s : State) :
    exec (.ineg d a sat) s = Sys2Proof.Machine.execIneg d a sat s := rfl
theorem exec_idot4 (d : Nat) (a : Nat) (b : Nat) (ua : Bool) (ub : Bool) (s : State) :
    exec (.idot4 d a b ua ub) s = Sys2Proof.Machine.execIdot4 d a b ua ub s := rfl
theorem exec_iadd64 (d : Nat) (a : Nat) (b : Src) (s : State) :
    exec (.iadd64 d a b) s = Sys2Proof.Machine.execIadd64 d a b s := rfl
theorem exec_lea (d : Nat) (a : Nat) (b : Src) (k : Nat) (u : Bool) (s : State) :
    exec (.lea d a b k u) s = Sys2Proof.Machine.execLea d a b k u s := rfl
theorem exec_sel (d : Nat) (a : Nat) (p : Nat) (b : Src) (s : State) :
    exec (.sel d a p b) s = Sys2Proof.Machine.execSel d a p b s := rfl
theorem exec_isetp (p : Nat) (a : Nat) (code : Nat) (u : Bool) (b : Src) (s : State) :
    exec (.isetp p a code u b) s = Sys2Proof.Machine.execIsetp p a code u b s := rfl
theorem exec_and (d : Nat) (a : Nat) (b : Src) (s : State) :
    exec (.and d a b) s = Sys2Proof.Machine.execAnd d a b s := rfl
theorem exec_or (d : Nat) (a : Nat) (b : Src) (s : State) :
    exec (.or d a b) s = Sys2Proof.Machine.execOr d a b s := rfl
theorem exec_xor (d : Nat) (a : Nat) (b : Src) (s : State) :
    exec (.xor d a b) s = Sys2Proof.Machine.execXor d a b s := rfl
theorem exec_andn (d : Nat) (a : Nat) (b : Src) (s : State) :
    exec (.andn d a b) s = Sys2Proof.Machine.execAndn d a b s := rfl
theorem exec_orn (d : Nat) (a : Nat) (b : Src) (s : State) :
    exec (.orn d a b) s = Sys2Proof.Machine.execOrn d a b s := rfl
theorem exec_not (d : Nat) (a : Nat) (s : State) :
    exec (.not d a) s = Sys2Proof.Machine.execNot d a s := rfl
theorem exec_lop3 (d : Nat) (a : Nat) (b : Nat) (c : Nat) (t : Nat) (s : State) :
    exec (.lop3 d a b c t) s = Sys2Proof.Machine.execLop3 d a b c t s := rfl
theorem exec_shl (d : Nat) (a : Nat) (b : Src) (s : State) :
    exec (.shl d a b) s = Sys2Proof.Machine.execShl d a b s := rfl
theorem exec_shr (d : Nat) (a : Nat) (b : Src) (s : State) :
    exec (.shr d a b) s = Sys2Proof.Machine.execShr d a b s := rfl
theorem exec_sar (d : Nat) (a : Nat) (b : Src) (s : State) :
    exec (.sar d a b) s = Sys2Proof.Machine.execSar d a b s := rfl
theorem exec_rol (d : Nat) (a : Nat) (b : Src) (s : State) :
    exec (.rol d a b) s = Sys2Proof.Machine.execRol d a b s := rfl
theorem exec_fshl (d : Nat) (a : Nat) (b : Nat) (c : Src) (s : State) :
    exec (.fshl d a b c) s = Sys2Proof.Machine.execFshl d a b c s := rfl
theorem exec_shl64 (d : Nat) (a : Nat) (b : Src) (s : State) :
    exec (.shl64 d a b) s = Sys2Proof.Machine.execShl64 d a b s := rfl
theorem exec_popc (d : Nat) (a : Nat) (s : State) :
    exec (.popc d a) s = Sys2Proof.Machine.execPopc d a s := rfl
theorem exec_clz (d : Nat) (a : Nat) (s : State) :
    exec (.clz d a) s = Sys2Proof.Machine.execClz d a s := rfl
theorem exec_ctz (d : Nat) (a : Nat) (s : State) :
    exec (.ctz d a) s = Sys2Proof.Machine.execCtz d a s := rfl
theorem exec_brev (d : Nat) (a : Nat) (s : State) :
    exec (.brev d a) s = Sys2Proof.Machine.execBrev d a s := rfl
theorem exec_bfx (d : Nat) (a : Nat) (pos : Nat) (len : Nat) (sx : Bool) (s : State) :
    exec (.bfx d a pos len sx) s = Sys2Proof.Machine.execBfx d a pos len sx s := rfl
theorem exec_bfi (d : Nat) (a : Nat) (b : Nat) (pos : Nat) (len : Nat) (s : State) :
    exec (.bfi d a b pos len) s = Sys2Proof.Machine.execBfi d a b pos len s := rfl
theorem exec_mov (d : Nat) (a : Nat) (w64 : Bool) (s : State) :
    exec (.mov d a w64) s = Sys2Proof.Machine.execMov d a w64 s := rfl
theorem exec_movi (d : Nat) (imm : Nat) (s : State) :
    exec (.movi d imm) s = Sys2Proof.Machine.execMovi d imm s := rfl
theorem exec_movs (d : Nat) (k : Nat) (w64 : Bool) (s : State) :
    exec (.movs d k w64) s = Sys2Proof.Machine.execMovs d k w64 s := rfl
theorem exec_sread (d : Nat) (kind : Nat) (rsel : Nat) (s : State) :
    exec (.sread d kind rsel) s = Sys2Proof.Machine.execSread d kind rsel s := rfl
theorem exec_plop (p : Nat) (pa : Nat) (pb : Nat) (pc : Nat) (t : Nat) (s : State) :
    exec (.plop p pa pb pc t) s = Sys2Proof.Machine.execPlop p pa pb pc t s := rfl
theorem exec_pmov (wr : Bool) (r : Nat) (s : State) :
    exec (.pmov wr r) s = Sys2Proof.Machine.execPmov wr r s := rfl
theorem exec_sadd (d : Nat) (a : Nat) (b : Src) (s : State) :
    exec (.sadd d a b) s = Sys2Proof.Machine.execSadd d a b s := rfl
theorem exec_ssub (d : Nat) (a : Nat) (b : Src) (s : State) :
    exec (.ssub d a b) s = Sys2Proof.Machine.execSsub d a b s := rfl
theorem exec_smul (d : Nat) (a : Nat) (b : Src) (s : State) :
    exec (.smul d a b) s = Sys2Proof.Machine.execSmul d a b s := rfl
theorem exec_sand (d : Nat) (a : Nat) (b : Src) (s : State) :
    exec (.sand d a b) s = Sys2Proof.Machine.execSand d a b s := rfl
theorem exec_sor (d : Nat) (a : Nat) (b : Src) (s : State) :
    exec (.sor d a b) s = Sys2Proof.Machine.execSor d a b s := rfl
theorem exec_sxor (d : Nat) (a : Nat) (b : Src) (s : State) :
    exec (.sxor d a b) s = Sys2Proof.Machine.execSxor d a b s := rfl
theorem exec_sshl (d : Nat) (a : Nat) (b : Src) (s : State) :
    exec (.sshl d a b) s = Sys2Proof.Machine.execSshl d a b s := rfl
theorem exec_sshr (d : Nat) (a : Nat) (b : Src) (ar : Bool) (s : State) :
    exec (.sshr d a b ar) s = Sys2Proof.Machine.execSshr d a b ar s := rfl
theorem exec_smov (d : Nat) (a : Nat) (w64 : Bool) (s : State) :
    exec (.smov d a w64) s = Sys2Proof.Machine.execSmov d a w64 s := rfl
theorem exec_smovi (d : Nat) (imm : Nat) (s : State) :
    exec (.smovi d imm) s = Sys2Proof.Machine.execSmovi d imm s := rfl
theorem exec_ssetp (p : Nat) (a : Nat) (code : Nat) (u : Bool) (b : Src) (s : State) :
    exec (.ssetp p a code u b) s = Sys2Proof.Machine.execSsetp p a code u b s := rfl
theorem exec_slane (d : Nat) (a : Nat) (lane : Src) (w64 : Bool) (s : State) :
    exec (.slane d a lane w64) s = Sys2Proof.Machine.execSlane d a lane w64 s := rfl
theorem exec_bra (p : Nat) (off : Int) (s : State) :
    exec (.bra p off) s = Sys2Proof.Machine.execBra p off s := rfl
theorem exec_braLong (p : Nat) (off : Int) (s : State) :
    exec (.braLong p off) s = Sys2Proof.Machine.execBraLong p off s := rfl
theorem exec_bany (p : Nat) (off : Int) (s : State) :
    exec (.bany p off) s = Sys2Proof.Machine.execBany p off s := rfl
theorem exec_banyLong (p : Nat) (off : Int) (s : State) :
    exec (.banyLong p off) s = Sys2Proof.Machine.execBanyLong p off s := rfl
theorem exec_ball (p : Nat) (off : Int) (s : State) :
    exec (.ball p off) s = Sys2Proof.Machine.execBall p off s := rfl
theorem exec_ballLong (p : Nat) (off : Int) (s : State) :
    exec (.ballLong p off) s = Sys2Proof.Machine.execBallLong p off s := rfl
theorem exec_bnone (p : Nat) (off : Int) (s : State) :
    exec (.bnone p off) s = Sys2Proof.Machine.execBnone p off s := rfl
theorem exec_bnoneLong (p : Nat) (off : Int) (s : State) :
    exec (.bnoneLong p off) s = Sys2Proof.Machine.execBnoneLong p off s := rfl
theorem exec_bdiv (p : Nat) (off : Int) (s : State) :
    exec (.bdiv p off) s = Sys2Proof.Machine.execBdiv p off s := rfl
theorem exec_bdivLong (p : Nat) (off : Int) (s : State) :
    exec (.bdivLong p off) s = Sys2Proof.Machine.execBdivLong p off s := rfl
theorem exec_jmp (tgt : Src) (s : State) :
    exec (.jmp tgt) s = Sys2Proof.Machine.execJmp tgt s := rfl
theorem exec_call (f : Nat) (off : Int) (s : State) :
    exec (.call f off) s = Sys2Proof.Machine.execCall f off s := rfl
theorem exec_calli (f : Nat) (tgt : Src) (s : State) :
    exec (.calli f tgt) s = Sys2Proof.Machine.execCalli f tgt s := rfl
theorem exec_ret (link : Nat) (f : Nat) (s : State) :
    exec (.ret link f) s = Sys2Proof.Machine.execRet link f s := rfl
theorem exec_exit (p : Nat) (s : State) :
    exec (.exit p) s = Sys2Proof.Machine.execExit p s := rfl
theorem exec_fspawn (d : Nat) (p : Nat) (w : Nat) (off : Int) (s : State) :
    exec (.fspawn d p w off) s = Sys2Proof.Machine.execFspawn d p w off s := rfl
theorem exec_bkpt (code : Nat) (s : State) :
    exec (.bkpt code) s = Sys2Proof.Machine.execBkpt code s := rfl
theorem exec_utrap (code : Nat) (s : State) :
    exec (.utrap code) s = Sys2Proof.Machine.execUtrap code s := rfl
theorem exec_mjoin (m : Nat) (s : State) :
    exec (.mjoin m) s = Sys2Proof.Machine.execMjoin m s := rfl
theorem exec_mleave (m : Nat) (s : State) :
    exec (.mleave m) s = Sys2Proof.Machine.execMleave m s := rfl
theorem exec_mwait (m : Nat) (s : State) :
    exec (.mwait m) s = Sys2Proof.Machine.execMwait m s := rfl
theorem exec_mset (m : Nat) (k : Nat) (mode : Nat) (s : State) :
    exec (.mset m k mode) s = Sys2Proof.Machine.execMset m k mode s := rfl
theorem exec_mget (d : Nat) (m : Nat) (mode : Nat) (s : State) :
    exec (.mget d m mode) s = Sys2Proof.Machine.execMget d m mode s := rfl
theorem exec_vote (d : Nat) (pa : Nat) (m : Nat) (q : Nat) (mode : Nat) (s : State) :
    exec (.vote d pa m q mode) s = Sys2Proof.Machine.execVote d pa m q mode s := rfl
theorem exec_matchl (d : Nat) (a : Nat) (m : Nat) (w64 : Bool) (s : State) :
    exec (.matchl d a m w64) s = Sys2Proof.Machine.execMatchl d a m w64 s := rfl
theorem exec_shfl (d : Nat) (a : Nat) (mlo : Nat) (mhi : Nat) (b : Src) (w64 : Bool) (m : Nat) (seg : Nat) (z : Bool) (s : State) :
    exec (.shfl d a mlo mhi b w64 m seg z) s = Sys2Proof.Machine.execShfl d a mlo mhi b w64 m seg z s := rfl
theorem exec_redmin (d : Nat) (a : Nat) (m : Nat) (idx : Bool) (ty : Nat) (s : State) :
    exec (.redmin d a m idx ty) s = Sys2Proof.Machine.execRedmin d a m idx ty s := rfl
theorem exec_redmax (d : Nat) (a : Nat) (m : Nat) (idx : Bool) (ty : Nat) (s : State) :
    exec (.redmax d a m idx ty) s = Sys2Proof.Machine.execRedmax d a m idx ty s := rfl
theorem exec_redadd (d : Nat) (a : Nat) (m : Nat) (mode : Nat) (s : State) :
    exec (.redadd d a m mode) s = Sys2Proof.Machine.execRedadd d a m mode s := rfl
theorem exec_fredadd (d : Nat) (a : Nat) (m : Nat) (w64 : Bool) (s : State) :
    exec (.fredadd d a m w64) s = Sys2Proof.Machine.execFredadd d a m w64 s := rfl
theorem exec_scan (d : Nat) (a : Nat) (m : Nat) (excl : Bool) (op : Nat) (s : State) :
    exec (.scan d a m excl op) s = Sys2Proof.Machine.execScan d a m excl op s := rfl
theorem exec_redlog (d : Nat) (a : Nat) (m : Nat) (op : Nat) (s : State) :
    exec (.redlog d a m op) s = Sys2Proof.Machine.execRedlog d a m op s := rfl
theorem exec_fadd (d : Nat) (a : Nat) (rnd : Nat) (b : Src) (s : State) :
    exec (.fadd d a rnd b) s = Sys2Proof.Machine.execFadd d a rnd b s := rfl
theorem exec_fsub (d : Nat) (a : Nat) (rnd : Nat) (b : Src) (s : State) :
    exec (.fsub d a rnd b) s = Sys2Proof.Machine.execFsub d a rnd b s := rfl
theorem exec_fmul (d : Nat) (a : Nat) (rnd : Nat) (b : Src) (s : State) :
    exec (.fmul d a rnd b) s = Sys2Proof.Machine.execFmul d a rnd b s := rfl
theorem exec_ffma (d : Nat) (a : Nat) (b : Src) (c : Src) (rnd : Nat) (np : Bool) (s : State) :
    exec (.ffma d a b c rnd np) s = Sys2Proof.Machine.execFfma d a b c rnd np s := rfl
theorem exec_fmin (d : Nat) (a : Nat) (b : Src) (nan : Bool) (s : State) :
    exec (.fmin d a b nan) s = Sys2Proof.Machine.execFmin d a b nan s := rfl
theorem exec_fmax (d : Nat) (a : Nat) (b : Src) (nan : Bool) (s : State) :
    exec (.fmax d a b nan) s = Sys2Proof.Machine.execFmax d a b nan s := rfl
theorem exec_fsetp (p : Nat) (a : Nat) (cond : Nat) (b : Src) (s : State) :
    exec (.fsetp p a cond b) s = Sys2Proof.Machine.execFsetp p a cond b s := rfl
theorem exec_fclass (d : Nat) (a : Nat) (w64 : Bool) (s : State) :
    exec (.fclass d a w64) s = Sys2Proof.Machine.execFclass d a w64 s := rfl
theorem exec_frcp (d : Nat) (a : Nat) (s : State) :
    exec (.frcp d a) s = Sys2Proof.Machine.execFrcp d a s := rfl
theorem exec_frsq (d : Nat) (a : Nat) (s : State) :
    exec (.frsq d a) s = Sys2Proof.Machine.execFrsq d a s := rfl
theorem exec_fsqrt (d : Nat) (a : Nat) (s : State) :
    exec (.fsqrt d a) s = Sys2Proof.Machine.execFsqrt d a s := rfl
theorem exec_fdiv (d : Nat) (a : Nat) (b : Src) (s : State) :
    exec (.fdiv d a b) s = Sys2Proof.Machine.execFdiv d a b s := rfl
theorem exec_fexp2 (d : Nat) (a : Nat) (s : State) :
    exec (.fexp2 d a) s = Sys2Proof.Machine.execFexp2 d a s := rfl
theorem exec_flog2 (d : Nat) (a : Nat) (s : State) :
    exec (.flog2 d a) s = Sys2Proof.Machine.execFlog2 d a s := rfl
theorem exec_fsinpi (d : Nat) (a : Nat) (s : State) :
    exec (.fsinpi d a) s = Sys2Proof.Machine.execFsinpi d a s := rfl
theorem exec_fcospi (d : Nat) (a : Nat) (s : State) :
    exec (.fcospi d a) s = Sys2Proof.Machine.execFcospi d a s := rfl
theorem exec_dadd (d : Nat) (a : Nat) (b : Src) (rnd : Nat) (s : State) :
    exec (.dadd d a b rnd) s = Sys2Proof.Machine.execDadd d a b rnd s := rfl
theorem exec_dmul (d : Nat) (a : Nat) (b : Src) (rnd : Nat) (s : State) :
    exec (.dmul d a b rnd) s = Sys2Proof.Machine.execDmul d a b rnd s := rfl
theorem exec_dfma (d : Nat) (a : Nat) (b : Src) (c : Src) (rnd : Nat) (np : Bool) (s : State) :
    exec (.dfma d a b c rnd np) s = Sys2Proof.Machine.execDfma d a b c rnd np s := rfl
theorem exec_dmin (d : Nat) (a : Nat) (b : Src) (nan : Bool) (s : State) :
    exec (.dmin d a b nan) s = Sys2Proof.Machine.execDmin d a b nan s := rfl
theorem exec_dmax (d : Nat) (a : Nat) (b : Src) (nan : Bool) (s : State) :
    exec (.dmax d a b nan) s = Sys2Proof.Machine.execDmax d a b nan s := rfl
theorem exec_dsetp (p : Nat) (a : Nat) (cond : Nat) (b : Src) (s : State) :
    exec (.dsetp p a cond b) s = Sys2Proof.Machine.execDsetp p a cond b s := rfl
theorem exec_ddiv (d : Nat) (a : Nat) (b : Src) (s : State) :
    exec (.ddiv d a b) s = Sys2Proof.Machine.execDdiv d a b s := rfl
theorem exec_hadd2 (d : Nat) (a : Nat) (b : Src) (rnd : Nat) (bf : Bool) (s : State) :
    exec (.hadd2 d a b rnd bf) s = Sys2Proof.Machine.execHadd2 d a b rnd bf s := rfl
theorem exec_hmul2 (d : Nat) (a : Nat) (b : Src) (rnd : Nat) (bf : Bool) (s : State) :
    exec (.hmul2 d a b rnd bf) s = Sys2Proof.Machine.execHmul2 d a b rnd bf s := rfl
theorem exec_hfma2 (d : Nat) (a : Nat) (b : Src) (c : Src) (rnd : Nat) (bf : Bool) (s : State) :
    exec (.hfma2 d a b c rnd bf) s = Sys2Proof.Machine.execHfma2 d a b c rnd bf s := rfl
theorem exec_cmul (d : Nat) (a : Nat) (b : Nat) (rnd : Nat) (cj : Bool) (s : State) :
    exec (.cmul d a b rnd cj) s = Sys2Proof.Machine.execCmul d a b rnd cj s := rfl
theorem exec_cfma (d : Nat) (a : Nat) (b : Nat) (c : Nat) (rnd : Nat) (cj : Bool) (s : State) :
    exec (.cfma d a b c rnd cj) s = Sys2Proof.Machine.execCfma d a b c rnd cj s := rfl
theorem exec_cvtff (d : Nat) (a : Nat) (rnd : Nat) (sat : Bool) (df : Nat) (sf : Nat) (dp : Nat) (sp : Nat) (s : State) :
    exec (.cvtff d a rnd sat df sf dp sp) s = Sys2Proof.Machine.execCvtff d a rnd sat df sf dp sp s := rfl
theorem exec_cvtfi (d : Nat) (a : Nat) (rnd : Nat) (sf : Nat) (sp : Nat) (dt : Nat) (s : State) :
    exec (.cvtfi d a rnd sf sp dt) s = Sys2Proof.Machine.execCvtfi d a rnd sf sp dt s := rfl
theorem exec_cvtif (d : Nat) (a : Nat) (rnd : Nat) (sat : Bool) (df : Nat) (ty : Nat) (dp : Nat) (s : State) :
    exec (.cvtif d a rnd sat df ty dp) s = Sys2Proof.Machine.execCvtif d a rnd sat df ty dp s := rfl
theorem exec_cvtpk (d : Nat) (a : Nat) (rnd : Nat) (ty : Nat) (slot : Nat) (m : Nat) (s : State) :
    exec (.cvtpk d a rnd ty slot m) s = Sys2Proof.Machine.execCvtpk d a rnd ty slot m s := rfl
theorem exec_cvtunpk (d : Nat) (a : Nat) (b : Nat) (k : Nat) (slot : Nat) (s : State) :
    exec (.cvtunpk d a b k slot) s = Sys2Proof.Machine.execCvtunpk d a b k slot s := rfl
theorem exec_cvtw (d : Nat) (a : Nat) (q : Bool) (w : Nat) (s : State) :
    exec (.cvtw d a q w) s = Sys2Proof.Machine.execCvtw d a q w s := rfl
theorem exec_ld (d : Nat) (b : Nat) (sb : Nat) (w : Nat) (s : State) :
    exec (.ld d b sb w) s = Sys2Proof.Machine.execLd d b sb w s := rfl
theorem exec_ldExt (d : Nat) (b : Nat) (sb : Nat) (acc : Acc) (off : Int) (s : State) :
    exec (.ldExt d b sb acc off) s = Sys2Proof.Machine.execLdExt d b sb acc off s := rfl
theorem exec_st (d : Nat) (b : Nat) (sb : Nat) (w : Nat) (s : State) :
    exec (.st d b sb w) s = Sys2Proof.Machine.execSt d b sb w s := rfl
theorem exec_stExt (d : Nat) (b : Nat) (sb : Nat) (acc : Acc) (off : Int) (s : State) :
    exec (.stExt d b sb acc off) s = Sys2Proof.Machine.execStExt d b sb acc off s := rfl
theorem exec_lds (d : Nat) (b : Nat) (sb : Nat) (w : Nat) (s : State) :
    exec (.lds d b sb w) s = Sys2Proof.Machine.execLds d b sb w s := rfl
theorem exec_ldsExt (d : Nat) (b : Nat) (sb : Nat) (acc : Acc) (off : Int) (s : State) :
    exec (.ldsExt d b sb acc off) s = Sys2Proof.Machine.execLdsExt d b sb acc off s := rfl
theorem exec_ldl (d : Nat) (b : Src) (sb : Nat) (w : Nat) (s : State) :
    exec (.ldl d b sb w) s = Sys2Proof.Machine.execLdl d b sb w s := rfl
theorem exec_ldlExt (d : Nat) (b : Src) (sb : Nat) (w : Nat) (off : Int) (s : State) :
    exec (.ldlExt d b sb w off) s = Sys2Proof.Machine.execLdlExt d b sb w off s := rfl
theorem exec_stl (d : Nat) (b : Src) (sb : Nat) (w : Nat) (s : State) :
    exec (.stl d b sb w) s = Sys2Proof.Machine.execStl d b sb w s := rfl
theorem exec_stlExt (d : Nat) (b : Src) (sb : Nat) (w : Nat) (off : Int) (s : State) :
    exec (.stlExt d b sb w off) s = Sys2Proof.Machine.execStlExt d b sb w off s := rfl
theorem exec_ldt (d : Nat) (b : Nat) (sb : Nat) (k : Nat) (s : State) :
    exec (.ldt d b sb k) s = Sys2Proof.Machine.execLdt d b sb k s := rfl
theorem exec_hzadd (a : Nat) (b : Nat) (sb : Nat) (s : State) :
    exec (.hzadd a b sb) s = Sys2Proof.Machine.execHzadd a b sb s := rfl
theorem exec_hzaddExt (a : Nat) (b : Nat) (sb : Nat) (off : Int) (s : State) :
    exec (.hzaddExt a b sb off) s = Sys2Proof.Machine.execHzaddExt a b sb off s := rfl
theorem exec_hzsettle (l : Nat) (b : Nat) (sb : Nat) (s : State) :
    exec (.hzsettle l b sb) s = Sys2Proof.Machine.execHzsettle l b sb s := rfl
theorem exec_pref (b : Nat) (sb : Nat) (s : State) :
    exec (.pref b sb) s = Sys2Proof.Machine.execPref b sb s := rfl
theorem exec_prefExt (b : Nat) (sb : Nat) (off : Int) (s : State) :
    exec (.prefExt b sb off) s = Sys2Proof.Machine.execPrefExt b sb off s := rfl
theorem exec_wback (b : Nat) (sb : Nat) (all : Bool) (s : State) :
    exec (.wback b sb all) s = Sys2Proof.Machine.execWback b sb all s := rfl
theorem exec_wbackExt (b : Nat) (sb : Nat) (off : Int) (s : State) :
    exec (.wbackExt b sb off) s = Sys2Proof.Machine.execWbackExt b sb off s := rfl
theorem exec_fence (sb : Nat) (kind : Nat) (scope : Nat) (s : State) :
    exec (.fence sb kind scope) s = Sys2Proof.Machine.execFence sb kind scope s := rfl
theorem exec_atom (op : Nat) (b : Nat) (sb : Nat) (ord : Nat) (scope : Nat) (s : State) :
    exec (.atom op b sb ord scope) s = Sys2Proof.Machine.execAtom op b sb ord scope s := rfl
theorem exec_atomv (esz : Nat) (op : Nat) (b : Nat) (sb : Nat) (ord : Nat) (scope : Nat) (s : State) :
    exec (.atomv esz op b sb ord scope) s = Sys2Proof.Machine.execAtomv esz op b sb ord scope s := rfl
theorem exec_redm (op : Nat) (b : Nat) (sb : Nat) (ord : Nat) (scope : Nat) (s : State) :
    exec (.redm op b sb ord scope) s = Sys2Proof.Machine.execRedm op b sb ord scope s := rfl
theorem exec_bar (k : Nat) (sb : Nat) (s : State) :
    exec (.bar k sb) s = Sys2Proof.Machine.execBar k sb s := rfl
theorem exec_barArv (k : Nat) (sb : Nat) (s : State) :
    exec (.barArv k sb) s = Sys2Proof.Machine.execBarArv k sb s := rfl
theorem exec_barExp (k : Nat) (cnt : Nat) (sb : Nat) (s : State) :
    exec (.barExp k cnt sb) s = Sys2Proof.Machine.execBarExp k cnt sb s := rfl
theorem exec_gbar (g : Nat) (sb : Nat) (s : State) :
    exec (.gbar g sb) s = Sys2Proof.Machine.execGbar g sb s := rfl
theorem exec_mma (ta : Nat) (tb : Nat) (r : Nat) (k : Nat) (c0 : Nat) (z : Bool) (ea : Bool) (eb : Bool) (pr : Bool) (s : State) :
    exec (.mma ta tb r k c0 z ea eb pr) s = Sys2Proof.Machine.execMma ta tb r k c0 z ea eb pr s := rfl
theorem exec_mmas (ta : Nat) (tb : Nat) (r : Nat) (k : Nat) (c0 : Nat) (z : Bool) (ea : Bool) (eb : Bool) (pr : Bool) (s : State) :
    exec (.mmas ta tb r k c0 z ea eb pr) s = Sys2Proof.Machine.execMmas ta tb r k c0 z ea eb pr s := rfl
theorem exec_mzero (r : Nat) (n1 : Nat) (sb : Nat) (s : State) :
    exec (.mzero r n1 sb) s = Sys2Proof.Machine.execMzero r n1 sb s := rfl
theorem exec_maccOut (t : Nat) (r : Nat) (sb : Nat) (rnd : Nat) (hi : Bool) (c0 : Nat) (s : State) :
    exec (.maccOut t r sb rnd hi c0) s = Sys2Proof.Machine.execMaccOut t r sb rnd hi c0 s := rfl
theorem exec_maccIn (t : Nat) (r : Nat) (sb : Nat) (rnd : Nat) (add : Bool) (hi : Bool) (c0 : Nat) (s : State) :
    exec (.maccIn t r sb rnd add hi c0) s = Sys2Proof.Machine.execMaccIn t r sb rnd add hi c0 s := rfl
theorem exec_mloop (ta : Nat) (tb : Nat) (sd : Nat) (s : State) :
    exec (.mloop ta tb sd) s = Sys2Proof.Machine.execMloop ta tb sd s := rfl
theorem exec_talloc (p : Nat) (t : Nat) (sg : Nat) (sb : Nat) (s : State) :
    exec (.talloc p t sg sb) s = Sys2Proof.Machine.execTalloc p t sg sb s := rfl
theorem exec_tfree (t : Nat) (sb : Nat) (s : State) :
    exec (.tfree t sb) s = Sys2Proof.Machine.execTfree t sb s := rfl
theorem exec_tcopy (t : Nat) (sd : Nat) (acq : Bool) (rel : Bool) (scope : Nat) (ir : Bool) (sb : Nat) (rnd : Nat) (slot : Nat) (cv : Bool) (hi : Bool) (s : State) :
    exec (.tcopy t sd acq rel scope ir sb rnd slot cv hi) s = Sys2Proof.Machine.execTcopy t sd acq rel scope ir sb rnd slot cv hi s := rfl
theorem exec_tchain (sh : Nat) (ch : Nat) (ir : Bool) (scope : Nat) (sb : Nat) (s : State) :
    exec (.tchain sh ch ir scope sb) s = Sys2Proof.Machine.execTchain sh ch ir scope sb s := rfl
theorem exec_tstore (t : Nat) (sd : Nat) (acq : Bool) (rel : Bool) (scope : Nat) (ir : Bool) (sb : Nat) (rnd : Nat) (slot : Nat) (cv : Bool) (hi : Bool) (s : State) :
    exec (.tstore t sd acq rel scope ir sb rnd slot cv hi) s = Sys2Proof.Machine.execTstore t sd acq rel scope ir sb rnd slot cv hi s := rfl
theorem exec_tstoreHz (sd : Nat) (acq : Bool) (rel : Bool) (scope : Nat) (ir : Bool) (sb : Nat) (hi : Bool) (r : Nat) (rows1 : Nat) (c0 : Nat) (s : State) :
    exec (.tstoreHz sd acq rel scope ir sb hi r rows1 c0) s = Sys2Proof.Machine.execTstoreHz sd acq rel scope ir sb hi r rows1 c0 s := rfl
theorem exec_tfill (t : Nat) (sv : Nat) (hi : Bool) (sb : Nat) (s : State) :
    exec (.tfill t sv hi sb) s = Sys2Proof.Machine.execTfill t sv hi sb s := rfl
theorem exec_seqbar (k : Nat) (s : State) :
    exec (.seqbar k) s = Sys2Proof.Machine.execSeqbar k s := rfl
theorem exec_seqbarArv (k : Nat) (s : State) :
    exec (.seqbarArv k) s = Sys2Proof.Machine.execSeqbarArv k s := rfl
theorem exec_seqbarWait (k : Nat) (s : State) :
    exec (.seqbarWait k) s = Sys2Proof.Machine.execSeqbarWait k s := rfl
theorem exec_accrd (d : Nat) (a : Nat) (sb : Nat) (s : State) :
    exec (.accrd d a sb) s = Sys2Proof.Machine.execAccrd d a sb s := rfl
theorem exec_accwr (k : Nat) (a : Nat) (sb : Nat) (s : State) :
    exec (.accwr k a sb) s = Sys2Proof.Machine.execAccwr k a sb s := rfl
theorem exec_awset (sg : Nat) (sb0 : Nat) (sl : Nat) (last : Bool) (s : State) :
    exec (.awset sg sb0 sl last) s = Sys2Proof.Machine.execAwset sg sb0 sl last s := rfl
theorem exec_txinit (x : Nat) (c : Nat) (sb : Nat) (s : State) :
    exec (.txinit x c sb) s = Sys2Proof.Machine.execTxinit x c sb s := rfl
theorem exec_txexp (x : Nat) (cnt : Nat) (sb : Nat) (s : State) :
    exec (.txexp x cnt sb) s = Sys2Proof.Machine.execTxexp x cnt sb s := rfl
theorem exec_txarv (x : Nat) (cnt : Nat) (exp : Bool) (one : Bool) (sb : Nat) (s : State) :
    exec (.txarv x cnt exp one sb) s = Sys2Proof.Machine.execTxarv x cnt exp one sb s := rfl
theorem exec_txwait (x : Nat) (ph : Nat) (s : State) :
    exec (.txwait x ph) s = Sys2Proof.Machine.execTxwait x ph s := rfl
theorem exec_txtest (p : Nat) (x : Nat) (ph : Nat) (sb : Nat) (s : State) :
    exec (.txtest p x ph sb) s = Sys2Proof.Machine.execTxtest p x ph sb s := rfl
theorem exec_twait (t : Nat) (state : Nat) (s : State) :
    exec (.twait t state) s = Sys2Proof.Machine.execTwait t state s := rfl
theorem exec_tstate (d : Nat) (t : Nat) (sb : Nat) (s : State) :
    exec (.tstate d t sb) s = Sys2Proof.Machine.execTstate d t sb s := rfl
theorem exec_srdp (d : Nat) (rsel : Nat) (s : State) :
    exec (.srdp d rsel) s = Sys2Proof.Machine.execSrdp d rsel s := rfl
theorem exec_swrp (rsel : Nat) (k : Nat) (s : State) :
    exec (.swrp rsel k) s = Sys2Proof.Machine.execSwrp rsel k s := rfl
theorem exec_pdone (k : Nat) (s : State) :
    exec (.pdone k) s = Sys2Proof.Machine.execPdone k s := rfl
theorem exec_tlbinv (a : Nat) (all : Bool) (s : State) :
    exec (.tlbinv a all) s = Sys2Proof.Machine.execTlbinv a all s := rfl
theorem exec_dbgrd (d : Nat) (a : Nat) (obj : Nat) (s : State) :
    exec (.dbgrd d a obj) s = Sys2Proof.Machine.execDbgrd d a obj s := rfl
theorem exec_scoreboardDecrement (op : Nat) (s : State) :
    exec (.scoreboardDecrement op) s = Sys2Proof.Machine.execScoreboardDecrement op s := rfl
theorem exec_groupRetire (g : Nat) (s : State) :
    exec (.groupRetire g) s = Sys2Proof.Machine.execGroupRetire g s := rfl
theorem exec_blockRetire (b : Nat) (s : State) :
    exec (.blockRetire b) s = Sys2Proof.Machine.execBlockRetire b s := rfl
theorem exec_gangRetire (ga : Nat) (s : State) :
    exec (.gangRetire ga) s = Sys2Proof.Machine.execGangRetire ga s := rfl
theorem exec_joinDecrement (ga : Nat) (s : State) :
    exec (.joinDecrement ga) s = Sys2Proof.Machine.execJoinDecrement ga s := rfl
theorem exec_portDown (port : Nat) (s : State) :
    exec (.portDown port) s = Sys2Proof.Machine.execPortDown port s := rfl
theorem exec_peerRequest (port : Nat) (s : State) :
    exec (.peerRequest port) s = Sys2Proof.Machine.execPeerRequest port s := rfl
theorem exec_matrixBurstStart (core : Nat) (s : State) :
    exec (.matrixBurstStart core) s = Sys2Proof.Machine.execMatrixBurstStart core s := rfl
theorem exec_matrixBurstEnd (core : Nat) (s : State) :
    exec (.matrixBurstEnd core) s = Sys2Proof.Machine.execMatrixBurstEnd core s := rfl
theorem exec_tokenPass (chip : Nat) (s : State) :
    exec (.tokenPass chip) s = Sys2Proof.Machine.execTokenPass chip s := rfl
theorem exec_matrixWriteComplete (core : Nat) (s : State) :
    exec (.matrixWriteComplete core) s = Sys2Proof.Machine.execMatrixWriteComplete core s := rfl
theorem exec_mloopIteration (core : Nat) (cmd : Nat) (s : State) :
    exec (.mloopIteration core cmd) s = Sys2Proof.Machine.execMloopIteration core cmd s := rfl
theorem exec_copyEngineTransfer (core : Nat) (cmd : Nat) (s : State) :
    exec (.copyEngineTransfer core cmd) s = Sys2Proof.Machine.execCopyEngineTransfer core cmd s := rfl
theorem exec_copySectorArrival (core : Nat) (cmd : Nat) (s : State) :
    exec (.copySectorArrival core cmd) s = Sys2Proof.Machine.execCopySectorArrival core cmd s := rfl
theorem exec_chainRecord (isle : Nat) (ch : Nat) (s : State) :
    exec (.chainRecord isle ch) s = Sys2Proof.Machine.execChainRecord isle ch s := rfl
theorem exec_commandResume (core : Nat) (cmd : Nat) (s : State) :
    exec (.commandResume core cmd) s = Sys2Proof.Machine.execCommandResume core cmd s := rfl
theorem exec_translationWalk (isle : Nat) (ctx : Nat) (vpn : Nat) (s : State) :
    exec (.translationWalk isle ctx vpn) s = Sys2Proof.Machine.execTranslationWalk isle ctx vpn s := rfl
theorem exec_arbitrationCycle (isle : Nat) (port : Nat) (s : State) :
    exec (.arbitrationCycle isle port) s = Sys2Proof.Machine.execArbitrationCycle isle port s := rfl
theorem exec_packetArrival (k : Nat) (s : State) :
    exec (.packetArrival k) s = Sys2Proof.Machine.execPacketArrival k s := rfl
theorem exec_stopSignal (isle : Nat) (input : Nat) (vc : Nat) (s : State) :
    exec (.stopSignal isle input vc) s = Sys2Proof.Machine.execStopSignal isle input vc s := rfl
theorem exec_goSignal (isle : Nat) (input : Nat) (vc : Nat) (s : State) :
    exec (.goSignal isle input vc) s = Sys2Proof.Machine.execGoSignal isle input vc s := rfl
theorem exec_rd (isle : Nat) (unit : Nat) (s : State) :
    exec (.rd isle unit) s = Sys2Proof.Machine.execRd isle unit s := rfl
theorem exec_rdh (isle : Nat) (unit : Nat) (s : State) :
    exec (.rdh isle unit) s = Sys2Proof.Machine.execRdh isle unit s := rfl
theorem exec_wt (isle : Nat) (unit : Nat) (s : State) :
    exec (.wt isle unit) s = Sys2Proof.Machine.execWt isle unit s := rfl
theorem exec_atomAtHome (isle : Nat) (unit : Nat) (s : State) :
    exec (.atomAtHome isle unit) s = Sys2Proof.Machine.execAtomAtHome isle unit s := rfl
theorem exec_hzq (isle : Nat) (unit : Nat) (s : State) :
    exec (.hzq isle unit) s = Sys2Proof.Machine.execHzq isle unit s := rfl
theorem exec_tolerantLoadRequest (isle : Nat) (unit : Nat) (s : State) :
    exec (.tolerantLoadRequest isle unit) s = Sys2Proof.Machine.execTolerantLoadRequest isle unit s := rfl
theorem exec_drn (isle : Nat) (unit : Nat) (s : State) :
    exec (.drn isle unit) s = Sys2Proof.Machine.execDrn isle unit s := rfl
theorem exec_hzd (isle : Nat) (unit : Nat) (s : State) :
    exec (.hzd isle unit) s = Sys2Proof.Machine.execHzd isle unit s := rfl
theorem exec_cpr (isle : Nat) (unit : Nat) (s : State) :
    exec (.cpr isle unit) s = Sys2Proof.Machine.execCpr isle unit s := rfl
theorem exec_cpw (isle : Nat) (unit : Nat) (s : State) :
    exec (.cpw isle unit) s = Sys2Proof.Machine.execCpw isle unit s := rfl
theorem exec_dataArrive (isle : Nat) (unit : Nat) (s : State) :
    exec (.dataArrive isle unit) s = Sys2Proof.Machine.execDataArrive isle unit s := rfl
theorem exec_ackArrive (isle : Nat) (unit : Nat) (s : State) :
    exec (.ackArrive isle unit) s = Sys2Proof.Machine.execAckArrive isle unit s := rfl
theorem exec_atr (isle : Nat) (unit : Nat) (s : State) :
    exec (.atr isle unit) s = Sys2Proof.Machine.execAtr isle unit s := rfl
theorem exec_xgnt (isle : Nat) (unit : Nat) (s : State) :
    exec (.xgnt isle unit) s = Sys2Proof.Machine.execXgnt isle unit s := rfl
theorem exec_xret (isle : Nat) (unit : Nat) (s : State) :
    exec (.xret isle unit) s = Sys2Proof.Machine.execXret isle unit s := rfl
theorem exec_recall (isle : Nat) (unit : Nat) (s : State) :
    exec (.recall isle unit) s = Sys2Proof.Machine.execRecall isle unit s := rfl
theorem exec_exclusiveLeaseEnd (core : Nat) (loc : Nat) (s : State) :
    exec (.exclusiveLeaseEnd core loc) s = Sys2Proof.Machine.execExclusiveLeaseEnd core loc s := rfl
theorem exec_dreq (isle : Nat) (unit : Nat) (s : State) :
    exec (.dreq isle unit) s = Sys2Proof.Machine.execDreq isle unit s := rfl
theorem exec_ddone (isle : Nat) (unit : Nat) (s : State) :
    exec (.ddone isle unit) s = Sys2Proof.Machine.execDdone isle unit s := rfl
theorem exec_shreq (isle : Nat) (unit : Nat) (s : State) :
    exec (.shreq isle unit) s = Sys2Proof.Machine.execShreq isle unit s := rfl
theorem exec_shgnt (isle : Nat) (unit : Nat) (s : State) :
    exec (.shgnt isle unit) s = Sys2Proof.Machine.execShgnt isle unit s := rfl
theorem exec_splitShare (isle : Nat) (unit : Nat) (s : State) :
    exec (.splitShare isle unit) s = Sys2Proof.Machine.execSplitShare isle unit s := rfl
theorem exec_spdone (isle : Nat) (unit : Nat) (s : State) :
    exec (.spdone isle unit) s = Sys2Proof.Machine.execSpdone isle unit s := rfl
theorem exec_settle (isle : Nat) (unit : Nat) (s : State) :
    exec (.settle isle unit) s = Sys2Proof.Machine.execSettle isle unit s := rfl
theorem exec_surr (isle : Nat) (unit : Nat) (s : State) :
    exec (.surr isle unit) s = Sys2Proof.Machine.execSurr isle unit s := rfl
theorem exec_dopen (isle : Nat) (unit : Nat) (s : State) :
    exec (.dopen isle unit) s = Sys2Proof.Machine.execDopen isle unit s := rfl
theorem exec_dclose (isle : Nat) (unit : Nat) (s : State) :
    exec (.dclose isle unit) s = Sys2Proof.Machine.execDclose isle unit s := rfl
theorem exec_hazeIdleSurrender (core : Nat) (ctx : Nat) (region : Nat) (s : State) :
    exec (.hazeIdleSurrender core ctx region) s = Sys2Proof.Machine.execHazeIdleSurrender core ctx region s := rfl
theorem exec_barArrival (isle : Nat) (unit : Nat) (s : State) :
    exec (.barArrival isle unit) s = Sys2Proof.Machine.execBarArrival isle unit s := rfl
theorem exec_barRelease (isle : Nat) (unit : Nat) (s : State) :
    exec (.barRelease isle unit) s = Sys2Proof.Machine.execBarRelease isle unit s := rfl
theorem exec_preemptQuiesced (ga : Nat) (s : State) :
    exec (.preemptQuiesced ga) s = Sys2Proof.Machine.execPreemptQuiesced ga s := rfl
theorem exec_preemptDeadline (ga : Nat) (s : State) :
    exec (.preemptDeadline ga) s = Sys2Proof.Machine.execPreemptDeadline ga s := rfl
theorem exec_livenessProbe (m : Nat) (s : State) :
    exec (.livenessProbe m) s = Sys2Proof.Machine.execLivenessProbe m s := rfl
theorem exec_probeTimeout (m : Nat) (s : State) :
    exec (.probeTimeout m) s = Sys2Proof.Machine.execProbeTimeout m s := rfl
theorem exec_backpressureTimeout (m : Nat) (s : State) :
    exec (.backpressureTimeout m) s = Sys2Proof.Machine.execBackpressureTimeout m s := rfl
theorem exec_fstepEnd (n : Nat) (s : State) :
    exec (.fstepEnd n) s = Sys2Proof.Machine.execFstepEnd n s := rfl
theorem exec_rampEnd (n : Nat) (s : State) :
    exec (.rampEnd n) s = Sys2Proof.Machine.execRampEnd n s := rfl
theorem exec_mheavySample (n : Nat) (s : State) :
    exec (.mheavySample n) s = Sys2Proof.Machine.execMheavySample n s := rfl
theorem exec_budgetInterval (n : Nat) (s : State) :
    exec (.budgetInterval n) s = Sys2Proof.Machine.execBudgetInterval n s := rfl
theorem exec_gwctPassed (d : Nat) (s : State) :
    exec (.gwctPassed d) s = Sys2Proof.Machine.execGwctPassed d s := rfl
theorem exec_pendingWriteLands (g : Nat) (s : State) :
    exec (.pendingWriteLands g) s = Sys2Proof.Machine.execPendingWriteLands g s := rfl
theorem exec_operandReadsComplete (core : Nat) (s : State) :
    exec (.operandReadsComplete core) s = Sys2Proof.Machine.execOperandReadsComplete core s := rfl
theorem exec_probeAnswer (core : Nat) (s : State) :
    exec (.probeAnswer core) s = Sys2Proof.Machine.execProbeAnswer core s := rfl
theorem exec_tileWaitTimeout (g : Nat) (lanes : Nat) (s : State) :
    exec (.tileWaitTimeout g lanes) s = Sys2Proof.Machine.execTileWaitTimeout g lanes s := rfl
theorem exec_seqTileWaitTimeout (b : Nat) (s : State) :
    exec (.seqTileWaitTimeout b) s = Sys2Proof.Machine.execSeqTileWaitTimeout b s := rfl
theorem exec_memoryErrorTrap (g : Nat) (lanes : Nat) (s : State) :
    exec (.memoryErrorTrap g lanes) s = Sys2Proof.Machine.execMemoryErrorTrap g lanes s := rfl
theorem exec_yield (s : State) :
    exec .yield s = Sys2Proof.Machine.execYield s := rfl
theorem exec_nop (s : State) :
    exec .nop s = Sys2Proof.Machine.execNop s := rfl
theorem exec_trapret (s : State) :
    exec .trapret s = Sys2Proof.Machine.execTrapret s := rfl
theorem exec_ctxwb (s : State) :
    exec .ctxwb s = Sys2Proof.Machine.execCtxwb s := rfl
theorem exec_hzreclaim (s : State) :
    exec .hzreclaim s = Sys2Proof.Machine.execHzreclaim s := rfl
theorem exec_bypass (s : State) :
    exec .bypass s = Sys2Proof.Machine.execBypass s := rfl
theorem exec_idcode (s : State) :
    exec .idcode s = Sys2Proof.Machine.execIdcode s := rfl
theorem exec_frzsel (s : State) :
    exec .frzsel s = Sys2Proof.Machine.execFrzsel s := rfl
theorem exec_frzread (s : State) :
    exec .frzread s = Sys2Proof.Machine.execFrzread s := rfl
theorem exec_clauseSkip (g : Nat) (lanes : Nat) (s : State) :
    exec (.clauseSkip g lanes) s = Sys2Proof.Machine.execClauseSkip g lanes s := rfl
theorem exec_queuePop (s : State) :
    exec .queuePop s = Sys2Proof.Machine.execQueuePop s := rfl
theorem exec_placementPass (s : State) :
    exec .placementPass s = Sys2Proof.Machine.execPlacementPass s := rfl
theorem exec_pendingEntryBlocks (s : State) :
    exec .pendingEntryBlocks s = Sys2Proof.Machine.execPendingEntryBlocks s := rfl
theorem exec_holdbackWindow (s : State) :
    exec .holdbackWindow s = Sys2Proof.Machine.execHoldbackWindow s := rfl
theorem exec_trafficWindow (s : State) :
    exec .trafficWindow s = Sys2Proof.Machine.execTrafficWindow s := rfl
theorem exec_slewWindow (s : State) :
    exec .slewWindow s = Sys2Proof.Machine.execSlewWindow s := rfl
theorem exec_vrelesFlit (port : Nat) (seq : Nat) (crcOk : Bool) (vc : Nat) (msg : PeerMsg) (s : State) :
    exec (.vrelesFlit port seq crcOk vc msg) s = Sys2Proof.Machine.execVrelesFlit port seq crcOk vc msg s := rfl
theorem exec_nak (port : Nat) (seq : Nat) (s : State) :
    exec (.nak port seq) s = Sys2Proof.Machine.execNak port seq s := rfl
theorem exec_hostMemoryRead (off : Nat) (len : Nat) (s : State) :
    exec (.hostMemoryRead off len) s = Sys2Proof.Machine.execHostMemoryRead off len s := rfl
theorem exec_hostMemoryWrite (off : Nat) (bytes : List Nat) (s : State) :
    exec (.hostMemoryWrite off bytes) s = Sys2Proof.Machine.execHostMemoryWrite off bytes s := rfl
theorem exec_registerWrite (off : Nat) (len : Nat) (val : Nat) (s : State) :
    exec (.registerWrite off len val) s = Sys2Proof.Machine.execRegisterWrite off len val s := rfl
theorem exec_wake (port : Nat) (off : Nat) (len : Nat) (val : Nat) (s : State) :
    exec (.wake port off len val) s = Sys2Proof.Machine.execWake port off len val s := rfl
theorem exec_mint (off : Nat) (len : Nat) (val : Nat) (s : State) :
    exec (.mint off len val) s = Sys2Proof.Machine.execMint off len val s := rfl
theorem exec_qctl (q : Nat) (off : Nat) (len : Nat) (val : Nat) (s : State) :
    exec (.qctl q off len val) s = Sys2Proof.Machine.execQctl q off len val s := rfl
theorem exec_regionTable (n : Nat) (off : Nat) (len : Nat) (val : Nat) (s : State) :
    exec (.regionTable n off len val) s = Sys2Proof.Machine.execRegionTable n off len val s := rfl
theorem exec_cgcfg (val : Nat) (s : State) :
    exec (.cgcfg val) s = Sys2Proof.Machine.execCgcfg val s := rfl
theorem exec_pageans (s : State) :
    exec .pageans s = Sys2Proof.Machine.execPageans s := rfl
theorem exec_preempt (s : State) :
    exec .preempt s = Sys2Proof.Machine.execPreempt s := rfl
theorem exec_dbgrun (s : State) :
    exec .dbgrun s = Sys2Proof.Machine.execDbgrun s := rfl
theorem exec_dbgstep (s : State) :
    exec .dbgstep s = Sys2Proof.Machine.execDbgstep s := rfl
theorem exec_dbghalt (s : State) :
    exec .dbghalt s = Sys2Proof.Machine.execDbghalt s := rfl
theorem exec_freezeCmd (s : State) :
    exec .freezeCmd s = Sys2Proof.Machine.execFreezeCmd s := rfl
theorem exec_unknownCommand (code : Nat) (s : State) :
    exec (.unknownCommand code) s = Sys2Proof.Machine.execUnknownCommand code s := rfl
theorem exec_freezePin (s : State) :
    exec .freezePin s = Sys2Proof.Machine.execFreezePin s := rfl
theorem exec_packageReset (s : State) :
    exec .packageReset s = Sys2Proof.Machine.execPackageReset s := rfl
theorem exec_hotReset (s : State) :
    exec .hotReset s = Sys2Proof.Machine.execHotReset s := rfl
theorem exec_powerOn (yehamOk : Bool) (baseOk : Bool) (chips : Nat) (hostOk : Bool) (ports : Nat) (s : State) :
    exec (.powerOn yehamOk baseOk chips hostOk ports) s = Sys2Proof.Machine.execPowerOn yehamOk baseOk chips hostOk ports s := rfl
theorem exec_attestationRequest (algOk : Bool) (nonce : Nat) (s : State) :
    exec (.attestationRequest algOk nonce) s = Sys2Proof.Machine.execAttestationRequest algOk nonce s := rfl
theorem exec_storeChunk (s : State) :
    exec .storeChunk s = Sys2Proof.Machine.execStoreChunk s := rfl
theorem exec_commitImage (sigOk : Bool) (flashOk : Bool) (s : State) :
    exec (.commitImage sigOk flashOk) s = Sys2Proof.Machine.execCommitImage sigOk flashOk s := rfl
theorem exec_restart (s : State) :
    exec .restart s = Sys2Proof.Machine.execRestart s := rfl
theorem exec_identify (s : State) :
    exec .identify s = Sys2Proof.Machine.execIdentify s := rfl
theorem exec_mailboxUnknown (code : Nat) (s : State) :
    exec (.mailboxUnknown code) s = Sys2Proof.Machine.execMailboxUnknown code s := rfl
theorem exec_chipctlFence (m : Nat) (s : State) :
    exec (.chipctlFence m) s = Sys2Proof.Machine.execChipctlFence m s := rfl
theorem exec_rejoin (m : Nat) (s : State) :
    exec (.rejoin m) s = Sys2Proof.Machine.execRejoin m s := rfl
theorem exec_selfTestComplete (m : Nat) (ok : Bool) (s : State) :
    exec (.selfTestComplete m ok) s = Sys2Proof.Machine.execSelfTestComplete m ok s := rfl
theorem exec_telemetrySample (pwr : Nat) (plim : Nat) (s : State) :
    exec (.telemetrySample pwr plim) s = Sys2Proof.Machine.execTelemetrySample pwr plim s := rfl
theorem exec_earlyBite (lim : Nat) (s : State) :
    exec (.earlyBite lim) s = Sys2Proof.Machine.execEarlyBite lim s := rfl
theorem exec_scrub (loc : Nat) (uncorrectable : Bool) (s : State) :
    exec (.scrub loc uncorrectable) s = Sys2Proof.Machine.execScrub loc uncorrectable s := rfl
theorem exec_linkCalibration (port : Nat) (s : State) :
    exec (.linkCalibration port) s = Sys2Proof.Machine.execLinkCalibration port s := rfl
theorem exec_limit (m : CeilMsg) (s : State) :
    exec (.limit m) s = Sys2Proof.Machine.execLimit m s := rfl
theorem exec_heartbeat (m : CeilMsg) (s : State) :
    exec (.heartbeat m) s = Sys2Proof.Machine.execHeartbeat m s := rfl
theorem exec_join (m : CeilMsg) (s : State) :
    exec (.join m) s = Sys2Proof.Machine.execJoin m s := rfl
theorem exec_leave (m : CeilMsg) (s : State) :
    exec (.leave m) s = Sys2Proof.Machine.execLeave m s := rfl
theorem exec_emergency (m : CeilMsg) (s : State) :
    exec (.emergency m) s = Sys2Proof.Machine.execEmergency m s := rfl
theorem exec_heartbeatDue (s : State) :
    exec .heartbeatDue s = Sys2Proof.Machine.execHeartbeatDue s := rfl
theorem exec_applyInstant (s : State) :
    exec .applyInstant s = Sys2Proof.Machine.execApplyInstant s := rfl
theorem exec_suspectTimeout (s : State) :
    exec .suspectTimeout s = Sys2Proof.Machine.execSuspectTimeout s := rfl
theorem exec_expelTimeout (s : State) :
    exec .expelTimeout s = Sys2Proof.Machine.execExpelTimeout s := rfl
theorem exec_expelled (s : State) :
    exec .expelled s = Sys2Proof.Machine.execExpelled s := rfl
theorem exec_syncInterval (s : State) :
    exec .syncInterval s = Sys2Proof.Machine.execSyncInterval s := rfl
theorem exec_sync (port : Nat) (sender : Nat) (seqid : Nat) (corr : Int) (s : State) :
    exec (.sync port sender seqid corr) s = Sys2Proof.Machine.execSync port sender seqid corr s := rfl
theorem exec_followUp (port : Nat) (seqid : Nat) (t1 : Nat) (s : State) :
    exec (.followUp port seqid t1) s = Sys2Proof.Machine.execFollowUp port seqid t1 s := rfl
theorem exec_delayReq (port : Nat) (sender : Nat) (seqid : Nat) (corr : Int) (s : State) :
    exec (.delayReq port sender seqid corr) s = Sys2Proof.Machine.execDelayReq port sender seqid corr s := rfl
theorem exec_delayResp (port : Nat) (seqid : Nat) (t4 : Nat) (corr : Int) (s : State) :
    exec (.delayResp port seqid t4 corr) s = Sys2Proof.Machine.execDelayResp port seqid t4 corr s := rfl
theorem exec_lockLoss (s : State) :
    exec .lockLoss s = Sys2Proof.Machine.execLockLoss s := rfl
theorem exec_portTrainsAgain (port : Nat) (s : State) :
    exec (.portTrainsAgain port) s = Sys2Proof.Machine.execPortTrainsAgain port s := rfl

end Sys2Proof.Laws
end

