-- ==== Sys2Proof/Laws/Shapes.lean ====
section
/-!
SUPPORT. What the shared shapes of the instruction meanings answer: one lemma each, to be cited in place of unfolding.
-/
namespace Sys2Proof.Laws
open Sys2Proof.Machine

/-- The register checks pass exactly where the registers are free. -/
theorem regFail_none {s : State} {rd wr : List Reg} {lat : Nat} (h : s.regsFree rd wr lat) :
    s.regFail rd wr lat = none := by
  have h2 : (rd ++ wr).all ((s.grp s.cur.grp).inWindow s.cur.lanes) = true := List.all_eq_true.mpr h.2
  simp only [State.regFail, h.1, h2, Bool.false_eq_true, if_false, if_true]

/-- The checks of a cross-lane instruction pass where its registers are free. -/
theorem crossFail_none {s : State} {rd own wr : List Reg} {lat : Nat} {use : W32}
    (h : s.crossFree lat use rd own wr) : s.crossFail lat use rd own wr = none := by
  have h2 : (rd ++ own ++ wr).all ((s.grp s.cur.grp).inWindow s.cur.lanes) = true := List.all_eq_true.mpr h.2.2
  simp only [State.crossFail, h.1, h.2.1, h2, Bool.or_self, Bool.false_eq_true, if_false, if_true]

/-- A group's instruction is what its continuation says. -/
theorem asGroup_group {s : State} {k : Group → Result} (h : s.cur.kind = .group) :
    asGroup s k = k (s.grp s.cur.grp) := by simp [asGroup, h]

/-- A fixed-latency instruction with free registers. -/
theorem laneOp_next {s : State} {lat : Nat} {rd wr : List Reg} {f : Group → Nat → List (Reg × W32)}
    (h : s.cur.kind = .group) (hr : s.regsFree rd wr lat) :
    laneOp s lat rd wr f = .next (s.afterWrites lat (f (s.grp s.cur.grp))) := by
  simp [laneOp, asGroup_group h, regFail_none hr, State.afterWrites]

/-- A scalar instruction with free registers. -/
theorem scalarOp_next {s : State} {lat : Nat} {rd wr : List Reg} {f : Group → List (Reg × W32)}
    (h : s.cur.kind = .group) (hr : s.regsFree rd wr lat) :
    scalarOp s lat rd wr f = .next (s.afterScalar lat (f (s.grp s.cur.grp))) := by
  simp [scalarOp, asGroup_group h, regFail_none hr, State.afterScalar]

/-- A cross-lane instruction with free registers. -/
theorem crossOp_next {s : State} {lat : Nat} {use : W32} {rd own wr : List Reg} {f : Group → Nat → List (Reg × W32)}
    (h : s.cur.kind = .group) (hr : s.crossFree lat use rd own wr) :
    crossOp s lat use rd own wr f = .next (s.afterWrites lat (f (s.grp s.cur.grp))) := by
  simp [crossOp, asGroup_group h, crossFail_none hr, State.afterWrites]

/-- An instruction with an immediate effect and free registers. -/
theorem nowOp_next {s : State} {rd : List Reg} {f : State → State} (h : s.cur.kind = .group)
    (hr : s.regsFree rd [] 1) : nowOp s rd f = .next (f s).finish := by
  simp [nowOp, asGroup_group h, regFail_none hr]

/-- A fixed-latency instruction whose registers are not free traps and performs nothing (R348). -/
theorem laneOp_fail {s : State} {lat : Nat} {rd wr : List Reg} {f : Group → Nat → List (Reg × W32)} {e : Fail}
    (h : s.cur.kind = .group) (hr : s.regFail rd wr lat = some e) : laneOp s lat rd wr f = .next (s.fail e) := by
  simp [laneOp, asGroup_group h, hr]

/-- No register is always free. -/
theorem regsFree_nil {s : State} {lat : Nat} : s.regsFree [] [] lat := by
  simp [State.regsFree, State.shortStall]

/-- A meaning of the fixed-latency shape has the result that its function gives. -/
theorem laneResult_of {i : Instr} {lat : Nat} {rd wr : List Reg} {f g : State → Group → Nat → List (Reg × W32)}
    (hx : ∀ s, exec i s = laneOp s lat rd wr (f s)) (hf : ∀ s x k, f s x k = g s x k) : LaneResult i lat rd wr g := by
  intro s h hr
  rw [hx, laneOp_next h hr]
  congr 2
  funext k
  exact hf _ _ _

/-- A meaning of the scalar shape has the result that its function gives. -/
theorem scalarResult_of {i : Instr} {lat : Nat} {rd wr : List Reg} {f g : State → Group → List (Reg × W32)}
    (hx : ∀ s, exec i s = scalarOp s lat rd wr (f s)) (hf : ∀ s x, f s x = g s x) : ScalarResult i lat rd wr g := by
  intro s h hr
  rw [hx, scalarOp_next h hr, hf]

/-- A meaning of the cross-lane shape has the result that its function gives. -/
theorem crossResult_of {i : Instr} {lat : Nat} {use : State → W32} {rd own wr : List Reg}
    {f g : State → Group → Nat → List (Reg × W32)}
    (hx : ∀ s, exec i s = crossOp s lat (use s) rd own wr (f s)) (hf : ∀ s x k, f s x k = g s x k) :
    CrossResult i lat use rd own wr g := by
  intro s h hr
  rw [hx, crossOp_next h hr]
  congr 2
  funext k
  exact hf _ _ _

end Sys2Proof.Laws
end

