-- ==== Sys2Proof/Laws/State.lean ====
section
/-!
SUPPORT. What each change of the state leaves: one lemma per field and change, so that no proof unfolds a record update;
and the laws of sparse maps and of memory (notes/assumptions/10).
-/
namespace Sys2Proof.Laws
open Sys2Proof.Machine

/-! ## Changes of the state -/

@[simp] theorem updGrp_agenda (s : State) (g : Nat) (f : Group → Group) : (s.updGrp g f).agenda = s.agenda := rfl
@[simp] theorem updGrp_cur (s : State) (g : Nat) (f : Group → Group) : (s.updGrp g f).cur = s.cur := rfl
@[simp] theorem updGrp_tick (s : State) (g : Nat) (f : Group → Group) : (s.updGrp g f).tick = s.tick := rfl
@[simp] theorem updGrp_bclk (s : State) (g : Nat) (f : Group → Group) : (s.updGrp g f).bclk = s.bclk := rfl
@[simp] theorem updGrp_ptime (s : State) (g : Nat) (f : Group → Group) : (s.updGrp g f).ptime = s.ptime := rfl
@[simp] theorem updGrp_slew (s : State) (g : Nat) (f : Group → Group) : (s.updGrp g f).slew = s.slew := rfl
@[simp] theorem updGrp_slewAcc (s : State) (g : Nat) (f : Group → Group) : (s.updGrp g f).slewAcc = s.slewAcc := rfl
@[simp] theorem updGrp_timers (s : State) (g : Nat) (f : Group → Group) : (s.updGrp g f).timers = s.timers := rfl
@[simp] theorem updGrp_mem (s : State) (g : Nat) (f : Group → Group) : (s.updGrp g f).mem = s.mem := rfl
@[simp] theorem updGrp_homes (s : State) (g : Nat) (f : Group → Group) : (s.updGrp g f).homes = s.homes := rfl
@[simp] theorem updGrp_hzn (s : State) (g : Nat) (f : Group → Group) : (s.updGrp g f).hzn = s.hzn := rfl
@[simp] theorem updGrp_predictors (s : State) (g : Nat) (f : Group → Group) : (s.updGrp g f).predictors = s.predictors := rfl
@[simp] theorem updGrp_regions (s : State) (g : Nat) (f : Group → Group) : (s.updGrp g f).regions = s.regions := rfl
@[simp] theorem updGrp_filters (s : State) (g : Nat) (f : Group → Group) : (s.updGrp g f).filters = s.filters := rfl
@[simp] theorem updGrp_directory (s : State) (g : Nat) (f : Group → Group) : (s.updGrp g f).directory = s.directory := rfl
@[simp] theorem updGrp_cores (s : State) (g : Nat) (f : Group → Group) : (s.updGrp g f).cores = s.cores := rfl
@[simp] theorem updGrp_clusters (s : State) (g : Nat) (f : Group → Group) : (s.updGrp g f).clusters = s.clusters := rfl
@[simp] theorem updGrp_chips (s : State) (g : Nat) (f : Group → Group) : (s.updGrp g f).chips = s.chips := rfl
@[simp] theorem updGrp_ctxs (s : State) (g : Nat) (f : Group → Group) : (s.updGrp g f).ctxs = s.ctxs := rfl
@[simp] theorem updGrp_itlb (s : State) (g : Nat) (f : Group → Group) : (s.updGrp g f).itlb = s.itlb := rfl
@[simp] theorem updGrp_walks (s : State) (g : Nat) (f : Group → Group) : (s.updGrp g f).walks = s.walks := rfl
@[simp] theorem updGrp_pageReqs (s : State) (g : Nat) (f : Group → Group) : (s.updGrp g f).pageReqs = s.pageReqs := rfl
@[simp] theorem updGrp_tickets (s : State) (g : Nat) (f : Group → Group) : (s.updGrp g f).tickets = s.tickets := rfl
@[simp] theorem updGrp_mesh (s : State) (g : Nat) (f : Group → Group) : (s.updGrp g f).mesh = s.mesh := rfl
@[simp] theorem updGrp_groups (s : State) (g : Nat) (f : Group → Group) : (s.updGrp g f).groups = s.groups.modify g f := rfl
@[simp] theorem updGrp_blocks (s : State) (g : Nat) (f : Group → Group) : (s.updGrp g f).blocks = s.blocks := rfl
@[simp] theorem updGrp_gangs (s : State) (g : Nat) (f : Group → Group) : (s.updGrp g f).gangs = s.gangs := rfl
@[simp] theorem updGrp_images (s : State) (g : Nat) (f : Group → Group) : (s.updGrp g f).images = s.images := rfl
@[simp] theorem updGrp_ops (s : State) (g : Nat) (f : Group → Group) : (s.updGrp g f).ops = s.ops := rfl
@[simp] theorem updGrp_heldEng (s : State) (g : Nat) (f : Group → Group) : (s.updGrp g f).heldEng = s.heldEng := rfl
@[simp] theorem updGrp_nextId (s : State) (g : Nat) (f : Group → Group) : (s.updGrp g f).nextId = s.nextId := rfl
@[simp] theorem updGrp_flights (s : State) (g : Nat) (f : Group → Group) : (s.updGrp g f).flights = s.flights := rfl
@[simp] theorem updGrp_drains (s : State) (g : Nat) (f : Group → Group) : (s.updGrp g f).drains = s.drains := rfl
@[simp] theorem updGrp_txDue (s : State) (g : Nat) (f : Group → Group) : (s.updGrp g f).txDue = s.txDue := rfl
@[simp] theorem updGrp_errs (s : State) (g : Nat) (f : Group → Group) : (s.updGrp g f).errs = s.errs := rfl
@[simp] theorem updGrp_cmds (s : State) (g : Nat) (f : Group → Group) : (s.updGrp g f).cmds = s.cmds := rfl
@[simp] theorem updGrp_chans (s : State) (g : Nat) (f : Group → Group) : (s.updGrp g f).chans = s.chans := rfl
@[simp] theorem updGrp_disp (s : State) (g : Nat) (f : Group → Group) : (s.updGrp g f).disp = s.disp := rfl
@[simp] theorem updGrp_sync (s : State) (g : Nat) (f : Group → Group) : (s.updGrp g f).sync = s.sync := rfl
@[simp] theorem updGrp_ceil (s : State) (g : Nat) (f : Group → Group) : (s.updGrp g f).ceil = s.ceil := rfl
@[simp] theorem updGrp_ports (s : State) (g : Nat) (f : Group → Group) : (s.updGrp g f).ports = s.ports := rfl
@[simp] theorem updGrp_mgmt (s : State) (g : Nat) (f : Group → Group) : (s.updGrp g f).mgmt = s.mgmt := rfl
@[simp] theorem updGrp_out (s : State) (g : Nat) (f : Group → Group) : (s.updGrp g f).out = s.out := rfl

@[simp] theorem updBlk_agenda (s : State) (b : Nat) (f : Block → Block) : (s.updBlk b f).agenda = s.agenda := rfl
@[simp] theorem updBlk_cur (s : State) (b : Nat) (f : Block → Block) : (s.updBlk b f).cur = s.cur := rfl
@[simp] theorem updBlk_tick (s : State) (b : Nat) (f : Block → Block) : (s.updBlk b f).tick = s.tick := rfl
@[simp] theorem updBlk_bclk (s : State) (b : Nat) (f : Block → Block) : (s.updBlk b f).bclk = s.bclk := rfl
@[simp] theorem updBlk_ptime (s : State) (b : Nat) (f : Block → Block) : (s.updBlk b f).ptime = s.ptime := rfl
@[simp] theorem updBlk_slew (s : State) (b : Nat) (f : Block → Block) : (s.updBlk b f).slew = s.slew := rfl
@[simp] theorem updBlk_slewAcc (s : State) (b : Nat) (f : Block → Block) : (s.updBlk b f).slewAcc = s.slewAcc := rfl
@[simp] theorem updBlk_timers (s : State) (b : Nat) (f : Block → Block) : (s.updBlk b f).timers = s.timers := rfl
@[simp] theorem updBlk_mem (s : State) (b : Nat) (f : Block → Block) : (s.updBlk b f).mem = s.mem := rfl
@[simp] theorem updBlk_homes (s : State) (b : Nat) (f : Block → Block) : (s.updBlk b f).homes = s.homes := rfl
@[simp] theorem updBlk_hzn (s : State) (b : Nat) (f : Block → Block) : (s.updBlk b f).hzn = s.hzn := rfl
@[simp] theorem updBlk_predictors (s : State) (b : Nat) (f : Block → Block) : (s.updBlk b f).predictors = s.predictors := rfl
@[simp] theorem updBlk_regions (s : State) (b : Nat) (f : Block → Block) : (s.updBlk b f).regions = s.regions := rfl
@[simp] theorem updBlk_filters (s : State) (b : Nat) (f : Block → Block) : (s.updBlk b f).filters = s.filters := rfl
@[simp] theorem updBlk_directory (s : State) (b : Nat) (f : Block → Block) : (s.updBlk b f).directory = s.directory := rfl
@[simp] theorem updBlk_cores (s : State) (b : Nat) (f : Block → Block) : (s.updBlk b f).cores = s.cores := rfl
@[simp] theorem updBlk_clusters (s : State) (b : Nat) (f : Block → Block) : (s.updBlk b f).clusters = s.clusters := rfl
@[simp] theorem updBlk_chips (s : State) (b : Nat) (f : Block → Block) : (s.updBlk b f).chips = s.chips := rfl
@[simp] theorem updBlk_ctxs (s : State) (b : Nat) (f : Block → Block) : (s.updBlk b f).ctxs = s.ctxs := rfl
@[simp] theorem updBlk_itlb (s : State) (b : Nat) (f : Block → Block) : (s.updBlk b f).itlb = s.itlb := rfl
@[simp] theorem updBlk_walks (s : State) (b : Nat) (f : Block → Block) : (s.updBlk b f).walks = s.walks := rfl
@[simp] theorem updBlk_pageReqs (s : State) (b : Nat) (f : Block → Block) : (s.updBlk b f).pageReqs = s.pageReqs := rfl
@[simp] theorem updBlk_tickets (s : State) (b : Nat) (f : Block → Block) : (s.updBlk b f).tickets = s.tickets := rfl
@[simp] theorem updBlk_mesh (s : State) (b : Nat) (f : Block → Block) : (s.updBlk b f).mesh = s.mesh := rfl
@[simp] theorem updBlk_groups (s : State) (b : Nat) (f : Block → Block) : (s.updBlk b f).groups = s.groups := rfl
@[simp] theorem updBlk_blocks (s : State) (b : Nat) (f : Block → Block) : (s.updBlk b f).blocks = s.blocks.modify b f := rfl
@[simp] theorem updBlk_gangs (s : State) (b : Nat) (f : Block → Block) : (s.updBlk b f).gangs = s.gangs := rfl
@[simp] theorem updBlk_images (s : State) (b : Nat) (f : Block → Block) : (s.updBlk b f).images = s.images := rfl
@[simp] theorem updBlk_ops (s : State) (b : Nat) (f : Block → Block) : (s.updBlk b f).ops = s.ops := rfl
@[simp] theorem updBlk_heldEng (s : State) (b : Nat) (f : Block → Block) : (s.updBlk b f).heldEng = s.heldEng := rfl
@[simp] theorem updBlk_nextId (s : State) (b : Nat) (f : Block → Block) : (s.updBlk b f).nextId = s.nextId := rfl
@[simp] theorem updBlk_flights (s : State) (b : Nat) (f : Block → Block) : (s.updBlk b f).flights = s.flights := rfl
@[simp] theorem updBlk_drains (s : State) (b : Nat) (f : Block → Block) : (s.updBlk b f).drains = s.drains := rfl
@[simp] theorem updBlk_txDue (s : State) (b : Nat) (f : Block → Block) : (s.updBlk b f).txDue = s.txDue := rfl
@[simp] theorem updBlk_errs (s : State) (b : Nat) (f : Block → Block) : (s.updBlk b f).errs = s.errs := rfl
@[simp] theorem updBlk_cmds (s : State) (b : Nat) (f : Block → Block) : (s.updBlk b f).cmds = s.cmds := rfl
@[simp] theorem updBlk_chans (s : State) (b : Nat) (f : Block → Block) : (s.updBlk b f).chans = s.chans := rfl
@[simp] theorem updBlk_disp (s : State) (b : Nat) (f : Block → Block) : (s.updBlk b f).disp = s.disp := rfl
@[simp] theorem updBlk_sync (s : State) (b : Nat) (f : Block → Block) : (s.updBlk b f).sync = s.sync := rfl
@[simp] theorem updBlk_ceil (s : State) (b : Nat) (f : Block → Block) : (s.updBlk b f).ceil = s.ceil := rfl
@[simp] theorem updBlk_ports (s : State) (b : Nat) (f : Block → Block) : (s.updBlk b f).ports = s.ports := rfl
@[simp] theorem updBlk_mgmt (s : State) (b : Nat) (f : Block → Block) : (s.updBlk b f).mgmt = s.mgmt := rfl
@[simp] theorem updBlk_out (s : State) (b : Nat) (f : Block → Block) : (s.updBlk b f).out = s.out := rfl

@[simp] theorem updGang_agenda (s : State) (k : Nat) (f : Gang → Gang) : (s.updGang k f).agenda = s.agenda := rfl
@[simp] theorem updGang_cur (s : State) (k : Nat) (f : Gang → Gang) : (s.updGang k f).cur = s.cur := rfl
@[simp] theorem updGang_tick (s : State) (k : Nat) (f : Gang → Gang) : (s.updGang k f).tick = s.tick := rfl
@[simp] theorem updGang_bclk (s : State) (k : Nat) (f : Gang → Gang) : (s.updGang k f).bclk = s.bclk := rfl
@[simp] theorem updGang_ptime (s : State) (k : Nat) (f : Gang → Gang) : (s.updGang k f).ptime = s.ptime := rfl
@[simp] theorem updGang_slew (s : State) (k : Nat) (f : Gang → Gang) : (s.updGang k f).slew = s.slew := rfl
@[simp] theorem updGang_slewAcc (s : State) (k : Nat) (f : Gang → Gang) : (s.updGang k f).slewAcc = s.slewAcc := rfl
@[simp] theorem updGang_timers (s : State) (k : Nat) (f : Gang → Gang) : (s.updGang k f).timers = s.timers := rfl
@[simp] theorem updGang_mem (s : State) (k : Nat) (f : Gang → Gang) : (s.updGang k f).mem = s.mem := rfl
@[simp] theorem updGang_homes (s : State) (k : Nat) (f : Gang → Gang) : (s.updGang k f).homes = s.homes := rfl
@[simp] theorem updGang_hzn (s : State) (k : Nat) (f : Gang → Gang) : (s.updGang k f).hzn = s.hzn := rfl
@[simp] theorem updGang_predictors (s : State) (k : Nat) (f : Gang → Gang) : (s.updGang k f).predictors = s.predictors := rfl
@[simp] theorem updGang_regions (s : State) (k : Nat) (f : Gang → Gang) : (s.updGang k f).regions = s.regions := rfl
@[simp] theorem updGang_filters (s : State) (k : Nat) (f : Gang → Gang) : (s.updGang k f).filters = s.filters := rfl
@[simp] theorem updGang_directory (s : State) (k : Nat) (f : Gang → Gang) : (s.updGang k f).directory = s.directory := rfl
@[simp] theorem updGang_cores (s : State) (k : Nat) (f : Gang → Gang) : (s.updGang k f).cores = s.cores := rfl
@[simp] theorem updGang_clusters (s : State) (k : Nat) (f : Gang → Gang) : (s.updGang k f).clusters = s.clusters := rfl
@[simp] theorem updGang_chips (s : State) (k : Nat) (f : Gang → Gang) : (s.updGang k f).chips = s.chips := rfl
@[simp] theorem updGang_ctxs (s : State) (k : Nat) (f : Gang → Gang) : (s.updGang k f).ctxs = s.ctxs := rfl
@[simp] theorem updGang_itlb (s : State) (k : Nat) (f : Gang → Gang) : (s.updGang k f).itlb = s.itlb := rfl
@[simp] theorem updGang_walks (s : State) (k : Nat) (f : Gang → Gang) : (s.updGang k f).walks = s.walks := rfl
@[simp] theorem updGang_pageReqs (s : State) (k : Nat) (f : Gang → Gang) : (s.updGang k f).pageReqs = s.pageReqs := rfl
@[simp] theorem updGang_tickets (s : State) (k : Nat) (f : Gang → Gang) : (s.updGang k f).tickets = s.tickets := rfl
@[simp] theorem updGang_mesh (s : State) (k : Nat) (f : Gang → Gang) : (s.updGang k f).mesh = s.mesh := rfl
@[simp] theorem updGang_groups (s : State) (k : Nat) (f : Gang → Gang) : (s.updGang k f).groups = s.groups := rfl
@[simp] theorem updGang_blocks (s : State) (k : Nat) (f : Gang → Gang) : (s.updGang k f).blocks = s.blocks := rfl
@[simp] theorem updGang_gangs (s : State) (k : Nat) (f : Gang → Gang) : (s.updGang k f).gangs = s.gangs.modify k f := rfl
@[simp] theorem updGang_images (s : State) (k : Nat) (f : Gang → Gang) : (s.updGang k f).images = s.images := rfl
@[simp] theorem updGang_ops (s : State) (k : Nat) (f : Gang → Gang) : (s.updGang k f).ops = s.ops := rfl
@[simp] theorem updGang_heldEng (s : State) (k : Nat) (f : Gang → Gang) : (s.updGang k f).heldEng = s.heldEng := rfl
@[simp] theorem updGang_nextId (s : State) (k : Nat) (f : Gang → Gang) : (s.updGang k f).nextId = s.nextId := rfl
@[simp] theorem updGang_flights (s : State) (k : Nat) (f : Gang → Gang) : (s.updGang k f).flights = s.flights := rfl
@[simp] theorem updGang_drains (s : State) (k : Nat) (f : Gang → Gang) : (s.updGang k f).drains = s.drains := rfl
@[simp] theorem updGang_txDue (s : State) (k : Nat) (f : Gang → Gang) : (s.updGang k f).txDue = s.txDue := rfl
@[simp] theorem updGang_errs (s : State) (k : Nat) (f : Gang → Gang) : (s.updGang k f).errs = s.errs := rfl
@[simp] theorem updGang_cmds (s : State) (k : Nat) (f : Gang → Gang) : (s.updGang k f).cmds = s.cmds := rfl
@[simp] theorem updGang_chans (s : State) (k : Nat) (f : Gang → Gang) : (s.updGang k f).chans = s.chans := rfl
@[simp] theorem updGang_disp (s : State) (k : Nat) (f : Gang → Gang) : (s.updGang k f).disp = s.disp := rfl
@[simp] theorem updGang_sync (s : State) (k : Nat) (f : Gang → Gang) : (s.updGang k f).sync = s.sync := rfl
@[simp] theorem updGang_ceil (s : State) (k : Nat) (f : Gang → Gang) : (s.updGang k f).ceil = s.ceil := rfl
@[simp] theorem updGang_ports (s : State) (k : Nat) (f : Gang → Gang) : (s.updGang k f).ports = s.ports := rfl
@[simp] theorem updGang_mgmt (s : State) (k : Nat) (f : Gang → Gang) : (s.updGang k f).mgmt = s.mgmt := rfl
@[simp] theorem updGang_out (s : State) (k : Nat) (f : Gang → Gang) : (s.updGang k f).out = s.out := rfl

@[simp] theorem updCore_agenda (s : State) (c : Nat) (f : Core → Core) : (s.updCore c f).agenda = s.agenda := rfl
@[simp] theorem updCore_cur (s : State) (c : Nat) (f : Core → Core) : (s.updCore c f).cur = s.cur := rfl
@[simp] theorem updCore_tick (s : State) (c : Nat) (f : Core → Core) : (s.updCore c f).tick = s.tick := rfl
@[simp] theorem updCore_bclk (s : State) (c : Nat) (f : Core → Core) : (s.updCore c f).bclk = s.bclk := rfl
@[simp] theorem updCore_ptime (s : State) (c : Nat) (f : Core → Core) : (s.updCore c f).ptime = s.ptime := rfl
@[simp] theorem updCore_slew (s : State) (c : Nat) (f : Core → Core) : (s.updCore c f).slew = s.slew := rfl
@[simp] theorem updCore_slewAcc (s : State) (c : Nat) (f : Core → Core) : (s.updCore c f).slewAcc = s.slewAcc := rfl
@[simp] theorem updCore_timers (s : State) (c : Nat) (f : Core → Core) : (s.updCore c f).timers = s.timers := rfl
@[simp] theorem updCore_mem (s : State) (c : Nat) (f : Core → Core) : (s.updCore c f).mem = s.mem := rfl
@[simp] theorem updCore_homes (s : State) (c : Nat) (f : Core → Core) : (s.updCore c f).homes = s.homes := rfl
@[simp] theorem updCore_hzn (s : State) (c : Nat) (f : Core → Core) : (s.updCore c f).hzn = s.hzn := rfl
@[simp] theorem updCore_predictors (s : State) (c : Nat) (f : Core → Core) : (s.updCore c f).predictors = s.predictors := rfl
@[simp] theorem updCore_regions (s : State) (c : Nat) (f : Core → Core) : (s.updCore c f).regions = s.regions := rfl
@[simp] theorem updCore_filters (s : State) (c : Nat) (f : Core → Core) : (s.updCore c f).filters = s.filters := rfl
@[simp] theorem updCore_directory (s : State) (c : Nat) (f : Core → Core) : (s.updCore c f).directory = s.directory := rfl
@[simp] theorem updCore_cores (s : State) (c : Nat) (f : Core → Core) : (s.updCore c f).cores = place s.cores c (f (s.core c)) := rfl
@[simp] theorem updCore_clusters (s : State) (c : Nat) (f : Core → Core) : (s.updCore c f).clusters = s.clusters := rfl
@[simp] theorem updCore_chips (s : State) (c : Nat) (f : Core → Core) : (s.updCore c f).chips = s.chips := rfl
@[simp] theorem updCore_ctxs (s : State) (c : Nat) (f : Core → Core) : (s.updCore c f).ctxs = s.ctxs := rfl
@[simp] theorem updCore_itlb (s : State) (c : Nat) (f : Core → Core) : (s.updCore c f).itlb = s.itlb := rfl
@[simp] theorem updCore_walks (s : State) (c : Nat) (f : Core → Core) : (s.updCore c f).walks = s.walks := rfl
@[simp] theorem updCore_pageReqs (s : State) (c : Nat) (f : Core → Core) : (s.updCore c f).pageReqs = s.pageReqs := rfl
@[simp] theorem updCore_tickets (s : State) (c : Nat) (f : Core → Core) : (s.updCore c f).tickets = s.tickets := rfl
@[simp] theorem updCore_mesh (s : State) (c : Nat) (f : Core → Core) : (s.updCore c f).mesh = s.mesh := rfl
@[simp] theorem updCore_groups (s : State) (c : Nat) (f : Core → Core) : (s.updCore c f).groups = s.groups := rfl
@[simp] theorem updCore_blocks (s : State) (c : Nat) (f : Core → Core) : (s.updCore c f).blocks = s.blocks := rfl
@[simp] theorem updCore_gangs (s : State) (c : Nat) (f : Core → Core) : (s.updCore c f).gangs = s.gangs := rfl
@[simp] theorem updCore_images (s : State) (c : Nat) (f : Core → Core) : (s.updCore c f).images = s.images := rfl
@[simp] theorem updCore_ops (s : State) (c : Nat) (f : Core → Core) : (s.updCore c f).ops = s.ops := rfl
@[simp] theorem updCore_heldEng (s : State) (c : Nat) (f : Core → Core) : (s.updCore c f).heldEng = s.heldEng := rfl
@[simp] theorem updCore_nextId (s : State) (c : Nat) (f : Core → Core) : (s.updCore c f).nextId = s.nextId := rfl
@[simp] theorem updCore_flights (s : State) (c : Nat) (f : Core → Core) : (s.updCore c f).flights = s.flights := rfl
@[simp] theorem updCore_drains (s : State) (c : Nat) (f : Core → Core) : (s.updCore c f).drains = s.drains := rfl
@[simp] theorem updCore_txDue (s : State) (c : Nat) (f : Core → Core) : (s.updCore c f).txDue = s.txDue := rfl
@[simp] theorem updCore_errs (s : State) (c : Nat) (f : Core → Core) : (s.updCore c f).errs = s.errs := rfl
@[simp] theorem updCore_cmds (s : State) (c : Nat) (f : Core → Core) : (s.updCore c f).cmds = s.cmds := rfl
@[simp] theorem updCore_chans (s : State) (c : Nat) (f : Core → Core) : (s.updCore c f).chans = s.chans := rfl
@[simp] theorem updCore_disp (s : State) (c : Nat) (f : Core → Core) : (s.updCore c f).disp = s.disp := rfl
@[simp] theorem updCore_sync (s : State) (c : Nat) (f : Core → Core) : (s.updCore c f).sync = s.sync := rfl
@[simp] theorem updCore_ceil (s : State) (c : Nat) (f : Core → Core) : (s.updCore c f).ceil = s.ceil := rfl
@[simp] theorem updCore_ports (s : State) (c : Nat) (f : Core → Core) : (s.updCore c f).ports = s.ports := rfl
@[simp] theorem updCore_mgmt (s : State) (c : Nat) (f : Core → Core) : (s.updCore c f).mgmt = s.mgmt := rfl
@[simp] theorem updCore_out (s : State) (c : Nat) (f : Core → Core) : (s.updCore c f).out = s.out := rfl

@[simp] theorem updCtx_agenda (s : State) (c : Nat) (f : Ctx → Ctx) : (s.updCtx c f).agenda = s.agenda := rfl
@[simp] theorem updCtx_cur (s : State) (c : Nat) (f : Ctx → Ctx) : (s.updCtx c f).cur = s.cur := rfl
@[simp] theorem updCtx_tick (s : State) (c : Nat) (f : Ctx → Ctx) : (s.updCtx c f).tick = s.tick := rfl
@[simp] theorem updCtx_bclk (s : State) (c : Nat) (f : Ctx → Ctx) : (s.updCtx c f).bclk = s.bclk := rfl
@[simp] theorem updCtx_ptime (s : State) (c : Nat) (f : Ctx → Ctx) : (s.updCtx c f).ptime = s.ptime := rfl
@[simp] theorem updCtx_slew (s : State) (c : Nat) (f : Ctx → Ctx) : (s.updCtx c f).slew = s.slew := rfl
@[simp] theorem updCtx_slewAcc (s : State) (c : Nat) (f : Ctx → Ctx) : (s.updCtx c f).slewAcc = s.slewAcc := rfl
@[simp] theorem updCtx_timers (s : State) (c : Nat) (f : Ctx → Ctx) : (s.updCtx c f).timers = s.timers := rfl
@[simp] theorem updCtx_mem (s : State) (c : Nat) (f : Ctx → Ctx) : (s.updCtx c f).mem = s.mem := rfl
@[simp] theorem updCtx_homes (s : State) (c : Nat) (f : Ctx → Ctx) : (s.updCtx c f).homes = s.homes := rfl
@[simp] theorem updCtx_hzn (s : State) (c : Nat) (f : Ctx → Ctx) : (s.updCtx c f).hzn = s.hzn := rfl
@[simp] theorem updCtx_predictors (s : State) (c : Nat) (f : Ctx → Ctx) : (s.updCtx c f).predictors = s.predictors := rfl
@[simp] theorem updCtx_regions (s : State) (c : Nat) (f : Ctx → Ctx) : (s.updCtx c f).regions = s.regions := rfl
@[simp] theorem updCtx_filters (s : State) (c : Nat) (f : Ctx → Ctx) : (s.updCtx c f).filters = s.filters := rfl
@[simp] theorem updCtx_directory (s : State) (c : Nat) (f : Ctx → Ctx) : (s.updCtx c f).directory = s.directory := rfl
@[simp] theorem updCtx_cores (s : State) (c : Nat) (f : Ctx → Ctx) : (s.updCtx c f).cores = s.cores := rfl
@[simp] theorem updCtx_clusters (s : State) (c : Nat) (f : Ctx → Ctx) : (s.updCtx c f).clusters = s.clusters := rfl
@[simp] theorem updCtx_chips (s : State) (c : Nat) (f : Ctx → Ctx) : (s.updCtx c f).chips = s.chips := rfl
@[simp] theorem updCtx_ctxs (s : State) (c : Nat) (f : Ctx → Ctx) : (s.updCtx c f).ctxs = place s.ctxs c (f (s.ctx c)) := rfl
@[simp] theorem updCtx_itlb (s : State) (c : Nat) (f : Ctx → Ctx) : (s.updCtx c f).itlb = s.itlb := rfl
@[simp] theorem updCtx_walks (s : State) (c : Nat) (f : Ctx → Ctx) : (s.updCtx c f).walks = s.walks := rfl
@[simp] theorem updCtx_pageReqs (s : State) (c : Nat) (f : Ctx → Ctx) : (s.updCtx c f).pageReqs = s.pageReqs := rfl
@[simp] theorem updCtx_tickets (s : State) (c : Nat) (f : Ctx → Ctx) : (s.updCtx c f).tickets = s.tickets := rfl
@[simp] theorem updCtx_mesh (s : State) (c : Nat) (f : Ctx → Ctx) : (s.updCtx c f).mesh = s.mesh := rfl
@[simp] theorem updCtx_groups (s : State) (c : Nat) (f : Ctx → Ctx) : (s.updCtx c f).groups = s.groups := rfl
@[simp] theorem updCtx_blocks (s : State) (c : Nat) (f : Ctx → Ctx) : (s.updCtx c f).blocks = s.blocks := rfl
@[simp] theorem updCtx_gangs (s : State) (c : Nat) (f : Ctx → Ctx) : (s.updCtx c f).gangs = s.gangs := rfl
@[simp] theorem updCtx_images (s : State) (c : Nat) (f : Ctx → Ctx) : (s.updCtx c f).images = s.images := rfl
@[simp] theorem updCtx_ops (s : State) (c : Nat) (f : Ctx → Ctx) : (s.updCtx c f).ops = s.ops := rfl
@[simp] theorem updCtx_heldEng (s : State) (c : Nat) (f : Ctx → Ctx) : (s.updCtx c f).heldEng = s.heldEng := rfl
@[simp] theorem updCtx_nextId (s : State) (c : Nat) (f : Ctx → Ctx) : (s.updCtx c f).nextId = s.nextId := rfl
@[simp] theorem updCtx_flights (s : State) (c : Nat) (f : Ctx → Ctx) : (s.updCtx c f).flights = s.flights := rfl
@[simp] theorem updCtx_drains (s : State) (c : Nat) (f : Ctx → Ctx) : (s.updCtx c f).drains = s.drains := rfl
@[simp] theorem updCtx_txDue (s : State) (c : Nat) (f : Ctx → Ctx) : (s.updCtx c f).txDue = s.txDue := rfl
@[simp] theorem updCtx_errs (s : State) (c : Nat) (f : Ctx → Ctx) : (s.updCtx c f).errs = s.errs := rfl
@[simp] theorem updCtx_cmds (s : State) (c : Nat) (f : Ctx → Ctx) : (s.updCtx c f).cmds = s.cmds := rfl
@[simp] theorem updCtx_chans (s : State) (c : Nat) (f : Ctx → Ctx) : (s.updCtx c f).chans = s.chans := rfl
@[simp] theorem updCtx_disp (s : State) (c : Nat) (f : Ctx → Ctx) : (s.updCtx c f).disp = s.disp := rfl
@[simp] theorem updCtx_sync (s : State) (c : Nat) (f : Ctx → Ctx) : (s.updCtx c f).sync = s.sync := rfl
@[simp] theorem updCtx_ceil (s : State) (c : Nat) (f : Ctx → Ctx) : (s.updCtx c f).ceil = s.ceil := rfl
@[simp] theorem updCtx_ports (s : State) (c : Nat) (f : Ctx → Ctx) : (s.updCtx c f).ports = s.ports := rfl
@[simp] theorem updCtx_mgmt (s : State) (c : Nat) (f : Ctx → Ctx) : (s.updCtx c f).mgmt = s.mgmt := rfl
@[simp] theorem updCtx_out (s : State) (c : Nat) (f : Ctx → Ctx) : (s.updCtx c f).out = s.out := rfl

@[simp] theorem updCluster_agenda (s : State) (n : Nat) (f : Cluster → Cluster) : (s.updCluster n f).agenda = s.agenda := rfl
@[simp] theorem updCluster_cur (s : State) (n : Nat) (f : Cluster → Cluster) : (s.updCluster n f).cur = s.cur := rfl
@[simp] theorem updCluster_tick (s : State) (n : Nat) (f : Cluster → Cluster) : (s.updCluster n f).tick = s.tick := rfl
@[simp] theorem updCluster_bclk (s : State) (n : Nat) (f : Cluster → Cluster) : (s.updCluster n f).bclk = s.bclk := rfl
@[simp] theorem updCluster_ptime (s : State) (n : Nat) (f : Cluster → Cluster) : (s.updCluster n f).ptime = s.ptime := rfl
@[simp] theorem updCluster_slew (s : State) (n : Nat) (f : Cluster → Cluster) : (s.updCluster n f).slew = s.slew := rfl
@[simp] theorem updCluster_slewAcc (s : State) (n : Nat) (f : Cluster → Cluster) : (s.updCluster n f).slewAcc = s.slewAcc := rfl
@[simp] theorem updCluster_timers (s : State) (n : Nat) (f : Cluster → Cluster) : (s.updCluster n f).timers = s.timers := rfl
@[simp] theorem updCluster_mem (s : State) (n : Nat) (f : Cluster → Cluster) : (s.updCluster n f).mem = s.mem := rfl
@[simp] theorem updCluster_homes (s : State) (n : Nat) (f : Cluster → Cluster) : (s.updCluster n f).homes = s.homes := rfl
@[simp] theorem updCluster_hzn (s : State) (n : Nat) (f : Cluster → Cluster) : (s.updCluster n f).hzn = s.hzn := rfl
@[simp] theorem updCluster_predictors (s : State) (n : Nat) (f : Cluster → Cluster) : (s.updCluster n f).predictors = s.predictors := rfl
@[simp] theorem updCluster_regions (s : State) (n : Nat) (f : Cluster → Cluster) : (s.updCluster n f).regions = s.regions := rfl
@[simp] theorem updCluster_filters (s : State) (n : Nat) (f : Cluster → Cluster) : (s.updCluster n f).filters = s.filters := rfl
@[simp] theorem updCluster_directory (s : State) (n : Nat) (f : Cluster → Cluster) : (s.updCluster n f).directory = s.directory := rfl
@[simp] theorem updCluster_cores (s : State) (n : Nat) (f : Cluster → Cluster) : (s.updCluster n f).cores = s.cores := rfl
@[simp] theorem updCluster_clusters (s : State) (n : Nat) (f : Cluster → Cluster) : (s.updCluster n f).clusters = place s.clusters n (f (s.cluster n)) := rfl
@[simp] theorem updCluster_chips (s : State) (n : Nat) (f : Cluster → Cluster) : (s.updCluster n f).chips = s.chips := rfl
@[simp] theorem updCluster_ctxs (s : State) (n : Nat) (f : Cluster → Cluster) : (s.updCluster n f).ctxs = s.ctxs := rfl
@[simp] theorem updCluster_itlb (s : State) (n : Nat) (f : Cluster → Cluster) : (s.updCluster n f).itlb = s.itlb := rfl
@[simp] theorem updCluster_walks (s : State) (n : Nat) (f : Cluster → Cluster) : (s.updCluster n f).walks = s.walks := rfl
@[simp] theorem updCluster_pageReqs (s : State) (n : Nat) (f : Cluster → Cluster) : (s.updCluster n f).pageReqs = s.pageReqs := rfl
@[simp] theorem updCluster_tickets (s : State) (n : Nat) (f : Cluster → Cluster) : (s.updCluster n f).tickets = s.tickets := rfl
@[simp] theorem updCluster_mesh (s : State) (n : Nat) (f : Cluster → Cluster) : (s.updCluster n f).mesh = s.mesh := rfl
@[simp] theorem updCluster_groups (s : State) (n : Nat) (f : Cluster → Cluster) : (s.updCluster n f).groups = s.groups := rfl
@[simp] theorem updCluster_blocks (s : State) (n : Nat) (f : Cluster → Cluster) : (s.updCluster n f).blocks = s.blocks := rfl
@[simp] theorem updCluster_gangs (s : State) (n : Nat) (f : Cluster → Cluster) : (s.updCluster n f).gangs = s.gangs := rfl
@[simp] theorem updCluster_images (s : State) (n : Nat) (f : Cluster → Cluster) : (s.updCluster n f).images = s.images := rfl
@[simp] theorem updCluster_ops (s : State) (n : Nat) (f : Cluster → Cluster) : (s.updCluster n f).ops = s.ops := rfl
@[simp] theorem updCluster_heldEng (s : State) (n : Nat) (f : Cluster → Cluster) : (s.updCluster n f).heldEng = s.heldEng := rfl
@[simp] theorem updCluster_nextId (s : State) (n : Nat) (f : Cluster → Cluster) : (s.updCluster n f).nextId = s.nextId := rfl
@[simp] theorem updCluster_flights (s : State) (n : Nat) (f : Cluster → Cluster) : (s.updCluster n f).flights = s.flights := rfl
@[simp] theorem updCluster_drains (s : State) (n : Nat) (f : Cluster → Cluster) : (s.updCluster n f).drains = s.drains := rfl
@[simp] theorem updCluster_txDue (s : State) (n : Nat) (f : Cluster → Cluster) : (s.updCluster n f).txDue = s.txDue := rfl
@[simp] theorem updCluster_errs (s : State) (n : Nat) (f : Cluster → Cluster) : (s.updCluster n f).errs = s.errs := rfl
@[simp] theorem updCluster_cmds (s : State) (n : Nat) (f : Cluster → Cluster) : (s.updCluster n f).cmds = s.cmds := rfl
@[simp] theorem updCluster_chans (s : State) (n : Nat) (f : Cluster → Cluster) : (s.updCluster n f).chans = s.chans := rfl
@[simp] theorem updCluster_disp (s : State) (n : Nat) (f : Cluster → Cluster) : (s.updCluster n f).disp = s.disp := rfl
@[simp] theorem updCluster_sync (s : State) (n : Nat) (f : Cluster → Cluster) : (s.updCluster n f).sync = s.sync := rfl
@[simp] theorem updCluster_ceil (s : State) (n : Nat) (f : Cluster → Cluster) : (s.updCluster n f).ceil = s.ceil := rfl
@[simp] theorem updCluster_ports (s : State) (n : Nat) (f : Cluster → Cluster) : (s.updCluster n f).ports = s.ports := rfl
@[simp] theorem updCluster_mgmt (s : State) (n : Nat) (f : Cluster → Cluster) : (s.updCluster n f).mgmt = s.mgmt := rfl
@[simp] theorem updCluster_out (s : State) (n : Nat) (f : Cluster → Cluster) : (s.updCluster n f).out = s.out := rfl

@[simp] theorem updChip_agenda (s : State) (m : Nat) (f : Chip → Chip) : (s.updChip m f).agenda = s.agenda := rfl
@[simp] theorem updChip_cur (s : State) (m : Nat) (f : Chip → Chip) : (s.updChip m f).cur = s.cur := rfl
@[simp] theorem updChip_tick (s : State) (m : Nat) (f : Chip → Chip) : (s.updChip m f).tick = s.tick := rfl
@[simp] theorem updChip_bclk (s : State) (m : Nat) (f : Chip → Chip) : (s.updChip m f).bclk = s.bclk := rfl
@[simp] theorem updChip_ptime (s : State) (m : Nat) (f : Chip → Chip) : (s.updChip m f).ptime = s.ptime := rfl
@[simp] theorem updChip_slew (s : State) (m : Nat) (f : Chip → Chip) : (s.updChip m f).slew = s.slew := rfl
@[simp] theorem updChip_slewAcc (s : State) (m : Nat) (f : Chip → Chip) : (s.updChip m f).slewAcc = s.slewAcc := rfl
@[simp] theorem updChip_timers (s : State) (m : Nat) (f : Chip → Chip) : (s.updChip m f).timers = s.timers := rfl
@[simp] theorem updChip_mem (s : State) (m : Nat) (f : Chip → Chip) : (s.updChip m f).mem = s.mem := rfl
@[simp] theorem updChip_homes (s : State) (m : Nat) (f : Chip → Chip) : (s.updChip m f).homes = s.homes := rfl
@[simp] theorem updChip_hzn (s : State) (m : Nat) (f : Chip → Chip) : (s.updChip m f).hzn = s.hzn := rfl
@[simp] theorem updChip_predictors (s : State) (m : Nat) (f : Chip → Chip) : (s.updChip m f).predictors = s.predictors := rfl
@[simp] theorem updChip_regions (s : State) (m : Nat) (f : Chip → Chip) : (s.updChip m f).regions = s.regions := rfl
@[simp] theorem updChip_filters (s : State) (m : Nat) (f : Chip → Chip) : (s.updChip m f).filters = s.filters := rfl
@[simp] theorem updChip_directory (s : State) (m : Nat) (f : Chip → Chip) : (s.updChip m f).directory = s.directory := rfl
@[simp] theorem updChip_cores (s : State) (m : Nat) (f : Chip → Chip) : (s.updChip m f).cores = s.cores := rfl
@[simp] theorem updChip_clusters (s : State) (m : Nat) (f : Chip → Chip) : (s.updChip m f).clusters = s.clusters := rfl
@[simp] theorem updChip_chips (s : State) (m : Nat) (f : Chip → Chip) : (s.updChip m f).chips = place s.chips m (f (s.chip m)) := rfl
@[simp] theorem updChip_ctxs (s : State) (m : Nat) (f : Chip → Chip) : (s.updChip m f).ctxs = s.ctxs := rfl
@[simp] theorem updChip_itlb (s : State) (m : Nat) (f : Chip → Chip) : (s.updChip m f).itlb = s.itlb := rfl
@[simp] theorem updChip_walks (s : State) (m : Nat) (f : Chip → Chip) : (s.updChip m f).walks = s.walks := rfl
@[simp] theorem updChip_pageReqs (s : State) (m : Nat) (f : Chip → Chip) : (s.updChip m f).pageReqs = s.pageReqs := rfl
@[simp] theorem updChip_tickets (s : State) (m : Nat) (f : Chip → Chip) : (s.updChip m f).tickets = s.tickets := rfl
@[simp] theorem updChip_mesh (s : State) (m : Nat) (f : Chip → Chip) : (s.updChip m f).mesh = s.mesh := rfl
@[simp] theorem updChip_groups (s : State) (m : Nat) (f : Chip → Chip) : (s.updChip m f).groups = s.groups := rfl
@[simp] theorem updChip_blocks (s : State) (m : Nat) (f : Chip → Chip) : (s.updChip m f).blocks = s.blocks := rfl
@[simp] theorem updChip_gangs (s : State) (m : Nat) (f : Chip → Chip) : (s.updChip m f).gangs = s.gangs := rfl
@[simp] theorem updChip_images (s : State) (m : Nat) (f : Chip → Chip) : (s.updChip m f).images = s.images := rfl
@[simp] theorem updChip_ops (s : State) (m : Nat) (f : Chip → Chip) : (s.updChip m f).ops = s.ops := rfl
@[simp] theorem updChip_heldEng (s : State) (m : Nat) (f : Chip → Chip) : (s.updChip m f).heldEng = s.heldEng := rfl
@[simp] theorem updChip_nextId (s : State) (m : Nat) (f : Chip → Chip) : (s.updChip m f).nextId = s.nextId := rfl
@[simp] theorem updChip_flights (s : State) (m : Nat) (f : Chip → Chip) : (s.updChip m f).flights = s.flights := rfl
@[simp] theorem updChip_drains (s : State) (m : Nat) (f : Chip → Chip) : (s.updChip m f).drains = s.drains := rfl
@[simp] theorem updChip_txDue (s : State) (m : Nat) (f : Chip → Chip) : (s.updChip m f).txDue = s.txDue := rfl
@[simp] theorem updChip_errs (s : State) (m : Nat) (f : Chip → Chip) : (s.updChip m f).errs = s.errs := rfl
@[simp] theorem updChip_cmds (s : State) (m : Nat) (f : Chip → Chip) : (s.updChip m f).cmds = s.cmds := rfl
@[simp] theorem updChip_chans (s : State) (m : Nat) (f : Chip → Chip) : (s.updChip m f).chans = s.chans := rfl
@[simp] theorem updChip_disp (s : State) (m : Nat) (f : Chip → Chip) : (s.updChip m f).disp = s.disp := rfl
@[simp] theorem updChip_sync (s : State) (m : Nat) (f : Chip → Chip) : (s.updChip m f).sync = s.sync := rfl
@[simp] theorem updChip_ceil (s : State) (m : Nat) (f : Chip → Chip) : (s.updChip m f).ceil = s.ceil := rfl
@[simp] theorem updChip_ports (s : State) (m : Nat) (f : Chip → Chip) : (s.updChip m f).ports = s.ports := rfl
@[simp] theorem updChip_mgmt (s : State) (m : Nat) (f : Chip → Chip) : (s.updChip m f).mgmt = s.mgmt := rfl
@[simp] theorem updChip_out (s : State) (m : Nat) (f : Chip → Chip) : (s.updChip m f).out = s.out := rfl

@[simp] theorem updPort_agenda (s : State) (p : Nat) (f : VPort → VPort) : (s.updPort p f).agenda = s.agenda := rfl
@[simp] theorem updPort_cur (s : State) (p : Nat) (f : VPort → VPort) : (s.updPort p f).cur = s.cur := rfl
@[simp] theorem updPort_tick (s : State) (p : Nat) (f : VPort → VPort) : (s.updPort p f).tick = s.tick := rfl
@[simp] theorem updPort_bclk (s : State) (p : Nat) (f : VPort → VPort) : (s.updPort p f).bclk = s.bclk := rfl
@[simp] theorem updPort_ptime (s : State) (p : Nat) (f : VPort → VPort) : (s.updPort p f).ptime = s.ptime := rfl
@[simp] theorem updPort_slew (s : State) (p : Nat) (f : VPort → VPort) : (s.updPort p f).slew = s.slew := rfl
@[simp] theorem updPort_slewAcc (s : State) (p : Nat) (f : VPort → VPort) : (s.updPort p f).slewAcc = s.slewAcc := rfl
@[simp] theorem updPort_timers (s : State) (p : Nat) (f : VPort → VPort) : (s.updPort p f).timers = s.timers := rfl
@[simp] theorem updPort_mem (s : State) (p : Nat) (f : VPort → VPort) : (s.updPort p f).mem = s.mem := rfl
@[simp] theorem updPort_homes (s : State) (p : Nat) (f : VPort → VPort) : (s.updPort p f).homes = s.homes := rfl
@[simp] theorem updPort_hzn (s : State) (p : Nat) (f : VPort → VPort) : (s.updPort p f).hzn = s.hzn := rfl
@[simp] theorem updPort_predictors (s : State) (p : Nat) (f : VPort → VPort) : (s.updPort p f).predictors = s.predictors := rfl
@[simp] theorem updPort_regions (s : State) (p : Nat) (f : VPort → VPort) : (s.updPort p f).regions = s.regions := rfl
@[simp] theorem updPort_filters (s : State) (p : Nat) (f : VPort → VPort) : (s.updPort p f).filters = s.filters := rfl
@[simp] theorem updPort_directory (s : State) (p : Nat) (f : VPort → VPort) : (s.updPort p f).directory = s.directory := rfl
@[simp] theorem updPort_cores (s : State) (p : Nat) (f : VPort → VPort) : (s.updPort p f).cores = s.cores := rfl
@[simp] theorem updPort_clusters (s : State) (p : Nat) (f : VPort → VPort) : (s.updPort p f).clusters = s.clusters := rfl
@[simp] theorem updPort_chips (s : State) (p : Nat) (f : VPort → VPort) : (s.updPort p f).chips = s.chips := rfl
@[simp] theorem updPort_ctxs (s : State) (p : Nat) (f : VPort → VPort) : (s.updPort p f).ctxs = s.ctxs := rfl
@[simp] theorem updPort_itlb (s : State) (p : Nat) (f : VPort → VPort) : (s.updPort p f).itlb = s.itlb := rfl
@[simp] theorem updPort_walks (s : State) (p : Nat) (f : VPort → VPort) : (s.updPort p f).walks = s.walks := rfl
@[simp] theorem updPort_pageReqs (s : State) (p : Nat) (f : VPort → VPort) : (s.updPort p f).pageReqs = s.pageReqs := rfl
@[simp] theorem updPort_tickets (s : State) (p : Nat) (f : VPort → VPort) : (s.updPort p f).tickets = s.tickets := rfl
@[simp] theorem updPort_mesh (s : State) (p : Nat) (f : VPort → VPort) : (s.updPort p f).mesh = s.mesh := rfl
@[simp] theorem updPort_groups (s : State) (p : Nat) (f : VPort → VPort) : (s.updPort p f).groups = s.groups := rfl
@[simp] theorem updPort_blocks (s : State) (p : Nat) (f : VPort → VPort) : (s.updPort p f).blocks = s.blocks := rfl
@[simp] theorem updPort_gangs (s : State) (p : Nat) (f : VPort → VPort) : (s.updPort p f).gangs = s.gangs := rfl
@[simp] theorem updPort_images (s : State) (p : Nat) (f : VPort → VPort) : (s.updPort p f).images = s.images := rfl
@[simp] theorem updPort_ops (s : State) (p : Nat) (f : VPort → VPort) : (s.updPort p f).ops = s.ops := rfl
@[simp] theorem updPort_heldEng (s : State) (p : Nat) (f : VPort → VPort) : (s.updPort p f).heldEng = s.heldEng := rfl
@[simp] theorem updPort_nextId (s : State) (p : Nat) (f : VPort → VPort) : (s.updPort p f).nextId = s.nextId := rfl
@[simp] theorem updPort_flights (s : State) (p : Nat) (f : VPort → VPort) : (s.updPort p f).flights = s.flights := rfl
@[simp] theorem updPort_drains (s : State) (p : Nat) (f : VPort → VPort) : (s.updPort p f).drains = s.drains := rfl
@[simp] theorem updPort_txDue (s : State) (p : Nat) (f : VPort → VPort) : (s.updPort p f).txDue = s.txDue := rfl
@[simp] theorem updPort_errs (s : State) (p : Nat) (f : VPort → VPort) : (s.updPort p f).errs = s.errs := rfl
@[simp] theorem updPort_cmds (s : State) (p : Nat) (f : VPort → VPort) : (s.updPort p f).cmds = s.cmds := rfl
@[simp] theorem updPort_chans (s : State) (p : Nat) (f : VPort → VPort) : (s.updPort p f).chans = s.chans := rfl
@[simp] theorem updPort_disp (s : State) (p : Nat) (f : VPort → VPort) : (s.updPort p f).disp = s.disp := rfl
@[simp] theorem updPort_sync (s : State) (p : Nat) (f : VPort → VPort) : (s.updPort p f).sync = s.sync := rfl
@[simp] theorem updPort_ceil (s : State) (p : Nat) (f : VPort → VPort) : (s.updPort p f).ceil = s.ceil := rfl
@[simp] theorem updPort_ports (s : State) (p : Nat) (f : VPort → VPort) : (s.updPort p f).ports = place s.ports p (f (s.port p)) := rfl
@[simp] theorem updPort_mgmt (s : State) (p : Nat) (f : VPort → VPort) : (s.updPort p f).mgmt = s.mgmt := rfl
@[simp] theorem updPort_out (s : State) (p : Nat) (f : VPort → VPort) : (s.updPort p f).out = s.out := rfl

@[simp] theorem updOp_agenda (s : State) (id : Nat) (f : Op → Op) : (s.updOp id f).agenda = s.agenda := rfl
@[simp] theorem updOp_cur (s : State) (id : Nat) (f : Op → Op) : (s.updOp id f).cur = s.cur := rfl
@[simp] theorem updOp_tick (s : State) (id : Nat) (f : Op → Op) : (s.updOp id f).tick = s.tick := rfl
@[simp] theorem updOp_bclk (s : State) (id : Nat) (f : Op → Op) : (s.updOp id f).bclk = s.bclk := rfl
@[simp] theorem updOp_ptime (s : State) (id : Nat) (f : Op → Op) : (s.updOp id f).ptime = s.ptime := rfl
@[simp] theorem updOp_slew (s : State) (id : Nat) (f : Op → Op) : (s.updOp id f).slew = s.slew := rfl
@[simp] theorem updOp_slewAcc (s : State) (id : Nat) (f : Op → Op) : (s.updOp id f).slewAcc = s.slewAcc := rfl
@[simp] theorem updOp_timers (s : State) (id : Nat) (f : Op → Op) : (s.updOp id f).timers = s.timers := rfl
@[simp] theorem updOp_mem (s : State) (id : Nat) (f : Op → Op) : (s.updOp id f).mem = s.mem := rfl
@[simp] theorem updOp_homes (s : State) (id : Nat) (f : Op → Op) : (s.updOp id f).homes = s.homes := rfl
@[simp] theorem updOp_hzn (s : State) (id : Nat) (f : Op → Op) : (s.updOp id f).hzn = s.hzn := rfl
@[simp] theorem updOp_predictors (s : State) (id : Nat) (f : Op → Op) : (s.updOp id f).predictors = s.predictors := rfl
@[simp] theorem updOp_regions (s : State) (id : Nat) (f : Op → Op) : (s.updOp id f).regions = s.regions := rfl
@[simp] theorem updOp_filters (s : State) (id : Nat) (f : Op → Op) : (s.updOp id f).filters = s.filters := rfl
@[simp] theorem updOp_directory (s : State) (id : Nat) (f : Op → Op) : (s.updOp id f).directory = s.directory := rfl
@[simp] theorem updOp_cores (s : State) (id : Nat) (f : Op → Op) : (s.updOp id f).cores = s.cores := rfl
@[simp] theorem updOp_clusters (s : State) (id : Nat) (f : Op → Op) : (s.updOp id f).clusters = s.clusters := rfl
@[simp] theorem updOp_chips (s : State) (id : Nat) (f : Op → Op) : (s.updOp id f).chips = s.chips := rfl
@[simp] theorem updOp_ctxs (s : State) (id : Nat) (f : Op → Op) : (s.updOp id f).ctxs = s.ctxs := rfl
@[simp] theorem updOp_itlb (s : State) (id : Nat) (f : Op → Op) : (s.updOp id f).itlb = s.itlb := rfl
@[simp] theorem updOp_walks (s : State) (id : Nat) (f : Op → Op) : (s.updOp id f).walks = s.walks := rfl
@[simp] theorem updOp_pageReqs (s : State) (id : Nat) (f : Op → Op) : (s.updOp id f).pageReqs = s.pageReqs := rfl
@[simp] theorem updOp_tickets (s : State) (id : Nat) (f : Op → Op) : (s.updOp id f).tickets = s.tickets := rfl
@[simp] theorem updOp_mesh (s : State) (id : Nat) (f : Op → Op) : (s.updOp id f).mesh = s.mesh := rfl
@[simp] theorem updOp_groups (s : State) (id : Nat) (f : Op → Op) : (s.updOp id f).groups = s.groups := rfl
@[simp] theorem updOp_blocks (s : State) (id : Nat) (f : Op → Op) : (s.updOp id f).blocks = s.blocks := rfl
@[simp] theorem updOp_gangs (s : State) (id : Nat) (f : Op → Op) : (s.updOp id f).gangs = s.gangs := rfl
@[simp] theorem updOp_images (s : State) (id : Nat) (f : Op → Op) : (s.updOp id f).images = s.images := rfl
@[simp] theorem updOp_ops (s : State) (id : Nat) (f : Op → Op) : (s.updOp id f).ops = s.ops.map (fun o => if o.id = id then f o else o) := rfl
@[simp] theorem updOp_heldEng (s : State) (id : Nat) (f : Op → Op) : (s.updOp id f).heldEng = s.heldEng := rfl
@[simp] theorem updOp_nextId (s : State) (id : Nat) (f : Op → Op) : (s.updOp id f).nextId = s.nextId := rfl
@[simp] theorem updOp_flights (s : State) (id : Nat) (f : Op → Op) : (s.updOp id f).flights = s.flights := rfl
@[simp] theorem updOp_drains (s : State) (id : Nat) (f : Op → Op) : (s.updOp id f).drains = s.drains := rfl
@[simp] theorem updOp_txDue (s : State) (id : Nat) (f : Op → Op) : (s.updOp id f).txDue = s.txDue := rfl
@[simp] theorem updOp_errs (s : State) (id : Nat) (f : Op → Op) : (s.updOp id f).errs = s.errs := rfl
@[simp] theorem updOp_cmds (s : State) (id : Nat) (f : Op → Op) : (s.updOp id f).cmds = s.cmds := rfl
@[simp] theorem updOp_chans (s : State) (id : Nat) (f : Op → Op) : (s.updOp id f).chans = s.chans := rfl
@[simp] theorem updOp_disp (s : State) (id : Nat) (f : Op → Op) : (s.updOp id f).disp = s.disp := rfl
@[simp] theorem updOp_sync (s : State) (id : Nat) (f : Op → Op) : (s.updOp id f).sync = s.sync := rfl
@[simp] theorem updOp_ceil (s : State) (id : Nat) (f : Op → Op) : (s.updOp id f).ceil = s.ceil := rfl
@[simp] theorem updOp_ports (s : State) (id : Nat) (f : Op → Op) : (s.updOp id f).ports = s.ports := rfl
@[simp] theorem updOp_mgmt (s : State) (id : Nat) (f : Op → Op) : (s.updOp id f).mgmt = s.mgmt := rfl
@[simp] theorem updOp_out (s : State) (id : Nat) (f : Op → Op) : (s.updOp id f).out = s.out := rfl

@[simp] theorem updCmd_agenda (s : State) (id : Nat) (f : Cmd → Cmd) : (s.updCmd id f).agenda = s.agenda := rfl
@[simp] theorem updCmd_cur (s : State) (id : Nat) (f : Cmd → Cmd) : (s.updCmd id f).cur = s.cur := rfl
@[simp] theorem updCmd_tick (s : State) (id : Nat) (f : Cmd → Cmd) : (s.updCmd id f).tick = s.tick := rfl
@[simp] theorem updCmd_bclk (s : State) (id : Nat) (f : Cmd → Cmd) : (s.updCmd id f).bclk = s.bclk := rfl
@[simp] theorem updCmd_ptime (s : State) (id : Nat) (f : Cmd → Cmd) : (s.updCmd id f).ptime = s.ptime := rfl
@[simp] theorem updCmd_slew (s : State) (id : Nat) (f : Cmd → Cmd) : (s.updCmd id f).slew = s.slew := rfl
@[simp] theorem updCmd_slewAcc (s : State) (id : Nat) (f : Cmd → Cmd) : (s.updCmd id f).slewAcc = s.slewAcc := rfl
@[simp] theorem updCmd_timers (s : State) (id : Nat) (f : Cmd → Cmd) : (s.updCmd id f).timers = s.timers := rfl
@[simp] theorem updCmd_mem (s : State) (id : Nat) (f : Cmd → Cmd) : (s.updCmd id f).mem = s.mem := rfl
@[simp] theorem updCmd_homes (s : State) (id : Nat) (f : Cmd → Cmd) : (s.updCmd id f).homes = s.homes := rfl
@[simp] theorem updCmd_hzn (s : State) (id : Nat) (f : Cmd → Cmd) : (s.updCmd id f).hzn = s.hzn := rfl
@[simp] theorem updCmd_predictors (s : State) (id : Nat) (f : Cmd → Cmd) : (s.updCmd id f).predictors = s.predictors := rfl
@[simp] theorem updCmd_regions (s : State) (id : Nat) (f : Cmd → Cmd) : (s.updCmd id f).regions = s.regions := rfl
@[simp] theorem updCmd_filters (s : State) (id : Nat) (f : Cmd → Cmd) : (s.updCmd id f).filters = s.filters := rfl
@[simp] theorem updCmd_directory (s : State) (id : Nat) (f : Cmd → Cmd) : (s.updCmd id f).directory = s.directory := rfl
@[simp] theorem updCmd_cores (s : State) (id : Nat) (f : Cmd → Cmd) : (s.updCmd id f).cores = s.cores := rfl
@[simp] theorem updCmd_clusters (s : State) (id : Nat) (f : Cmd → Cmd) : (s.updCmd id f).clusters = s.clusters := rfl
@[simp] theorem updCmd_chips (s : State) (id : Nat) (f : Cmd → Cmd) : (s.updCmd id f).chips = s.chips := rfl
@[simp] theorem updCmd_ctxs (s : State) (id : Nat) (f : Cmd → Cmd) : (s.updCmd id f).ctxs = s.ctxs := rfl
@[simp] theorem updCmd_itlb (s : State) (id : Nat) (f : Cmd → Cmd) : (s.updCmd id f).itlb = s.itlb := rfl
@[simp] theorem updCmd_walks (s : State) (id : Nat) (f : Cmd → Cmd) : (s.updCmd id f).walks = s.walks := rfl
@[simp] theorem updCmd_pageReqs (s : State) (id : Nat) (f : Cmd → Cmd) : (s.updCmd id f).pageReqs = s.pageReqs := rfl
@[simp] theorem updCmd_tickets (s : State) (id : Nat) (f : Cmd → Cmd) : (s.updCmd id f).tickets = s.tickets := rfl
@[simp] theorem updCmd_mesh (s : State) (id : Nat) (f : Cmd → Cmd) : (s.updCmd id f).mesh = s.mesh := rfl
@[simp] theorem updCmd_groups (s : State) (id : Nat) (f : Cmd → Cmd) : (s.updCmd id f).groups = s.groups := rfl
@[simp] theorem updCmd_blocks (s : State) (id : Nat) (f : Cmd → Cmd) : (s.updCmd id f).blocks = s.blocks := rfl
@[simp] theorem updCmd_gangs (s : State) (id : Nat) (f : Cmd → Cmd) : (s.updCmd id f).gangs = s.gangs := rfl
@[simp] theorem updCmd_images (s : State) (id : Nat) (f : Cmd → Cmd) : (s.updCmd id f).images = s.images := rfl
@[simp] theorem updCmd_ops (s : State) (id : Nat) (f : Cmd → Cmd) : (s.updCmd id f).ops = s.ops := rfl
@[simp] theorem updCmd_heldEng (s : State) (id : Nat) (f : Cmd → Cmd) : (s.updCmd id f).heldEng = s.heldEng := rfl
@[simp] theorem updCmd_nextId (s : State) (id : Nat) (f : Cmd → Cmd) : (s.updCmd id f).nextId = s.nextId := rfl
@[simp] theorem updCmd_flights (s : State) (id : Nat) (f : Cmd → Cmd) : (s.updCmd id f).flights = s.flights := rfl
@[simp] theorem updCmd_drains (s : State) (id : Nat) (f : Cmd → Cmd) : (s.updCmd id f).drains = s.drains := rfl
@[simp] theorem updCmd_txDue (s : State) (id : Nat) (f : Cmd → Cmd) : (s.updCmd id f).txDue = s.txDue := rfl
@[simp] theorem updCmd_errs (s : State) (id : Nat) (f : Cmd → Cmd) : (s.updCmd id f).errs = s.errs := rfl
@[simp] theorem updCmd_cmds (s : State) (id : Nat) (f : Cmd → Cmd) : (s.updCmd id f).cmds = s.cmds.map (fun o => if o.id = id then f o else o) := rfl
@[simp] theorem updCmd_chans (s : State) (id : Nat) (f : Cmd → Cmd) : (s.updCmd id f).chans = s.chans := rfl
@[simp] theorem updCmd_disp (s : State) (id : Nat) (f : Cmd → Cmd) : (s.updCmd id f).disp = s.disp := rfl
@[simp] theorem updCmd_sync (s : State) (id : Nat) (f : Cmd → Cmd) : (s.updCmd id f).sync = s.sync := rfl
@[simp] theorem updCmd_ceil (s : State) (id : Nat) (f : Cmd → Cmd) : (s.updCmd id f).ceil = s.ceil := rfl
@[simp] theorem updCmd_ports (s : State) (id : Nat) (f : Cmd → Cmd) : (s.updCmd id f).ports = s.ports := rfl
@[simp] theorem updCmd_mgmt (s : State) (id : Nat) (f : Cmd → Cmd) : (s.updCmd id f).mgmt = s.mgmt := rfl
@[simp] theorem updCmd_out (s : State) (id : Nat) (f : Cmd → Cmd) : (s.updCmd id f).out = s.out := rfl

@[simp] theorem updMgmt_agenda (s : State) (f : Mgmt → Mgmt) : (s.updMgmt f).agenda = s.agenda := rfl
@[simp] theorem updMgmt_cur (s : State) (f : Mgmt → Mgmt) : (s.updMgmt f).cur = s.cur := rfl
@[simp] theorem updMgmt_tick (s : State) (f : Mgmt → Mgmt) : (s.updMgmt f).tick = s.tick := rfl
@[simp] theorem updMgmt_bclk (s : State) (f : Mgmt → Mgmt) : (s.updMgmt f).bclk = s.bclk := rfl
@[simp] theorem updMgmt_ptime (s : State) (f : Mgmt → Mgmt) : (s.updMgmt f).ptime = s.ptime := rfl
@[simp] theorem updMgmt_slew (s : State) (f : Mgmt → Mgmt) : (s.updMgmt f).slew = s.slew := rfl
@[simp] theorem updMgmt_slewAcc (s : State) (f : Mgmt → Mgmt) : (s.updMgmt f).slewAcc = s.slewAcc := rfl
@[simp] theorem updMgmt_timers (s : State) (f : Mgmt → Mgmt) : (s.updMgmt f).timers = s.timers := rfl
@[simp] theorem updMgmt_mem (s : State) (f : Mgmt → Mgmt) : (s.updMgmt f).mem = s.mem := rfl
@[simp] theorem updMgmt_homes (s : State) (f : Mgmt → Mgmt) : (s.updMgmt f).homes = s.homes := rfl
@[simp] theorem updMgmt_hzn (s : State) (f : Mgmt → Mgmt) : (s.updMgmt f).hzn = s.hzn := rfl
@[simp] theorem updMgmt_predictors (s : State) (f : Mgmt → Mgmt) : (s.updMgmt f).predictors = s.predictors := rfl
@[simp] theorem updMgmt_regions (s : State) (f : Mgmt → Mgmt) : (s.updMgmt f).regions = s.regions := rfl
@[simp] theorem updMgmt_filters (s : State) (f : Mgmt → Mgmt) : (s.updMgmt f).filters = s.filters := rfl
@[simp] theorem updMgmt_directory (s : State) (f : Mgmt → Mgmt) : (s.updMgmt f).directory = s.directory := rfl
@[simp] theorem updMgmt_cores (s : State) (f : Mgmt → Mgmt) : (s.updMgmt f).cores = s.cores := rfl
@[simp] theorem updMgmt_clusters (s : State) (f : Mgmt → Mgmt) : (s.updMgmt f).clusters = s.clusters := rfl
@[simp] theorem updMgmt_chips (s : State) (f : Mgmt → Mgmt) : (s.updMgmt f).chips = s.chips := rfl
@[simp] theorem updMgmt_ctxs (s : State) (f : Mgmt → Mgmt) : (s.updMgmt f).ctxs = s.ctxs := rfl
@[simp] theorem updMgmt_itlb (s : State) (f : Mgmt → Mgmt) : (s.updMgmt f).itlb = s.itlb := rfl
@[simp] theorem updMgmt_walks (s : State) (f : Mgmt → Mgmt) : (s.updMgmt f).walks = s.walks := rfl
@[simp] theorem updMgmt_pageReqs (s : State) (f : Mgmt → Mgmt) : (s.updMgmt f).pageReqs = s.pageReqs := rfl
@[simp] theorem updMgmt_tickets (s : State) (f : Mgmt → Mgmt) : (s.updMgmt f).tickets = s.tickets := rfl
@[simp] theorem updMgmt_mesh (s : State) (f : Mgmt → Mgmt) : (s.updMgmt f).mesh = s.mesh := rfl
@[simp] theorem updMgmt_groups (s : State) (f : Mgmt → Mgmt) : (s.updMgmt f).groups = s.groups := rfl
@[simp] theorem updMgmt_blocks (s : State) (f : Mgmt → Mgmt) : (s.updMgmt f).blocks = s.blocks := rfl
@[simp] theorem updMgmt_gangs (s : State) (f : Mgmt → Mgmt) : (s.updMgmt f).gangs = s.gangs := rfl
@[simp] theorem updMgmt_images (s : State) (f : Mgmt → Mgmt) : (s.updMgmt f).images = s.images := rfl
@[simp] theorem updMgmt_ops (s : State) (f : Mgmt → Mgmt) : (s.updMgmt f).ops = s.ops := rfl
@[simp] theorem updMgmt_heldEng (s : State) (f : Mgmt → Mgmt) : (s.updMgmt f).heldEng = s.heldEng := rfl
@[simp] theorem updMgmt_nextId (s : State) (f : Mgmt → Mgmt) : (s.updMgmt f).nextId = s.nextId := rfl
@[simp] theorem updMgmt_flights (s : State) (f : Mgmt → Mgmt) : (s.updMgmt f).flights = s.flights := rfl
@[simp] theorem updMgmt_drains (s : State) (f : Mgmt → Mgmt) : (s.updMgmt f).drains = s.drains := rfl
@[simp] theorem updMgmt_txDue (s : State) (f : Mgmt → Mgmt) : (s.updMgmt f).txDue = s.txDue := rfl
@[simp] theorem updMgmt_errs (s : State) (f : Mgmt → Mgmt) : (s.updMgmt f).errs = s.errs := rfl
@[simp] theorem updMgmt_cmds (s : State) (f : Mgmt → Mgmt) : (s.updMgmt f).cmds = s.cmds := rfl
@[simp] theorem updMgmt_chans (s : State) (f : Mgmt → Mgmt) : (s.updMgmt f).chans = s.chans := rfl
@[simp] theorem updMgmt_disp (s : State) (f : Mgmt → Mgmt) : (s.updMgmt f).disp = s.disp := rfl
@[simp] theorem updMgmt_sync (s : State) (f : Mgmt → Mgmt) : (s.updMgmt f).sync = s.sync := rfl
@[simp] theorem updMgmt_ceil (s : State) (f : Mgmt → Mgmt) : (s.updMgmt f).ceil = s.ceil := rfl
@[simp] theorem updMgmt_ports (s : State) (f : Mgmt → Mgmt) : (s.updMgmt f).ports = s.ports := rfl
@[simp] theorem updMgmt_mgmt (s : State) (f : Mgmt → Mgmt) : (s.updMgmt f).mgmt = f s.mgmt := rfl
@[simp] theorem updMgmt_out (s : State) (f : Mgmt → Mgmt) : (s.updMgmt f).out = s.out := rfl

@[simp] theorem updMesh_agenda (s : State) (f : Mesh → Mesh) : (s.updMesh f).agenda = s.agenda := rfl
@[simp] theorem updMesh_cur (s : State) (f : Mesh → Mesh) : (s.updMesh f).cur = s.cur := rfl
@[simp] theorem updMesh_tick (s : State) (f : Mesh → Mesh) : (s.updMesh f).tick = s.tick := rfl
@[simp] theorem updMesh_bclk (s : State) (f : Mesh → Mesh) : (s.updMesh f).bclk = s.bclk := rfl
@[simp] theorem updMesh_ptime (s : State) (f : Mesh → Mesh) : (s.updMesh f).ptime = s.ptime := rfl
@[simp] theorem updMesh_slew (s : State) (f : Mesh → Mesh) : (s.updMesh f).slew = s.slew := rfl
@[simp] theorem updMesh_slewAcc (s : State) (f : Mesh → Mesh) : (s.updMesh f).slewAcc = s.slewAcc := rfl
@[simp] theorem updMesh_timers (s : State) (f : Mesh → Mesh) : (s.updMesh f).timers = s.timers := rfl
@[simp] theorem updMesh_mem (s : State) (f : Mesh → Mesh) : (s.updMesh f).mem = s.mem := rfl
@[simp] theorem updMesh_homes (s : State) (f : Mesh → Mesh) : (s.updMesh f).homes = s.homes := rfl
@[simp] theorem updMesh_hzn (s : State) (f : Mesh → Mesh) : (s.updMesh f).hzn = s.hzn := rfl
@[simp] theorem updMesh_predictors (s : State) (f : Mesh → Mesh) : (s.updMesh f).predictors = s.predictors := rfl
@[simp] theorem updMesh_regions (s : State) (f : Mesh → Mesh) : (s.updMesh f).regions = s.regions := rfl
@[simp] theorem updMesh_filters (s : State) (f : Mesh → Mesh) : (s.updMesh f).filters = s.filters := rfl
@[simp] theorem updMesh_directory (s : State) (f : Mesh → Mesh) : (s.updMesh f).directory = s.directory := rfl
@[simp] theorem updMesh_cores (s : State) (f : Mesh → Mesh) : (s.updMesh f).cores = s.cores := rfl
@[simp] theorem updMesh_clusters (s : State) (f : Mesh → Mesh) : (s.updMesh f).clusters = s.clusters := rfl
@[simp] theorem updMesh_chips (s : State) (f : Mesh → Mesh) : (s.updMesh f).chips = s.chips := rfl
@[simp] theorem updMesh_ctxs (s : State) (f : Mesh → Mesh) : (s.updMesh f).ctxs = s.ctxs := rfl
@[simp] theorem updMesh_itlb (s : State) (f : Mesh → Mesh) : (s.updMesh f).itlb = s.itlb := rfl
@[simp] theorem updMesh_walks (s : State) (f : Mesh → Mesh) : (s.updMesh f).walks = s.walks := rfl
@[simp] theorem updMesh_pageReqs (s : State) (f : Mesh → Mesh) : (s.updMesh f).pageReqs = s.pageReqs := rfl
@[simp] theorem updMesh_tickets (s : State) (f : Mesh → Mesh) : (s.updMesh f).tickets = s.tickets := rfl
@[simp] theorem updMesh_mesh (s : State) (f : Mesh → Mesh) : (s.updMesh f).mesh = f s.mesh := rfl
@[simp] theorem updMesh_groups (s : State) (f : Mesh → Mesh) : (s.updMesh f).groups = s.groups := rfl
@[simp] theorem updMesh_blocks (s : State) (f : Mesh → Mesh) : (s.updMesh f).blocks = s.blocks := rfl
@[simp] theorem updMesh_gangs (s : State) (f : Mesh → Mesh) : (s.updMesh f).gangs = s.gangs := rfl
@[simp] theorem updMesh_images (s : State) (f : Mesh → Mesh) : (s.updMesh f).images = s.images := rfl
@[simp] theorem updMesh_ops (s : State) (f : Mesh → Mesh) : (s.updMesh f).ops = s.ops := rfl
@[simp] theorem updMesh_heldEng (s : State) (f : Mesh → Mesh) : (s.updMesh f).heldEng = s.heldEng := rfl
@[simp] theorem updMesh_nextId (s : State) (f : Mesh → Mesh) : (s.updMesh f).nextId = s.nextId := rfl
@[simp] theorem updMesh_flights (s : State) (f : Mesh → Mesh) : (s.updMesh f).flights = s.flights := rfl
@[simp] theorem updMesh_drains (s : State) (f : Mesh → Mesh) : (s.updMesh f).drains = s.drains := rfl
@[simp] theorem updMesh_txDue (s : State) (f : Mesh → Mesh) : (s.updMesh f).txDue = s.txDue := rfl
@[simp] theorem updMesh_errs (s : State) (f : Mesh → Mesh) : (s.updMesh f).errs = s.errs := rfl
@[simp] theorem updMesh_cmds (s : State) (f : Mesh → Mesh) : (s.updMesh f).cmds = s.cmds := rfl
@[simp] theorem updMesh_chans (s : State) (f : Mesh → Mesh) : (s.updMesh f).chans = s.chans := rfl
@[simp] theorem updMesh_disp (s : State) (f : Mesh → Mesh) : (s.updMesh f).disp = s.disp := rfl
@[simp] theorem updMesh_sync (s : State) (f : Mesh → Mesh) : (s.updMesh f).sync = s.sync := rfl
@[simp] theorem updMesh_ceil (s : State) (f : Mesh → Mesh) : (s.updMesh f).ceil = s.ceil := rfl
@[simp] theorem updMesh_ports (s : State) (f : Mesh → Mesh) : (s.updMesh f).ports = s.ports := rfl
@[simp] theorem updMesh_mgmt (s : State) (f : Mesh → Mesh) : (s.updMesh f).mgmt = s.mgmt := rfl
@[simp] theorem updMesh_out (s : State) (f : Mesh → Mesh) : (s.updMesh f).out = s.out := rfl

@[simp] theorem updDisp_agenda (s : State) (f : Dispatch → Dispatch) : (s.updDisp f).agenda = s.agenda := rfl
@[simp] theorem updDisp_cur (s : State) (f : Dispatch → Dispatch) : (s.updDisp f).cur = s.cur := rfl
@[simp] theorem updDisp_tick (s : State) (f : Dispatch → Dispatch) : (s.updDisp f).tick = s.tick := rfl
@[simp] theorem updDisp_bclk (s : State) (f : Dispatch → Dispatch) : (s.updDisp f).bclk = s.bclk := rfl
@[simp] theorem updDisp_ptime (s : State) (f : Dispatch → Dispatch) : (s.updDisp f).ptime = s.ptime := rfl
@[simp] theorem updDisp_slew (s : State) (f : Dispatch → Dispatch) : (s.updDisp f).slew = s.slew := rfl
@[simp] theorem updDisp_slewAcc (s : State) (f : Dispatch → Dispatch) : (s.updDisp f).slewAcc = s.slewAcc := rfl
@[simp] theorem updDisp_timers (s : State) (f : Dispatch → Dispatch) : (s.updDisp f).timers = s.timers := rfl
@[simp] theorem updDisp_mem (s : State) (f : Dispatch → Dispatch) : (s.updDisp f).mem = s.mem := rfl
@[simp] theorem updDisp_homes (s : State) (f : Dispatch → Dispatch) : (s.updDisp f).homes = s.homes := rfl
@[simp] theorem updDisp_hzn (s : State) (f : Dispatch → Dispatch) : (s.updDisp f).hzn = s.hzn := rfl
@[simp] theorem updDisp_predictors (s : State) (f : Dispatch → Dispatch) : (s.updDisp f).predictors = s.predictors := rfl
@[simp] theorem updDisp_regions (s : State) (f : Dispatch → Dispatch) : (s.updDisp f).regions = s.regions := rfl
@[simp] theorem updDisp_filters (s : State) (f : Dispatch → Dispatch) : (s.updDisp f).filters = s.filters := rfl
@[simp] theorem updDisp_directory (s : State) (f : Dispatch → Dispatch) : (s.updDisp f).directory = s.directory := rfl
@[simp] theorem updDisp_cores (s : State) (f : Dispatch → Dispatch) : (s.updDisp f).cores = s.cores := rfl
@[simp] theorem updDisp_clusters (s : State) (f : Dispatch → Dispatch) : (s.updDisp f).clusters = s.clusters := rfl
@[simp] theorem updDisp_chips (s : State) (f : Dispatch → Dispatch) : (s.updDisp f).chips = s.chips := rfl
@[simp] theorem updDisp_ctxs (s : State) (f : Dispatch → Dispatch) : (s.updDisp f).ctxs = s.ctxs := rfl
@[simp] theorem updDisp_itlb (s : State) (f : Dispatch → Dispatch) : (s.updDisp f).itlb = s.itlb := rfl
@[simp] theorem updDisp_walks (s : State) (f : Dispatch → Dispatch) : (s.updDisp f).walks = s.walks := rfl
@[simp] theorem updDisp_pageReqs (s : State) (f : Dispatch → Dispatch) : (s.updDisp f).pageReqs = s.pageReqs := rfl
@[simp] theorem updDisp_tickets (s : State) (f : Dispatch → Dispatch) : (s.updDisp f).tickets = s.tickets := rfl
@[simp] theorem updDisp_mesh (s : State) (f : Dispatch → Dispatch) : (s.updDisp f).mesh = s.mesh := rfl
@[simp] theorem updDisp_groups (s : State) (f : Dispatch → Dispatch) : (s.updDisp f).groups = s.groups := rfl
@[simp] theorem updDisp_blocks (s : State) (f : Dispatch → Dispatch) : (s.updDisp f).blocks = s.blocks := rfl
@[simp] theorem updDisp_gangs (s : State) (f : Dispatch → Dispatch) : (s.updDisp f).gangs = s.gangs := rfl
@[simp] theorem updDisp_images (s : State) (f : Dispatch → Dispatch) : (s.updDisp f).images = s.images := rfl
@[simp] theorem updDisp_ops (s : State) (f : Dispatch → Dispatch) : (s.updDisp f).ops = s.ops := rfl
@[simp] theorem updDisp_heldEng (s : State) (f : Dispatch → Dispatch) : (s.updDisp f).heldEng = s.heldEng := rfl
@[simp] theorem updDisp_nextId (s : State) (f : Dispatch → Dispatch) : (s.updDisp f).nextId = s.nextId := rfl
@[simp] theorem updDisp_flights (s : State) (f : Dispatch → Dispatch) : (s.updDisp f).flights = s.flights := rfl
@[simp] theorem updDisp_drains (s : State) (f : Dispatch → Dispatch) : (s.updDisp f).drains = s.drains := rfl
@[simp] theorem updDisp_txDue (s : State) (f : Dispatch → Dispatch) : (s.updDisp f).txDue = s.txDue := rfl
@[simp] theorem updDisp_errs (s : State) (f : Dispatch → Dispatch) : (s.updDisp f).errs = s.errs := rfl
@[simp] theorem updDisp_cmds (s : State) (f : Dispatch → Dispatch) : (s.updDisp f).cmds = s.cmds := rfl
@[simp] theorem updDisp_chans (s : State) (f : Dispatch → Dispatch) : (s.updDisp f).chans = s.chans := rfl
@[simp] theorem updDisp_disp (s : State) (f : Dispatch → Dispatch) : (s.updDisp f).disp = f s.disp := rfl
@[simp] theorem updDisp_sync (s : State) (f : Dispatch → Dispatch) : (s.updDisp f).sync = s.sync := rfl
@[simp] theorem updDisp_ceil (s : State) (f : Dispatch → Dispatch) : (s.updDisp f).ceil = s.ceil := rfl
@[simp] theorem updDisp_ports (s : State) (f : Dispatch → Dispatch) : (s.updDisp f).ports = s.ports := rfl
@[simp] theorem updDisp_mgmt (s : State) (f : Dispatch → Dispatch) : (s.updDisp f).mgmt = s.mgmt := rfl
@[simp] theorem updDisp_out (s : State) (f : Dispatch → Dispatch) : (s.updDisp f).out = s.out := rfl

@[simp] theorem updCeil_agenda (s : State) (f : Ceil → Ceil) : (s.updCeil f).agenda = s.agenda := rfl
@[simp] theorem updCeil_cur (s : State) (f : Ceil → Ceil) : (s.updCeil f).cur = s.cur := rfl
@[simp] theorem updCeil_tick (s : State) (f : Ceil → Ceil) : (s.updCeil f).tick = s.tick := rfl
@[simp] theorem updCeil_bclk (s : State) (f : Ceil → Ceil) : (s.updCeil f).bclk = s.bclk := rfl
@[simp] theorem updCeil_ptime (s : State) (f : Ceil → Ceil) : (s.updCeil f).ptime = s.ptime := rfl
@[simp] theorem updCeil_slew (s : State) (f : Ceil → Ceil) : (s.updCeil f).slew = s.slew := rfl
@[simp] theorem updCeil_slewAcc (s : State) (f : Ceil → Ceil) : (s.updCeil f).slewAcc = s.slewAcc := rfl
@[simp] theorem updCeil_timers (s : State) (f : Ceil → Ceil) : (s.updCeil f).timers = s.timers := rfl
@[simp] theorem updCeil_mem (s : State) (f : Ceil → Ceil) : (s.updCeil f).mem = s.mem := rfl
@[simp] theorem updCeil_homes (s : State) (f : Ceil → Ceil) : (s.updCeil f).homes = s.homes := rfl
@[simp] theorem updCeil_hzn (s : State) (f : Ceil → Ceil) : (s.updCeil f).hzn = s.hzn := rfl
@[simp] theorem updCeil_predictors (s : State) (f : Ceil → Ceil) : (s.updCeil f).predictors = s.predictors := rfl
@[simp] theorem updCeil_regions (s : State) (f : Ceil → Ceil) : (s.updCeil f).regions = s.regions := rfl
@[simp] theorem updCeil_filters (s : State) (f : Ceil → Ceil) : (s.updCeil f).filters = s.filters := rfl
@[simp] theorem updCeil_directory (s : State) (f : Ceil → Ceil) : (s.updCeil f).directory = s.directory := rfl
@[simp] theorem updCeil_cores (s : State) (f : Ceil → Ceil) : (s.updCeil f).cores = s.cores := rfl
@[simp] theorem updCeil_clusters (s : State) (f : Ceil → Ceil) : (s.updCeil f).clusters = s.clusters := rfl
@[simp] theorem updCeil_chips (s : State) (f : Ceil → Ceil) : (s.updCeil f).chips = s.chips := rfl
@[simp] theorem updCeil_ctxs (s : State) (f : Ceil → Ceil) : (s.updCeil f).ctxs = s.ctxs := rfl
@[simp] theorem updCeil_itlb (s : State) (f : Ceil → Ceil) : (s.updCeil f).itlb = s.itlb := rfl
@[simp] theorem updCeil_walks (s : State) (f : Ceil → Ceil) : (s.updCeil f).walks = s.walks := rfl
@[simp] theorem updCeil_pageReqs (s : State) (f : Ceil → Ceil) : (s.updCeil f).pageReqs = s.pageReqs := rfl
@[simp] theorem updCeil_tickets (s : State) (f : Ceil → Ceil) : (s.updCeil f).tickets = s.tickets := rfl
@[simp] theorem updCeil_mesh (s : State) (f : Ceil → Ceil) : (s.updCeil f).mesh = s.mesh := rfl
@[simp] theorem updCeil_groups (s : State) (f : Ceil → Ceil) : (s.updCeil f).groups = s.groups := rfl
@[simp] theorem updCeil_blocks (s : State) (f : Ceil → Ceil) : (s.updCeil f).blocks = s.blocks := rfl
@[simp] theorem updCeil_gangs (s : State) (f : Ceil → Ceil) : (s.updCeil f).gangs = s.gangs := rfl
@[simp] theorem updCeil_images (s : State) (f : Ceil → Ceil) : (s.updCeil f).images = s.images := rfl
@[simp] theorem updCeil_ops (s : State) (f : Ceil → Ceil) : (s.updCeil f).ops = s.ops := rfl
@[simp] theorem updCeil_heldEng (s : State) (f : Ceil → Ceil) : (s.updCeil f).heldEng = s.heldEng := rfl
@[simp] theorem updCeil_nextId (s : State) (f : Ceil → Ceil) : (s.updCeil f).nextId = s.nextId := rfl
@[simp] theorem updCeil_flights (s : State) (f : Ceil → Ceil) : (s.updCeil f).flights = s.flights := rfl
@[simp] theorem updCeil_drains (s : State) (f : Ceil → Ceil) : (s.updCeil f).drains = s.drains := rfl
@[simp] theorem updCeil_txDue (s : State) (f : Ceil → Ceil) : (s.updCeil f).txDue = s.txDue := rfl
@[simp] theorem updCeil_errs (s : State) (f : Ceil → Ceil) : (s.updCeil f).errs = s.errs := rfl
@[simp] theorem updCeil_cmds (s : State) (f : Ceil → Ceil) : (s.updCeil f).cmds = s.cmds := rfl
@[simp] theorem updCeil_chans (s : State) (f : Ceil → Ceil) : (s.updCeil f).chans = s.chans := rfl
@[simp] theorem updCeil_disp (s : State) (f : Ceil → Ceil) : (s.updCeil f).disp = s.disp := rfl
@[simp] theorem updCeil_sync (s : State) (f : Ceil → Ceil) : (s.updCeil f).sync = s.sync := rfl
@[simp] theorem updCeil_ceil (s : State) (f : Ceil → Ceil) : (s.updCeil f).ceil = f s.ceil := rfl
@[simp] theorem updCeil_ports (s : State) (f : Ceil → Ceil) : (s.updCeil f).ports = s.ports := rfl
@[simp] theorem updCeil_mgmt (s : State) (f : Ceil → Ceil) : (s.updCeil f).mgmt = s.mgmt := rfl
@[simp] theorem updCeil_out (s : State) (f : Ceil → Ceil) : (s.updCeil f).out = s.out := rfl

@[simp] theorem updSync_agenda (s : State) (f : Sync → Sync) : (s.updSync f).agenda = s.agenda := rfl
@[simp] theorem updSync_cur (s : State) (f : Sync → Sync) : (s.updSync f).cur = s.cur := rfl
@[simp] theorem updSync_tick (s : State) (f : Sync → Sync) : (s.updSync f).tick = s.tick := rfl
@[simp] theorem updSync_bclk (s : State) (f : Sync → Sync) : (s.updSync f).bclk = s.bclk := rfl
@[simp] theorem updSync_ptime (s : State) (f : Sync → Sync) : (s.updSync f).ptime = s.ptime := rfl
@[simp] theorem updSync_slew (s : State) (f : Sync → Sync) : (s.updSync f).slew = s.slew := rfl
@[simp] theorem updSync_slewAcc (s : State) (f : Sync → Sync) : (s.updSync f).slewAcc = s.slewAcc := rfl
@[simp] theorem updSync_timers (s : State) (f : Sync → Sync) : (s.updSync f).timers = s.timers := rfl
@[simp] theorem updSync_mem (s : State) (f : Sync → Sync) : (s.updSync f).mem = s.mem := rfl
@[simp] theorem updSync_homes (s : State) (f : Sync → Sync) : (s.updSync f).homes = s.homes := rfl
@[simp] theorem updSync_hzn (s : State) (f : Sync → Sync) : (s.updSync f).hzn = s.hzn := rfl
@[simp] theorem updSync_predictors (s : State) (f : Sync → Sync) : (s.updSync f).predictors = s.predictors := rfl
@[simp] theorem updSync_regions (s : State) (f : Sync → Sync) : (s.updSync f).regions = s.regions := rfl
@[simp] theorem updSync_filters (s : State) (f : Sync → Sync) : (s.updSync f).filters = s.filters := rfl
@[simp] theorem updSync_directory (s : State) (f : Sync → Sync) : (s.updSync f).directory = s.directory := rfl
@[simp] theorem updSync_cores (s : State) (f : Sync → Sync) : (s.updSync f).cores = s.cores := rfl
@[simp] theorem updSync_clusters (s : State) (f : Sync → Sync) : (s.updSync f).clusters = s.clusters := rfl
@[simp] theorem updSync_chips (s : State) (f : Sync → Sync) : (s.updSync f).chips = s.chips := rfl
@[simp] theorem updSync_ctxs (s : State) (f : Sync → Sync) : (s.updSync f).ctxs = s.ctxs := rfl
@[simp] theorem updSync_itlb (s : State) (f : Sync → Sync) : (s.updSync f).itlb = s.itlb := rfl
@[simp] theorem updSync_walks (s : State) (f : Sync → Sync) : (s.updSync f).walks = s.walks := rfl
@[simp] theorem updSync_pageReqs (s : State) (f : Sync → Sync) : (s.updSync f).pageReqs = s.pageReqs := rfl
@[simp] theorem updSync_tickets (s : State) (f : Sync → Sync) : (s.updSync f).tickets = s.tickets := rfl
@[simp] theorem updSync_mesh (s : State) (f : Sync → Sync) : (s.updSync f).mesh = s.mesh := rfl
@[simp] theorem updSync_groups (s : State) (f : Sync → Sync) : (s.updSync f).groups = s.groups := rfl
@[simp] theorem updSync_blocks (s : State) (f : Sync → Sync) : (s.updSync f).blocks = s.blocks := rfl
@[simp] theorem updSync_gangs (s : State) (f : Sync → Sync) : (s.updSync f).gangs = s.gangs := rfl
@[simp] theorem updSync_images (s : State) (f : Sync → Sync) : (s.updSync f).images = s.images := rfl
@[simp] theorem updSync_ops (s : State) (f : Sync → Sync) : (s.updSync f).ops = s.ops := rfl
@[simp] theorem updSync_heldEng (s : State) (f : Sync → Sync) : (s.updSync f).heldEng = s.heldEng := rfl
@[simp] theorem updSync_nextId (s : State) (f : Sync → Sync) : (s.updSync f).nextId = s.nextId := rfl
@[simp] theorem updSync_flights (s : State) (f : Sync → Sync) : (s.updSync f).flights = s.flights := rfl
@[simp] theorem updSync_drains (s : State) (f : Sync → Sync) : (s.updSync f).drains = s.drains := rfl
@[simp] theorem updSync_txDue (s : State) (f : Sync → Sync) : (s.updSync f).txDue = s.txDue := rfl
@[simp] theorem updSync_errs (s : State) (f : Sync → Sync) : (s.updSync f).errs = s.errs := rfl
@[simp] theorem updSync_cmds (s : State) (f : Sync → Sync) : (s.updSync f).cmds = s.cmds := rfl
@[simp] theorem updSync_chans (s : State) (f : Sync → Sync) : (s.updSync f).chans = s.chans := rfl
@[simp] theorem updSync_disp (s : State) (f : Sync → Sync) : (s.updSync f).disp = s.disp := rfl
@[simp] theorem updSync_sync (s : State) (f : Sync → Sync) : (s.updSync f).sync = f s.sync := rfl
@[simp] theorem updSync_ceil (s : State) (f : Sync → Sync) : (s.updSync f).ceil = s.ceil := rfl
@[simp] theorem updSync_ports (s : State) (f : Sync → Sync) : (s.updSync f).ports = s.ports := rfl
@[simp] theorem updSync_mgmt (s : State) (f : Sync → Sync) : (s.updSync f).mgmt = s.mgmt := rfl
@[simp] theorem updSync_out (s : State) (f : Sync → Sync) : (s.updSync f).out = s.out := rfl

@[simp] theorem updHome_agenda (s : State) (isle slice loc pa : Nat) (f : HomeLine → HomeLine) : (s.updHome isle slice loc pa f).agenda = s.agenda := rfl
@[simp] theorem updHome_cur (s : State) (isle slice loc pa : Nat) (f : HomeLine → HomeLine) : (s.updHome isle slice loc pa f).cur = s.cur := rfl
@[simp] theorem updHome_tick (s : State) (isle slice loc pa : Nat) (f : HomeLine → HomeLine) : (s.updHome isle slice loc pa f).tick = s.tick := rfl
@[simp] theorem updHome_bclk (s : State) (isle slice loc pa : Nat) (f : HomeLine → HomeLine) : (s.updHome isle slice loc pa f).bclk = s.bclk := rfl
@[simp] theorem updHome_ptime (s : State) (isle slice loc pa : Nat) (f : HomeLine → HomeLine) : (s.updHome isle slice loc pa f).ptime = s.ptime := rfl
@[simp] theorem updHome_slew (s : State) (isle slice loc pa : Nat) (f : HomeLine → HomeLine) : (s.updHome isle slice loc pa f).slew = s.slew := rfl
@[simp] theorem updHome_slewAcc (s : State) (isle slice loc pa : Nat) (f : HomeLine → HomeLine) : (s.updHome isle slice loc pa f).slewAcc = s.slewAcc := rfl
@[simp] theorem updHome_timers (s : State) (isle slice loc pa : Nat) (f : HomeLine → HomeLine) : (s.updHome isle slice loc pa f).timers = s.timers := rfl
@[simp] theorem updHome_mem (s : State) (isle slice loc pa : Nat) (f : HomeLine → HomeLine) : (s.updHome isle slice loc pa f).mem = s.mem := rfl
@[simp] theorem updHome_homes (s : State) (isle slice loc pa : Nat) (f : HomeLine → HomeLine) : (s.updHome isle slice loc pa f).homes = place s.homes (loc / 128) (f (s.homeLine isle slice loc pa)) := rfl
@[simp] theorem updHome_hzn (s : State) (isle slice loc pa : Nat) (f : HomeLine → HomeLine) : (s.updHome isle slice loc pa f).hzn = s.hzn := rfl
@[simp] theorem updHome_predictors (s : State) (isle slice loc pa : Nat) (f : HomeLine → HomeLine) : (s.updHome isle slice loc pa f).predictors = s.predictors := rfl
@[simp] theorem updHome_regions (s : State) (isle slice loc pa : Nat) (f : HomeLine → HomeLine) : (s.updHome isle slice loc pa f).regions = s.regions := rfl
@[simp] theorem updHome_filters (s : State) (isle slice loc pa : Nat) (f : HomeLine → HomeLine) : (s.updHome isle slice loc pa f).filters = s.filters := rfl
@[simp] theorem updHome_directory (s : State) (isle slice loc pa : Nat) (f : HomeLine → HomeLine) : (s.updHome isle slice loc pa f).directory = s.directory := rfl
@[simp] theorem updHome_cores (s : State) (isle slice loc pa : Nat) (f : HomeLine → HomeLine) : (s.updHome isle slice loc pa f).cores = s.cores := rfl
@[simp] theorem updHome_clusters (s : State) (isle slice loc pa : Nat) (f : HomeLine → HomeLine) : (s.updHome isle slice loc pa f).clusters = s.clusters := rfl
@[simp] theorem updHome_chips (s : State) (isle slice loc pa : Nat) (f : HomeLine → HomeLine) : (s.updHome isle slice loc pa f).chips = s.chips := rfl
@[simp] theorem updHome_ctxs (s : State) (isle slice loc pa : Nat) (f : HomeLine → HomeLine) : (s.updHome isle slice loc pa f).ctxs = s.ctxs := rfl
@[simp] theorem updHome_itlb (s : State) (isle slice loc pa : Nat) (f : HomeLine → HomeLine) : (s.updHome isle slice loc pa f).itlb = s.itlb := rfl
@[simp] theorem updHome_walks (s : State) (isle slice loc pa : Nat) (f : HomeLine → HomeLine) : (s.updHome isle slice loc pa f).walks = s.walks := rfl
@[simp] theorem updHome_pageReqs (s : State) (isle slice loc pa : Nat) (f : HomeLine → HomeLine) : (s.updHome isle slice loc pa f).pageReqs = s.pageReqs := rfl
@[simp] theorem updHome_tickets (s : State) (isle slice loc pa : Nat) (f : HomeLine → HomeLine) : (s.updHome isle slice loc pa f).tickets = s.tickets := rfl
@[simp] theorem updHome_mesh (s : State) (isle slice loc pa : Nat) (f : HomeLine → HomeLine) : (s.updHome isle slice loc pa f).mesh = s.mesh := rfl
@[simp] theorem updHome_groups (s : State) (isle slice loc pa : Nat) (f : HomeLine → HomeLine) : (s.updHome isle slice loc pa f).groups = s.groups := rfl
@[simp] theorem updHome_blocks (s : State) (isle slice loc pa : Nat) (f : HomeLine → HomeLine) : (s.updHome isle slice loc pa f).blocks = s.blocks := rfl
@[simp] theorem updHome_gangs (s : State) (isle slice loc pa : Nat) (f : HomeLine → HomeLine) : (s.updHome isle slice loc pa f).gangs = s.gangs := rfl
@[simp] theorem updHome_images (s : State) (isle slice loc pa : Nat) (f : HomeLine → HomeLine) : (s.updHome isle slice loc pa f).images = s.images := rfl
@[simp] theorem updHome_ops (s : State) (isle slice loc pa : Nat) (f : HomeLine → HomeLine) : (s.updHome isle slice loc pa f).ops = s.ops := rfl
@[simp] theorem updHome_heldEng (s : State) (isle slice loc pa : Nat) (f : HomeLine → HomeLine) : (s.updHome isle slice loc pa f).heldEng = s.heldEng := rfl
@[simp] theorem updHome_nextId (s : State) (isle slice loc pa : Nat) (f : HomeLine → HomeLine) : (s.updHome isle slice loc pa f).nextId = s.nextId := rfl
@[simp] theorem updHome_flights (s : State) (isle slice loc pa : Nat) (f : HomeLine → HomeLine) : (s.updHome isle slice loc pa f).flights = s.flights := rfl
@[simp] theorem updHome_drains (s : State) (isle slice loc pa : Nat) (f : HomeLine → HomeLine) : (s.updHome isle slice loc pa f).drains = s.drains := rfl
@[simp] theorem updHome_txDue (s : State) (isle slice loc pa : Nat) (f : HomeLine → HomeLine) : (s.updHome isle slice loc pa f).txDue = s.txDue := rfl
@[simp] theorem updHome_errs (s : State) (isle slice loc pa : Nat) (f : HomeLine → HomeLine) : (s.updHome isle slice loc pa f).errs = s.errs := rfl
@[simp] theorem updHome_cmds (s : State) (isle slice loc pa : Nat) (f : HomeLine → HomeLine) : (s.updHome isle slice loc pa f).cmds = s.cmds := rfl
@[simp] theorem updHome_chans (s : State) (isle slice loc pa : Nat) (f : HomeLine → HomeLine) : (s.updHome isle slice loc pa f).chans = s.chans := rfl
@[simp] theorem updHome_disp (s : State) (isle slice loc pa : Nat) (f : HomeLine → HomeLine) : (s.updHome isle slice loc pa f).disp = s.disp := rfl
@[simp] theorem updHome_sync (s : State) (isle slice loc pa : Nat) (f : HomeLine → HomeLine) : (s.updHome isle slice loc pa f).sync = s.sync := rfl
@[simp] theorem updHome_ceil (s : State) (isle slice loc pa : Nat) (f : HomeLine → HomeLine) : (s.updHome isle slice loc pa f).ceil = s.ceil := rfl
@[simp] theorem updHome_ports (s : State) (isle slice loc pa : Nat) (f : HomeLine → HomeLine) : (s.updHome isle slice loc pa f).ports = s.ports := rfl
@[simp] theorem updHome_mgmt (s : State) (isle slice loc pa : Nat) (f : HomeLine → HomeLine) : (s.updHome isle slice loc pa f).mgmt = s.mgmt := rfl
@[simp] theorem updHome_out (s : State) (isle slice loc pa : Nat) (f : HomeLine → HomeLine) : (s.updHome isle slice loc pa f).out = s.out := rfl

@[simp] theorem updRegion_agenda (s : State) (r : Nat) (f : Region → Region) : (s.updRegion r f).agenda = s.agenda := rfl
@[simp] theorem updRegion_cur (s : State) (r : Nat) (f : Region → Region) : (s.updRegion r f).cur = s.cur := rfl
@[simp] theorem updRegion_tick (s : State) (r : Nat) (f : Region → Region) : (s.updRegion r f).tick = s.tick := rfl
@[simp] theorem updRegion_bclk (s : State) (r : Nat) (f : Region → Region) : (s.updRegion r f).bclk = s.bclk := rfl
@[simp] theorem updRegion_ptime (s : State) (r : Nat) (f : Region → Region) : (s.updRegion r f).ptime = s.ptime := rfl
@[simp] theorem updRegion_slew (s : State) (r : Nat) (f : Region → Region) : (s.updRegion r f).slew = s.slew := rfl
@[simp] theorem updRegion_slewAcc (s : State) (r : Nat) (f : Region → Region) : (s.updRegion r f).slewAcc = s.slewAcc := rfl
@[simp] theorem updRegion_timers (s : State) (r : Nat) (f : Region → Region) : (s.updRegion r f).timers = s.timers := rfl
@[simp] theorem updRegion_mem (s : State) (r : Nat) (f : Region → Region) : (s.updRegion r f).mem = s.mem := rfl
@[simp] theorem updRegion_homes (s : State) (r : Nat) (f : Region → Region) : (s.updRegion r f).homes = s.homes := rfl
@[simp] theorem updRegion_hzn (s : State) (r : Nat) (f : Region → Region) : (s.updRegion r f).hzn = s.hzn := rfl
@[simp] theorem updRegion_predictors (s : State) (r : Nat) (f : Region → Region) : (s.updRegion r f).predictors = s.predictors := rfl
@[simp] theorem updRegion_regions (s : State) (r : Nat) (f : Region → Region) : (s.updRegion r f).regions = place s.regions r (f (s.region r)) := rfl
@[simp] theorem updRegion_filters (s : State) (r : Nat) (f : Region → Region) : (s.updRegion r f).filters = s.filters := rfl
@[simp] theorem updRegion_directory (s : State) (r : Nat) (f : Region → Region) : (s.updRegion r f).directory = s.directory := rfl
@[simp] theorem updRegion_cores (s : State) (r : Nat) (f : Region → Region) : (s.updRegion r f).cores = s.cores := rfl
@[simp] theorem updRegion_clusters (s : State) (r : Nat) (f : Region → Region) : (s.updRegion r f).clusters = s.clusters := rfl
@[simp] theorem updRegion_chips (s : State) (r : Nat) (f : Region → Region) : (s.updRegion r f).chips = s.chips := rfl
@[simp] theorem updRegion_ctxs (s : State) (r : Nat) (f : Region → Region) : (s.updRegion r f).ctxs = s.ctxs := rfl
@[simp] theorem updRegion_itlb (s : State) (r : Nat) (f : Region → Region) : (s.updRegion r f).itlb = s.itlb := rfl
@[simp] theorem updRegion_walks (s : State) (r : Nat) (f : Region → Region) : (s.updRegion r f).walks = s.walks := rfl
@[simp] theorem updRegion_pageReqs (s : State) (r : Nat) (f : Region → Region) : (s.updRegion r f).pageReqs = s.pageReqs := rfl
@[simp] theorem updRegion_tickets (s : State) (r : Nat) (f : Region → Region) : (s.updRegion r f).tickets = s.tickets := rfl
@[simp] theorem updRegion_mesh (s : State) (r : Nat) (f : Region → Region) : (s.updRegion r f).mesh = s.mesh := rfl
@[simp] theorem updRegion_groups (s : State) (r : Nat) (f : Region → Region) : (s.updRegion r f).groups = s.groups := rfl
@[simp] theorem updRegion_blocks (s : State) (r : Nat) (f : Region → Region) : (s.updRegion r f).blocks = s.blocks := rfl
@[simp] theorem updRegion_gangs (s : State) (r : Nat) (f : Region → Region) : (s.updRegion r f).gangs = s.gangs := rfl
@[simp] theorem updRegion_images (s : State) (r : Nat) (f : Region → Region) : (s.updRegion r f).images = s.images := rfl
@[simp] theorem updRegion_ops (s : State) (r : Nat) (f : Region → Region) : (s.updRegion r f).ops = s.ops := rfl
@[simp] theorem updRegion_heldEng (s : State) (r : Nat) (f : Region → Region) : (s.updRegion r f).heldEng = s.heldEng := rfl
@[simp] theorem updRegion_nextId (s : State) (r : Nat) (f : Region → Region) : (s.updRegion r f).nextId = s.nextId := rfl
@[simp] theorem updRegion_flights (s : State) (r : Nat) (f : Region → Region) : (s.updRegion r f).flights = s.flights := rfl
@[simp] theorem updRegion_drains (s : State) (r : Nat) (f : Region → Region) : (s.updRegion r f).drains = s.drains := rfl
@[simp] theorem updRegion_txDue (s : State) (r : Nat) (f : Region → Region) : (s.updRegion r f).txDue = s.txDue := rfl
@[simp] theorem updRegion_errs (s : State) (r : Nat) (f : Region → Region) : (s.updRegion r f).errs = s.errs := rfl
@[simp] theorem updRegion_cmds (s : State) (r : Nat) (f : Region → Region) : (s.updRegion r f).cmds = s.cmds := rfl
@[simp] theorem updRegion_chans (s : State) (r : Nat) (f : Region → Region) : (s.updRegion r f).chans = s.chans := rfl
@[simp] theorem updRegion_disp (s : State) (r : Nat) (f : Region → Region) : (s.updRegion r f).disp = s.disp := rfl
@[simp] theorem updRegion_sync (s : State) (r : Nat) (f : Region → Region) : (s.updRegion r f).sync = s.sync := rfl
@[simp] theorem updRegion_ceil (s : State) (r : Nat) (f : Region → Region) : (s.updRegion r f).ceil = s.ceil := rfl
@[simp] theorem updRegion_ports (s : State) (r : Nat) (f : Region → Region) : (s.updRegion r f).ports = s.ports := rfl
@[simp] theorem updRegion_mgmt (s : State) (r : Nat) (f : Region → Region) : (s.updRegion r f).mgmt = s.mgmt := rfl
@[simp] theorem updRegion_out (s : State) (r : Nat) (f : Region → Region) : (s.updRegion r f).out = s.out := rfl

@[simp] theorem updChan_agenda (s : State) (k : Nat) (f : Chan → Chan) : (s.updChan k f).agenda = s.agenda := rfl
@[simp] theorem updChan_cur (s : State) (k : Nat) (f : Chan → Chan) : (s.updChan k f).cur = s.cur := rfl
@[simp] theorem updChan_tick (s : State) (k : Nat) (f : Chan → Chan) : (s.updChan k f).tick = s.tick := rfl
@[simp] theorem updChan_bclk (s : State) (k : Nat) (f : Chan → Chan) : (s.updChan k f).bclk = s.bclk := rfl
@[simp] theorem updChan_ptime (s : State) (k : Nat) (f : Chan → Chan) : (s.updChan k f).ptime = s.ptime := rfl
@[simp] theorem updChan_slew (s : State) (k : Nat) (f : Chan → Chan) : (s.updChan k f).slew = s.slew := rfl
@[simp] theorem updChan_slewAcc (s : State) (k : Nat) (f : Chan → Chan) : (s.updChan k f).slewAcc = s.slewAcc := rfl
@[simp] theorem updChan_timers (s : State) (k : Nat) (f : Chan → Chan) : (s.updChan k f).timers = s.timers := rfl
@[simp] theorem updChan_mem (s : State) (k : Nat) (f : Chan → Chan) : (s.updChan k f).mem = s.mem := rfl
@[simp] theorem updChan_homes (s : State) (k : Nat) (f : Chan → Chan) : (s.updChan k f).homes = s.homes := rfl
@[simp] theorem updChan_hzn (s : State) (k : Nat) (f : Chan → Chan) : (s.updChan k f).hzn = s.hzn := rfl
@[simp] theorem updChan_predictors (s : State) (k : Nat) (f : Chan → Chan) : (s.updChan k f).predictors = s.predictors := rfl
@[simp] theorem updChan_regions (s : State) (k : Nat) (f : Chan → Chan) : (s.updChan k f).regions = s.regions := rfl
@[simp] theorem updChan_filters (s : State) (k : Nat) (f : Chan → Chan) : (s.updChan k f).filters = s.filters := rfl
@[simp] theorem updChan_directory (s : State) (k : Nat) (f : Chan → Chan) : (s.updChan k f).directory = s.directory := rfl
@[simp] theorem updChan_cores (s : State) (k : Nat) (f : Chan → Chan) : (s.updChan k f).cores = s.cores := rfl
@[simp] theorem updChan_clusters (s : State) (k : Nat) (f : Chan → Chan) : (s.updChan k f).clusters = s.clusters := rfl
@[simp] theorem updChan_chips (s : State) (k : Nat) (f : Chan → Chan) : (s.updChan k f).chips = s.chips := rfl
@[simp] theorem updChan_ctxs (s : State) (k : Nat) (f : Chan → Chan) : (s.updChan k f).ctxs = s.ctxs := rfl
@[simp] theorem updChan_itlb (s : State) (k : Nat) (f : Chan → Chan) : (s.updChan k f).itlb = s.itlb := rfl
@[simp] theorem updChan_walks (s : State) (k : Nat) (f : Chan → Chan) : (s.updChan k f).walks = s.walks := rfl
@[simp] theorem updChan_pageReqs (s : State) (k : Nat) (f : Chan → Chan) : (s.updChan k f).pageReqs = s.pageReqs := rfl
@[simp] theorem updChan_tickets (s : State) (k : Nat) (f : Chan → Chan) : (s.updChan k f).tickets = s.tickets := rfl
@[simp] theorem updChan_mesh (s : State) (k : Nat) (f : Chan → Chan) : (s.updChan k f).mesh = s.mesh := rfl
@[simp] theorem updChan_groups (s : State) (k : Nat) (f : Chan → Chan) : (s.updChan k f).groups = s.groups := rfl
@[simp] theorem updChan_blocks (s : State) (k : Nat) (f : Chan → Chan) : (s.updChan k f).blocks = s.blocks := rfl
@[simp] theorem updChan_gangs (s : State) (k : Nat) (f : Chan → Chan) : (s.updChan k f).gangs = s.gangs := rfl
@[simp] theorem updChan_images (s : State) (k : Nat) (f : Chan → Chan) : (s.updChan k f).images = s.images := rfl
@[simp] theorem updChan_ops (s : State) (k : Nat) (f : Chan → Chan) : (s.updChan k f).ops = s.ops := rfl
@[simp] theorem updChan_heldEng (s : State) (k : Nat) (f : Chan → Chan) : (s.updChan k f).heldEng = s.heldEng := rfl
@[simp] theorem updChan_nextId (s : State) (k : Nat) (f : Chan → Chan) : (s.updChan k f).nextId = s.nextId := rfl
@[simp] theorem updChan_flights (s : State) (k : Nat) (f : Chan → Chan) : (s.updChan k f).flights = s.flights := rfl
@[simp] theorem updChan_drains (s : State) (k : Nat) (f : Chan → Chan) : (s.updChan k f).drains = s.drains := rfl
@[simp] theorem updChan_txDue (s : State) (k : Nat) (f : Chan → Chan) : (s.updChan k f).txDue = s.txDue := rfl
@[simp] theorem updChan_errs (s : State) (k : Nat) (f : Chan → Chan) : (s.updChan k f).errs = s.errs := rfl
@[simp] theorem updChan_cmds (s : State) (k : Nat) (f : Chan → Chan) : (s.updChan k f).cmds = s.cmds := rfl
@[simp] theorem updChan_chans (s : State) (k : Nat) (f : Chan → Chan) : (s.updChan k f).chans = place s.chans k (f (s.chan k)) := rfl
@[simp] theorem updChan_disp (s : State) (k : Nat) (f : Chan → Chan) : (s.updChan k f).disp = s.disp := rfl
@[simp] theorem updChan_sync (s : State) (k : Nat) (f : Chan → Chan) : (s.updChan k f).sync = s.sync := rfl
@[simp] theorem updChan_ceil (s : State) (k : Nat) (f : Chan → Chan) : (s.updChan k f).ceil = s.ceil := rfl
@[simp] theorem updChan_ports (s : State) (k : Nat) (f : Chan → Chan) : (s.updChan k f).ports = s.ports := rfl
@[simp] theorem updChan_mgmt (s : State) (k : Nat) (f : Chan → Chan) : (s.updChan k f).mgmt = s.mgmt := rfl
@[simp] theorem updChan_out (s : State) (k : Nat) (f : Chan → Chan) : (s.updChan k f).out = s.out := rfl

@[simp] theorem emit_agenda (s : State) (o : Out) : (s.emit o).agenda = s.agenda := rfl
@[simp] theorem emit_cur (s : State) (o : Out) : (s.emit o).cur = s.cur := rfl
@[simp] theorem emit_tick (s : State) (o : Out) : (s.emit o).tick = s.tick := rfl
@[simp] theorem emit_bclk (s : State) (o : Out) : (s.emit o).bclk = s.bclk := rfl
@[simp] theorem emit_ptime (s : State) (o : Out) : (s.emit o).ptime = s.ptime := rfl
@[simp] theorem emit_slew (s : State) (o : Out) : (s.emit o).slew = s.slew := rfl
@[simp] theorem emit_slewAcc (s : State) (o : Out) : (s.emit o).slewAcc = s.slewAcc := rfl
@[simp] theorem emit_timers (s : State) (o : Out) : (s.emit o).timers = s.timers := rfl
@[simp] theorem emit_mem (s : State) (o : Out) : (s.emit o).mem = s.mem := rfl
@[simp] theorem emit_homes (s : State) (o : Out) : (s.emit o).homes = s.homes := rfl
@[simp] theorem emit_hzn (s : State) (o : Out) : (s.emit o).hzn = s.hzn := rfl
@[simp] theorem emit_predictors (s : State) (o : Out) : (s.emit o).predictors = s.predictors := rfl
@[simp] theorem emit_regions (s : State) (o : Out) : (s.emit o).regions = s.regions := rfl
@[simp] theorem emit_filters (s : State) (o : Out) : (s.emit o).filters = s.filters := rfl
@[simp] theorem emit_directory (s : State) (o : Out) : (s.emit o).directory = s.directory := rfl
@[simp] theorem emit_cores (s : State) (o : Out) : (s.emit o).cores = s.cores := rfl
@[simp] theorem emit_clusters (s : State) (o : Out) : (s.emit o).clusters = s.clusters := rfl
@[simp] theorem emit_chips (s : State) (o : Out) : (s.emit o).chips = s.chips := rfl
@[simp] theorem emit_ctxs (s : State) (o : Out) : (s.emit o).ctxs = s.ctxs := rfl
@[simp] theorem emit_itlb (s : State) (o : Out) : (s.emit o).itlb = s.itlb := rfl
@[simp] theorem emit_walks (s : State) (o : Out) : (s.emit o).walks = s.walks := rfl
@[simp] theorem emit_pageReqs (s : State) (o : Out) : (s.emit o).pageReqs = s.pageReqs := rfl
@[simp] theorem emit_tickets (s : State) (o : Out) : (s.emit o).tickets = s.tickets := rfl
@[simp] theorem emit_mesh (s : State) (o : Out) : (s.emit o).mesh = s.mesh := rfl
@[simp] theorem emit_groups (s : State) (o : Out) : (s.emit o).groups = s.groups := rfl
@[simp] theorem emit_blocks (s : State) (o : Out) : (s.emit o).blocks = s.blocks := rfl
@[simp] theorem emit_gangs (s : State) (o : Out) : (s.emit o).gangs = s.gangs := rfl
@[simp] theorem emit_images (s : State) (o : Out) : (s.emit o).images = s.images := rfl
@[simp] theorem emit_ops (s : State) (o : Out) : (s.emit o).ops = s.ops := rfl
@[simp] theorem emit_heldEng (s : State) (o : Out) : (s.emit o).heldEng = s.heldEng := rfl
@[simp] theorem emit_nextId (s : State) (o : Out) : (s.emit o).nextId = s.nextId := rfl
@[simp] theorem emit_flights (s : State) (o : Out) : (s.emit o).flights = s.flights := rfl
@[simp] theorem emit_drains (s : State) (o : Out) : (s.emit o).drains = s.drains := rfl
@[simp] theorem emit_txDue (s : State) (o : Out) : (s.emit o).txDue = s.txDue := rfl
@[simp] theorem emit_errs (s : State) (o : Out) : (s.emit o).errs = s.errs := rfl
@[simp] theorem emit_cmds (s : State) (o : Out) : (s.emit o).cmds = s.cmds := rfl
@[simp] theorem emit_chans (s : State) (o : Out) : (s.emit o).chans = s.chans := rfl
@[simp] theorem emit_disp (s : State) (o : Out) : (s.emit o).disp = s.disp := rfl
@[simp] theorem emit_sync (s : State) (o : Out) : (s.emit o).sync = s.sync := rfl
@[simp] theorem emit_ceil (s : State) (o : Out) : (s.emit o).ceil = s.ceil := rfl
@[simp] theorem emit_ports (s : State) (o : Out) : (s.emit o).ports = s.ports := rfl
@[simp] theorem emit_mgmt (s : State) (o : Out) : (s.emit o).mgmt = s.mgmt := rfl
@[simp] theorem emit_out (s : State) (o : Out) : (s.emit o).out = s.out ++ [o] := rfl

/-! ## Changes of a group -/

@[simp] theorem updCtl_live (x : Group) (f : Control → Control) : (x.updCtl f).live = x.live := rfl
@[simp] theorem updCtl_blk (x : Group) (f : Control → Control) : (x.updCtl f).blk = x.blk := rfl
@[simp] theorem updCtl_num (x : Group) (f : Control → Control) : (x.updCtl f).num = x.num := rfl
@[simp] theorem updCtl_core (x : Group) (f : Control → Control) : (x.updCtl f).core = x.core := rfl
@[simp] theorem updCtl_sched (x : Group) (f : Control → Control) : (x.updCtl f).sched = x.sched := rfl
@[simp] theorem updCtl_pos (x : Group) (f : Control → Control) : (x.updCtl f).pos = x.pos := rfl
@[simp] theorem updCtl_n (x : Group) (f : Control → Control) : (x.updCtl f).n = x.n := rfl
@[simp] theorem updCtl_ctl (x : Group) (f : Control → Control) : (x.updCtl f).ctl = f x.ctl := rfl
@[simp] theorem updCtl_regs (x : Group) (f : Control → Control) : (x.updCtl f).regs = x.regs := rfl
@[simp] theorem updCtl_sregs (x : Group) (f : Control → Control) : (x.updCtl f).sregs = x.sregs := rfl
@[simp] theorem updCtl_pend (x : Group) (f : Control → Control) : (x.updCtl f).pend = x.pend := rfl
@[simp] theorem updCtl_gage (x : Group) (f : Control → Control) : (x.updCtl f).gage = x.gage := rfl
@[simp] theorem updCtl_slotAt (x : Group) (f : Control → Control) : (x.updCtl f).slotAt = x.slotAt := rfl
@[simp] theorem updCtl_readyAt (x : Group) (f : Control → Control) : (x.updCtl f).readyAt = x.readyAt := rfl
@[simp] theorem updCtl_prstat (x : Group) (f : Control → Control) : (x.updCtl f).prstat = x.prstat := rfl
@[simp] theorem updCtl_handler (x : Group) (f : Control → Control) : (x.updCtl f).handler = x.handler := rfl
@[simp] theorem updCtl_pdone (x : Group) (f : Control → Control) : (x.updCtl f).pdone = x.pdone := rfl
@[simp] theorem updCtl_stopped (x : Group) (f : Control → Control) : (x.updCtl f).stopped = x.stopped := rfl
@[simp] theorem updCtl_stopNext (x : Group) (f : Control → Control) : (x.updCtl f).stopNext = x.stopNext := rfl
@[simp] theorem updCtl_saved (x : Group) (f : Control → Control) : (x.updCtl f).saved = x.saved := rfl
@[simp] theorem updCtl_hwsave (x : Group) (f : Control → Control) : (x.updCtl f).hwsave = x.hwsave := rfl
@[simp] theorem updCtl_halted (x : Group) (f : Control → Control) : (x.updCtl f).halted = x.halted := rfl
@[simp] theorem updCtl_haltReq (x : Group) (f : Control → Control) : (x.updCtl f).haltReq = x.haltReq := rfl
@[simp] theorem updCtl_stepping (x : Group) (f : Control → Control) : (x.updCtl f).stepping = x.stepping := rfl
@[simp] theorem updCtl_skipBp (x : Group) (f : Control → Control) : (x.updCtl f).skipBp = x.skipBp := rfl
@[simp] theorem updCtl_walkHold (x : Group) (f : Control → Control) : (x.updCtl f).walkHold = x.walkHold := rfl
@[simp] theorem updCtl_sysWait (x : Group) (f : Control → Control) : (x.updCtl f).sysWait = x.sysWait := rfl
@[simp] theorem updCtl_retired (x : Group) (f : Control → Control) : (x.updCtl f).retired = x.retired := rfl
@[simp] theorem updFibs_live (x : Group) (l : W32) (f : Nat → Fibre → Fibre) : (x.updFibs l f).live = x.live := rfl
@[simp] theorem updFibs_blk (x : Group) (l : W32) (f : Nat → Fibre → Fibre) : (x.updFibs l f).blk = x.blk := rfl
@[simp] theorem updFibs_num (x : Group) (l : W32) (f : Nat → Fibre → Fibre) : (x.updFibs l f).num = x.num := rfl
@[simp] theorem updFibs_core (x : Group) (l : W32) (f : Nat → Fibre → Fibre) : (x.updFibs l f).core = x.core := rfl
@[simp] theorem updFibs_sched (x : Group) (l : W32) (f : Nat → Fibre → Fibre) : (x.updFibs l f).sched = x.sched := rfl
@[simp] theorem updFibs_pos (x : Group) (l : W32) (f : Nat → Fibre → Fibre) : (x.updFibs l f).pos = x.pos := rfl
@[simp] theorem updFibs_n (x : Group) (l : W32) (f : Nat → Fibre → Fibre) : (x.updFibs l f).n = x.n := rfl
@[simp] theorem updFibs_regs (x : Group) (l : W32) (f : Nat → Fibre → Fibre) : (x.updFibs l f).regs = x.regs := rfl
@[simp] theorem updFibs_sregs (x : Group) (l : W32) (f : Nat → Fibre → Fibre) : (x.updFibs l f).sregs = x.sregs := rfl
@[simp] theorem updFibs_pend (x : Group) (l : W32) (f : Nat → Fibre → Fibre) : (x.updFibs l f).pend = x.pend := rfl
@[simp] theorem updFibs_gage (x : Group) (l : W32) (f : Nat → Fibre → Fibre) : (x.updFibs l f).gage = x.gage := rfl
@[simp] theorem updFibs_slotAt (x : Group) (l : W32) (f : Nat → Fibre → Fibre) : (x.updFibs l f).slotAt = x.slotAt := rfl
@[simp] theorem updFibs_readyAt (x : Group) (l : W32) (f : Nat → Fibre → Fibre) : (x.updFibs l f).readyAt = x.readyAt := rfl
@[simp] theorem updFibs_prstat (x : Group) (l : W32) (f : Nat → Fibre → Fibre) : (x.updFibs l f).prstat = x.prstat := rfl
@[simp] theorem updFibs_handler (x : Group) (l : W32) (f : Nat → Fibre → Fibre) : (x.updFibs l f).handler = x.handler := rfl
@[simp] theorem updFibs_pdone (x : Group) (l : W32) (f : Nat → Fibre → Fibre) : (x.updFibs l f).pdone = x.pdone := rfl
@[simp] theorem updFibs_stopped (x : Group) (l : W32) (f : Nat → Fibre → Fibre) : (x.updFibs l f).stopped = x.stopped := rfl
@[simp] theorem updFibs_stopNext (x : Group) (l : W32) (f : Nat → Fibre → Fibre) : (x.updFibs l f).stopNext = x.stopNext := rfl
@[simp] theorem updFibs_saved (x : Group) (l : W32) (f : Nat → Fibre → Fibre) : (x.updFibs l f).saved = x.saved := rfl
@[simp] theorem updFibs_hwsave (x : Group) (l : W32) (f : Nat → Fibre → Fibre) : (x.updFibs l f).hwsave = x.hwsave := rfl
@[simp] theorem updFibs_halted (x : Group) (l : W32) (f : Nat → Fibre → Fibre) : (x.updFibs l f).halted = x.halted := rfl
@[simp] theorem updFibs_haltReq (x : Group) (l : W32) (f : Nat → Fibre → Fibre) : (x.updFibs l f).haltReq = x.haltReq := rfl
@[simp] theorem updFibs_stepping (x : Group) (l : W32) (f : Nat → Fibre → Fibre) : (x.updFibs l f).stepping = x.stepping := rfl
@[simp] theorem updFibs_skipBp (x : Group) (l : W32) (f : Nat → Fibre → Fibre) : (x.updFibs l f).skipBp = x.skipBp := rfl
@[simp] theorem updFibs_walkHold (x : Group) (l : W32) (f : Nat → Fibre → Fibre) : (x.updFibs l f).walkHold = x.walkHold := rfl
@[simp] theorem updFibs_sysWait (x : Group) (l : W32) (f : Nat → Fibre → Fibre) : (x.updFibs l f).sysWait = x.sysWait := rfl
@[simp] theorem updFibs_retired (x : Group) (l : W32) (f : Nat → Fibre → Fibre) : (x.updFibs l f).retired = x.retired := rfl

/-! ## Moving on, and writes on their way -/

@[simp] theorem queue_agenda (s : State) (lat : Nat) (w : List (Dst × W32)) : (s.queue lat w).agenda = s.agenda := rfl
@[simp] theorem queue_cur (s : State) (lat : Nat) (w : List (Dst × W32)) : (s.queue lat w).cur = s.cur := rfl
@[simp] theorem queue_tick (s : State) (lat : Nat) (w : List (Dst × W32)) : (s.queue lat w).tick = s.tick := rfl
@[simp] theorem queue_bclk (s : State) (lat : Nat) (w : List (Dst × W32)) : (s.queue lat w).bclk = s.bclk := rfl
@[simp] theorem queue_ptime (s : State) (lat : Nat) (w : List (Dst × W32)) : (s.queue lat w).ptime = s.ptime := rfl
@[simp] theorem queue_slew (s : State) (lat : Nat) (w : List (Dst × W32)) : (s.queue lat w).slew = s.slew := rfl
@[simp] theorem queue_slewAcc (s : State) (lat : Nat) (w : List (Dst × W32)) : (s.queue lat w).slewAcc = s.slewAcc := rfl
@[simp] theorem queue_timers (s : State) (lat : Nat) (w : List (Dst × W32)) : (s.queue lat w).timers = s.timers := rfl
@[simp] theorem queue_mem (s : State) (lat : Nat) (w : List (Dst × W32)) : (s.queue lat w).mem = s.mem := rfl
@[simp] theorem queue_homes (s : State) (lat : Nat) (w : List (Dst × W32)) : (s.queue lat w).homes = s.homes := rfl
@[simp] theorem queue_hzn (s : State) (lat : Nat) (w : List (Dst × W32)) : (s.queue lat w).hzn = s.hzn := rfl
@[simp] theorem queue_predictors (s : State) (lat : Nat) (w : List (Dst × W32)) : (s.queue lat w).predictors = s.predictors := rfl
@[simp] theorem queue_regions (s : State) (lat : Nat) (w : List (Dst × W32)) : (s.queue lat w).regions = s.regions := rfl
@[simp] theorem queue_filters (s : State) (lat : Nat) (w : List (Dst × W32)) : (s.queue lat w).filters = s.filters := rfl
@[simp] theorem queue_directory (s : State) (lat : Nat) (w : List (Dst × W32)) : (s.queue lat w).directory = s.directory := rfl
@[simp] theorem queue_cores (s : State) (lat : Nat) (w : List (Dst × W32)) : (s.queue lat w).cores = s.cores := rfl
@[simp] theorem queue_clusters (s : State) (lat : Nat) (w : List (Dst × W32)) : (s.queue lat w).clusters = s.clusters := rfl
@[simp] theorem queue_chips (s : State) (lat : Nat) (w : List (Dst × W32)) : (s.queue lat w).chips = s.chips := rfl
@[simp] theorem queue_ctxs (s : State) (lat : Nat) (w : List (Dst × W32)) : (s.queue lat w).ctxs = s.ctxs := rfl
@[simp] theorem queue_itlb (s : State) (lat : Nat) (w : List (Dst × W32)) : (s.queue lat w).itlb = s.itlb := rfl
@[simp] theorem queue_walks (s : State) (lat : Nat) (w : List (Dst × W32)) : (s.queue lat w).walks = s.walks := rfl
@[simp] theorem queue_pageReqs (s : State) (lat : Nat) (w : List (Dst × W32)) : (s.queue lat w).pageReqs = s.pageReqs := rfl
@[simp] theorem queue_tickets (s : State) (lat : Nat) (w : List (Dst × W32)) : (s.queue lat w).tickets = s.tickets := rfl
@[simp] theorem queue_mesh (s : State) (lat : Nat) (w : List (Dst × W32)) : (s.queue lat w).mesh = s.mesh := rfl
@[simp] theorem queue_blocks (s : State) (lat : Nat) (w : List (Dst × W32)) : (s.queue lat w).blocks = s.blocks := rfl
@[simp] theorem queue_gangs (s : State) (lat : Nat) (w : List (Dst × W32)) : (s.queue lat w).gangs = s.gangs := rfl
@[simp] theorem queue_images (s : State) (lat : Nat) (w : List (Dst × W32)) : (s.queue lat w).images = s.images := rfl
@[simp] theorem queue_ops (s : State) (lat : Nat) (w : List (Dst × W32)) : (s.queue lat w).ops = s.ops := rfl
@[simp] theorem queue_heldEng (s : State) (lat : Nat) (w : List (Dst × W32)) : (s.queue lat w).heldEng = s.heldEng := rfl
@[simp] theorem queue_nextId (s : State) (lat : Nat) (w : List (Dst × W32)) : (s.queue lat w).nextId = s.nextId := rfl
@[simp] theorem queue_flights (s : State) (lat : Nat) (w : List (Dst × W32)) : (s.queue lat w).flights = s.flights := rfl
@[simp] theorem queue_drains (s : State) (lat : Nat) (w : List (Dst × W32)) : (s.queue lat w).drains = s.drains := rfl
@[simp] theorem queue_txDue (s : State) (lat : Nat) (w : List (Dst × W32)) : (s.queue lat w).txDue = s.txDue := rfl
@[simp] theorem queue_errs (s : State) (lat : Nat) (w : List (Dst × W32)) : (s.queue lat w).errs = s.errs := rfl
@[simp] theorem queue_cmds (s : State) (lat : Nat) (w : List (Dst × W32)) : (s.queue lat w).cmds = s.cmds := rfl
@[simp] theorem queue_chans (s : State) (lat : Nat) (w : List (Dst × W32)) : (s.queue lat w).chans = s.chans := rfl
@[simp] theorem queue_disp (s : State) (lat : Nat) (w : List (Dst × W32)) : (s.queue lat w).disp = s.disp := rfl
@[simp] theorem queue_sync (s : State) (lat : Nat) (w : List (Dst × W32)) : (s.queue lat w).sync = s.sync := rfl
@[simp] theorem queue_ceil (s : State) (lat : Nat) (w : List (Dst × W32)) : (s.queue lat w).ceil = s.ceil := rfl
@[simp] theorem queue_ports (s : State) (lat : Nat) (w : List (Dst × W32)) : (s.queue lat w).ports = s.ports := rfl
@[simp] theorem queue_mgmt (s : State) (lat : Nat) (w : List (Dst × W32)) : (s.queue lat w).mgmt = s.mgmt := rfl
@[simp] theorem queue_out (s : State) (lat : Nat) (w : List (Dst × W32)) : (s.queue lat w).out = s.out := rfl
@[simp] theorem finish_agenda (s : State) : s.finish.agenda = s.agenda := by unfold State.finish; split <;> rfl
@[simp] theorem finish_cur (s : State) : s.finish.cur = s.cur := by unfold State.finish; split <;> rfl
@[simp] theorem finish_tick (s : State) : s.finish.tick = s.tick := by unfold State.finish; split <;> rfl
@[simp] theorem finish_bclk (s : State) : s.finish.bclk = s.bclk := by unfold State.finish; split <;> rfl
@[simp] theorem finish_ptime (s : State) : s.finish.ptime = s.ptime := by unfold State.finish; split <;> rfl
@[simp] theorem finish_slew (s : State) : s.finish.slew = s.slew := by unfold State.finish; split <;> rfl
@[simp] theorem finish_slewAcc (s : State) : s.finish.slewAcc = s.slewAcc := by unfold State.finish; split <;> rfl
@[simp] theorem finish_timers (s : State) : s.finish.timers = s.timers := by unfold State.finish; split <;> rfl
@[simp] theorem finish_mem (s : State) : s.finish.mem = s.mem := by unfold State.finish; split <;> rfl
@[simp] theorem finish_homes (s : State) : s.finish.homes = s.homes := by unfold State.finish; split <;> rfl
@[simp] theorem finish_hzn (s : State) : s.finish.hzn = s.hzn := by unfold State.finish; split <;> rfl
@[simp] theorem finish_predictors (s : State) : s.finish.predictors = s.predictors := by unfold State.finish; split <;> rfl
@[simp] theorem finish_regions (s : State) : s.finish.regions = s.regions := by unfold State.finish; split <;> rfl
@[simp] theorem finish_filters (s : State) : s.finish.filters = s.filters := by unfold State.finish; split <;> rfl
@[simp] theorem finish_directory (s : State) : s.finish.directory = s.directory := by unfold State.finish; split <;> rfl
@[simp] theorem finish_cores (s : State) : s.finish.cores = s.cores := by unfold State.finish; split <;> rfl
@[simp] theorem finish_clusters (s : State) : s.finish.clusters = s.clusters := by unfold State.finish; split <;> rfl
@[simp] theorem finish_chips (s : State) : s.finish.chips = s.chips := by unfold State.finish; split <;> rfl
@[simp] theorem finish_ctxs (s : State) : s.finish.ctxs = s.ctxs := by unfold State.finish; split <;> rfl
@[simp] theorem finish_itlb (s : State) : s.finish.itlb = s.itlb := by unfold State.finish; split <;> rfl
@[simp] theorem finish_walks (s : State) : s.finish.walks = s.walks := by unfold State.finish; split <;> rfl
@[simp] theorem finish_pageReqs (s : State) : s.finish.pageReqs = s.pageReqs := by unfold State.finish; split <;> rfl
@[simp] theorem finish_tickets (s : State) : s.finish.tickets = s.tickets := by unfold State.finish; split <;> rfl
@[simp] theorem finish_mesh (s : State) : s.finish.mesh = s.mesh := by unfold State.finish; split <;> rfl
@[simp] theorem finish_gangs (s : State) : s.finish.gangs = s.gangs := by unfold State.finish; split <;> rfl
@[simp] theorem finish_images (s : State) : s.finish.images = s.images := by unfold State.finish; split <;> rfl
@[simp] theorem finish_ops (s : State) : s.finish.ops = s.ops := by unfold State.finish; split <;> rfl
@[simp] theorem finish_heldEng (s : State) : s.finish.heldEng = s.heldEng := by unfold State.finish; split <;> rfl
@[simp] theorem finish_nextId (s : State) : s.finish.nextId = s.nextId := by unfold State.finish; split <;> rfl
@[simp] theorem finish_flights (s : State) : s.finish.flights = s.flights := by unfold State.finish; split <;> rfl
@[simp] theorem finish_drains (s : State) : s.finish.drains = s.drains := by unfold State.finish; split <;> rfl
@[simp] theorem finish_txDue (s : State) : s.finish.txDue = s.txDue := by unfold State.finish; split <;> rfl
@[simp] theorem finish_errs (s : State) : s.finish.errs = s.errs := by unfold State.finish; split <;> rfl
@[simp] theorem finish_cmds (s : State) : s.finish.cmds = s.cmds := by unfold State.finish; split <;> rfl
@[simp] theorem finish_chans (s : State) : s.finish.chans = s.chans := by unfold State.finish; split <;> rfl
@[simp] theorem finish_disp (s : State) : s.finish.disp = s.disp := by unfold State.finish; split <;> rfl
@[simp] theorem finish_sync (s : State) : s.finish.sync = s.sync := by unfold State.finish; split <;> rfl
@[simp] theorem finish_ceil (s : State) : s.finish.ceil = s.ceil := by unfold State.finish; split <;> rfl
@[simp] theorem finish_ports (s : State) : s.finish.ports = s.ports := by unfold State.finish; split <;> rfl
@[simp] theorem finish_mgmt (s : State) : s.finish.mgmt = s.mgmt := by unfold State.finish; split <;> rfl
@[simp] theorem finish_out (s : State) : s.finish.out = s.out := by unfold State.finish; split <;> rfl

/-! ## Places -/

/-- A changed group is what the change makes of it, where it exists. -/
theorem grp_updGrp_self (s : State) (g : Nat) (f : Group → Group) (h : g < s.groups.length) :
    (s.updGrp g f).grp g = f (s.grp g) := by
  simp [State.grp, List.getD_eq_getElem?_getD, h]

/-- Another group is as it was. -/
theorem grp_updGrp_ne (s : State) (g k : Nat) (f : Group → Group) (h : g ≠ k) : (s.updGrp g f).grp k = s.grp k := by
  simp [State.grp, List.getD_eq_getElem?_getD, h]

/-- A changed block is what the change makes of it, where it exists. -/
theorem blk_updBlk_self (s : State) (b : Nat) (f : Block → Block) (h : b < s.blocks.length) :
    (s.updBlk b f).blk b = f (s.blk b) := by
  simp [State.blk, List.getD_eq_getElem?_getD, h]

/-- Another block is as it was. -/
theorem blk_updBlk_ne (s : State) (b k : Nat) (f : Block → Block) (h : b ≠ k) : (s.updBlk b f).blk k = s.blk k := by
  simp [State.blk, List.getD_eq_getElem?_getD, h]

/-- A group that has gone through a change of another state part is the same group. -/
theorem grp_of_groups {s t : State} (h : t.groups = s.groups) (g : Nat) : t.grp g = s.grp g := by
  simp [State.grp, h]

/-- A block that has gone through a change of another state part is the same block. -/
theorem blk_of_blocks {s t : State} (h : t.blocks = s.blocks) (b : Nat) : t.blk b = s.blk b := by
  simp [State.blk, h]

/-! ## Sparse maps -/

/-- Looking up the key that was placed. -/
@[simp] theorem look_place_self {β : Type} (d : β) (m : SMap β) (k : Nat) (v : β) : look d (place m k v) k = v := by
  induction m with
  | nil => simp [place, look]
  | cons e t ih =>
    simp only [place]
    split
    · simp [look]
    · split
      · simp [look]
      · simp [look, *]

/-- Looking up another key. -/
theorem look_place_ne {β : Type} (d : β) (m : SMap β) (k j : Nat) (v : β) (h : k ≠ j) :
    look d (place m k v) j = look d m j := by
  induction m with
  | nil => simp [place, look, h]
  | cons e t ih =>
    simp only [place]
    split
    · simp [look, h]
    · split
      · simp_all [look]
      · simp [look, ih]

/-- Looking up the key that was dropped. -/
@[simp] theorem look_drop_self {β : Type} (d : β) (m : SMap β) (k : Nat) : look d (drop m k) k = d := by
  induction m with
  | nil => rfl
  | cons e t ih =>
    by_cases h : e.1 = k
    · simp [drop, h] at ih ⊢; exact ih
    · simp [drop, h, look] at ih ⊢; exact ih

/-- Looking up another key than the one that was dropped. -/
theorem look_drop_ne {β : Type} (d : β) (m : SMap β) (k j : Nat) (h : k ≠ j) : look d (drop m k) j = look d m j := by
  induction m with
  | nil => rfl
  | cons e t ih =>
    by_cases hk : e.1 = k
    · have hj : e.1 ≠ j := by omega
      simp [drop, hk, look] at ih ⊢; rw [ih, if_neg h]
    · simp [drop, hk, look] at ih ⊢; rw [ih]

/-- Looking up the key that was put. -/
@[simp] theorem look_put_self {β : Type} [DecidableEq β] (d : β) (m : SMap β) (k : Nat) (v : β) :
    look d (put d m k v) k = v := by
  unfold put
  split
  · next h => rw [look_drop_self, h]
  · exact look_place_self d _ k v

/-- Looking up another key than the one that was put. -/
theorem look_put_ne {β : Type} [DecidableEq β] (d e : β) (m : SMap β) (k j : Nat) (v : β) (h : k ≠ j) :
    look d (put e m k v) j = look d m j := by
  unfold put
  split
  · exact look_drop_ne d m k j h
  · rw [look_place_ne d _ k j v h, look_drop_ne d m k j h]

/-! ## Memory -/

/-- A byte read where it was written. -/
@[simp] theorem read_write_self (m : List Host.Cell) (a : Nat) (v : Byte) : Memory.read (Memory.write m a v) a = v :=
  look_put_self 0 m a v

/-- A byte read elsewhere. -/
theorem read_write_ne (m : List Host.Cell) (a b : Nat) (v : Byte) (h : a ≠ b) :
    Memory.read (Memory.write m a v) b = Memory.read m b := look_put_ne 0 0 m a b v h

/-- The canonical form: every listed address is below the ones after it, and no listed byte is zero. -/
theorem wf_iff (m : List Host.Cell) :
    Memory.wf m = true ↔ m.Pairwise (fun a b => a.1 < b.1) ∧ ∀ e ∈ m, e.2 ≠ 0 := by
  induction m with
  | nil => simp [Memory.wf]
  | cons e t ih =>
    obtain ⟨a, v⟩ := e
    cases t with
    | nil => simp [Memory.wf]
    | cons f t =>
      obtain ⟨b, w⟩ := f
      simp only [Memory.wf, Bool.and_eq_true, bne_iff_ne, decide_eq_true_eq, ih, List.pairwise_cons, List.mem_cons,
        forall_eq_or_imp]
      constructor
      · rintro ⟨⟨h1, h2⟩, ⟨h3, h4⟩, h5, h6⟩
        exact ⟨⟨⟨h2, fun x hx => Nat.lt_trans h2 (h3 x hx)⟩, h3, h4⟩, h1, h5, h6⟩
      · rintro ⟨⟨⟨h2, -⟩, h3, h4⟩, h1, h5, h6⟩
        exact ⟨⟨h1, h2⟩, ⟨h3, h4⟩, h5, h6⟩

/-- What is placed or stood in the map stands in the result, and nothing else. -/
theorem mem_place {β : Type} {m : SMap β} {k : Nat} {v : β} {e : Nat × β} (h : e ∈ place m k v) :
    e = (k, v) ∨ e ∈ m := by
  induction m with
  | nil => simpa [place] using h
  | cons x t ih =>
    simp only [place] at h
    split at h
    · simpa using h
    · split at h
      · simp only [List.mem_cons] at h ⊢; tauto
      · simp only [List.mem_cons] at h ⊢
        rcases h with h | h
        · exact .inr (.inl h)
        · exact (ih h).imp id .inr

/-- Placing keeps the addresses rising. -/
theorem sorted_place {β : Type} (m : SMap β) (k : Nat) (v : β) (h : m.Pairwise fun a b => a.1 < b.1) :
    (place m k v).Pairwise fun a b => a.1 < b.1 := by
  induction m with
  | nil => simp [place]
  | cons x t ih =>
    obtain ⟨hx, ht⟩ := List.pairwise_cons.mp h
    simp only [place]
    split
    · refine List.pairwise_cons.mpr ⟨?_, h⟩
      intro y hy
      rcases List.mem_cons.mp hy with rfl | hy
      · assumption
      · exact Nat.lt_trans (by assumption) (hx y hy)
    · split
      · subst_vars
        exact List.pairwise_cons.mpr ⟨hx, ht⟩
      · refine List.pairwise_cons.mpr ⟨?_, ih ht⟩
        intro y hy
        rcases mem_place hy with rfl | hy
        · show x.1 < k
          omega
        · exact hx y hy

/-- A write keeps the canonical form. -/
theorem wf_write (m : List Host.Cell) (a : Nat) (v : Byte) (h : Memory.wf m = true) :
    Memory.wf (Memory.write m a v) = true := by
  rw [wf_iff] at h ⊢
  have hd : (drop m a).Pairwise (fun a b => a.1 < b.1) := h.1.sublist List.filter_sublist
  have hn : ∀ e ∈ drop m a, e.2 ≠ 0 := fun e he => h.2 e (List.mem_filter.mp he).1
  unfold Memory.write put
  split
  · exact ⟨hd, hn⟩
  · refine ⟨sorted_place _ _ _ hd, fun e he => ?_⟩
    rcases mem_place he with rfl | he
    · assumption
    · exact hn e he

/-- Several bytes written keep the canonical form. -/
theorem wf_writeBytes (n : Nat) : ∀ (m : List Host.Cell) (a v : Nat), Memory.wf m = true →
    Memory.wf (writeBytes m a n v) = true := by
  induction n with
  | zero => intro m a v h; exact h
  | succ n ih => intro m a v h; exact ih _ _ _ (wf_write m a _ h)

/-- A masked line written keeps the canonical form. -/
theorem wf_writeLine (m : List Host.Cell) (loc : Nat) (mask : BitVec 128) (d : LineData) (h : Memory.wf m = true) :
    Memory.wf (writeLine m loc mask d) = true := by
  unfold writeLine
  generalize List.range 128 = l
  induction l generalizing m with
  | nil => exact h
  | cons i t ih =>
    rw [List.foldl_cons]
    apply ih
    split
    · exact wf_write m _ _ h
    · exact h

/-- A write at home keeps the canonical form. -/
theorem wf_writeHome (s : State) (loc : Nat) (mask : BitVec 128) (d : LineData) (poison : Nat)
    (h : Memory.wf s.mem = true) : Memory.wf (s.writeHome loc mask d poison).mem = true := by
  have e : (s.writeHome loc mask d poison).mem = writeLine s.mem (loc / 128 * 128) mask d := by
    simp only [State.writeHome]; split <;> rfl
  rw [e]; exact wf_writeLine _ _ _ _ h

/-- A poison mark that is cleared leaves memory as it is. -/
@[simp] theorem clearMark_mem (s : State) (pa : Nat) : (s.clearMark pa).mem = s.mem := by
  unfold State.clearMark
  cases s.physHome pa with
  | none => rfl
  | some h => simp only; split <;> rfl

/-- Bytes written from a physical address on keep the canonical form. -/
theorem wf_writeFrom (l : List Nat) : ∀ (s : State) (pa left : Nat), Memory.wf s.mem = true →
    Memory.wf (s.writeFrom pa left l).mem = true := by
  induction l with
  | nil => intro s pa left h; exact h
  | cons b t ih =>
    intro s pa left h
    simp only [State.writeFrom]
    apply ih
    cases s.physHome pa <;> simp only <;> split
    all_goals (split <;> try simp only [clearMark_mem])
    all_goals first | exact h | exact wf_write s.mem _ _ h

/-- Bytes written at a physical address keep the canonical form. -/
theorem wf_writePhys (l : List Nat) (s : State) (pa : Nat) (h : Memory.wf s.mem = true) :
    Memory.wf (s.writePhys pa l).mem = true := wf_writeFrom l s pa 0 h

/-- The memory after power-on lists nothing. -/
theorem wf_reset : Memory.wf State.reset.mem = true := rfl

end Sys2Proof.Laws
end

