-- ==== Sys2Proof/Tests/Slice0.lean ====
section
/-!
SUPPORT. The model's own tests: decode words of every family written out from the encoding tables, an ill-formed
instruction for each check, single steps with results worked out by hand, and for every statement with hypotheses
concrete states and operands that meet them.
-/
open Sys2Proof Sys2Proof.Machine
namespace Sys2Proof.Tests

set_option Elab.async false
/-! ## States -/

/-- A group of one fibre in lane 0, on core 0 in context 1, with 64 vector registers, issues an instruction of a clause
of one word at 0x10000. -/
def inGroup : State := { State.reset.placeWord 0x04100000 0 with
  cur := ⟨.group, 0, 0, 0, 1, 1, 0x10000, 1, 1, 1, 0, 1, false, false⟩ }

/-- The same with registers at given values. -/
def seeded (l : List (Dst × W32)) : State := inGroup.updGrp 0 fun g => g.landAll l

/-- The same with the group's control state changed. -/
def controlled (f : Control → Control) (s : State) : State := s.updGrp 0 fun g => g.updCtl f

/-- The sequencer of block 0 issues an instruction of a clause of one word. -/
def inStream : State := { State.reset.placeWord 0x04100000 0 with
  cur := ⟨.stream, 0, 0, 0, 0, 0, 0x10000, 1, 1, 1, 0, 0, false, false⟩ }

/-- The hypotheses of a lane or scalar result. -/
abbrev free (s : State) (rd wr : List Reg) (lat : Nat) : Prop := s.cur.kind = .group ∧ s.regsFree rd wr lat

/-- The hypotheses of a cross-lane result. -/
abbrev crossed (s : State) (lat : Nat) (use : W32) (rd own wr : List Reg) : Prop :=
  s.cur.kind = .group ∧ s.crossFree lat use rd own wr

/-- Operands B at the ends of their ranges. -/
def srcs : List Src := [.v 63, .s 31, .imm 63, .imm 0xFFFFFFFF]

/-- Pair operands B at the ends of their ranges. -/
def pairs : List Src := [.v 62, .s 30, .imm 0, .imm 63]

/-! ## Witnesses of the statements about instructions (the hypotheses, at the highest registers) -/

theorem witness_IntegerResults : (∀ b ∈ srcs, ∀ lat ∈ [4, 6], free inGroup (.v 63 :: b.uses) [.v 63] lat) ∧
    free inGroup [.v 63] [.v 63] 4 := by decide +kernel

theorem witness_CarryAndWideResults : (∀ b ∈ srcs,
      free inGroup (.v 63 :: .p 14 :: b.uses) [.v 63, .p 14] 4 ∧
      (∀ e ∈ srcs, free inGroup (.v 63 :: b.uses ++ e.uses) [.v 63] 6) ∧
      (∀ lat ∈ [4, 6], free inGroup (vpair 62 ++ b.uses) (vpair 62) lat)) ∧
    free inGroup [.v 63, .v 63, .v 63] [.v 63] 6 ∧
    (∀ b ∈ pairs, free inGroup (vpair 62 ++ b.usesPair) (vpair 62) 6) := by decide +kernel

theorem witness_FieldAndMoveResults : free inGroup [.v 63, .v 62, .v 61] [.v 63] 4 ∧
    (∀ b ∈ srcs, free inGroup ([.v 63, .v 62] ++ b.uses) [.v 63] 4 ∧ free inGroup (.v 63 :: b.uses) [.p 14] 4 ∧
      free inGroup (.v 63 :: .p 15 :: b.uses) [.v 63] 4) ∧
    (∀ e ∈ [(0, 1), (31, 32), (0, 32)], e.1 < 32 ∧ 1 ≤ e.2 ∧ e.2 ≤ 32) ∧ free inGroup [.v 63] [.v 63] 4 ∧
    free inGroup [.v 63, .v 62] [.v 63] 4 ∧ (∀ rd ∈ [vpair 62, spair 30], free inGroup rd (vpair 62) 4) ∧
    (∀ rd ∈ [[.v 63], [], [.s 31]], free inGroup rd [.v 63] 4) := by decide +kernel

theorem witness_SpecialRegisterReads : (∀ wr ∈ [[.v 63], vpair 62, [.s 31], spair 30], free inGroup [] wr 6) := by
  decide +kernel

theorem witness_ScalarResults : (∀ b ∈ srcs, ∀ lat ∈ [4, 6], free inGroup (.s 31 :: b.uses) [.s 31] lat) ∧
    free inGroup (spair 30) (spair 30) 4 ∧ free inGroup [.s 31] [.s 31] 4 ∧ free inGroup [] [.s 31] 4 ∧
    (∀ b ∈ srcs, free inGroup (.s 31 :: b.uses) [.p 14] 4) ∧ free inGroup [.p 15, .p 14, .p 0] [.p 14] 2 ∧
    free inGroup [.v 63] ((List.range 15).map .p) 2 ∧ free inGroup ((List.range 15).map .p) [.v 63] 2 := by
  decide +kernel

/-- An active lane (0, named also by 32) and one that is not active (31). -/
theorem witness_LaneToScalar :
    (∀ lane ∈ [Src.imm 0, .imm 32, .s 31], ((inGroup.grp 0).src 0 lane).toNat % 32 = 0 ∧
      inGroup.shortStall 0 1 lane.uses (spair 30) 6 = false) ∧
    inGroup.cur.kind = .group ∧ inGroup.cur.lanes.getLsbD 0 = true ∧
    inGroup.shortStall 0 (laneBit 0) (vpair 62) [] 6 = false ∧ (inGroup.grp 0).entry 0 63 < (inGroup.grp 0).n ∧
    inGroup.cur.lanes.getLsbD (((inGroup.grp 0).src 0 (.imm 31)).toNat % 32) = false ∧
    inGroup.shortStall 0 0 [.v 63] [] 6 = false := by decide +kernel

theorem witness_BranchesGo : ∀ p ∈ [0, 14, 15], free inGroup [.p p] [] 1 := by decide +kernel

/-- Targets that are aligned and canonical, frames at the ends of the window base's range, a misaligned target, and one
that is not canonical. -/
theorem witness_JumpsMoveWindow :
    let s := seeded [(.v 0 62, 0x20000), (.s 30, 0x20002), (.v 0 61, 0x80000000)]
    let g := s.grp 0
    (∀ tgt ∈ [Src.v 62, .s 30, .v 60], free s tgt.usesPair [] 1) ∧ (∀ v ∈ [62, 60], free s (vpair v) [] 1) ∧
    lanesOf s.cur.lanes = [0] ∧ (g.srcp 0 (.v 60)).toNat % 4 = 0 ∧ (g.vp 0 60).toNat % 4 = 0 ∧
    (lanesOf s.cur.lanes).find? (fun i => !canonical (g.srcp i (.v 60))) = some 0 ∧
    (lanesOf s.cur.lanes).find? (fun i => !canonical (g.vp i 60)) = some 0 ∧
    ((g.srcp 0 (.v 62)).toNat % 4 = 0 ∧ canonical (g.srcp 0 (.v 62)) = true ∧ g.vp 0 62 = 0x20000) ∧
    (g.fib 0).wb = 0 ∧ (0 ≤ (0 : Int) + 62 ∧ (0 : Int) + 62 ≤ 62) ∧ ¬ ((0 : Int) + 63 ≤ 62) ∧ ¬ (0 ≤ (0 : Int) - 1) ∧
    (lanesOf s.cur.lanes).find? (fun i => (g.srcp i (.s 30)).toNat % 4 != 0) = some 0 := by decide +kernel

theorem witness_HintsAndBreakpoints : inGroup.cur.kind = .group := by decide +kernel

/-- A group in no handler and not in trap mode whose TVEC is 0x30000. -/
def withVector : State := controlled (fun c => { c with tvec := 0x30000 }) inGroup

theorem witness_UserTrapCompletes : withVector.groupIssues ∧ (withVector.grp 0).handler = .none ∧
    (withVector.grp 0).ctl.trapMode = false ∧ (withVector.grp 0).ctl.tvec ≠ 0 ∧
    (withVector.grp 0).ctl.tvec.toNat % 4 = 0 := by decide +kernel

/-- An active lane whose predicate is true (p15) and false (p14), and lane 31, which is not active. -/
theorem witness_ExitEndsLanes : inGroup.groupIssues ∧ (∀ p ∈ [14, 15], inGroup.regsFree [.p p] [] 1) ∧
    (inGroup.grp 0).ctl.fibs.length = 32 ∧ inGroup.cur.lanes.getLsbD 0 = true ∧ (inGroup.grp 0).p 0 15 = true ∧
    (inGroup.grp 0).p 0 14 = false ∧ inGroup.cur.lanes.getLsbD 31 = false := by decide +kernel

/-- The first active lane and the first vacant slot; with every lane occupied there is none. -/
theorem witness_SpawnFillsVacantSlots : inGroup.groupIssues ∧
    inGroup.regsFree ((List.range 15).map .p) [.v 63, .p 14] 6 ∧
    (inGroup.grp 0).ctl.fibs.length = 32 ∧ (lanesOf inGroup.cur.lanes)[0]? = some 0 ∧
    ((List.range 32).filter fun i => !((inGroup.grp 0).fib i).occ && !inGroup.cur.occ.getLsbD i)[0]? = some 1 ∧
    inGroup.cur.lanes.getLsbD 1 = false := by decide +kernel

theorem witness_LaneMasks : inGroup.groupIssues ∧ inGroup.regsFree [.s 31] [] 1 ∧ free inGroup [] [.s 31] 6 := by
  decide +kernel

/-- The same with lane mask 11 holding lane 0, the contributing lane. -/
def withMask : State := controlled (fun c => { c with masks := [(11, 1)] }) inGroup

theorem witness_VotesAndMatches : withMask.cur.lanes &&& (withMask.grp 0).mask 11 = 1 ∧
    crossed withMask 6 1 [.p 15] [] [.v 63] ∧ crossed withMask 6 1 [.p 15] [] [.p 14] ∧
    (∀ rd ∈ [vpair 62, [.v 63]], crossed withMask 6 1 rd [] [.v 63]) := by decide +kernel

theorem witness_ReductionResults : (∀ lat ∈ [10, 14], crossed withMask lat 1 [.v 63] [] [.v 63] ∧
    crossed withMask lat 1 (vpair 62) [] (vpair 62)) ∧ crossed withMask 10 1 [.v 63] [] (vpair 62) := by decide +kernel

/-- Lane 0 reads lanes of its segment of 16 or 8, or one below it, out of range. -/
theorem witness_ShuffleResults :
    shuffleSource 0 (segWidth 4) 0 31 = some 15 ∧ shuffleSource 0 (segWidth 3) 0 0 = some 0 ∧ shuffleSource 1 (segWidth 4) 0 1 = none ∧
    (∀ b ∈ [Src.v 63, .imm 31], crossed withMask 6 0 [.v 63] b.uses [.v 63] ∧
      crossed withMask 6 1 [.v 63] b.uses [.v 63] ∧ crossed withMask 6 1 (vpair 62) b.uses (vpair 62)) := by decide +kernel

theorem witness_Fp32Results : (∀ b ∈ srcs, ∀ lat ∈ [4, 5], free inGroup (.v 63 :: b.uses) [.v 63] lat) ∧
    (∀ b ∈ srcs, (∀ e ∈ srcs, free inGroup (.v 63 :: b.uses ++ e.uses) [.v 63] 5) ∧
      free inGroup (.v 63 :: b.uses) [.p 14] 4) ∧
    (∀ rd ∈ [vpair 62, [.v 63]], free inGroup rd [.v 63] 4) := by decide +kernel

theorem witness_SpecialFunctionResults : free inGroup [.v 63] [.v 63] 16 ∧
    (∀ b ∈ srcs, free inGroup (.v 63 :: b.uses) [.v 63] 24) ∧
    (∀ b ∈ pairs, free inGroup (vpair 62 ++ b.usesPair) (vpair 62) 48) := by decide +kernel

theorem witness_WideAndPackedResults : (∀ b ∈ pairs,
      (∀ lat ∈ [5, 8], free inGroup (vpair 62 ++ b.usesPair) (vpair 62) lat) ∧
      (∀ e ∈ pairs, free inGroup (vpair 62 ++ b.usesPair ++ e.usesPair) (vpair 62) 8) ∧
      free inGroup (vpair 62 ++ b.usesPair) [.p 14] 5) ∧
    (∀ b ∈ srcs, free inGroup (.v 63 :: b.uses) [.v 63] 5 ∧
      ∀ e ∈ srcs, free inGroup (.v 63 :: b.uses ++ e.uses) [.v 63] 5) ∧
    free inGroup (vpair 62 ++ vpair 60) (vpair 62) 7 ∧ free inGroup (vpair 62 ++ vpair 60 ++ vpair 58) (vpair 62) 7 := by
  decide +kernel

/-- The gang's slot 0 in FB4 with blocks of 16 under scale form 1; its slot 7 is FP64, which is no packed format. -/
def withSlots : State := { inGroup with gangs := inGroup.gangs.map fun k => { k with
  desc := 8 + 1 * 2 ^ 8 + 1 * 2 ^ 10 + 1 * 2 ^ (64 * 7) } }

theorem witness_ConversionResults :
    (∀ sf ∈ [0, 1, 4], ∀ df ∈ [0, 1, 4], free inGroup (fmtRegs sf 62 ++ narrowReads df 62) (fmtRegs df 62) 6) ∧
    (∀ sf ∈ [0, 1], ∀ dt ∈ [0, 3], free inGroup (fmtRegs sf 62) (intRegs dt 62) 6 ∧
      free inGroup (intRegs dt 62 ++ narrowReads sf 62) (fmtRegs sf 62) 6) ∧
    free inGroup [.v 63] (vregs 60 4) 6 ∧ free inGroup (vregs 60 4) [.v 63] 6 ∧
    packSlotOk (withSlots.slot 0) 0 = true ∧ crossed withSlots 6 1 [.v 63] [] [.v 63] ∧
    unpackSlotOk (withSlots.slot 0) 7 = true ∧ free withSlots [.v 63, .v 62] [.v 63] 6 ∧
    packSlotOk (withSlots.slot 7) 0 = false ∧ unpackSlotOk (withSlots.slot 7) 0 = false := by decide +kernel
/-- The same group with registers given, and the page of 64 KiB at 0x20000 of context 1 in its isle's translation
cache. -/
def paged (l : List (Dst × W32)) : State :=
  { seeded l with itlb := [(0, [⟨1, 16, 2, 2 ^ 52 + 0x20000, 0, true, true, true⟩])] }

/-- What the only lane wants of an address in that page, and what it translates to. -/
def want (va : W64) (acc : Access) (refuse : List Nat) : List Want := [⟨0, va, acc, refuse⟩]

/-- The translation of a wanted address of that page. -/
def xlated (va : W64) (acc : Access) (refuse : List Nat) : List (Want × Xl) :=
  [(⟨0, va, acc, refuse⟩, ⟨2 ^ 52 + va.toNat, 0⟩)]

/-- The last aligned 8 bytes of the page by lanes, and its last 4 by a scalar base and an offset of -4. -/
theorem witness_LoadsIssue :
    let s := paged [(.v 0 62, 0x2FFF8), (.s 30, 0x30000)]
    let g := s.grp 0
    s.groupIssues ∧ lanesOf s.cur.lanes = [0] ∧ firstLane s.cur.lanes = 0 ∧
    (s.regsFree (vpair 62) (vregs 60 2) laterLat ∧ (g.vp 0 62 + BitVec.ofInt 64 0).toNat % widthBytes 5 = 0 ∧
      s.translates (want (g.vp 0 62 + BitVec.ofInt 64 0) .read []) (xlated 0x2FFF8 .read [])) ∧
    (s.regsFree (spair 30) (sregs 31 1) laterLat ∧
      (g.sp 30 + BitVec.ofInt 64 (-4)).toNat % widthBytes (Acc.ordered true 3).width = 0 ∧
      s.translates (want (g.sp 30 + BitVec.ofInt 64 (-4)) .read []) (xlated 0x2FFFC .read []) ∧
      ∀ e ∈ xlated 0x2FFFC .read [], e.1.lane = firstLane s.cur.lanes) := by decide +kernel

/-- The last aligned 16 bytes of the page, weak, and the first 4, releasing. -/
theorem witness_StoresIssue :
    let s := paged [(.v 0 62, 0x2FFF0), (.v 0 60, 0x20000)]
    let g := s.grp 0
    s.groupIssues ∧ lanesOf s.cur.lanes = [0] ∧
    (s.regsFree (vpair 62 ++ vregs 56 (widthRegs 6)) [] laterLat ∧
      (g.vp 0 62 + BitVec.ofInt 64 0).toNat % widthBytes 6 = 0 ∧
      s.translates (want (g.vp 0 62 + BitVec.ofInt 64 0) .write []) (xlated 0x2FFF0 .write [])) ∧
    (s.regsFree (vpair 60 ++ vregs 63 1) [] laterLat ∧
      (g.vp 0 60 + BitVec.ofInt 64 0).toNat % widthBytes (Acc.ordered true 0).width = 0 ∧
      s.translates (want (g.vp 0 60 + BitVec.ofInt 64 0) .write []) (xlated 0x20000 .write [])) := by decide +kernel

/-- A block whose banks 0 to 3 are scratchpad and whose banks 4 to 7 are operand buffer, with tiles 0 to 2 reserved,
16 of them as given, and accumulator rows 0 to 127. -/
def withBanks (tiles : SMap Tile) (s : State) : State := { s with
  blocks := s.blocks.map fun b => { b with
    banks := [[0, 1, 2, 3, 4, 5, 6, 7], []], brole := 0xAA55, nTiles := 3, tiles := tiles, accRows := 128 } }

/-- An access that ends at the end of the scratchpad of four banks of 96 KiB, and the first address past it. -/
theorem witness_ScratchpadAccessesIssue :
    let s := withBanks [] (seeded [(.v 0 63, 0x5FFF8), (.s 31, 0x60000)])
    let g := s.grp 0
    let inside (va : Int) : Bool := decide (0 ≤ va) && decide (va + widthBytes 5 ≤ (s.scratchSize : Int))
    s.groupIssues ∧ lanesOf s.cur.lanes = [0] ∧
    (s.regsFree (Src.v 63).uses (vregs 62 2) laterLat ∧ s.regsFree ((Src.v 63).uses ++ vregs 62 2) [] laterLat ∧
      (((g.src 0 (.v 63)).toNat : Int) + 0) % widthBytes 5 = 0 ∧ inside (((g.src 0 (.v 63)).toNat : Int) + 0) = true) ∧
    (s.regsFree (Src.s 31).uses (vregs 62 2) laterLat ∧ s.regsFree ((Src.s 31).uses ++ vregs 62 2) [] laterLat ∧
      (((g.src 0 (.s 31)).toNat : Int) + 0) % widthBytes 5 = 0 ∧
      (lanesOf s.cur.lanes).find? (fun i => !inside (((g.src i (.s 31)).toNat : Int) + 0)) = some 0) := by decide +kernel

/-- Compare-and-swap of 64 bits at the last 8 bytes of the page, and a vector of 32 at its last 32. -/
theorem witness_AtomicsIssue :
    let s := paged [(.v 0 54, 0x2FFF8), (.v 0 50, 0x2FFE0)]
    let g := s.grp 0
    s.groupIssues ∧ lanesOf s.cur.lanes = [0] ∧
    ((g.vp 0 54 + BitVec.ofInt 64 0).toNat % 8 = 0 ∧
      s.regsFree (vpair 54 ++ vregs 56 2 ++ vregs 58 2) (vregs 56 2) laterLat ∧
      s.translates (want (g.vp 0 54 + BitVec.ofInt 64 0) (atomicAccess 25 true) [3, 4]) (xlated 0x2FFF8 .both [3, 4])) ∧
    (s.regsFree (vpair 54 ++ vregs 56 2 ++ vregs 58 2) [] laterLat ∧
      s.translates (want (g.vp 0 54 + BitVec.ofInt 64 0) (atomicAccess 25 false) [3, 4])
        (xlated 0x2FFF8 .write [3, 4])) ∧
    ((g.vp 0 50 + BitVec.ofInt 64 0).toNat % 32 = 0 ∧ s.regsFree (vregs 50 10) (vregs 52 8) laterLat ∧
      s.translates (want (g.vp 0 50 + BitVec.ofInt 64 0) .both [3, 4]) (xlated 0x2FFE0 .both [3, 4])) := by decide +kernel

/-- The same with a haze region of 4 KiB at the start of the page. -/
def withRegion (s : State) : State := { s with
  regions := [(0, { Region.reset with v := true, log2sz := 12, base := 2 ^ 52 + 0x20000 })] }

/-- The region's last element, an element past it with a handler to go to, and ranges to settle of 4 KiB and of
nothing. -/
theorem witness_HazeInstructionsIssue :
    let s := withRegion (controlled (fun c => { c with tvec := 0x30000 })
      (paged [(.v 0 62, 0x20FF0), (.v 0 60, 0x21000), (.s 30, 0x20000), (.s 29, 0x1000)]))
    let g := s.grp 0
    let pieces (k : Nat) : List (Nat × Nat) := rangePieces (g.sp 30).toNat 65537 (g.s k).toNat
    s.groupIssues ∧ lanesOf s.cur.lanes = [0] ∧ firstLane s.cur.lanes = 0 ∧
    ((g.vp 0 62 + BitVec.ofInt 64 0).toNat % 16 = 0 ∧ s.regsFree (.v 59 :: vpair 62) [] laterLat ∧
      s.translates (want (g.vp 0 62 + BitVec.ofInt 64 0) .write []) (xlated 0x20FF0 .write []) ∧
      ∀ e ∈ xlated 0x20FF0 .write [], (s.regionAt e.2.pa).isSome = true) ∧
    ((g.vp 0 60 + BitVec.ofInt 64 0).toNat % 16 = 0 ∧ s.regsFree (.v 59 :: vpair 60) [] laterLat ∧
      s.translates (want (g.vp 0 60 + BitVec.ofInt 64 0) .write []) (xlated 0x21000 .write []) ∧
      (xlated 0x21000 .write []).find? (fun e => !(s.regionAt e.2.pa).isSome) =
        some (⟨0, 0x21000, .write, []⟩, ⟨2 ^ 52 + 0x21000, 0⟩) ∧
      g.handler = .none ∧ g.ctl.trapMode = false ∧ g.ctl.tvec ≠ 0 ∧ g.ctl.tvec.toNat % 4 = 0) ∧
    (s.regsFree (.s 29 :: vpair 62) (vpair 56) laterLat ∧
      s.translates (want (g.vp 0 62 + BitVec.ofInt 64 0) .read [4]) (xlated 0x20FF0 .read [4]) ∧
      ∀ e ∈ xlated 0x20FF0 .read [4], (s.regionAt e.2.pa).isSome = true) ∧
    (s.regsFree (.s 29 :: spair 30) [] laterLat ∧ (g.sp 30).toNat % 16 = 0 ∧ (g.s 29).toNat % 16 = 0 ∧
      s.translates ((s.goodPieces 0 (pieces 29)).map fun p => ⟨0, BitVec.ofNat 64 p.1, .both, []⟩)
        (xlated 0x20000 .both []) ∧
      s.regionsBehind (((xlated 0x20000 .both []).zip (pieces 29)).map fun e => (e.1.2.pa, e.2.2)) = [0]) ∧
    (g.s 0 = 0 ∧ s.regsFree (.s 0 :: spair 30) [] laterLat ∧
      s.translates ((s.goodPieces 0 (pieces 0)).map fun p => ⟨0, BitVec.ofNat 64 p.1, .both, []⟩) []) := by decide +kernel

/-- The last byte of the page, written back and fetched ahead. -/
theorem witness_FencesAndPrefetchesIssue :
    let s := paged [(.v 0 62, 0x2FFFF)]
    let g := s.grp 0
    s.groupIssues ∧ lanesOf s.cur.lanes = [0] ∧ s.regsFree (vpair 62) [] laterLat ∧
    s.translates (want (g.vp 0 62 + BitVec.ofInt 64 0) .write []) (xlated 0x2FFFF .write []) ∧
    s.translates (s.prefWants g 62 0) (xlated 0x2FFFF .read []) := by decide +kernel

/-- The same with a gang whose launch descriptor gives it `n` gang barriers. -/
def withGangBarriers (n : Nat) (s : State) : State := { s with gangs := s.gangs.map fun k => { k with desc := n * 2 ^ 529 } }

/-- The last gang barrier of 16 and the first index at the count; the block's last barrier. -/
theorem witness_BarrierInstructionsIssue :
    let s := withGangBarriers 16 inGroup
    s.groupIssues ∧ 15 < (s.gang (s.gangOf 0)).field 529 5 ∧ (s.grp 0).handler = .none ∧
    (s.gang (s.gangOf 0)).field 529 5 ≤ 16 ∧ 15 < (s.blk (s.grp 0).blk).bars.length := by decide +kernel
/-- A tile of 16 rows of 64 bytes in a state, under format slot `slot`. -/
def tileOf (state slot : Nat) : Tile := { Tile.empty with alloc := true, state := state, fslot := slot }

/-- The same block as a pair of cores, with format slot 0 FP32 and slot 1 FB4 in blocks of 16 with scales in the row. -/
def paired (tiles : SMap Tile) (s : State) : State :=
  let s := withBanks tiles s
  { s with
    blocks := s.blocks.map fun b => { b with pair := true, banks := [[0, 1, 2, 3, 4, 5, 6, 7], [0, 1, 2, 3, 4, 5, 6, 7]] }
    gangs := s.gangs.map fun k => { k with desc := (8 + 2 ^ 8 + 2 ^ 10) * 2 ^ 64 } }

/-- FP32 with K = 16, which fills a row, into the last rows and columns, on one side and on both; and scaled FB4 with
K = 16. -/
theorem witness_MatrixMultiplyIssues :
    let s := paired [(0, tileOf 2 0), (1, tileOf 2 0), (65, tileOf 2 0)] inStream
    let q := paired [(0, tileOf 2 1), (1, tileOf 2 1)] inStream
    let ok (s : State) (side k r c0 : Nat) (scaled : Bool) : Prop :=
      let b := s.blk 0
      let wa := s.slotFor 0 (b.tile 0 0).fslot
      let wb := s.slotFor 0 (b.tile side 1).fslot
      b.named 0 0 = true ∧ b.named side 1 = true ∧ (b.tile 0 0).readable = true ∧ (b.tile side 1).readable = true ∧
      pairOk scaled wa wb = true ∧ s.mmaShape side (b.tile 0 0) (b.tile side 1) wa wb k r c0 = true ∧
      s.scalesFit 0 0 wa (b.tile 0 0) k (b.tile 0 0).rowCount = true ∧
      s.scalesFit 0 side wb (b.tile side 1) k (b.tile side 1).rowCount = true
    s.streamIssues ∧ q.streamIssues ∧ (s.blk 0).pair = true ∧ ok s 0 16 112 15 false ∧ ok s 1 16 112 15 false ∧
    ((s.blk 0).tile 0 1).rows = ((s.blk 0).tile 1 1).rows ∧ ((s.blk 0).tile 0 1).rowb = ((s.blk 0).tile 1 1).rowb ∧
    ((s.blk 0).tile 0 1).fslot = ((s.blk 0).tile 1 1).fslot ∧ ok q 0 16 0 0 true := by decide +kernel

/-- The last 16 rows of a group's window, from an EMPTY tile and a READY one; and the same in a stream on the upper
side. -/
theorem witness_AccumulatorMovesIssue :
    let g := withBanks [(0, tileOf 0 0), (1, tileOf 2 0)] (controlled (fun c => { c with awl := 128 }) inGroup)
    let q := paired [(64, tileOf 0 0), (65, tileOf 2 0)] inStream
    let fits (s : State) (t : Nat) (hi : Bool) : Prop :=
      let b := s.engBlock
      let side := s.engSide hi
      let tile := b.tile side t
      b.named side t = true ∧ maccSlot (s.slotFor s.engBlk tile.fslot) = true ∧ s.hiBad hi = false ∧
      s.rowsInside 112 tile.rowCount = true ∧ 16 * 15 + maccCols (s.slotFor s.engBlk tile.fslot) tile ≤ 256 ∧
      s.maccRows t 112 = true
    g.engineIssues ∧ q.engineIssues ∧ g.rowsInside 112 16 = true ∧ q.rowsInside 112 16 = true ∧ g.rowsInside 0 1 = true ∧
    q.cur.kind = .stream ∧ q.engBlock.pair = true ∧
    fits g 0 false ∧ ((g.engBlock.tile (g.engSide false) 0).state = 0) ∧
    fits g 1 false ∧ ((g.engBlock.tile (g.engSide false) 1).readable = true) ∧
    fits q 0 true ∧ ((q.engBlock.tile (q.engSide true) 0).state = 0) ∧
    fits q 1 true ∧ ((q.engBlock.tile (q.engSide true) 1).readable = true) := by decide +kernel

/-- A geometry of one row block and a largest one: where nothing is taken the first fits at 0, and beside a tile of the
largest size no other of that size fits. -/
theorem witness_TileTableInstructions :
    let s := withBanks [(0, tileOf 0 0), (1, tileOf 2 0)] (seeded [(.s 31, 0xFF)])
    let big := withBanks [(0, { tileOf 2 0 with rows := 15, rowb := 15 })] (seeded [(.s 31, 0xFF)])
    let b := s.blk 0
    s.groupIssues ∧ s.regsFree [.s 31] [.p 14] 4096 ∧ 2 < b.nTiles ∧ (b.tile 0 2).alloc = false ∧ s.engSide false = 0 ∧
    (∀ k ∈ [0, 31], ((s.grp 0).s k).toNat / 2 ^ 11 % 2 ^ 3 = 0) ∧
    b.findRange 0 ((16 * (0 + 1)) * (64 * (0 + 1))) = some 1024 ∧
    big.groupIssues ∧ ((big.blk 0).tile 0 2).alloc = false ∧ 2 < (big.blk 0).nTiles ∧
    (big.blk 0).findRange 0 ((16 * (15 + 1)) * (64 * (15 + 1))) = none ∧
    (∀ t ∈ [0, 1], b.named 0 t = true ∧ (b.tile 0 t).reads = 0 ∧ ((b.tile 0 t).state = 0 ∨ (b.tile 0 t).state = 2)) ∧
    s.regsFree [.s 31] [] 4096 ∧ (b.tile 0 0).state = 0 ∧ s.regsFree [] (vpair 62) 4096 := by decide +kernel

/-- A descriptor at s20 of 32 sectors of 32 bytes from 0x20000: one run, or four counts of which one is the largest. -/
def withRun : List (Dst × W32) := [(.s 20, 0x20000), (.s 22, 32), (.s 23, 1), (.s 25, 1), (.s 27, 1), (.s 29, 1),
  (.s 24, 0x7FFFFFE0), (.s 26, 0xFFFFFFE0)]

/-- A copy of a tile's 1,024 bytes, plain and converted from one slot to the same; a store of a READY tile; adds of 4
cells of each of the last 16 rows. -/
theorem witness_CopiesEnterTheQueue :
    let s := withBanks [(0, tileOf 0 0), (1, tileOf 2 0)] (controlled (fun c => { c with awl := 128 }) (seeded withRun))
    let run := s.runOf 20
    let w := s.slotFor 0 0
    s.engineIssues ∧ s.engRegsFree (sregs 20 11) [] ∧ s.hiBad false = false ∧ (s.core (s.engCore false)).cq.length < 16 ∧
    run.base.toNat % 32 = 0 ∧ (∀ x ∈ run.stride, x % 32 = 0) ∧ (∀ n ∈ run.n0 :: run.n, 1 ≤ n ∧ n < 65536) ∧
    (∀ t ∈ [0, 1], s.engBlock.named 0 t = true ∧ copySlot w = true ∧
      copySlot (s.slotFor 0 (s.engBlock.tile 0 t).fslot) = true ∧
      ∀ cv ∈ [true, false], copySize cv w w run (s.engBlock.tile 0 t) = true) ∧
    (s.engBlock.tile 0 0).state = 0 ∧ s.txInside 0 0 (s.engBlock.tile 0 0).txb = true ∧
    (s.engBlock.tile 0 1).readable = true ∧ (s.engBlock.tile 0 1).reads = 0 ∧
    s.tstoreHzReady false 112 16 = true ∧ run.sectors * 2 % 16 = 0 ∧ 16 * 15 + run.sectors * 2 / 16 ≤ 256 ∧
    s.rowsInside 112 16 = true := by decide +kernel

/-- A loop of one iteration over tiles 0 and 1 with K = 16 whose counts stand in s7, s10, s13, s16 and s19. -/
theorem witness_LoopsAndChainsStart :
    let s := withBanks [(0, tileOf 0 0), (1, tileOf 0 0)] (seeded [(.s 0, 0x20000), (.s 2, 0x28000), (.s 4, 16 + 112 * 2 ^ 12),
      (.s 5, 64), (.s 6, 64), (.s 7, 1), (.s 10, 1), (.s 13, 1), (.s 16, 1), (.s 19, 1), (.s 30, 0x2FFC0)])
    let q : State := { s with cur := inStream.cur }
    let b := q.blk 0
    let w := q.slotFor 0 0
    let c := q.loopCmd 0 1 0
    (q.streamIssues ∧ b.named 0 0 = true ∧ b.named 0 1 = true ∧ (b.tile 0 0).state = 0 ∧ (b.tile 0 1).state = 0 ∧
      (q.core (b.coreAt 0)).cq.length < 16 ∧ pairOk (slotForm w != 0 || slotForm w != 0) w w = true ∧
      c.run.base.toNat % 32 = 0 ∧ c.runB.base.toNat % 32 = 0 ∧ (∀ x ∈ c.pitch, x % 32 = 0) ∧ (∀ n ∈ c.run.n, 1 ≤ n) ∧
      (∀ x ∈ c.run.stride ++ c.runB.stride, x % 32 = 0) ∧ bits (q.engS 4).toNat 24 8 = 0 ∧ c.kk = 16 ∧ c.row = 112 ∧
      q.mmaShape 0 (b.tile 0 0) (b.tile 0 1) w w c.kk 0 0 = true ∧ q.loopSpan c 16 16 = true ∧
      q.scalesFit 0 0 w (b.tile 0 0) c.kk 16 = true ∧ q.scalesFit 0 0 w (b.tile 0 1) c.kk 16 = true) ∧
    (s.groupIssues ∧ s.regsFree (spair 30) [] 4096 ∧ (s.chan (chanKey (isleOf (s.engCore false)) 7)).heads.length < 16 ∧
      ((s.grp 0).sp 30).toNat % 64 = 0) := by decide +kernel

/-- The last barrier of a block with the sequencer's phase count at the barrier's phase, one ahead of it, and behind
it. -/
def withPhases (pk phase : Nat) : State := { inStream with blocks := inStream.blocks.map fun b =>
  { b with bars := b.bars.modify 15 fun z => { z with pk := pk, phase := phase } } }

theorem witness_SequencerMeetingPoints :
    inStream.streamIssues ∧ 15 < (inStream.blk 0).bars.length ∧
    ((((inStream.blk 0).bar 15).phase + 16 - ((inStream.blk 0).bar 15).pk) % 16 = 0) ∧
    (let z := ((withPhases 1 0).blk 0).bar 15
     (withPhases 1 0).streamIssues ∧ 15 < ((withPhases 1 0).blk 0).bars.length ∧ z.pk ≠ z.phase) ∧
    (let z := ((withPhases 15 0).blk 0).bar 15
     (withPhases 15 0).streamIssues ∧ 15 < ((withPhases 15 0).blk 0).bars.length ∧ (z.phase + 16 - z.pk) % 16 ≠ 0) ∧
    inGroup.cur.kind = .group := by decide +kernel

/-- The last cell of the last row of a window; the whole allocation and the empty window after it. -/
theorem witness_AccumulatorAccess :
    let s := withBanks [] (controlled (fun c => { c with awl := 128 })
      (seeded [(.v 0 63, 127 * 256 + 255), (.s 30, 0), (.s 31, 128)]))
    let g := s.grp 0
    let b := s.blk 0
    let target := b.groups.getD (g.s 29).toNat 0
    s.groupIssues ∧ (∀ i ∈ lanesOf s.cur.lanes, (g.v i 63).toNat < 65536 ∧ g.ctl.awb ≤ (g.v i 63).toNat / 256 ∧
      (g.v i 63).toNat / 256 < g.ctl.awb + g.ctl.awl) ∧ s.accReady 63 = true ∧
    s.regsFree [.v 63] [.v 62] 4096 ∧ s.regsFree [.v 62, .v 63] [] 4096 ∧
    s.regsFree [.s 29, .s 30, .s 31] [] 4096 ∧ b.allocOpen = true ∧ g.num = 0 ∧ (g.s 29).toNat < b.groups.length ∧
    target < s.groups.length ∧ b.accFirst (b.side (s.grp target).core) = 0 ∧
    ((g.s 31).toNat ≤ 256 ∧ 0 ≤ (g.s 30).toNat ∧ (g.s 30).toNat + (g.s 31).toNat ≤ 0 + b.accRows) ∧
    ((g.s 30).toNat ≤ 256 ∧ 0 ≤ (g.s 31).toNat ∧ (g.s 31).toNat + (g.s 30).toNat ≤ 0 + b.accRows) := by decide +kernel

/-- The barrier in the last 16 bytes of the scratchpad, with counts 1 and 65,535, and a phase that has and one that
has not ended; tile 0 in its state and in another. -/
theorem witness_TransactionBarriers :
    let s := withBanks [(0, tileOf 2 0)] (seeded [(.s 31, 24575), (.s 30, 65535), (.s 29, 1)])
    let g := s.grp 0
    let idx := (g.s 31).toNat
    let old := s.txBar 0 0 idx
    s.groupIssues ∧ s.engSide false = 0 ∧ idx < 2 ^ 18 ∧ s.txInside 0 0 idx = true ∧ s.txInside 0 0 (idx + 1) = false ∧
    ((s.blk 0).spBanks 0).Nodup ∧ (∀ c ∈ [30, 29], s.regsFree [.s 31, .s c] [] 4096 ∧ 1 ≤ (g.s c).toNat ∧
      (g.s c).toNat ≤ 65535) ∧ s.regsFree [.s 31] [] 4096 ∧ s.regsFree [.s 31, .s 29] [.p 14] 4096 ∧
    old.phase ≠ (g.s 29).toNat % 16 ∧ s.regsFree [.s 31, .s 28] [] 4096 ∧ old.phase = (g.s 28).toNat % 16 ∧
    s.cur.trapped = false ∧ (s.blk 0).named 0 0 = true ∧ ((s.blk 0).tile 0 0).state = 2 ∧
    ((s.blk 0).tile 0 0).state ≠ 3 := by decide +kernel

/-- A group in trap mode with TPC 0x20000. -/
def trapped : State := controlled (fun c => { c with trapMode := true, tpc := 0x20000, tlanes := 1 }) (seeded [(.s 31, 15)])

theorem witness_SystemRegisters :
    (∀ wr ∈ [[.s 31], spair 30], free inGroup [] wr 1) ∧ inGroup.groupIssues ∧ inGroup.regsFree (spair 30) [] 1 ∧
    (inGroup.grp 0).ctl.trapMode = false ∧ trapped.groupIssues ∧ trapped.regsFree (spair 30) [] 1 ∧
    trapped.regsFree [.s 31] [] 1 ∧ (trapped.grp 0).ctl.trapMode = true ∧ ((trapped.grp 0).s 31).toNat ≤ 15 ∧
    (let s : State := { inGroup with blocks := inGroup.blocks.map fun b => { b with allocOpen := false } }
     s.groupIssues ∧ (s.blk (s.grp 0).blk).allocOpen = false) ∧
    (let s := inGroup.updGrp 0 fun g => { g with num := 1 }
     s.groupIssues ∧ (s.grp 0).num ≠ 0) := by decide +kernel

theorem witness_TrapReturnResumes : trapped.groupIssues ∧ (trapped.grp 0).ctl.trapMode = true ∧
    (trapped.grp 0).ctl.tpc.toNat % 4 = 0 ∧ canonical (trapped.grp 0).ctl.tpc = true ∧
    (trapped.gang (trapped.gangOf 0)).pre = .none ∧ inGroup.groupIssues ∧ (inGroup.grp 0).ctl.trapMode = false := by
  decide +kernel

/-- A context without permissions and one with them; no handler, and each of the two handlers. -/
theorem witness_ContextMaintenance :
    let s := seeded [(.s 31, 31)]
    let p := s.updCtx 1 fun c => { c with tlbi := true, dbgr := true }
    let h (x : Handler) : State := s.updGrp 0 fun g => { g with handler := x, saved := some g.ctl }
    (s.groupIssues ∧ s.ctxOf 0 = 1 ∧ (s.ctx 1).tlbi = false ∧ (s.ctx 1).dbgr = false) ∧
    (p.groupIssues ∧ (p.ctx (p.ctxOf 0)).tlbi = true ∧ p.regsFree [] [] 1 ∧ p.regsFree (spair 30) [] 1 ∧ p.walks = []) ∧
    (s.coresHolding 1 = [] ∧ (s.grp 0).handler = .none ∧ s.toReclaim 1 = []) ∧
    ((h .preempt).groupIssues ∧ ((h .preempt).grp 0).handler ≠ .none ∧ ((h .preempt).grp 0).handler = .preempt ∧
      (h .preempt).regsFree [.s 31] [] 1 ∧ (((h .preempt).grp 0).s 31).toNat < 32) ∧
    ((h .resume).groupIssues ∧ ((h .resume).grp 0).handler = .resume ∧ (h .resume).regsFree [.s 31] [] 1 ∧
      ((h .resume).grp 0).saved = some (s.grp 0).ctl) ∧
    ((p.ctx (p.ctxOf 0)).dbgr = true ∧ p.regsFree [.v 63] (vpair 62) 1 ∧
      ∀ i ∈ lanesOf p.cur.lanes, (p.debugObject 0 1 ((p.grp 0).v i 63).toNat).isSome = true) := by decide +kernel
/-! ## Witnesses of further clauses of the statements about instructions -/

/-- Entries past the reserved ones, allocated, and with reserved bits of the geometry set; an entry that may not be
named; a fill by a group, and by a stream on the upper side. -/
theorem witness_TileTableInstructions_refusals :
    let s := withBanks [(0, tileOf 0 0)] (seeded [(.s 31, 0x800), (.s 30, 0xFF)])
    let q := paired [(64, tileOf 0 0)] inStream
    s.groupIssues ∧ (s.blk 0).nTiles ≤ 3 ∧ ((s.blk 0).tile 0 0).alloc = true ∧
    (∀ k ∈ [8192, 4096, 2048], k / 2 ^ 11 % 2 ^ 3 ≠ 0) ∧ ((s.grp 0).s 31).toNat / 2 ^ 11 % 2 ^ 3 ≠ 0 ∧
    (∀ k ∈ [31, 30], s.regsFree [.s k] [.p 15] 4096) ∧
    (∀ t ∈ [1, 3], (s.blk 0).named 0 t = false) ∧ s.regsFree [] (vpair 62) 4096 ∧
    (s.engineIssues ∧ s.engRegsFree [.s 31] [] ∧ s.hiBad false = false ∧ s.engBlock.named (s.engSide false) 0 = true ∧
      (s.engBlock.tile (s.engSide false) 0).state = 0 ∧ s.engBlock.named (s.engSide false) 3 = false) ∧
    (q.engineIssues ∧ q.engRegsFree [.s 31] [] ∧ q.hiBad true = false ∧ q.engBlock.named (q.engSide true) 0 = true ∧
      (q.engBlock.tile (q.engSide true) 0).state = 0) := by decide +kernel

/-- A barrier that the sequencer is not past. -/
theorem witness_SequencerMeetingPoints_waits :
    let z := ((withPhases 3 3).blk 0).bar 15
    (withPhases 3 3).streamIssues ∧ 15 < ((withPhases 3 3).blk 0).bars.length ∧ (z.phase + 16 - z.pk) % 16 = 0 ∧
    inStream.cur.kind = .stream := by decide +kernel

/-- A cell one row below the window, one past its last row, and one past the 65,536; cells without errors, and another
one with; the phase ended, another group, and windows past the allocation, of a group that is not there, and of 257
rows. -/
theorem witness_AccumulatorAccess_refusals :
    let at_ (cell : Nat) : State :=
      withBanks [] (controlled (fun c => { c with awb := 1, awl := 127 }) (seeded [(.v 0 63, BitVec.ofNat 32 cell)]))
    let s := withBanks [] (controlled (fun c => { c with awl := 128 }) (seeded [(.v 0 63, 5), (.s 31, 1), (.s 30, 128), (.s 28, 257)]))
    let g := s.grp 0
    let b := s.blk 0
    let target (k : Nat) : Nat := b.groups.getD (g.s k).toNat 0
    let base (k : Nat) : Nat := b.accFirst (b.side (s.grp (target k)).core)
    let given (sg sf sl : Nat) : Prop := (g.s sg).toNat < b.groups.length ∧ (g.s sl).toNat ≤ 256 ∧ base sg ≤ (g.s sf).toNat ∧
      (g.s sf).toNat + (g.s sl).toNat ≤ base sg + b.accRows
    (∀ cell ∈ [255, 128 * 256, 65536], (at_ cell).groupIssues ∧ (at_ cell).accReady 63 = true ∧
      (at_ cell).regsFree [.v 63] [.v 62] 4096 ∧ (at_ cell).regsFree [.v 62, .v 63] [] 4096 ∧
      ∃ i ∈ lanesOf (at_ cell).cur.lanes, ¬ (((at_ cell).grp 0).v i 63).toNat < 65536 ∨
        ¬ ((at_ cell).grp 0).ctl.awb ≤ (((at_ cell).grp 0).v i 63).toNat / 256 ∨
        ¬ (((at_ cell).grp 0).v i 63).toNat / 256 < ((at_ cell).grp 0).ctl.awb + ((at_ cell).grp 0).ctl.awl) ∧
    (let e : State := { s with errs := [.cell 0 6] }
     ∀ i ∈ lanesOf e.cur.lanes, ErrAt.cell (e.grp 0).core ((e.grp 0).v i 63).toNat ∉ e.errs) ∧
    ({ s with blocks := s.blocks.map fun b => { b with allocOpen := false } } : State).groupIssues ∧
    (({ s with blocks := s.blocks.map fun b => { b with allocOpen := false } } : State).blk 0).allocOpen = false ∧
    ((s.updGrp 0 fun g => { g with num := 1 }).grp 0).num ≠ 0 ∧
    (∀ k ∈ [29, 30, 31, 28], s.regsFree [.s k, .s 31, .s 30] [] 4096) ∧ given 29 29 30 ∧ ¬ given 29 31 30 ∧ ¬ given 31 29 29 ∧
    ¬ given 29 29 28 := by decide +kernel

/-- Counts 0 and 65,536; the index past the scratchpad and past 18 bits; a barrier with nothing pending and with one
sector; a stream; a tile that may not be named. -/
theorem witness_TransactionBarriers_refusals :
    let s := withBanks [(0, tileOf 2 0)] (seeded [(.s 31, 24576), (.s 30, 65536), (.s 28, 0x40000)])
    let q := withBanks [] inStream
    let secs (n : Nat) : State := (withBanks [] inGroup).txUpdate 0 0 0 fun _ => ⟨15, 0, 1, n, 0⟩
    s.engineIssues ∧ (∀ k ∈ [0, 30], s.regsFree [.s 31, .s k] [] 4096) ∧ ((s.grp 0).s 0).toNat = 0 ∧
    65535 < ((s.grp 0).s 30).toNat ∧ (s.txInside 0 0 ((s.grp 0).s 31).toNat = false) ∧ 2 ^ 18 ≤ ((s.grp 0).s 28).toNat ∧
    (∀ k ∈ [31, 28], s.engRegsFree [.s k, .s 0] []) ∧
    (q.engineIssues ∧ q.engRegsFree [.s 31, .s 30] [] ∧ q.txInside q.engBlk (q.engSide false) 0 = true ∧
      ((q.blk q.engBlk).spBanks (q.engSide false)).Nodup) ∧
    (∀ n ∈ [0, 1], ((secs n).blk 0).live = true ∧ ((secs n).txBar 0 0 0).arrPend = 0 ∧ ((secs n).txBar 0 0 0).secPend = n ∧
      ((secs n).txBar 0 0 0).phase = 15) ∧
    (s.blk (s.grp 0).blk).named (s.engSide false) 1 = false := by decide +kernel

/-- Roles that R107 allows and, with three banks of the operand buffer, does not, in the allocation phase; TIDX 15 and 16
in trap mode. -/
theorem witness_SystemRegisters_roles :
    let s := withBanks [] (seeded [(.s 30, 0xAA55), (.s 31, 0xFFFFFFFF)])
    let q := withBanks [] (seeded [(.s 30, 0xA855), (.s 31, 0xFFFFFFFF)])
    let x := trapped.updGrp 0 fun g => g.landAll [(.s 31, 16)]
    (∀ t ∈ [s, q], t.groupIssues ∧ t.regsFree (spair 30) [] 1 ∧ (t.grp 0).num = 0 ∧ (t.blk (t.grp 0).blk).allocOpen = true) ∧
    (s.blk 0).roleOk ((s.grp 0).sp 30).toNat = false ∧ (q.blk 0).roleOk ((q.grp 0).sp 30).toNat = false ∧
    (s.blk 0).roleOk 0xFFFFFFFFFFFFAA55 = true ∧
    x.groupIssues ∧ x.regsFree [.s 31] [] 1 ∧ (x.grp 0).ctl.trapMode = true ∧ 15 < ((x.grp 0).s 31).toNat := by decide +kernel

/-- TPC misaligned and not canonical; a gang being pre-empted whose handler is due. -/
theorem witness_TrapReturnResumes_refusals :
    let at_ (pc : Nat) : State := controlled (fun c => { c with tpc := BitVec.ofNat 64 pc }) trapped
    let s : State := { trapped with gangs := trapped.gangs.map fun k => { k with pre := .handlers 50000 } }
    (∀ pc ∈ [0x20002, 2 ^ 63], (at_ pc).groupIssues ∧ ((at_ pc).grp 0).ctl.trapMode = true ∧
      ((at_ pc).grp 0).ctl.tpc = BitVec.ofNat 64 pc) ∧
    ((0x20002 : W64).toNat % 4 ≠ 0 ∧ (0x8000000000000000 : W64).toNat % 4 = 0 ∧ canonical 0x8000000000000000 = false) ∧
    (s.groupIssues ∧ (s.grp 0).ctl.trapMode = true ∧ (s.gang (s.gangOf 0)).pre = .handlers 50000 ∧ (s.grp 0).live = true ∧
      (s.grp 0).retired = false ∧ (s.grp 0).halted = false ∧ (s.grp 0).handler = .none ∧ (s.grp 0).pdone = none ∧
      (s.grp 0).ctl.tpc.toNat % 4 = 0 ∧ canonical (s.grp 0).ctl.tpc = true) := by decide +kernel

/-- A walk in flight and one that has failed in another context; a core that holds a line; a share on a core that runs no
gang of the context; each wait over; a mask of 32; objects and indices in range and out of it. -/
theorem witness_ContextMaintenance_waits :
    let s := seeded [(.s 31, 32), (.v 0 63, 256), (.v 0 62, 255), (.v 0 61, 15), (.v 0 60, 31), (.v 0 59, 0)]
    let p := s.updCtx 1 fun c => { c with tlbi := true, dbgr := true }
    let w (ctx : Nat) (f : Option XFault) : Walk := ⟨9, 0, ctx, 2, 0, 0, 0x20000, [(.group 0 0, 2)], f⟩
    let walks (l : List Walk) : State := { p with walks := l }
    let flying (l : List Walk) : List Walk := (walks l).walks.filter fun w => w.failed.isNone || w.ctx != 1
    let line : L1Line := ⟨1, 256, 2 ^ 52 + 256, 0, 5, true, 0, 1, 1, 0, none, false, 0⟩
    let holds := s.updCore 3 fun c => { c with lines := [line] }
    let owes := s.updCore 3 fun c => { c with shares := [⟨1, 1, 4, 0, 0, false, [], []⟩] }
    let c : Issue := s.cur
    let done_ (w : SysWait) : State := s.updGrp 0 fun g => { g with sysWait := some w }
    (∀ l ∈ [[w 1 none], [w 2 (some .notPresent)]], (walks l).groupIssues ∧ flying l ≠ [] ∧ (walks l).regsFree (spair 30) [] 1) ∧
    (flying [w 1 (some .notPresent)] = []) ∧ holds.groupIssues ∧ holds.coresHolding 1 = [3] ∧ owes.groupIssues ∧
    owes.toReclaim 1 = [(3, 1)] ∧
    (∀ w ∈ [SysWait.tlbinv c none [9], .ctxwb c [9], .hzreclaim c [(3, 1)]], ((done_ w).grp 0).sysWait = some w ∧
      (done_ w).sysOver 1 w = true) ∧ c.kind = .group ∧ c.grp = 0 ∧
    32 ≤ ((s.grp 0).s 31).toNat ∧
    (∀ e ∈ [(0, 62), (1, 61), (2, 61), (3, 59), (4, 60)], p.regsFree [.v e.2] (vpair 62) 1 ∧
      ∀ i ∈ lanesOf p.cur.lanes, (p.debugObject 0 e.1 ((p.grp 0).v i e.2).toNat).isSome = true) ∧
    (∀ obj ∈ [0, 1, 2, 3, 4], ∃ i ∈ lanesOf p.cur.lanes, p.debugObject 0 obj ((p.grp 0).v i 63).toNat = none) := by decide +kernel
/-! ## Witnesses of the statements about messages and units -/

/-- A packet of core 0 to unit `unit` of isle 0 about the line at location 256. -/
def message (typ unit : Nat) (aux : List Nat) : Packet :=
  { Packet.basic typ (channelOf typ) 0 0 160 0 unit 1 7 with pa := 2 ^ 52 + 256, loc := 256, aux := aux }

/-- The packet stands at its unit, 250 base clocks after its arrival. -/
def arrived (p : Packet) (s : State) : State :=
  { s with bclk := 250, mesh := { s.mesh with units := [(unitKey p.disle p.dunit p.vc, [p])] } }

/-- The state of the line at location 256. -/
def withHome (f : HomeLine → HomeLine) (s : State) : State := { s with homes := [(2, f HomeLine.none)] }

/-- The types of the requests that a slice serves. -/
def requests : List Nat := [0x01, 0x02, 0x03, 0x04, 0x05, 0x07, 0x08, 0x09, 0x0A]

/-- Each request at a slice, at the management unit and at the host and Vreles ports; an acquire of a line without a
record. -/
theorem witness_HomeAnswersRequests :
    (∀ unit ∈ [unitMgmt, unitHost, unitVreles], ∀ typ ∈ [0x02, 0x09, 0x03, 0x0A],
      (arrived (message typ unit [64, 2]) State.reset).takesPacket 0 unit typ (message typ unit [64, 2])) ∧
    (∀ typ ∈ [0x01, 0x02, 0x09, 0x03, 0x07, 0x0A], (arrived (message typ 159 []) State.reset).takesPacket 0 159 typ
        (message typ 159 []) ∧ 159 ≠ unitMgmt ∧ 159 ≠ unitHost ∧ 159 ≠ unitVreles ∧
      ((arrived (message typ 159 []) State.reset).homeLine 0 159 256 (2 ^ 52 + 256)).xhold = none ∧
      (message typ 159 []).isAcquire = false) ∧
    (let s := arrived (message 0x02 5 [1]) State.reset
     (message 0x02 5 [1]).isAcquire = true ∧ (s.homeLine 0 5 256 (2 ^ 52 + 256)).rrec = none ∧
     (s.homeLine 0 5 256 (2 ^ 52 + 256)).draining = false ∧ s.takesPacket 0 5 0x02 (message 0x02 5 [1])) := by decide +kernel

/-- An add to the last element of a line, poisoned and not, and the two packets that bring adds. -/
theorem witness_WritesAndAddsAtHome :
    256 + 112 < 256 + 128 ∧ (256 + 112) % 16 = 0 ∧
    ((withHome (fun h => { h with poison := 8 }) State.reset).poisonAt (256 + 112)).testBit ((256 + 112) % 128 / 32) = true ∧
    ((withHome (fun h => { h with poison := 7 }) State.reset).poisonAt (256 + 112)).testBit ((256 + 112) % 128 / 32) = false ∧
    Memory.wf State.reset.mem = true ∧ (∀ typ ∈ [0x05, 0x08],
      (arrived (message typ 5 []) State.reset).takesPacket 0 5 typ (message typ 5 []) ∧
      ((arrived (message typ 5 []) State.reset).homeLine 0 5 256 (2 ^ 52 + 256)).xhold = none) := by decide +kernel

/-- A line of a core's cache, location 256 of context 1, under an exclusive lease until 2000 ns. -/
def leased : L1Line := { ctx := 1, loc := 256, pa := 2 ^ 52 + 256, isle := 0, slice := 5, valid := true, lease := 0
                         dirty := 1, data := 1, poison := 0, excl := some 2000, recalled := false, xdata := 0 }

/-- An atomic that may have its line and one that may not, of a core and of an engine; a lease in the way of each request; its recall, its end at
2000 ns, its return and its grant. -/
theorem witness_AtomicsAndLeasesAtHome :
    let atom (aux : List Nat) : Packet := message 0x04 5 aux
    let s (aux : List Nat) : State := arrived (atom aux) State.reset
    let grant : List Nat := [0, 0, 0, 1, 0, 0, 1, 0]
    let home : List Nat := [0, 0, 0, 1, 0, 0, 0, 0, 0, 1, 2, 3]
    let held (p : Packet) : State := withHome (fun h => { h with xhold := some (0, 2000) }) (arrived p State.reset)
    let cached (p : Packet) : State := (arrived p { State.reset with ptime := 2000 }).updCore 0 fun c =>
      { c with lines := [leased] }
    let toCore (typ : Nat) : Packet := { message typ 160 [] with sunit := 5 }
    ((s grant).takesPacket 0 5 0x04 (atom grant) ∧ ((s grant).homeLine 0 5 256 (2 ^ 52 + 256)).xhold = none ∧
      (atom grant).isAcquire = false ∧ (s grant).mayGrant (atom grant) = true) ∧
    ((s home).takesPacket 0 5 0x04 (atom home) ∧ ((s home).homeLine 0 5 256 (2 ^ 52 + 256)).xhold = none ∧
      (atom home).isAcquire = false ∧ (s home).mayGrant (atom home) = false) ∧
    (∀ l ∈ [grant, home], (s l).joinWaits (atom l) = false) ∧
    (let r : Packet := { message 0x14 176 [] with disle := 0, dunit := 5, sunit := 161 }
     (held r).takesPacket 0 5 0x14 r ∧ ((held r).homeLine 0 5 256 (2 ^ 52 + 256)).xhold.map Prod.fst ≠ some r.srcCore) ∧
    (∀ typ ∈ requests, (held (message typ 5 [])).takesPacket 0 5 typ (message typ 5 []) ∧
      (held (message typ 5 [])).joinWaits (message typ 5 []) = false ∧
      ((held (message typ 5 [])).homeLine 0 5 256 (2 ^ 52 + 256)).xhold = some (0, 2000)) ∧
    ((cached (toCore 0x28)).takesPacket 0 160 0x28 (toCore 0x28) ∧
      ((cached (toCore 0x28)).core (toCore 0x28).dstCore).lines.find? (fun l => l.loc == 256 && l.excl.isSome) = some leased) ∧
    (cached (toCore 0x28)).endedLease 0 256 = some leased ∧
    (held (message 0x14 5 [])).takesPacket 0 5 0x14 (message 0x14 5 []) ∧
    ((held (message 0x14 5 [])).homeLine 0 5 256 (2 ^ 52 + 256)).xhold.map Prod.fst = some (message 0x14 5 []).srcCore ∧
    ((cached (toCore 0x13)).takesPacket 0 160 0x13 (toCore 0x13) ∧ (cached (toCore 0x13)).op? 7 = none ∧
      (cached (toCore 0x13)).l1 (toCore 0x13).dstCore 1 256 = some leased) ∧
    (let o : Op := { id := 7, grp := 0, core := 0, ctx := 1, lanes := 1, sb := 1, kind := .atomic 15 0 false false true
                     strong := true, acq := false, rel := false, scope := 0, parts := [], dsts := [], stage := .running
                     drain := none, notBefore := 0, failed := false, addr := 0, mark := false, port := 0, again := 0 }
     let t : State := { cached (toCore 0x13) with ops := [o] }
     t.takesPacket 0 160 0x13 (toCore 0x13) ∧ t.op? 7 = some o ∧ o.kind = .atomic 15 0 false false true) := by
  decide +kernel

/-- Acquires of a line that core 17 of context 2 has recorded, before and during its drain; a drain asked of an open and
of a closed core; its answer; and a drain one nanosecond before and after the time it waits for. -/
theorem witness_RecordsAndDrains :
    let acq (typ : Nat) : Packet := message typ 5 [1, 0, 0, 0, 0, 1]
    let s (typ : Nat) (d : Bool) : State :=
      withHome (fun h => { h with rrec := some (17, 2), draining := d }) (arrived (acq typ) State.reset)
    let dreq : Packet := { message 0x20 160 [] with sunit := 5 }
    let closed : State := (arrived dreq State.reset).updChip 0 fun c => { c with state := 1 }
    let e : Drain := ⟨256, 1, [], 2000, .home 0 5 256 (2 ^ 52 + 256)⟩
    let w (t : Nat) : State := { State.reset with ptime := t, drains := [(3, e)] }
    (∀ typ ∈ [0x02, 0x04], ∀ d ∈ [true, false], (s typ d).takesPacket 0 5 typ (acq typ) ∧ (acq typ).isAcquire = true ∧
      (s typ d).joinWaits (acq typ) = false ∧
      ((s typ d).homeLine 0 5 256 (2 ^ 52 + 256)).xhold = none ∧
      ((s typ d).homeLine 0 5 256 (2 ^ 52 + 256)).rrec = some (17, 2) ∧
      ((s typ d).homeLine 0 5 256 (2 ^ 52 + 256)).draining = d ∧ (17, 2) ≠ ((acq typ).srcCore, (acq typ).ctx)) ∧
    ((arrived dreq State.reset).takesPacket 0 160 0x20 dreq ∧ (arrived dreq State.reset).closedUnit 0 160 = false) ∧
    (closed.takesPacket 0 160 0x20 dreq ∧ closed.closedUnit 0 160 = true) ∧
    (arrived (message 0x21 5 []) State.reset).takesPacket 0 5 0x21 (message 0x21 5 []) ∧
    ((w 2000).drains.find? (fun x => x.1 == 3) = some (3, e) ∧ (w 2000).drainOver e = false) ∧
    ((w 2001).drains.find? (fun x => x.1 == 3) = some (3, e) ∧ (w 2001).drainOver e = true) := by decide +kernel

/-- An operation of core 0 that waits for an answer with tag 7. -/
def waitingOp (kind : OpKind) : Op :=
  { id := 7, grp := 0, core := 0, ctx := 1, lanes := 1, sb := 1, kind := kind, strong := false, acq := false, rel := false
    scope := 0, parts := [], dsts := [], stage := .running, drain := none, notBefore := 0, failed := false, addr := 0
    mark := false, port := 0, again := 0 }

/-- Data, old values and acknowledgements for an operation that waits, for none, for an agent of the base, for an engine,
for a unit that asked for nothing, and for a write-back on its way; a load under a lease with and without a line of its own; an answer of the filter. -/
theorem witness_AnswersReachTheirOperations :
    let p (typ unit : Nat) (aux : List Nat) : Packet := { message typ unit aux with sunit := 5 }
    let s (q : Packet) (l : List Op) : State := arrived q { State.reset with ops := l }
    let load : Op := waitingOp (.load 4 false)
    let ldt : Op := waitingOp (.ldt 255)
    let owned : State := (s (p 0x10 160 [1]) [load]).updCore 0 fun c => { c with lines := [leased] }
    (∀ typ ∈ [0x10, 0x11, 0x12], (s (p typ 160 []) []).takesPacket 0 160 typ (p typ 160 []) ∧ (p typ 160 []).dstCore < 256 ∧
      (s (p typ 160 []) []).isTicket 7 = false ∧ ({ s (p typ 160 []) [] with
        tickets := [⟨.host, [(7, 0)], [], 0⟩] } : State).isTicket 7 = true ∧
      (s (p typ 160 []) []).op? 7 = none ∧ (s (p typ 160 []) [load]).takesPacket 0 160 typ (p typ 160 []) ∧
      (s (p typ 160 []) [load]).op? 7 = some load) ∧
    (∀ unit ∈ [176, 183], ∀ typ ∈ [0x10, 0x11], (s (p typ unit []) []).takesPacket 0 unit typ (p typ unit []) ∧
      256 ≤ (p typ unit []).dstCore ∧ 176 ≤ (p typ unit []).dunit ∧ (p typ unit []).dunit < 184) ∧
    (∀ typ ∈ [0x10, 0x11], (s (p typ 184 []) []).takesPacket 0 184 typ (p typ 184 []) ∧ 256 ≤ (p typ 184 []).dstCore ∧
      184 ≤ (p typ 184 []).dunit) ∧
    ((p 0x10 160 []).aux.headD 0 ≠ 1 ∧ (p 0x10 160 [1]).aux.headD 0 = 1 ∧
      (s (p 0x10 160 [1]) [load]).takesPacket 0 160 0x10 (p 0x10 160 [1]) ∧
      (s (p 0x10 160 [1]) [load]).l1 0 1 256 = none ∧ owned.takesPacket 0 160 0x10 (p 0x10 160 [1]) ∧
      owned.l1 0 1 256 = some leased) ∧
    ((s (p 0x10 160 []) [ldt]).takesPacket 0 160 0x10 (p 0x10 160 []) ∧ (s (p 0x10 160 []) [ldt]).op? 7 = some ldt ∧
      ldt.kind = .ldt 255) ∧
    (let f : State := { s (p 0x11 160 []) [] with flights := [(7, ⟨0, 1, 256, []⟩)] }
     f.takesPacket 0 160 0x11 (p 0x11 160 []) ∧ (p 0x11 160 []).sunit ≠ unitFilter ∧
     f.flights.find? (fun e => e.1 == 7) = some (7, ⟨0, 1, 256, []⟩)) ∧
    (s (p 0x11 160 []) []).flights.find? (fun e => e.1 == 7) = none ∧
    (let q : Packet := { p 0x11 160 [] with sunit := unitFilter }
     (s q []).takesPacket 0 160 0x11 q ∧ q.dstCore < 256 ∧ q.sunit = unitFilter) := by decide +kernel

/-- Region 1 in a state. -/
def region1 (f : Region → Region) (s : State) : State := { s with regions := [(1, f Region.reset)] }

/-- Core 0's share of region 1 in context 1. -/
def share1 (units lastAdd : Nat) (answer : List (Nat × Nat)) : Share := ⟨1, 1, units, 0, lastAdd, true, [], answer⟩

/-- A share request in each state of the region, among them 2^32 units left and one fewer, and a largest holder with 2
units and with one; and what comes back, with and without a request that waits. -/
theorem witness_HazeSharesMove_atHome :
    let req : Packet := message 0x22 5 [1, 16]
    let s (f : Region → Region) : State := arrived req (region1 f State.reset)
    let back (typ : Nat) : Packet := message typ 5 [1, 3, 0]
    let few (n : Nat) (r : Region) : Region := { r with unalloc := 2 ^ 32 - 1, shares := [(3, 1, n)] }
    let asked : State := region1 (fun r => { r with asks := [req] }) (arrived (back 0x25) State.reset)
    (let x := (s id).updChip 1 fun c => { c with state := 1 }
     x.takesPacket 0 5 0x22 req ∧ (x.chip (isleOf (req.aux.getD 1 0))).state ≠ 0) ∧
    ((s id).takesPacket 0 5 0x22 req ∧ ((s id).chip (isleOf 16)).state = 0 ∧ ((s id).region 1).splitting = none ∧
      ((s id).region 1).loads = [] ∧ ((s id).region 1).unalloc < 2 ^ 32 ∧ ((s id).region 1).largest = none) ∧
    (((s fun r => { r with splitting := some 3 }).region 1).splitting = some 3 ∧
      (s fun r => { r with splitting := some 3 }).takesPacket 0 5 0x22 req) ∧
    (((s fun r => { r with loads := [(0, req)] }).region 1).loads ≠ [] ∧
      (s fun r => { r with loads := [(0, req)] }).takesPacket 0 5 0x22 req) ∧
    (2 ^ 32 ≤ ((s fun r => { r with unalloc := 2 ^ 32 }).region 1).unalloc ∧
      (s fun r => { r with unalloc := 2 ^ 32 }).takesPacket 0 5 0x22 req) ∧
    (∀ n ∈ [1, 2], (s (few n)).takesPacket 0 5 0x22 req ∧ ((s (few n)).region 1).unalloc < 2 ^ 32 ∧
      ((s (few n)).region 1).largest = some (3, 1, n)) ∧
    (∀ typ ∈ [0x25, 0x27], (arrived (back typ) (region1 id State.reset)).takesPacket 0 5 typ (back typ) ∧
      (State.reset.chip (isleOf ((back typ).aux.getD 2 0))).state = 0 ∧
      (let x := (arrived (back typ) (region1 id State.reset)).updChip 0 fun c => { c with state := 1 }
       x.takesPacket 0 5 typ (back typ) ∧ (x.chip (isleOf ((back typ).aux.getD 2 0))).state ≠ 0)) ∧
    ((region1 id State.reset).region 1).asks = [] ∧ (asked.takesPacket 0 5 0x25 (back 0x25) ∧
      (asked.region 1).asks = [req]) := by decide +kernel

/-- A grant, a refusal with and without a share; SPLIT, SETTLE and the idle time with no share, with one, and with one
already given up, empty or used a nanosecond less than 64 us ago. -/
theorem witness_HazeSharesMove_atCore :
    let p (typ n : Nat) : Packet := { message typ 160 [1, n] with sunit := 5 }
    let c (q : Packet) (l : List Share) : State := (arrived q { State.reset with ptime := 64000 }).updCore 0 fun c =>
      { c with shares := l }
    let left (l : List Share) : Option Share :=
      (((c (p 0x23 0) l).popUnit 0 160 (p 0x23 0)).waitersHome 0 1 1 fun _ => true).share? 0 1 1
    ((c (p 0x23 5) []).takesPacket 0 160 0x23 (p 0x23 5) ∧ (p 0x23 5).aux.getD 1 0 ≠ 0) ∧
    ((c (p 0x23 0) []).takesPacket 0 160 0x23 (p 0x23 0) ∧ (p 0x23 0).aux.getD 1 0 = 0 ∧ left [] = none) ∧
    ((c (p 0x23 0) [share1 0 0 []]).takesPacket 0 160 0x23 (p 0x23 0) ∧ left [share1 0 0 []] = some (share1 0 0 [])) ∧
    (∀ typ ∈ [0x24, 0x26], (c (p typ 0) []).takesPacket 0 160 typ (p typ 0) ∧ (c (p typ 0) []).share? 0 1 1 = none ∧
      ∀ h ∈ [share1 2 0 [], share1 0 0 [(0x25, 1)]], (c (p typ 0) [h]).takesPacket 0 160 typ (p typ 0) ∧
        (c (p typ 0) [h]).share? 0 1 1 = some h) ∧
    (∀ h ∈ [share1 2 0 [], share1 0 0 [], share1 2 0 [(0x25, 1)], share1 2 1 []], (c (p 0x24 0) [h]).share? 0 1 1 = some h) ∧
    ((share1 2 0 []).lastAdd + 64000 ≤ (c (p 0x24 0) []).ptime ∧ (c (p 0x24 0) []).ptime < (share1 2 1 []).lastAdd + 64000) := by
  decide +kernel

theorem look_of_absent {β : Type} (d v : β) (n k : Nat) (h : n ≤ k) : look d ((List.range n).map fun i => (i, v)) k = d := by
  have : ∀ l : List Nat, (∀ i ∈ l, i ≠ k) → look d (l.map fun i => (i, v)) k = d := by
    intro l
    induction l with
    | nil => intro _; rfl
    | cons a t ih => intro hl; simp only [List.map_cons, look, hl a (by simp), if_false]; exact ih fun i hi => hl i (by simp [hi])
  exact this _ fun i hi => by have := List.mem_range.mp hi; omega

theorem entries_of_run (v : List Nat) (n : Nat) (h : n ≤ 2 ^ 60) : entriesOf ((List.range n).map fun i => (i, v)) 0 = n := by
  have : ((List.range n).map fun i => (i, v)).filter (fun e => e.1 / 2 ^ 60 == 0) = (List.range n).map fun i => (i, v) := by
    apply List.filter_eq_self.mpr
    intro e he
    obtain ⟨i, hi, rfl⟩ := List.mem_map.mp he
    have : i < 2 ^ 60 := by have := List.mem_range.mp hi; omega
    simpa using this
  unfold entriesOf
  rw [this]
  simp

/-- A filter of 16,384 entries and a directory of 65,536, none of which is the line that a notice names. -/
theorem witness_TolerantLoadsAndFilters_full :
    look [] ((List.range 16384).map fun i => (i, [0])) (filterKey 0 (2 ^ 30)) = [] ∧
    16384 ≤ entriesOf ((List.range 16384).map fun i => (i, [0])) (clusterOf 0) ∧
    look [] ((List.range 65536).map fun i => (i, [0])) (dirKey 0 (2 ^ 30)) = [] ∧
    65536 ≤ entriesOf ((List.range 65536).map fun i => (i, [0])) 0 :=
  ⟨look_of_absent _ _ _ _ (by decide), (entries_of_run _ _ (by decide)).ge, look_of_absent _ _ _ _ (by decide),
    (entries_of_run _ _ (by decide)).ge⟩

/-- Tolerant loads within the tolerance (with nothing outstanding), beyond it, and while a settle is under way; an
hzsettle whose regions have all their units back and one that waits; notices at a filter and at a directory, of a core in
the map and out of it. -/
theorem witness_TolerantLoadsAndFilters :
    let ldt : Packet := message 0x06 5 [1, 0, 0, 7, 0]
    let s (f : Region → Region) : State := arrived ldt (region1 f State.reset)
    let p (typ n : Nat) : Packet := { message typ unitFilter ((List.range n).map fun _ => 0) with ctx := 1 }
    let closed : State := (arrived (p 0x29 4) State.reset).updChip 0 fun c => { c with state := 1 }
    let settle : Packet := { ldt with aux := [1, 256, 0, 7, 0] }
    let after (t : State) : State :=
      let s1 := t.popUnit 0 5 ldt
      let all := (t.region 1).loads ++ [(0, ldt)]
      (s1.updRegion 1 fun r => { r with loads := all }).updRegion 1 fun r =>
        { r with loads := all.filter fun e => !(e.1 != 256 && (t.region 1).within e.1) }
    ((s id).takesPacket 0 5 0x06 ldt ∧ ((s id).region 1).within 0 = true ∧ ((after (s id)).region 1).loads = []) ∧
    (let t := s fun r => { r with shares := [(3, 1, 1)] }
     t.takesPacket 0 5 0x06 ldt ∧ (t.region 1).within 0 = false ∧ ((after t).region 1).loads ≠ [] ∧
     ((after t).region 1).settling = [] ∧ ((after t).region 1).largest = some (3, 1, 1)) ∧
    (let t := s fun r => { r with shares := [(3, 1, 1)], settling := [(3, 1)] }
     t.takesPacket 0 5 0x06 ldt ∧ ((after t).region 1).loads ≠ [] ∧ ((after t).region 1).settling = [(3, 1)]) ∧
    (let t (l : List (Nat × Nat × Nat)) : State := region1 (fun r =>
       { r with loads := [(256, settle)], shares := l }) State.reset
     (t []).allSettled settle = true ∧ (t [(3, 1, 1)]).allSettled settle = false) ∧
    (∀ typ ∈ [0x29, 0x2A], ∀ n ∈ [4, 5], (arrived (p typ n) State.reset).takesPacket 0 unitFilter typ (p typ n) ∧
      (p typ n).aux.length = n ∧ (State.reset.chip (isleOf ((p typ n).aux.getD 1 0))).state = 0) ∧
    entriesOf State.reset.filters (clusterOf 0) < 16384 ∧ entriesOf State.reset.directory 0 < 65536 ∧
    (closed.takesPacket 0 unitFilter 0x29 (p 0x29 4) ∧ (closed.chip (isleOf ((p 0x29 4).aux.getD 1 0))).state ≠ 0) := by
  decide +kernel
/-- An array operation of block 0 on core 0, with its clocks to come or its end at a clock. -/
def matOp (kind : MatKind) (endAt : Option Nat) (read : Bool) : MatOp :=
  { MatOp.mk' 0 0 kind 0 16 16 read with id := 5, endAt := endAt }

/-- Core 0 with array operations. -/
def withOps (l : List MatOp) (s : State) : State := s.updCore 0 fun c => { c with mq := l }

/-- An arrival and releases at isle and core; a window of the slew limiter with a core that waits; a port with one
candidate; a flight for a unit and for a router, on its channel and on another; a buffer of 72 flits, and an empty one
that has signalled STOP. -/
theorem witness_BarrierUnitsAndRouters :
    let bar (aux : List Nat) : Packet := message 0x30 160 aux
    let at_ (aux : List Nat) : State := arrived (bar aux) inGroup
    let slew : State := withOps [matOp .zero none true] (inGroup.updCore 0 fun c => { c with admitted := false })
    let slewing : State := { slew.updCore 0 (fun c => { c with admitted := false, mq := [matOp .zero none true] }) with
      disp := { slew.disp with slewAt := some 0, slewGang := some 0 } }
    let p : Packet := message 0x01 5 []
    let routed : State := { State.reset with bclk := 1, mesh := { State.reset.mesh with inputs := [(inKey 0 4 p.vc, [p])] } }
    let flies (f : Flying) : State := { State.reset with bclk := 2, mesh := { State.reset.mesh with links := [f] } }
    let full : State := { State.reset with mesh := { State.reset.mesh with
      inputs := [(inKey 0 0 0, [{ p with dlen := 71 }])] } }
    let stopped : State := { State.reset with mesh := { State.reset.mesh with stops := [(stopKey 0 0 0, [(2, 0)])] } }
    ((at_ [0, 3, 0, 0]).takesPacket 0 160 0x30 (bar [0, 3, 0, 0]) ∧ (bar [0, 3, 0, 0]).aux.getD 3 0 = 0) ∧
    ((at_ [0, 3, 1000, 1]).takesPacket 0 160 0x30 (bar [0, 3, 1000, 1]) ∧ (bar [0, 3, 1000, 1]).aux.getD 3 0 = 1 ∧
      1000 ≤ (bar [0, 3, 1000, 1]).aux.getD 2 0) ∧
    ((at_ [0, 3, 0, 1]).takesPacket 0 160 0x30 (bar [0, 3, 0, 1]) ∧ (bar [0, 3, 0, 1]).aux.getD 2 0 < 1000 ∧
      ((at_ [0, 3, 0, 1]).gang 0).blocks.find? (fun b => ((at_ [0, 3, 0, 1]).blk b).num == 0 &&
        ((at_ [0, 3, 0, 1]).blk b).live) = some 0) ∧
    ((at_ [0, 3, 999, 1]).takesPacket 0 160 0x30 (bar [0, 3, 999, 1]) ∧ (bar [0, 3, 999, 1]).aux.getD 2 0 < 1000 ∧
      ((at_ [0, 3, 999, 1]).gang 0).blocks.find? (fun b => ((at_ [0, 3, 999, 1]).blk b).num == 999 &&
        ((at_ [0, 3, 999, 1]).blk b).live) = none) ∧
    (slewing.slewDue = true ∧ ((slewing.slewOrder 0).take slewing.disp.slewa).getLast? = some 0) ∧
    (routed.arbitrates 0 4 = true ∧ (routed.choose 0 4 (routed.candidates 0 4)).2 = some ⟨4, p⟩) ∧
    (∀ f ∈ [⟨2, 0, none, p⟩, ⟨2, 0, some 1, p⟩, ⟨2, 0, some 1, { p with vc := vcR }⟩],
      (flies f).mesh.links[0]? = some f ∧ (flies f).arrives 0 = true) ∧
    channelOf p.typ = p.vc ∧ channelOf { p with vc := vcR }.typ ≠ { p with vc := vcR }.vc ∧
    (full.signalsStop (stopKey 0 0 0) = false ∧ 72 ≤ full.bufferFlits 0 0 0) ∧
    (stopped.signalsStop (stopKey 0 0 0) = true ∧ stopped.bufferFlits 0 0 0 ≤ 64) := by decide +kernel

/-- A group with a handler to go to; TVEC 0, TVEC misaligned, and trap mode. -/
theorem witness_TakingATrap :
    (0 < withVector.groups.length ∧ (withVector.grp 0).handler = .none ∧ (withVector.grp 0).ctl.trapMode = false ∧
      (withVector.grp 0).ctl.tvec ≠ 0 ∧ (withVector.grp 0).ctl.tvec.toNat % 4 = 0 ∧
      0 < (withVector.grp 0).ctl.fibs.length ∧ (1 : W32).getLsbD 0 = true ∧ (1 : W32).getLsbD 31 = false) ∧
    ((inGroup.grp 0).handler = .none ∧ (inGroup.grp 0).ctl.tvec = 0) ∧
    (let s := controlled (fun c => { c with tvec := 0x30002 }) inGroup
     (s.grp 0).handler = .none ∧ (s.grp 0).ctl.tvec.toNat % 4 ≠ 0) ∧
    ((trapped.grp 0).handler = .none ∧ (trapped.grp 0).ctl.trapMode = true) := by decide +kernel

/-- Tables of context 1 that map its first GiB, all accesses, to the first GiB of isle 0, with more bytes in memory. -/
def withTables (cells : List Host.Cell) (s : State) : State :=
  { s with mem := [(0x20000, 1), (0x20002, 3), (0x30000, 0x5F)] ++ cells }.updCtx 1 fun c => { c with root := 0x20000 }

/-- The clause of the groups above. -/
def oneClause : Clause := ⟨0x10000, plainHeader 0 1, [0x04100000]⟩

/-- The same clause with wait mask W = 1, and with a guard on p0. -/
def waitClause : Clause := ⟨0x10000, plainHeader 0 1 + 2 ^ 18, [0x04100000]⟩
def guardClause : Clause := ⟨0x10000, 2 ^ 26, [0x04100000]⟩

/-- Lane 0 changed. -/
def lane0 (f : Fibre → Fibre) (s : State) : State := s.updGrp 0 fun g => g.updFib 0 f

/-- A walk of context 1 for the page of 64 KiB at 0x20000 that has passed `level` levels and come to a table. -/
def walkAt (level table : Nat) : Walk := ⟨9, 0, 1, 2, 0, level, table, [(.group 0 0, 2)], none⟩

/-- A unit's send queue that holds one flit more than its size, whatever that is. -/
theorem witness_SendQueuesFill (unit : Nat) : ({ State.reset with mesh := { State.reset.mesh with
    sendq := [(unitKey 0 unit vcL, [{ message 0x02 5 [] with dlen := Config.sendQueue unit }])] } } : State).sendFull
      0 unit vcL = true := by
  have h : look [] [(unitKey 0 unit vcL, [{ message 0x02 5 [] with dlen := Config.sendQueue unit }])]
      (unitKey 0 unit vcL) = [{ message 0x02 5 [] with dlen := Config.sendQueue unit }] := by simp [look]
  simp [State.sendFull, h, flitsOf, Packet.flits]

/-- The group's isle walks. -/
def walks (w : Walk) : State := { inGroup with walks := [w] }

/-- The entry of a level has come, with poison marks. -/
def comes (level entry poison : Nat) : State := { walks (walkAt level 0x20000) with
  tickets := [⟨.walk 9, [], [(level, BitVec.ofNat 1024 entry, poison)], 0⟩] }

/-- Walks past the last level, without a root, at a table of no memory, and that ask: at home, of a next table 0, and
where the table's space goes. -/
theorem witness_GroupEventsAct_asks :
    (∀ w ∈ [walkAt 4 0x20000, walkAt 0 0, walkAt 0 (5 * 2 ^ 52), walkAt 0 0x20000, walkAt 1 0, walkAt 0 (3 * 2 ^ 52)],
      ((walks w).walksReady 0).find? (fun k => k.ctx == 1 && k.vpn == 2) = some w) ∧
    levels.drop (walkAt 4 0x20000).level = [] ∧ (walkAt 0 0).level = 0 ∧ (walkAt 0 0).table = 0 ∧
    (levels.drop 0).head? = some ⟨43, 14, 17, false, false⟩ ∧ (levels.drop 1).head?.isSome = true ∧
    inGroup.namesMemory (5 * 2 ^ 52 + 8 * bits (2 * 2 ^ 16) 43 14) = false ∧
    (∀ w ∈ [walkAt 0 0x20000, walkAt 1 0, walkAt 0 (3 * 2 ^ 52)],
      (∀ l ∈ (levels.drop w.level).head?, inGroup.namesMemory (w.table + 8 * bits (2 * 2 ^ 16) l.lo l.wd) = true) ∧
      ((walks w).ticket (.walk 9)).lines.find? (fun e => e.1 == w.level) = none) := by decide +kernel

/-- Walks to which a table, poison, nothing and a leaf have come. -/
theorem witness_GroupEventsAct_comes :
    (∀ e ∈ ([(0, 0x30001, 0), (0, 0x30001, 1), (1, 0, 0), (1, 0x5F, 0)] : List (Nat × Nat × Nat)),
      ((comes e.1 e.2.1 e.2.2).walksReady 0).find? (fun k => k.ctx == 1 && k.vpn == 2) = some (walkAt e.1 0x20000) ∧
      ((comes e.1 e.2.1 e.2.2).ticket (.walk 9)).lines.find? (fun x => x.1 == e.1) =
        some (e.1, BitVec.ofNat 1024 e.2.1, e.2.2)) ∧
    inGroup.entryOf 1 (2 * 2 ^ 16) levels 0x30001 = .table 0x30000 ∧
    inGroup.entryOf 1 (2 * 2 ^ 16) (levels.drop 1) 0 = .absent ∧
    inGroup.entryOf 1 (2 * 2 ^ 16) (levels.drop 1) 0x5F = .leaf ⟨1, 30, 0, 0, 1, true, true, true⟩ := by decide +kernel

/-- Operations that finish well and with a failure, a write that is due, a clause whose guard is false, a failed counter
that a clause waits for, and time-outs at 2^24 clocks. -/
theorem witness_GroupEventsAct :
    let op (failed : Bool) : Op := { waitingOp (.load 4 false) with stage := .finished, failed := failed }
    let ends (failed : Bool) : State := { inGroup with ops := [op failed] }
    let due : State := inGroup.updGrp 0 fun g => { g with pend := [⟨0, 0, .v 0 63, 1, false⟩] }
    let skip : State := lane0 (fun f => { f with code := some guardClause }) inGroup
    let fails : State := controlled (fun c => { c with memErr := [(7 * 8 + 1, 0x20000)] })
      (lane0 (fun f => { f with code := some waitClause, pc := 0x10000, waited := true }) inGroup)
    let late : State := lane0 (fun f => { f with wdog := 2 ^ 24 }) inGroup
    let seq : State := { inStream with blocks := inStream.blocks.map fun b =>
      { b with seq := { b.seq with wdog := 2 ^ 24, code := some oneClause } } }
    (∀ failed ∈ [true, false], (ends failed).op? 7 = some (op failed) ∧ (op failed).stage = .finished ∧
      (op failed).notBefore ≤ (ends failed).clockOf 0 ∧ (op failed).grp < (ends failed).groups.length ∧
      ((op failed).failed || (!(op failed).dsts.isEmpty && (op failed).parts.any (·.poison))) = failed) ∧
    ((due.grp 0).live = true ∧ (due.grp 0).pend.any (fun p => decide (p.due ≤ due.clockOf 0)) = true) ∧
    (0 < skip.groups.length ∧ (BitVec.ofNat 32 1).getLsbD 0 = true ∧ ((skip.grp 0).fib 0).occ = true ∧
      ((skip.grp 0).fib 0).code = some guardClause ∧ ((skip.grp 0).fib 0).guardTrue guardClause = false ∧
      (BitVec.ofNat 32 1).getLsbD 31 = false) ∧
    (let set := fails.errorLanes 0 ((fails.grp 0).fib (firstLane (BitVec.ofNat 32 1))).pc
     set ≠ 0 ∧ set = BitVec.ofNat 32 1 ∧ ((fails.grp 0).fib (firstLane set)).code = some waitClause) ∧
    (late.timeoutLanes 0 ≠ 0 ∧ late.timeoutLanes 0 = BitVec.ofNat 32 1 ∧
      ((late.grp 0).fib (firstLane (late.timeoutLanes 0))).code = some oneClause) ∧
    ((seq.blk 0).live = true ∧ (seq.blk 0).seq.stopped = false ∧ 2 ^ 24 ≤ (seq.blk 0).seq.wdog ∧
      (seq.blk 0).seq.code = some oneClause) := by decide +kernel
/-- A gang all of whose groups have retired. -/
def gone : State := { inGroup with
  groups := inGroup.groups.map fun g => { g with retired := true }
  blocks := inGroup.blocks.map fun b => { b with seq := { b.seq with done := true } } }

/-- The same with its blocks retired and a join counter. -/
def ended (join : W64) : State := { gone with
  blocks := gone.blocks.map fun b => { b with retired := true }
  gangs := gone.gangs.map fun k => { k with record := { k.record with join := join } } }

/-- An empty group, the last of its block, of its gang. -/
theorem witness_GangsComeAndGo_retire :
    let empty : State := lane0 (fun f => { f with occ := false }) inGroup
    (empty.mayRetireGroup 0 = true ∧ 0 < empty.groups.length) ∧ (gone.mayRetireBlock 0 = true ∧ 0 < gone.blocks.length) ∧
    ((ended 0).mayRetireGang 0 = true ∧ ((ended 0).gang 0).record.join = 0) ∧
    ((ended 0x40000).mayRetireGang 0 = true ∧ ((ended 0x40000).gang 0).record.join ≠ 0) := by decide +kernel

/-- A decrement of the counter at 0x40000, with the pages in isle 0's cache and the lines that have come. -/
def joining (tlb : List TlbEnt) (lines : List (Nat × LineData × Nat)) : State := { ended 0x40000 with
  disp := { (ended 0x40000).disp with joins := [⟨0, 0x40000, 1⟩] }, itlb := [(0, tlb)]
  tickets := [⟨.join 0, [], lines, 0⟩] }

/-- The page of the counter, with its accesses. -/
def counterPage (pa : Nat) (r w : Bool) : TlbEnt := ⟨1, 16, 4, pa, 1, r, w, true⟩

/-- A decrement that misses, that may not be made, whose page is no memory, and that is sent; one whose old value was 0,
1 and 2, or poisoned; and after 1 the block that is asked for, that may not be read, and that has come, with and without
poison. -/
theorem witness_GangsComeAndGo_joins :
    let line (k old poison : Nat) : Nat × LineData × Nat := (k, BitVec.ofNat 1024 old, poison)
    let loads (s : State) : SchedReply := s.schedLoad (.join 0) 1 1 0x40000
    let waits : SchedReply → Bool := fun r => match r with
      | .wait _ => true
      | _ => false
    (∀ p ∈ [[], [counterPage 0x40000 true true], [counterPage 0x40000 true false], [counterPage (3 * 2 ^ 52) true true]],
      (joining p []).disp.joins.find? (fun j => j.gang == 0 && (joining p []).joinDue j) = some ⟨0, 0x40000, 1⟩ ∧
      ((joining p []).ticket (.join 0)).lines.find? (fun e => e.1 == 0) = none) ∧
    (joining [] []).lookup (.agent (.join 0)) none 0 1 0x40000 .both = .miss ∧
    (joining [counterPage 0x40000 true false] []).lookup (.agent (.join 0)) none 0 1 0x40000 .both = .bad .permission ∧
    (joining [counterPage (3 * 2 ^ 52) true true] []).lookup (.agent (.join 0)) none 0 1 0x40000 .both =
      .ok ⟨3 * 2 ^ 52, 1⟩ ∧
    (joining [] []).homeOfXl 1 ⟨3 * 2 ^ 52, 1⟩ = none ∧
    (joining [counterPage 0x40000 true true] []).lookup (.agent (.join 0)) none 0 1 0x40000 .both = .ok ⟨0x40000, 1⟩ ∧
    (joining [] []).homeOfXl 1 ⟨0x40000, 1⟩ = some ⟨0, 64, 0x40000⟩ ∧
    ((joining [] []).tookWalks (.agent (.join 0))).sendFull 0 unitSched vcL = false ∧
    (∀ old ∈ [0, 1, 2], ∀ poison ∈ [0, 15], (joining [] [line 0 old poison]).disp.joins.find? (fun j => j.gang == 0 &&
        (joining [] [line 0 old poison]).joinDue j) = some ⟨0, 0x40000, 1⟩ ∧
      ((joining [] [line 0 old poison]).ticket (.join 0)).lines.find? (fun e => e.1 == 0) = some (line 0 old poison)) ∧
    waits (loads (joining [] [line 0 1 0])) = true ∧
    loads (joining [counterPage 0x40000 false true] [line 0 1 0]) = .bad ∧
    (∀ poison ∈ [0, 1], loads (joining [] [line 0 1 0, line 1 0 poison]) = .got 0 poison) := by decide +kernel

/-- A queue whose head holdback may hold and that is to be asked for, whose head has come, and whose head cannot be read;
a popped record that is still to be asked for, one that has come, and one that cannot be read. -/
theorem witness_GangsComeAndGo_pop :
    let queued (lines : List (Nat × LineData × Nat)) (poison : Bool) : State := { State.reset with
      tickets := [⟨.queue 3, [], lines.map fun e => (e.1, e.2.1, if poison then 15 else e.2.2), 0⟩]
      disp := { State.reset.disp with
        mload := [(1, 2)], hot := [(0, 1)]
        queues := [(3, { Queue.reset with en := true, tail := 1, len := 64, owner := 1 })] } }
    let come : List (Nat × LineData × Nat) := [(0, 0, 0), (1, 0, 0)]
    let p : Popping := ⟨9, 3, 0, 1, 0⟩
    let popped (lines : List (Nat × LineData × Nat)) : State := { State.reset with
      tickets := [⟨.pop 9, [], lines, 0⟩], disp := { State.reset.disp with popping := [p] } }
    ((queued [] false).popReady = none ∧ (queued [] false).askHead = some 3) ∧
    (∀ poison ∈ [true, false], (queued come poison).popReady = none ∧ (queued come poison).askHead = none ∧
      (queued come poison).popDue = true) ∧
    (∀ l ∈ [[], come, [(0, 0, 15)]], (popped l).popReady = some p) ∧
    (match (popped []).readRecord (.pop 9) 1 0 with
      | .wait _ => true
      | .got .. => false) = true ∧
    (popped come).readRecord (.pop 9) 1 0 = .got 0 (some 0) none ∧ recordOk 0 (some 0) none = true ∧
    (popped [(0, 0, 15)]).readRecord (.pop 9) 1 0 = .got 0 none none ∧ recordOk 0 none none = false := by decide +kernel

/-- A pass with nothing to place, with a gang that fits, one that is held back, one whose image a core holds exclusively
and one that never fits; an entry after
100 us; and windows that have ended. -/
theorem witness_GangsComeAndGo_places :
    let p (desc : Nat) : Pending :=
      { queue := 3, task := 0, record := Record.zero, desc := desc, ctx := 1, pri := 0, since := 0, blocks := false }
    let pass (l : List Pending) : State := { State.reset with
      chips := [(0, { Chip.reset with inMap := true })], ptime := 100000
      disp := { State.reset.disp with passDue := true, pending := l, mload := [(1, 2)], hot := [(0, 1)] } }
    let begun (l : List Pending) : State := (pass l).updDisp fun d => { d with passDue := false }
    (∀ l ∈ [[], [p 0], [p (2 ^ 624)], [p (2 ^ 540)]], (pass l).disp.passDue = true ∧ (pass l).disp.pending = l) ∧
    ((begun [p 0]).neverFits (p 0) = false ∧ (begun [p 0]).heldBack 1 (p 0).desc = false ∧
      (begun [p 0]).imageBusy (p 0) = false ∧ (begun [p 0]).fitting (p 0) = some ([0], 0)) ∧
    (let q : Pending := { p 0 with record := { Record.zero with resume := true, image := 0x20000 } }
     let s : State := { begun [q] with homes := [(2, { HomeLine.none with
       xhold := some (0, 2000), site := some (0, 5, 0x20000) })] }
     s.neverFits q = false ∧ s.heldBack 1 q.desc = false ∧ s.imageBusy q = true) ∧
    ((begun [p (2 ^ 624)]).neverFits (p (2 ^ 624)) = false ∧
      (begun [p (2 ^ 624)]).heldBack 1 (p (2 ^ 624)).desc = true) ∧
    (begun [p (2 ^ 540)]).neverFits (p (2 ^ 540)) = true ∧
    (List.range (pass [p 0]).disp.pending.length).find? (pass [p 0]).blocksNow = some 0 ∧
    (let s : State := { State.reset with ptime := 10000 }
     look 0 s.timers 5601 < s.ptime / 10000) ∧
    (let s : State := { State.reset with ptime := 10000, timers := [(5601, 1)] }
     look 0 s.timers 5602 < s.ptime / 10000 ∧ s.ptime / 10000 ≤ look 0 s.timers 5601) := by decide +kernel

/-- A copy command of 32 sectors for tile 0. -/
def command (kind : CmdKind) (sent : Nat) : Cmd :=
  { inGroup.newCmd kind false 1 20 0 ⟨0x20000, 32, [1, 1, 1, 1], [0, 0, 0, 0]⟩ with id := 9, rows := 16, kk := 4, sent := sent }

/-- Block 0 with that command and tile 0. -/
def withCommand (c : Cmd) : State := { withBanks [(0, tileOf 1 0)] inGroup with cmds := [c] }

/-- A multiply whose reads are due, with and without an error in an operand, and one whose writes may land, and a
clearing of rows; bursts that start, and that end with and without a token; a free token. -/
theorem witness_EnginesAct_arrays :
    let mma : MatKind := .mma 0 1 16 0 false false false false false
    let reads (l : List ErrAt) : State := { withOps [matOp mma (some 0) false]
      (withBanks [(0, tileOf 2 0), (1, tileOf 2 0)] inGroup) with errs := l }
    let lands (k : MatKind) : State := withOps [matOp k (some 0) true] inGroup
    let idle : State := withOps [matOp .zero none true] inGroup
    let bursting (token : Bool) : State := inGroup.updCore 0 fun c => { c with bursting := true, burst := 256, token := token }
    let tokens : State := inGroup.updChip 0 fun c => { c with ring := [3] }
    (∀ l ∈ [[], [ErrAt.word 0 (4 * 24576)]], ((reads l).core 0).mq.find? MatOp.readsDue = some (matOp mma (some 0) false) ∧
      (reads l).operandsBad (matOp mma (some 0) false) = !l.isEmpty) ∧
    (∀ k ∈ [mma, .zero], ((lands k).core 0).mq.find? ((lands k).mayLand 0) = some (matOp k (some 0) true) ∧
      (matOp k (some 0) true).owner = none ∧ (matOp k (some 0) true).cmd = none) ∧
    idle.burstStarts 0 = true ∧ (∀ t ∈ [true, false], (bursting t).burstEnds 0 = true ∧ ((bursting t).core 0).token = t) ∧
    tokens.tokensDue 0 = true := by decide +kernel

/-- A copy, a store and adds before and after their last transfer; sectors that stand ready, the last of them too; a loop
that asks for its slabs and one that iterates; a command that may resume. -/
theorem witness_EnginesAct_commands :
    let arriving (l : List Nat) : Cmd := { command .tcopy 32 with got := List.range 32, arrived := l }
    let hz (n : Nat) : Cmd := { command .tstoreHz n with got := [0] }
    let loop (n : Nat) : Cmd := { command .mloop 0 with
      runB := ⟨0x28000, 1, [1, 1, 1, 1], [0, 0, 0, 0]⟩, pitch := [64, 64], got := List.range n }
    let faulted : Cmd := { command .tcopy 0 with fault := some (0x11, 0x20000) }
    (∀ c ∈ [command .tcopy 31, command .tstore 31, command .tstore 32, hz 63, hz 64, loop 0], (withCommand c).cmd? 9 = some c ∧
      (withCommand c).mayTransfer c = true) ∧
    ((command .tstore 31).sent < (command .tstore 31).total ∧ (command .tstore 32).total ≤ (command .tstore 32).sent ∧
      (hz 63).sent < (hz 63).total ∧ (hz 64).total ≤ (hz 64).sent) ∧
    (∀ l ∈ [[], List.range 31], (withCommand (arriving l)).cmd? 9 = some (arriving l) ∧
      (withCommand (arriving l)).readySector (arriving l) = some l.length) ∧
    ((arriving []).arrived.length + 1 ≠ (((withCommand (arriving [])).blk 0).tile 0 0).bytes / 32 ∧
      (arriving (List.range 31)).arrived.length + 1 = (((withCommand (arriving [])).blk 0).tile 0 0).bytes / 32) ∧
    ((withCommand (loop 64)).cmd? 9 = some (loop 64) ∧ (withCommand (loop 64)).mayIterate (loop 64) = true) ∧
    ((withTables [] (withCommand faulted)).cmd? 9 = some faulted ∧
      (withTables [] (withCommand faulted)).mayResume faulted = true) := by decide +kernel

/-- Channel 7 of isle 0 with a head at 0x20000, in a state. -/
def chained (f : Chan → Chan) (tlb : List TlbEnt) (lines : List (Nat × LineData × Nat)) : State :=
  { inGroup.updChan (chanKey 0 7) fun c => f { c with heads := [⟨1, 0x20000⟩] } with
    itlb := [(0, tlb)], tickets := [⟨.chan (chanKey 0 7), [], lines, 0⟩] }

/-- A channel that has a code to write; whose record is asked for, may not be read, and has come: poisoned, not its own,
with a count of 0, misaligned at the lowest bit that R316 fixes of each address, to copy, and copied. -/
theorem witness_EnginesAct_chains :
    let key := chanKey 0 7
    let counts : Nat := 2 ^ 192 + 2 ^ 208 + 2 ^ 224 + 2 ^ 240 + 2 ^ 256
    let good : Nat := counts + 2 ^ 272
    let read (tlb : List TlbEnt) (lines : List (Nat × LineData × Nat)) : Asked :=
      ((chained id tlb lines).updChan key fun c => { c with fault := none }).chanRecord key 3 ⟨1, 0x20000⟩
    let waits : Asked → Bool := fun r => match r with
      | .wait _ => true
      | _ => false
    (∀ s ∈ [chained id [] [], chained (fun c => { c with stop := some (0x13, 0x20000, []) }) [] []],
      (s.chan key).heads = [⟨1, 0x20000⟩] ∧ s.mayWalk key = true) ∧
    ((chained (fun c => { c with stop := some (0x13, 0x20000, []) }) [] []).chan key).stop = some (0x13, 0x20000, []) ∧
    ((chained id [] []).chan key).stop = none ∧
    waits (read [] []) = true ∧ waits (read [⟨1, 16, 2, 2 ^ 52 + 0x20000, 0, true, true, true⟩] []) = true ∧
    read [⟨1, 16, 2, 2 ^ 52 + 0x20000, 0, false, true, true⟩] [] = .fault .permission 0x20000 ∧
    (∀ x ∈ ([(0, 1), (good, 0)] : List (Nat × Nat)), read [] [(3, BitVec.ofNat 1024 x.1, x.2)] = .got (BitVec.ofNat 1024 x.1) x.2) ∧
    (transferOf counts).own = false ∧ (transferOf good).own = true ∧
    (∀ k ∈ [192, 208, 224, 240, 256], (transferOf (good - 2 ^ k)).own = true ∧ (transferOf (good - 2 ^ k)).emptyRun = true) ∧
    (∀ k ∈ [5, 68, 132], (transferOf (good + 2 ^ k)).own = true ∧ (transferOf (good + 2 ^ k)).emptyRun = false ∧
      (transferOf (good + 2 ^ k)).misaligned = true) ∧
    ((transferOf good).emptyRun = false ∧ (transferOf good).misaligned = false ∧ (transferOf good).src.sectors = 1) := by
  decide +kernel

/-- Frequency moves at their end; a sample and an interval; each ceiling message at its last nanosecond in time and one
later; the apply instant, suspicion at 1,000,001 ns, expulsion and being expelled at 2,000,000 ns; a bite below the
limit in and out of a group; and both sides of the time exchange. -/
theorem witness_ClocksCeilingsAndTime :
    let moves (st : RampSt) : State := { State.reset with bclk := 500 }.updCluster 63 fun c => { c with st := st, endAt := 500 }
    let at_ (t : Nat) : State := { State.reset with ptime := t }.updPort 31 fun p => { p with up := true }
    let group (t : Nat) (f : Ceil → Ceil) : State := (at_ t).updCeil fun c => f { c with en := true }
    let m : CeilMsg := ⟨1, 60, 50, 0, 1, 1000⟩
    let member (x : Member) (c : Ceil) : Ceil := { c with members := [(1, x)] }
    let waits : Waiting := ⟨101000, 1, m⟩
    let timed (master : Bool) (t : Nat) : State := (at_ t).updSync fun y => { y with master := master }
    (∀ st ∈ [.fstep, .ramp], ((moves st).cluster 63).st = st ∧ ((moves st).cluster 63).endAt ≤ (moves st).bclk) ∧
    Cluster.reset.pendStep = none ∧
    (look 0 (at_ 1000).timers (5200 + 63) ≠ (at_ 1000).ptime / 1000 ∧ look 0 (at_ 1000).timers (5300 + 63) ≠ (at_ 1000).ptime / 1000 ∧
      ((at_ 1000).cluster 63).waiting = [] ∧ ((at_ 1000).cluster 63).budget = 0) ∧
    ((at_ 0).upPorts = [31] ∧ ((at_ 0).port 31).up = true) ∧ ((group 0 id).ceil.en = true ∧ m.group = (group 0 id).ceil.mcast ∧ m.sender ≠ (group 0 id).ceil.self ∧
      ((group 0 id).ceil.member 1).gone = false) ∧
    ((at_ 101000).ptime ≤ m.a + 100000 ∧ m.a + 100000 < (at_ 101001).ptime ∧ (at_ 401000).ptime ≤ m.a + 400000 ∧
      m.a + 400000 < (at_ 401001).ptime) ∧
    (let s := group 100000 id
     s.ceil.en = true ∧ s.ceil.lastSent + s.ceil.hbint * 1000 ≤ s.ptime) ∧
    (let s := group 101000 fun c => { c with waiting := [waits] }
     s.instantDue = some waits.at_ ∧ s.ceil.waiting = [waits]) ∧
    (let powers (p : Nat) : State := (at_ 0).updCeil fun c => { c with powers := List.replicate 9 p }
     ((9000 :: (powers 9000).ceil.powers).take 10).sum ≤ 90000 ∧ 90000 < ((9001 :: (powers 9000).ceil.powers).take 10).sum) ∧
    min (at_ 0).ceil.plim (at_ 0).ceil.swcap ≤ 68 ∧
    (group 1000001 (member { Member.absent with present := true })).newSuspects = [1] ∧
    (group 1000000 (member { Member.absent with present := true })).newSuspects = [] ∧
    (group 2000000 (member { Member.absent with present := true })).newExpelled = [1] ∧
    (group 2000001 (member { Member.absent with present := true, h := 1 })).expelledDue = true ∧
    (67 < min (at_ 0).ceil.plim (at_ 0).ceil.swcap ∧ (at_ 0).ceil.en = false ∧ (group 0 id).ceil.en = true ∧
      67 < min (group 0 id).ceil.plim (group 0 id).ceil.swcap) ∧
    (∀ master ∈ [true, false], (timed master 128000).syncDue = true ∧ (timed master 128000).sync.master = master) ∧
    (0 = (timed false 0).sync.upport) ∧
    (let s := (timed false 0).updSync fun y => { y with t2 := some (5, 10, 3), exchanges := [⟨4, 1, 10, some 20, 3⟩] }
     s.sync.t2 = some (5, 10, 3) ∧ s.sync.exchanges.find? (fun e => e.id == 4) = some ⟨4, 1, 10, some 20, 3⟩) ∧
    (let s := (timed false 0).updSync fun y => { y with locked := true, misses := 8 }
     s.sync.locked = true ∧ 8 ≤ s.sync.misses) := by decide +kernel

/-- A probe at 4 us, its answer, and its want at 16 us; pressure at 64 us; chiplets in the map, fenced and in self-test;
ports up, down and retraining; a NAK of a flit that stands in the replay buffer, of the second flit of a message, of one
that does not, and the eighth. -/
theorem witness_ContainmentActs :
    let up : State := { State.reset with ptime := 64000, chips := [(0, { Chip.reset with inMap := true })] }
    let chip (st : Nat) : State := State.reset.updChip 0 fun c => { c with state := st }
    let probed : State := up.updCore 3 fun c => { c with probe := some 48000, pressed := some 0 }
    let port (f : VPort → VPort) : State := State.reset.updPort 31 fun p => f { p with up := true }
    let left : VPort → VPort := fun p => { p with replay := [(5, 0, .control)] }
    let two : VPort → VPort := fun p => { p with replay := [(4, 0, .control), (5, 0, .write 0 [1] 0)] }
    (up.chipUp 0 = true ∧ look 0 up.timers (5900 + 0) < up.ptime / 4000) ∧ (up.core 3).hung = false ∧
    (∃ e ∈ probed.cores, isleOf e.1 = 0 ∧ e.2.probe = some 48000 ∧ 48000 + 16000 ≤ probed.ptime ∧ e.2.pressed = some 0 ∧
      0 + 64000 ≤ probed.ptime) ∧ probed.chipUp 0 = true ∧ State.reset.chipUp 0 = false ∧
    ((chip 1).chip 0).state = 1 ∧ ((chip 2).chip 0).state = 2 ∧ ((port id).port 31).up = true ∧
    (State.reset.port 31).up = false ∧ 4 < ({ State.reset.mgmt with phase := 5 }).phase ∧
    ((port fun p => { p with retraining := some 9 }).port 31).retraining.isSome = true ∧
    ((port left).port 31).retraining = none ∧ (((port left).port 31).left.dropWhile fun e => !holdsFlit 5 e) = [(5, 0, .control)] ∧
    (((port two).port 31).left.dropWhile fun e => !holdsFlit 6 e) = [(5, 0, .write 0 [1] 0)] ∧
    (∀ e ∈ ((port left).port 31).left, holdsFlit 6 e = false) ∧
    (let p := (port fun p => { p with naks := 7, nakSeq := 5 }).port 31
     p.up = true ∧ p.retraining = none ∧ 8 ≤ if p.nakSeq = 5 then p.naks + 1 else 1) := by decide +kernel

/-- A flit of the expected number 4,095 and of another; the eighth error; requests of a peer that may be performed, that
wait for their lines and whose lines have come, and that may not; the host port up and in recovery; a request of the host
that waits and one whose lines have come; its windows on memory and on the registers. -/
theorem witness_PortsAndHostActs :
    let port (f : VPort → VPort) : State := State.reset.updPort 31 fun p => f { p with up := true, expect := 4095 }
    let asks (m : PeerMsg) : State := (port fun p => { p with bufs := [(0, [m])] }).updMgmt fun x => { x with pen := true }
    let come (a : Agent) (s : State) : State := { s with tickets := [⟨a, [], [(2, 0, 0)], 0⟩] }
    let refused (m : PeerMsg) : State := (asks m).updMgmt fun x => { x with pen := false }
    let host (rec_ : Bool) (win : Nat) : State := State.reset.updMgmt fun m => { m with recovery := rec_, phase := 5, hwin := win }
    ((port id).port 31).up = true ∧ ((port id).port 31).retraining = none ∧ 4095 = ((port id).port 31).expect ∧
    8 ≤ ((port fun p => { p with rxNaks := 7 }).port 31).rxNaks + 1 ∧
    (seqFrom 4095 0 = 1 ∧ ((port id).port 31).got + seqFrom 4095 0 < peerFlits (.write 256 [1, 2] 1) ∧
      peerFlits .control ≤ ((port id).port 31).got + seqFrom 4095 0 ∧ 4094 ≠ ((port id).port 31).expect) ∧
    (∀ m ∈ [PeerMsg.read 256 128 1, .write 256 [1, 2] 1], ((asks m).port 31).request = some (0, m) ∧
      ((refused m).port 31).request = some (0, m) ∧ ((come (.peer 31) (asks m)).port 31).request = some (0, m)) ∧
    (∀ n ∈ [128, 2], (asks .control).peerOk ((asks .control).mgmt.pwin + 256 % 2 ^ 39) n = true ∧
      (refused .control).peerOk 256 n = false) ∧
    ((asks .control).readLines (.peer 31) unitVreles 256 128).2 = none ∧
    ((come (.peer 31) (asks .control)).readLines (.peer 31) unitVreles 256 128).2 = some (List.replicate 128 0, false) ∧
    ((asks .control).writeLines (.peer 31) unitVreles 256 [1, 2]).2 = false ∧
    ((come (.peer 31) (asks .control)).writeLines (.peer 31) unitVreles 256 [1, 2]).2 = true ∧
    (host false 0).mgmt.recovery = false ∧ (host false 0).hostUp = true ∧ (host true 0).mgmt.recovery = true ∧
    (host false 0).mgmt.hostQ = [] ∧ (host true 0).mgmt.hostQ = [] ∧
    ((host false 0).windowOk ((host false 0).mgmt.hwin + 256 % 2 ^ 36) 128 = true ∧
      (host false 0).windowOk ((host false 0).mgmt.hwin + 256 % 2 ^ 36) [1, 2].length = true ∧
      ((host false 0).readLines .host unitHost 256 128).2 = none ∧
      ((come .host (host false 0)).readLines .host unitHost 256 128).2 = some (List.replicate 128 0, false) ∧
      ((host false 0).writeLines .host unitHost 256 [1, 2]).2 = false ∧
      ((come .host (host false 0)).writeLines .host unitHost 256 [1, 2]).2 = true) ∧
    (host false (3 * 2 ^ 52)).windowOk (3 * 2 ^ 52 + 0 % 2 ^ 36) 8 = true ∧
    (host false (5 * 2 ^ 52)).windowOk (5 * 2 ^ 52 + 0 % 2 ^ 36) 128 = false ∧ (2 ^ 36 - 1 < 2 ^ 36 ∧ 2 ^ 36 ≤ 2 ^ 36) := by
  decide +kernel

/-- The port's command registers of a state. -/
def sv (f : SvCmd → SvCmd) (s : State) : State := s.updMgmt fun m => { m with sv := f m.sv }

/-- A command that names context 1. -/
def named (f : SvCmd → SvCmd) : State := sv (fun c => f { c with ctx := 1 }) inGroup

/-- The command port busy and free; requests, gangs and groups that exist and do not; and images too small and large
enough. -/
theorem witness_SupervisorActs_commands :
    let req : PageReq := ⟨0, 0, 0, 1, 0x10000, 1, 0, false, true, inGroup.reportOf 0x08 0⟩
    let paging (act : Bool) : State := sv (fun c => { c with act := act }) { inGroup with pageReqs := [req] }
    (sv (fun c => { c with busy := true }) inGroup).mgmt.sv.busy = true ∧ inGroup.mgmt.sv.busy = false ∧
    inGroup.namedRequest inGroup.mgmt.sv = none ∧ (∀ act ∈ [true, false], (paging act).mgmt.sv.busy = false ∧
      (paging act).namedRequest (paging act).mgmt.sv = some req ∧ (paging act).mgmt.sv.act = act) ∧
    inGroup.namedGang inGroup.mgmt.sv = none ∧ inGroup.namedGroups inGroup.mgmt.sv = none ∧
    (named id).namedGang (named id).mgmt.sv = some 0 ∧ ((named id).gang 0).pre = .none ∧
    ((named id).gang 0).terminated = false ∧ (named id).mgmt.sv.img % 64 = 0 ∧
    (named fun c => { c with img := 32 }).mgmt.sv.img % 64 ≠ 0 ∧
    (named id).mgmt.sv.imgLen < (named id).imageSize 0 ∧
    (named fun c => { c with imgLen := 2 ^ 20 }).imageSize 0 ≤ (named fun c => { c with imgLen := 2 ^ 20 }).mgmt.sv.imgLen ∧
    inGroup.mgmt.freezeAt = none := by decide +kernel

/-- Contexts with and without a debugger; and groups that run and that have halted. -/
theorem witness_SupervisorActs_debug :
    let debugs (f : Group → Group) (arg : Nat) : State := ((named fun c => { c with arg := arg }).updCtx 1 (fun c =>
      { c with dbgatt := true })).updGrp 0 f
    let halts (h : Bool) : State := debugs (fun g => { g with halted := h }) 0
    ((named id).namedGroups (named id).mgmt.sv = some (0, [0]) ∧ ((named id).ctx 1).dbgatt = false ∧
      (named id).mgmt.sv.arg / 256 ≠ 255) ∧
    (∀ h ∈ [true, false], (halts h).namedGroups (halts h).mgmt.sv = some (0, [0]) ∧ ((halts h).ctx 1).dbgatt = true ∧
      ((halts h).grp 0).halted = h) ∧
    ((debugs id 0xFF00).mgmt.sv.arg / 256 = 255 ∧ (debugs id 0xFF00).namedGroups (debugs id 0xFF00).mgmt.sv = some (0, [0])) :=
  by decide +kernel

/-- Gangs that have quiesced with and without a handler, in time and late, and whose deadline has passed. -/
theorem witness_SupervisorActs_preempt :
    let pre (p : PreState) (desc t : Nat) : State := { inGroup with
      ptime := t, gangs := inGroup.gangs.map fun k => { k with pre := p, desc := desc } }
    (∀ e ∈ [(0, 0), (0x10000 * 2 ^ 640, 0), (0x10000 * 2 ^ 640, 5000)],
      (pre (.quiesce 5000) e.1 e.2).quiesced 0 = true ∧ ((pre (.quiesce 5000) e.1 e.2).gang 0).pre = .quiesce 5000) ∧
    (((pre (.quiesce 5000) 0 0).gang 0).preemptPc = 0 ∧ ((pre (.quiesce 5000) (0x10000 * 2 ^ 640) 0).gang 0).preemptPc ≠ 0 ∧
      (pre (.quiesce 5000) 0 0).ptime < 5000 ∧ 5000 ≤ (pre (.quiesce 5000) 0 5000).ptime) ∧
    ((pre (.handlers 5000) 0 5000).deadlinePassed 0 = true ∧ 0 ∈ (pre (.handlers 5000) 0 5000).liveOf 0 ∧
      ((pre (.handlers 5000) 0 5000).grp 0).doneSaving = false) := by decide +kernel

/-- The management controller in phase 5 and in recovery; a chunk of 4,096 bytes that ends the staging area, one byte
more, and an image of 64 MiB and one byte more; the freeze and before it. -/
theorem witness_ManagementActs :
    let m (f : Mgmt → Mgmt) : Mgmt := f { State.reset.mgmt with recovery := true }
    (4 < ({ State.reset.mgmt with phase := 5 }).phase ∧ State.reset.mgmt.recovery = false) ∧
    ((m id).recovery = true ∧ (m id).mbState ≠ 1 ∧ (m id).mbLen = 0) ∧
    (∀ k ∈ [0, 1, 2, 3, 4, 5, 6], ∀ ok ∈ [true, false],
      ({ State.reset.mgmt with phase := k, boot := some ⟨ok, ok, ok, 0x8001, 0x80000001⟩ }).boot =
        some ⟨ok, ok, ok, 0x8001, 0x80000001⟩) ∧ ((0x8001).testBit 15 = true ∧ (0x80000001).testBit 31 = true) ∧
    State.reset.mgmt.boot = none ∧
    (let x := m fun m => { m with mbLen := 4096, mbOff := 2 ^ 26 - 4096 }
     1 ≤ x.mbLen ∧ x.mbLen ≤ 4096 ∧ x.mbOff % 4096 = 0 ∧ x.mbOff + x.mbLen ≤ 2 ^ 26) ∧
    ¬ (4097 ≤ 4096) ∧ (0 < 2 ^ 26 ∧ 2 ^ 26 ≤ 2 ^ 26 ∧ 2 ^ 26 < 2 ^ 26 + 1) ∧ State.reset.mgmt.frozen = false ∧
    ({ State.reset.mgmt with frozen := true }).frozen = true := by decide +kernel
/-- A lane at a header of context 1's first page, which is not yet fetched: a clause of the word of nop, in memory. -/
def fetching : State :=
  let l := (State.reset.homeOfX 1 ⟨2 ^ 52 + 0x20000, 0⟩).loc
  lane0 (fun f => { f with code := none, pc := 0x20004 })
  { State.reset.placeWord 0x04100000 0 with
    itlb := [(0, [⟨1, 16, 2, 2 ^ 52 + 0x20000, 0, true, true, true⟩])]
    mem := [(l + 5, 0xC0), (l + 6, 0x03), (l + 7, 0x04), (l + 10, 0x10), (l + 11, 0x04)] }

/-- A group whose only fibre waits at a lane mask. -/
def waiting : State := lane0 (fun f => { f with wait := .mask 0 })
  (controlled (fun c => { c with masks := [(0, 3)] }) (State.reset.placeWord 0x04100000 0))

/-- Whether an instruction goes on to a state with a property. -/
def goesTo (r : Result) (f : State → Bool) : Bool :=
  match r with
  | .next t => f t
  | _ => false

/-- An agenda with an event from outside, and the landing of a due write, the only event of a step. -/
theorem witness_StepRunsDecoded_events :
    let out : State := { State.reset with agenda := [.hotReset] }
    let due : State := waiting.updGrp 0 fun g => { g with pend := [⟨0, 0, .v 0 3, 5, false⟩] }
    out.mgmt.frozen = false ∧ out.agenda = [.hotReset] ∧ out.plan = .event .hotReset State.reset ∧
    due.plan = .event (.pendingWriteLands 0) due := by decide +kernel

/-- A step at which a lane's fetch is due, the header and the word that it reads. -/
theorem witness_StepRunsDecoded_fetch :
    let s := fetching
    let x := s.grp 0
    s.mgmt.frozen = false ∧ s.agenda = [] ∧ s.fetchDue = some 0 ∧ s.fetchLanes 0 = 1 ∧
    (x.fib (firstLane (s.fetchLanes 0))).pc = 0x20004 ∧ (s.ctx (s.ctxOf 0)).breaks 0x20004 = false ∧
    s.fetchWords (.clause 0) (.group 0 0) (some x.core) (isleOf x.core) (s.ctxOf 0) 0x20004 1 = .words [0x0403C000] ∧
    headOk 0x0403C000 = true ∧ headWords 0x0403C000 = 1 ∧
    s.fetchWords (.clause 0) (.group 0 0) (some x.core) (isleOf x.core) (s.ctxOf 0) (0x20004 + 4) 1 = .words [0x04100000] := by decide +kernel

/-- The last word of a clause with and without an extension word, one that must end its clause, and a fibre set whose
guard is true. -/
theorem witness_StepRunsDecoded_decode :
    let at_ (c : Clause) (idx len : Nat) (i : Instr) : Prop :=
      (if needsExt (headClass c.head) (c.word idx) then 2 else 1) = len ∧ bits (c.word idx) 30 2 < 2 ∧
      accepted (decodeInstr (headClass c.head) (c.word idx) (if len = 2 then c.word (idx + 1) else 0)) = some i ∧
      (i.endsClause = true → headWords c.head < idx + len)
    let x := (State.reset.placeWord 0x04100000 0).grp 0
    at_ ⟨0, plainHeader 0 2, [0x04100000, 0x00025598]⟩ 2 1 (.iadd 9 21 (.v 38)) ∧
    at_ ⟨0, plainHeader 0 2, [0x03224000, 0xFFFFFFFF]⟩ 1 2 (.smovi 9 0xFFFFFFFF) ∧
    at_ ⟨0, plainHeader 0 1, [0x035FFFFE]⟩ 1 1 (.bra 15 (-2)) ∧
    ((x.fib (firstLane 1)).code = some oneClause ∧ oneClause.instr (x.fib (firstLane 1)).word = (some .nop, 1) ∧
      (x.fib 0).guardTrue oneClause = true ∧ (x.fib (firstLane 1)).bad = none ∧ oneClause.legal (x.fib (firstLane 1)).word = true ∧
      x.errorsAt oneClause = []) := by decide +kernel

/-- A slot with one instruction, which goes on. -/
theorem witness_StepRunsDecoded_slot :
    let s := State.reset.placeWord 0x00025598 0
    let s1 := s.clearYields 0
    let i : Instr := .iadd 9 21 (.v 38)
    s.plan = .slot 0 ∧ (s.slotOf 0).any (fun e => e.2.isNone && decide (e.1.act = .run i) && !s1.guardStall 0 e.1 &&
      !({ s1 with cur := s1.issueOf 0 e.1 0 0 } : State).mustHold (headClass e.1.clause.head) i &&
      goesTo (exec i { s1 with cur := s1.issueOf 0 e.1 0 0 }) fun t => !t.waitsForWalk 0) = true := by decide +kernel

/-- Lanes 0 and 1 at two clauses of one word. -/
def twoWords (a b : Nat) : State :=
  let c : Clause := ⟨0x20000, plainHeader 0 1, [b]⟩
  (State.reset.placeWord a 0).updGrp 0 fun g =>
    (g.updFib 1 fun _ => { g.fib 0 with pc := c.addr, code := some c }).updCtl fun c => { c with tvec := 0x30000 }

/-- Slots with two instructions: integer and scalar, which both go on; utrap on port A; utrap on port B. -/
theorem witness_StepRunsDecoded_ports :
    let run (s : State) (i j : Instr) (f : State → State → State → Cand → Bool) : Bool :=
      let s1 := s.clearYields 0
      decide (s.plan = .slot 0) && (s.slotOf 0).any fun e => e.2.any fun b =>
        decide (e.1.act = .run i) && decide (b.act = .run j) && !s1.guardStall 0 e.1 &&
        !({ s1 with cur := s1.issueOf 0 e.1 0 b.active } : State).mustHold (headClass e.1.clause.head) i &&
        goesTo (exec i { s1 with cur := s1.issueOf 0 e.1 0 b.active }) fun ta =>
          !ta.waitsForWalk 0 && f s1 ta { s1 with cur := s1.issueOf 0 b 1 e.1.active } b
    let second (j : Instr) (both : Bool) (s1 ta u : State) (b : Cand) : Bool :=
      let s2 := ta.withChk (s1.ctxOf 0) false
      !ta.cur.trapped && !s1.guardStall 0 b && !u.mustHold (headClass b.clause.head) j &&
      goesTo (exec j u) fun tb => !tb.waitsForWalk 0 && (tb.cur.trapped == !both) &&
      (!both || (!s2.guardStall 0 b && !({ s2 with cur := u.cur } : State).mustHold (headClass b.clause.head) j &&
        goesTo (exec j { s2 with cur := u.cur }) fun tc => !tc.waitsForWalk 0))
    run (twoWords 0x00025598 0x02624106) (.iadd 9 21 (.v 38)) (.sread 9 1 6) (second (.sread 9 1 6) true) = true ∧
    run (twoWords 0x04300000 0x02624106) (.utrap 0) (.sread 9 1 6) (fun _ ta _ _ => ta.cur.trapped) = true ∧
    run (twoWords 0x00025598 0x04300000) (.iadd 9 21 (.v 38)) (.utrap 0) (second (.utrap 0) false) = true := by decide +kernel

/-- Slots in which a fibre meets what its fetch found, a header that is illegal, a word that no row decodes, an error of
the counters that it waits for, and a guard that is false. -/
theorem witness_StepRunsDecoded_headers :
    let at_ (c : Clause) (f : Fibre → Fibre) : State := lane0 (fun x => f { x with code := some c, pc := c.addr })
      (controlled (fun c => { c with tvec := 0x30000, memErr := [(7 * 8 + 1, 0x20000)] }) (State.reset.placeWord 0x04100000 0))
    let acts (s : State) (a : Act) : Bool := decide (s.plan = .slot 0) && (s.slotOf 0).any fun e =>
      e.2.isNone && decide (e.1.act = a) && !(s.clearYields 0).guardStall 0 e.1
    acts (at_ ⟨0x10000, 0, []⟩ fun x => { x with bad := some (.notPresent, 0x10000) }) (.fetch .notPresent 0x10000) = true ∧
    acts (at_ ⟨0x10000, 0, []⟩ id) .illegal = true ∧
    acts (at_ ⟨0x10000, plainHeader 0 1, [0x3FFFFFFF]⟩ id) .bad = true ∧
    acts (at_ waitClause fun x => { x with waited := true }) .error = true ∧
    acts (at_ guardClause id) .skip = true := by decide +kernel

/-- An access of a group that a fence of its fibres held, which is free. -/
theorem witness_StepRunsDecoded_held :
    let s := waiting
    let c : Issue := ⟨.group, 0, 0, 0, 1, 1, 0x10000, 1, 1, 1, 0, 1, false, false⟩
    let h : HeldEng := ⟨0, .mzero 0 0 0, c, (s.grp 0).ctl, (s.grp 0).regs, (s.grp 0).sregs⟩
    let t : State := { (withBanks [] (controlled (fun c => { c with awl := 128 }) s)) with heldEng := [h] }
    let h' : HeldEng := { h with ctl := (t.grp 0).ctl }
    let t' : State := { t with heldEng := [h'] }
    t'.plan = .held h' ∧
    goesTo (exec h'.instr (h'.within { t' with heldEng := t'.heldEng.erase h' })) (fun u => !u.cur.trapped) = true := by
  decide +kernel

/-- A stream that is ready at a meeting point. -/
theorem witness_StepRunsDecoded_stream :
    let c : Clause := ⟨0x10000, plainHeader 2 1, [0x00BB4000]⟩
    let s := waiting.updBlk 0 fun b => { b with
      allocOpen := false, seq := { Seq.absent with active := true, done := false, code := some c } }
    s.plan = .stream 0 ∧ s.streamReady 0 = true ∧ (s.blk 0).seq.instr = some (c, 1, 1, some (.seqbarArv 11)) := by
  decide +kernel

/-- A settled state whose step goes on. -/
theorem witness_StepSettles : (State.reset.cur = Issue.none ∧ State.reset.groups = []) ∧ State.reset.Goes := by
  refine ⟨by decide +kernel, ?_⟩
  exact ⟨_, (by rfl : step State.reset = .next _)⟩

/-- Well-formed instructions with an extension word and without, and a code of the test port. -/
theorem witness_RoundTrip :
    ((Instr.smovi 31 0xFFFFFFFF).ill = none ∧ (encode (.smovi 31 0xFFFFFFFF)).map (fun c => c.e) = some (some 0xFFFFFFFF)) ∧
    ((Instr.mleave 11).ill = none ∧ (encode (.mleave 11)).map (fun c => c.e) = some none) ∧
    encodeTap .idcode = some 1 := by decide +kernel
/-! ## Single steps, with results worked out by hand from the rules -/

/-- The value that an instruction sends to a register, from given registers, of the group in lane 0. -/
def sends (i : Instr) (l : List (Dst × W32)) (d : Dst) : Option W32 :=
  match exec i (seeded l) with
  | .next t => ((t.grp 0).pend.find? fun p => p.dst == d).map fun p => p.val
  | _ => none

/-- Two operands in v1 and v2, and a third in v3. -/
def abc (a b c : W32) : List (Dst × W32) := [(.v 0 1, a), (.v 0 2, b), (.v 0 3, c)]

theorem test_integer_wraps : sends (.iadd 9 1 (.v 2)) (abc 0xFFFFFFFF 2 0) (.v 0 9) = some 1 ∧
    sends (.isub 9 1 (.v 2)) (abc 0 1 0) (.v 0 9) = some 0xFFFFFFFF ∧
    sends (.imulh 9 1 (.v 2) false) (abc 0xFFFFFFFF 1 0) (.v 0 9) = some 0xFFFFFFFF ∧
    sends (.imulh 9 1 (.v 2) true) (abc 0xFFFFFFFF 2 0) (.v 0 9) = some 1 ∧
    sends (.iabs 9 1 false) (abc 0x80000000 0 0) (.v 0 9) = some 0x80000000 ∧
    sends (.ineg 9 1 true) (abc 0x80000000 0 0) (.v 0 9) = some 0x7FFFFFFF := by decide +kernel

theorem test_carry_out : sends (.iaddc 9 1 0 (.v 2)) (abc 0xFFFFFFFF 1 0) (.v 0 9) = some 0 ∧
    sends (.iaddc 9 1 0 (.v 2)) (abc 0xFFFFFFFF 1 0) (.p 0 0) = some 1 ∧
    sends (.isubb 9 1 0 (.v 2)) (abc 0 1 0) (.p 0 0) = some 1 ∧
    sends (.isubb 9 1 0 (.v 2)) (abc 1 1 0) (.p 0 0) = some 0 := by decide +kernel

theorem test_shift_counts : sends (.shl 9 1 (.v 2)) (abc 1 32 0) (.v 0 9) = some 0 ∧
    sends (.sar 9 1 (.v 2)) (abc 0x80000000 40 0) (.v 0 9) = some 0xFFFFFFFF ∧
    sends (.sar 9 1 (.v 2)) (abc 0x80000000 4 0) (.v 0 9) = some 0xF8000000 ∧
    sends (.rol 9 1 (.v 2)) (abc 0x80000001 33 0) (.v 0 9) = some 3 ∧
    sends (.fshl 9 1 2 (.v 3)) (abc 0x12345678 0x9ABCDEF0 36) (.v 0 9) = some 0x23456789 := by decide +kernel

theorem test_wide_low_and_high : sends (.iadd64 8 2 (.imm 1)) [(.v 0 2, 0xFFFFFFFF), (.v 0 3, 4)] (.v 0 8) = some 0 ∧
    sends (.iadd64 8 2 (.imm 1)) [(.v 0 2, 0xFFFFFFFF), (.v 0 3, 4)] (.v 0 9) = some 5 ∧
    sends (.lea 8 2 (.v 4) 3 false) [(.v 0 2, 8), (.v 0 4, 0xFFFFFFFF)] (.v 0 9) = some 0 ∧
    sends (.lea 8 2 (.v 4) 3 true) [(.v 0 2, 8), (.v 0 4, 0xFFFFFFFF)] (.v 0 9) = some 8 := by decide +kernel

/-- The table of R207 that lets c select b, and otherwise a. -/
theorem test_lop3_selects : sends (.lop3 9 1 2 3 0xCA) (abc 0xFFFF0000 0x0F0F0F0F 0x0000FFFF) (.v 0 9) = some 0xFFFF0F0F ∧
    sends (.lop3 9 1 2 3 0x22) (abc 0xFF00FF00 0x0F0F0F0F 5) (.v 0 9) = some 0xF000F000 := by decide +kernel

theorem test_bit_fields : sends (.bfx 9 1 28 8 true) (abc 0x80000000 0 0) (.v 0 9) = some 0xFFFFFFF8 ∧
    sends (.bfx 9 1 4 8 false) (abc 0x00000AB0 0 0) (.v 0 9) = some 0xAB ∧
    sends (.bfi 9 1 2 30 8) (abc 0 0xFF 0) (.v 0 9) = some 0xC0000000 ∧
    sends (.clz 9 1) (abc 0 0 0) (.v 0 9) = some 32 ∧ sends (.ctz 9 1) (abc 8 0 0) (.v 0 9) = some 3 ∧
    sends (.brev 9 1) (abc 1 0 0) (.v 0 9) = some 0x80000000 := by decide +kernel

/-- Relation code 4 with bit 0 clear admits less and equal; the same operands unsigned. -/
theorem test_isetp_signs : sends (.isetp 3 1 4 false (.v 2)) (abc 0xFFFFFFFF 0 0) (.p 0 3) = some 1 ∧
    sends (.isetp 3 1 4 true (.v 2)) (abc 0xFFFFFFFF 0 0) (.p 0 3) = some 0 ∧
    sends (.isetp 3 1 0 false (.v 2)) (abc 7 7 0) (.p 0 3) = some 1 := by decide +kernel

theorem test_dot_product_signs : sends (.idot4 9 1 2 false false) [(.v 0 1, 0xFF020304), (.v 0 2, 0x05010101), (.v 0 9, 10)]
      (.v 0 9) = some 14 ∧
    sends (.idot4 9 1 2 true false) [(.v 0 1, 0xFF020304), (.v 0 2, 0x05010101), (.v 0 9, 10)] (.v 0 9) = some 1294 := by
  decide +kernel

theorem test_scalar_and_predicates : sends (.sadd 5 6 (.imm 63)) [(.s 6, 0xFFFFFFFF)] (.s 5) = some 62 ∧
    sends (.plop 3 15 15 15 0x80) [] (.p 0 3) = some 1 ∧ sends (.plop 3 15 0 0 0x80) [] (.p 0 3) = some 0 ∧
    sends (.pmov false 9) [] (.v 0 9) = some 0x8000 := by decide +kernel

/-- 1 + 2, 1 + 2^-24 rounded to even and up, infinity times zero, and the two zeros of R245. -/
theorem test_fp32_rounds : sends (.fadd 9 1 0 (.v 2)) (abc 0x3F800000 0x40000000 0) (.v 0 9) = some 0x40400000 ∧
    sends (.fadd 9 1 0 (.v 2)) (abc 0x3F800000 0x33800000 0) (.v 0 9) = some 0x3F800000 ∧
    sends (.fadd 9 1 2 (.v 2)) (abc 0x3F800000 0x33800000 0) (.v 0 9) = some 0x3F800001 ∧
    sends (.fmul 9 1 0 (.v 2)) (abc 0x7F800000 0 0) (.v 0 9) = some 0x7FC00000 ∧
    sends (.ffma 9 1 (.v 2) (.v 3) 0 false) (abc 0 0xBF800000 0) (.v 0 9) = some 0 ∧
    sends (.ffma 9 1 (.v 2) (.v 3) 3 false) (abc 0 0xBF800000 0) (.v 0 9) = some 0x80000000 := by decide +kernel

/-- The smallest subnormals add; 6 divided by 2; the root of 4; minus 0 below plus 0. -/
theorem test_fp32_more : sends (.fadd 9 1 0 (.v 2)) (abc 1 1 0) (.v 0 9) = some 2 ∧
    sends (.fdiv 9 1 (.v 2)) (abc 0x40C00000 0x40000000 0) (.v 0 9) = some 0x40400000 ∧
    sends (.fsqrt 9 1) (abc 0x40800000 0 0) (.v 0 9) = some 0x40000000 ∧
    sends (.fmin 9 1 (.v 2) false) (abc 0 0x80000000 0) (.v 0 9) = some 0x80000000 := by decide +kernel

/-- 1 + 1 in both halves and in FP64's high word; (1 + 2i) times (3 + 4i) is -5 + 10i. -/
theorem test_packed_and_complex : sends (.hadd2 9 1 (.v 2) 0 false) (abc 0x3C003C00 0x3C003C00 0) (.v 0 9) = some 0x40004000 ∧
    sends (.dadd 8 2 (.v 4) 0) [(.v 0 3, 0x3FF00000), (.v 0 5, 0x3FF00000)] (.v 0 9) = some 0x40000000 ∧
    sends (.cmul 8 2 4 0 false) [(.v 0 2, 0x3F800000), (.v 0 3, 0x40000000), (.v 0 4, 0x40400000), (.v 0 5, 0x40800000)]
      (.v 0 8) = some 0xC0A00000 ∧
    sends (.cmul 8 2 4 0 false) [(.v 0 2, 0x3F800000), (.v 0 3, 0x40000000), (.v 0 4, 0x40400000), (.v 0 5, 0x40800000)]
      (.v 0 9) = some 0x41200000 := by decide +kernel

/-- A NaN gives 0 and minus infinity the lower bound (R254); 1.5 to s32 toward zero; -1 to FP32; 1 to FP16's upper half. -/
theorem test_conversions : sends (.cvtfi 9 1 0 0 0 0) (abc 0x7FC00000 0 0) (.v 0 9) = some 0 ∧
    sends (.cvtfi 9 1 0 0 0 0) (abc 0xFF800000 0 0) (.v 0 9) = some 0x80000000 ∧
    sends (.cvtfi 9 1 1 0 0 0) (abc 0x3FC00000 0 0) (.v 0 9) = some 1 ∧
    sends (.cvtif 9 1 0 false 0 0 0) (abc 0xFFFFFFFF 0 0) (.v 0 9) = some 0xBF800000 ∧
    sends (.cvtff 9 1 0 false 2 0 1 0) [(.v 0 1, 0x3F800000), (.v 0 9, 0x1234)] (.v 0 9) = some 0x3C001234 := by
  decide +kernel

/-- The example of R239: lanes 0 to 7 hold 5, 9, 5, 5, 9, 7, 5 and 9, lane 5 is not active, mask 2 holds all eight. -/
def eight : State :=
  let vals : List W32 := [5, 9, 5, 5, 9, 7, 5, 9]
  let s := (controlled (fun c => { c with masks := [(2, 0xFF)] }) inGroup).updGrp 0 fun g =>
    let g := (List.range 8).foldl (fun (g : Group) i => g.updFib i fun _ => { g.fib 0 with pred := if vals[i]! = 5 then 2 else 0 }) g
    g.landAll ((List.range 8).map fun i => (Dst.v i 1, vals[i]!))
  { s with cur := { s.cur with lanes := 0xDF, set := 0xDF } }

/-- What a lane is sent. -/
def eightSends (i : Instr) (d : Dst) : Option W32 :=
  match exec i eight with
  | .next t => ((t.grp 0).pend.find? fun p => p.dst == d).map fun p => p.val
  | _ => none

theorem test_match_example : (∀ i ∈ [0, 2, 3, 6], eightSends (.matchl 9 1 2 false) (.v i 9) = some 0x4D) ∧
    (∀ i ∈ [1, 4, 7], eightSends (.matchl 9 1 2 false) (.v i 9) = some 0x92) ∧
    eightSends (.matchl 9 1 2 false) (.v 5 9) = none := by decide +kernel

theorem test_vote_example : eightSends (.vote 9 1 2 0 0) (.v 0 9) = some 0x4D ∧
    eightSends (.vote 9 1 2 0 1) (.v 7 9) = some 0x704 ∧ eightSends (.vote 3 1 2 1 2) (.p 0 3) = some 1 ∧
    eightSends (.vote 3 1 2 3 2) (.p 0 3) = some 0 := by decide +kernel

/-- The same lanes: the sum without lane 5's 7, the largest and its scan. -/
theorem test_reductions : eightSends (.redadd 9 1 2 0) (.v 0 9) = some 47 ∧ eightSends (.redmax 9 1 2 false 0) (.v 3 9) = some 9 ∧
    eightSends (.scan 9 1 2 false 0) (.v 6 9) = some 38 ∧ eightSends (.scan 9 1 2 true 0) (.v 6 9) = some 33 ∧
    eightSends (.redlog 9 1 2 0) (.v 0 9) = some 1 := by decide +kernel

/-- A branch taken by two words back, and one not taken, which goes to the next header. -/
theorem test_branch : goesTo (exec (.bra 15 (-2)) inGroup) (fun t => ((t.grp 0).fib 0).pc == 0xFFF8) = true ∧
    goesTo (exec (.bra 0 (-2)) inGroup) (fun t => ((t.grp 0).fib 0).pc == 0x10008) = true := by decide +kernel

/-- A user trap completes first: the record names the header after the clause. -/
theorem test_utrap : goesTo (exec (.utrap 0x5A) (controlled (fun c => { c with tvec := 0x30000 }) inGroup)) (fun t => (t.grp 0).ctl.trapMode &&
    (t.grp 0).ctl.tpc == 0x10008 && (t.grp 0).ctl.tidx == 0 && (t.grp 0).ctl.tlanes == 1) = true := by decide +kernel

/-- Where nobody issues, an instruction word is refused. -/
theorem test_no_issuer : exec (.iadd 0 0 (.v 0)) State.reset = .refused .noIssuer := rfl

/-- Eviction raises the horizon of PA[14:7] to the line's LEXP, and the line starts there when it comes back (R398). -/
theorem test_evict_horizon :
    let s : State := { State.reset with homes := [(2, { HomeLine.none with lexp := 7000, site := some (0, 5, 256) })] }
    let t := s.evictHome 2
    t.homes = [] ∧ t.hzn = [(5 * 256 + 2, 7000)] ∧ (t.homeLine 0 5 256 256).lexp = 7000 ∧
    (t.homeLine 0 5 512 (256 + 2 ^ 15)).lexp = 7000 ∧ (t.homeLine 0 5 512 512).lexp = 0 := by decide +kernel

/-- A line with a release record asks its core for a drain first (R400). -/
theorem test_evict_record :
    let s : State := { State.reset with homes := [(2, { HomeLine.none with rrec := some (17, 2), site := some (0, 5, 256) })] }
    let t := s.evictHome 2
    (look HomeLine.none t.homes 2).leaving = true ∧ t.hzn = [] ∧ t ≠ { s with homes := t.homes } := by decide +kernel
/-! ## Words written out from the encoding tables of the spec (R171, R180 to R183, R195 to R197, R244, R270, R288, R299,
R342) and the instructions they stand for -/

theorem test_decode_integer_1 :
    accepted (decodeInstr 0 0x00025598 0x0) = some (.iadd 9 21 (.v 38)) ∧
    accepted (decodeInstr 0 0x00125579 0x0) = some (.isub 9 21 (.s 30)) ∧
    accepted (decodeInstr 0 0x0022552D 0xDEADBEEF) = some (.iaddc 9 21 13 (.imm 0xDEADBEEF)) ∧
    accepted (decodeInstr 0 0x0032551D 0x1D) = some (.isubb 9 21 13 (.s 29)) ∧
    accepted (decodeInstr 0 0x004255FE 0x0) = some (.imul 9 21 (.imm 63)) ∧
    accepted (decodeInstr 0 0x0052559A 0x0) = some (.imulh 9 21 (.v 38) true) ∧
    accepted (decodeInstr 0 0x00625502 0x1126) = some (.imad 9 21 (.v 38) (.s 17)) ∧
    accepted (decodeInstr 0 0x00725579 0x0) = some (.imin 9 21 (.s 30) false) ∧
    accepted (decodeInstr 0 0x0082559A 0x0) = some (.imax 9 21 (.v 38) true) ∧
    accepted (decodeInstr 0 0x00925501 0x0) = some (.iabs 9 21 true) := by decide

theorem test_decode_integer_2 :
    accepted (decodeInstr 0 0x00A25500 0x0) = some (.ineg 9 21 false) ∧
    accepted (decodeInstr 0 0x00B2559A 0x0) = some (.idot4 9 21 38 false true) ∧
    accepted (decodeInstr 0 0x00C21498 0x0) = some (.iadd64 8 20 (.v 38)) ∧
    accepted (decodeInstr 0 0x00D2140F 0x1E) = some (.lea 8 20 (.s 30) 3 true) ∧
    accepted (decodeInstr 0 0x00E2550D 0x26) = some (.sel 9 21 13 (.v 38)) ∧
    accepted (decodeInstr 0 0x00F2552D 0x80000001) = some (.isetp 9 21 5 true (.imm 0x80000001)) := by decide

theorem test_decode_logic_1 :
    accepted (decodeInstr 0 0x01025598 0x0) = some (.and 9 21 (.v 38)) ∧
    accepted (decodeInstr 0 0x01125579 0x0) = some (.or 9 21 (.s 30)) ∧
    accepted (decodeInstr 0 0x012255FE 0x0) = some (.xor 9 21 (.imm 63)) ∧
    accepted (decodeInstr 0 0x01325598 0x0) = some (.andn 9 21 (.v 38)) ∧
    accepted (decodeInstr 0 0x01425598 0x0) = some (.orn 9 21 (.v 38)) ∧
    accepted (decodeInstr 0 0x01525500 0x0) = some (.not 9 21) ∧
    accepted (decodeInstr 0 0x016255CA 0x1126) = some (.lop3 9 21 38 17 0xCA) ∧
    accepted (decodeInstr 0 0x0172557E 0x0) = some (.shl 9 21 (.imm 31)) ∧
    accepted (decodeInstr 0 0x01825598 0x0) = some (.shr 9 21 (.v 38)) ∧
    accepted (decodeInstr 0 0x01925579 0x0) = some (.sar 9 21 (.s 30)) := by decide

theorem test_decode_logic_2 :
    accepted (decodeInstr 0 0x01A25598 0x0) = some (.rol 9 21 (.v 38)) ∧
    accepted (decodeInstr 0 0x01B25501 0x1326) = some (.fshl 9 21 38 (.imm 19)) ∧
    accepted (decodeInstr 0 0x01C21498 0x0) = some (.shl64 8 20 (.v 38)) ∧
    accepted (decodeInstr 0 0x01D25500 0x0) = some (.popc 9 21) ∧
    accepted (decodeInstr 0 0x01E25500 0x0) = some (.clz 9 21) ∧
    accepted (decodeInstr 0 0x01F25500 0x0) = some (.ctz 9 21) ∧
    accepted (decodeInstr 0 0x02025500 0x0) = some (.brev 9 21) ∧
    accepted (decodeInstr 0 0x02125501 0xA1C0) = some (.bfx 9 21 7 20 true) ∧
    accepted (decodeInstr 0 0x02225500 0xA1E6) = some (.bfi 9 21 38 7 20) := by decide

theorem test_decode_moves_1 :
    accepted (decodeInstr 0 0x02321401 0x0) = some (.mov 8 20 true) ∧
    accepted (decodeInstr 0 0x02430000 0x301C) = some (.movi 12 0x301C) ∧
    accepted (decodeInstr 0 0x025240F0 0x0) = some (.movs 9 30 false) ∧
    accepted (decodeInstr 0 0x02624106 0x0) = some (.sread 9 1 6) ∧
    accepted (decodeInstr 0 0x02724B96 0x6D) = some (.plop 9 11 13 6 0x96) ∧
    accepted (decodeInstr 0 0x02801501 0x0) = some (.pmov true 21) ∧
    accepted (decodeInstr 0 0x02824000 0x0) = some (.pmov false 9) := by decide

theorem test_decode_scalar_1 :
    accepted (decodeInstr 0 0x02925578 0x0) = some (.sadd 9 21 (.s 30)) ∧
    accepted (decodeInstr 0 0x02A255FD 0x0) = some (.ssub 9 21 (.imm 63)) ∧
    accepted (decodeInstr 0 0x02B25578 0x0) = some (.smul 9 21 (.s 30)) ∧
    accepted (decodeInstr 0 0x02C25578 0x0) = some (.sand 9 21 (.s 30)) ∧
    accepted (decodeInstr 0 0x02D25578 0x0) = some (.sor 9 21 (.s 30)) ∧
    accepted (decodeInstr 0 0x02E25578 0x0) = some (.sxor 9 21 (.s 30)) ∧
    accepted (decodeInstr 0 0x02F25515 0x0) = some (.sshl 9 21 (.imm 5)) ∧
    accepted (decodeInstr 0 0x03025517 0x0) = some (.sshr 9 21 (.imm 5) true) ∧
    accepted (decodeInstr 0 0x03125500 0x0) = some (.smov 9 21 false) ∧
    accepted (decodeInstr 0 0x03224000 0xFFFFFFFF) = some (.smovi 9 0xFFFFFFFF) := by decide

theorem test_decode_scalar_2 :
    accepted (decodeInstr 0 0x0332550C 0x1E) = some (.ssetp 9 21 4 true (.s 30)) ∧
    accepted (decodeInstr 0 0x0342667C 0x0) = some (.slane 9 38 (.imm 31) false) := by decide

theorem test_decode_control_1 :
    accepted (decodeInstr 0 0x035FFFFE 0x0) = some (.bra 15 (-2)) ∧
    accepted (decodeInstr 0 0x03548000 0x10000) = some (.braLong 4 0x10000) ∧
    accepted (decodeInstr 0 0x03640007 0x0) = some (.bany 4 7) ∧
    accepted (decodeInstr 0 0x03648000 0xFFFFFFFF) = some (.banyLong 4 (-1)) ∧
    accepted (decodeInstr 0 0x03747FFF 0x0) = some (.ball 4 32767) ∧
    accepted (decodeInstr 0 0x03748000 0x80000000) = some (.ballLong 4 (-2147483648)) ∧
    accepted (decodeInstr 0 0x03848001 0x0) = some (.bnone 4 (-32767)) ∧
    accepted (decodeInstr 0 0x03848000 0x9) = some (.bnoneLong 4 9) ∧
    accepted (decodeInstr 0 0x03940007 0x0) = some (.bdiv 4 7) ∧
    accepted (decodeInstr 0 0x03948000 0x9) = some (.bdivLong 4 9) := by decide

theorem test_decode_control_2 :
    accepted (decodeInstr 0 0x03A01401 0x0) = some (.jmp (.s 20)) ∧
    accepted (decodeInstr 0 0x13B00600 0x100) = some (.call 12 0x100) ∧
    accepted (decodeInstr 0 0x03C01418 0x0) = some (.calli 12 (.v 20)) ∧
    accepted (decodeInstr 0 0x03D00018 0x0) = some (.ret 0 12) ∧
    accepted (decodeInstr 0 0x03E50000 0x0) = some (.exit 5) ∧
    accepted (decodeInstr 0 0x03F24D10 0xFFFFFFFC) = some (.fspawn 9 13 32 (-4)) ∧
    accepted (decodeInstr 0 0x04000000 0x0) = some (.yield) ∧
    accepted (decodeInstr 0 0x04100000 0x0) = some (.nop) ∧
    accepted (decodeInstr 0 0x042000A5 0x0) = some (.bkpt 0xA5) ∧
    accepted (decodeInstr 0 0x0430005A 0x0) = some (.utrap 0x5A) := by decide

theorem test_decode_control_3 :
    accepted (decodeInstr 0 0x0442C000 0x0) = some (.mjoin 11) ∧
    accepted (decodeInstr 0 0x0452C000 0x0) = some (.mleave 11) ∧
    accepted (decodeInstr 0 0x0462C000 0x0) = some (.mwait 11) ∧
    accepted (decodeInstr 0 0x0472C0F2 0x0) = some (.mset 11 30 2) ∧
    accepted (decodeInstr 0 0x04824B01 0x0) = some (.mget 9 11 1) := by decide

theorem test_decode_crossLane_1 :
    accepted (decodeInstr 0 0x04924D9A 0x0) = some (.vote 9 13 6 2 2) ∧
    accepted (decodeInstr 0 0x04A25419 0x0) = some (.matchl 9 20 6 true) ∧
    accepted (decodeInstr 0 0x04B25566 0x1311) = some (.shfl 9 21 2 0 (.imm 17) false 6 3 true) ∧
    accepted (decodeInstr 0 0x04C21559 0x0) = some (.redmin 8 21 6 true 1) ∧
    accepted (decodeInstr 0 0x04D2551A 0x0) = some (.redmax 9 21 6 false 2) ∧
    accepted (decodeInstr 0 0x04E2551A 0x0) = some (.redadd 9 21 6 2) ∧
    accepted (decodeInstr 0 0x04F21419 0x0) = some (.fredadd 8 20 6 true) ∧
    accepted (decodeInstr 0 0x0502555A 0x0) = some (.scan 9 21 6 true 2) ∧
    accepted (decodeInstr 0 0x0512551A 0x0) = some (.redlog 9 21 6 2) := by decide

theorem test_decode_fp32_1 :
    accepted (decodeInstr 0 0x05225513 0x3F000000) = some (.fadd 9 21 3 (.imm 0x3F000000)) ∧
    accepted (decodeInstr 0 0x05325508 0x1E) = some (.fsub 9 21 0 (.s 30)) ∧
    accepted (decodeInstr 0 0x05425501 0x26) = some (.fmul 9 21 1 (.v 38)) ∧
    accepted (decodeInstr 0 0x05520200 0x403) = some (.ffma 8 2 (.v 3) (.v 4) 0 false) ∧
    accepted (decodeInstr 0 0x05625579 0x0) = some (.fmin 9 21 (.s 30) false) ∧
    accepted (decodeInstr 0 0x0572559A 0x0) = some (.fmax 9 21 (.v 38) true) ∧
    accepted (decodeInstr 0 0x05825514 0x1E) = some (.fsetp 9 21 4 (.s 30)) ∧
    accepted (decodeInstr 0 0x05925401 0x0) = some (.fclass 9 20 true) ∧
    accepted (decodeInstr 0 0x05A25500 0x0) = some (.frcp 9 21) ∧
    accepted (decodeInstr 0 0x05B25500 0x0) = some (.frsq 9 21) := by decide

theorem test_decode_fp32_2 :
    accepted (decodeInstr 0 0x05C25500 0x0) = some (.fsqrt 9 21) ∧
    accepted (decodeInstr 0 0x05D25579 0x0) = some (.fdiv 9 21 (.s 30)) ∧
    accepted (decodeInstr 0 0x05E25500 0x0) = some (.fexp2 9 21) ∧
    accepted (decodeInstr 0 0x05F25500 0x0) = some (.flog2 9 21) ∧
    accepted (decodeInstr 0 0x06025500 0x0) = some (.fsinpi 9 21) ∧
    accepted (decodeInstr 0 0x06125500 0x0) = some (.fcospi 9 21) := by decide

theorem test_decode_wide_1 :
    accepted (decodeInstr 0 0x0622140B 0x1E) = some (.dadd 8 20 (.s 30) 3) ∧
    accepted (decodeInstr 0 0x06321403 0x26) = some (.dmul 8 20 (.v 38) 3) ∧
    accepted (decodeInstr 0 0x06421433 0x1026) = some (.dfma 8 20 (.v 38) (.s 16) 3 true) ∧
    accepted (decodeInstr 0 0x0652149A 0x0) = some (.dmin 8 20 (.v 38) true) ∧
    accepted (decodeInstr 0 0x06621479 0x0) = some (.dmax 8 20 (.s 30) false) ∧
    accepted (decodeInstr 0 0x06725424 0x3F800000) = some (.dsetp 9 20 4 (.imm 0x3F800000)) ∧
    accepted (decodeInstr 0 0x06821498 0x0) = some (.ddiv 8 20 (.v 38)) ∧
    accepted (decodeInstr 0 0x0692551B 0x1E) = some (.hadd2 9 21 (.s 30) 3 true) ∧
    accepted (decodeInstr 0 0x06A25503 0x26) = some (.hmul2 9 21 (.v 38) 3 false) ∧
    accepted (decodeInstr 0 0x06B25523 0x1126) = some (.hfma2 9 21 (.v 38) (.s 17) 3 false) := by decide

theorem test_decode_wide_2 :
    accepted (decodeInstr 0 0x06C2140B 0x26) = some (.cmul 8 20 38 3 true) ∧
    accepted (decodeInstr 0 0x06D21403 0x1026) = some (.cfma 8 20 38 16 3 false) := by decide

theorem test_decode_conversions_1 :
    accepted (decodeInstr 0 0x06E2550B 0x724) = some (.cvtff 9 21 3 true 4 2 3 1) ∧
    accepted (decodeInstr 0 0x06F25503 0x52) = some (.cvtfi 9 21 3 2 1 1) ∧
    accepted (decodeInstr 0 0x0702550B 0x52) = some (.cvtif 9 21 3 true 2 1 1) ∧
    accepted (decodeInstr 0 0x071255B3 0x6) = some (.cvtpk 9 21 3 2 5 6) ∧
    accepted (decodeInstr 0 0x0722552B 0x26) = some (.cvtunpk 9 21 38 3 5) ∧
    accepted (decodeInstr 0 0x07321401 0xF8) = some (.cvtw 8 20 true 0xF8) := by decide

theorem test_decode_memory_1 :
    accepted (decodeInstr 1 0x00021465 0x0) = some (.ld 8 20 3 5) ∧
    accepted (decodeInstr 1 0x0002547D 0xFFFFFFF8) = some (.ldExt 9 20 3 (.ordered true 5) (-8)) ∧
    accepted (decodeInstr 1 0x00125401 0x0) = some (.st 9 20 0 1) ∧
    accepted (decodeInstr 1 0x0012140E 0x40) = some (.stExt 8 20 0 (.weak 6) 64) ∧
    accepted (decodeInstr 1 0x00221425 0x0) = some (.lds 8 20 1 5) ∧
    accepted (decodeInstr 1 0x00225433 0xC) = some (.ldsExt 9 20 1 (.ordered false 3) 12) ∧
    accepted (decodeInstr 1 0x00325554 0x0) = some (.ldl 9 (.s 21) 2 4) ∧
    accepted (decodeInstr 1 0x0032554A 0xFFFFFFFF) = some (.ldlExt 9 (.v 21) 2 2 (-1)) ∧
    accepted (decodeInstr 1 0x00425543 0x0) = some (.stl 9 (.v 21) 2 3) ∧
    accepted (decodeInstr 1 0x0042155D 0x10) = some (.stlExt 8 (.s 21) 2 5 16) := by decide

theorem test_decode_memory_2 :
    accepted (decodeInstr 1 0x00521491 0x0) = some (.ldt 8 20 4 17) ∧
    accepted (decodeInstr 1 0x006254A0 0x0) = some (.hzadd 9 20 5) ∧
    accepted (decodeInstr 1 0x006254A8 0x30) = some (.hzaddExt 9 20 5 48) ∧
    accepted (decodeInstr 1 0x007254C0 0x0) = some (.hzsettle 9 20 6) ∧
    accepted (decodeInstr 1 0x00801420 0x0) = some (.pref 20 1) ∧
    accepted (decodeInstr 1 0x00801428 0x80) = some (.prefExt 20 1 128) ∧
    accepted (decodeInstr 1 0x00900030 0x0) = some (.wback 0 1 true) ∧
    accepted (decodeInstr 1 0x00901428 0x80) = some (.wbackExt 20 1 128) ∧
    accepted (decodeInstr 1 0x00A00055 0x0) = some (.fence 2 2 5) := by decide

theorem test_decode_atomics_1 :
    accepted (decodeInstr 1 0x00B2546C 0x0) = some (.atom 9 20 3 1 4) ∧
    accepted (decodeInstr 1 0x00C81464 0x0) = some (.atomv 2 0 20 3 0 4) ∧
    accepted (decodeInstr 1 0x00D09474 0x0) = some (.redm 2 20 3 2 4) ∧
    accepted (decodeInstr 1 0x00E2C060 0x0) = some (.bar 11 3) ∧
    accepted (decodeInstr 1 0x00E2C061 0x0) = some (.barArv 11 3) ∧
    accepted (decodeInstr 1 0x00E2E162 0x0) = some (.barExp 11 33 3) ∧
    accepted (decodeInstr 1 0x00F2C060 0x0) = some (.gbar 11 3) := by decide

theorem test_decode_engine_1 :
    accepted (decodeInstr 2 0x000266C8 0x25123) = some (.mma 9 38 200 0x123 5 false true false false) ∧
    accepted (decodeInstr 2 0x001266C8 0x90020) = some (.mmas 9 38 200 32 0 true false false true) ∧
    accepted (decodeInstr 2 0x002C8113 0x0) = some (.mzero 200 17 3) ∧
    accepted (decodeInstr 2 0x00327203 0x54) = some (.maccOut 9 200 3 4 true 2) ∧
    accepted (decodeInstr 2 0x00327223 0x4C) = some (.maccIn 9 200 3 4 true false 2) ∧
    accepted (decodeInstr 2 0x00426650 0x0) = some (.mloop 9 38 10) ∧
    accepted (decodeInstr 2 0x005D9AC3 0x0) = some (.talloc 13 38 22 3) ∧
    accepted (decodeInstr 2 0x00698003 0x0) = some (.tfree 38 3) ∧
    accepted (decodeInstr 2 0x0079A54B 0x6A) = some (.tcopy 38 18 true false 4 true 3 2 5 true false) ∧
    accepted (decodeInstr 2 0x008B6D03 0x0) = some (.tchain 22 6 true 5 3) := by decide

theorem test_decode_engine_2 :
    accepted (decodeInstr 2 0x0099A4C3 0x80) = some (.tstore 38 18 false true 4 false 3 0 0 false true) ∧
    accepted (decodeInstr 2 0x00902443 0x40F9100) = some (.tstoreHz 18 false false 4 false 3 false 200 7 2) ∧
    accepted (decodeInstr 2 0x00A9AD03 0x0) = some (.tfill 38 22 true 3) ∧
    accepted (decodeInstr 2 0x00BB0000 0x0) = some (.seqbar 11) ∧
    accepted (decodeInstr 2 0x00BB4000 0x0) = some (.seqbarArv 11) ∧
    accepted (decodeInstr 2 0x00BB8000 0x0) = some (.seqbarWait 11) ∧
    accepted (decodeInstr 2 0x00C26603 0x0) = some (.accrd 9 38 3) ∧
    accepted (decodeInstr 2 0x00D26600 0x0) = some (.accwr 9 38 0) ∧
    accepted (decodeInstr 2 0x00EB34D0 0x0) = some (.awset 22 13 6 true) := by decide

theorem test_decode_barriers_1 :
    accepted (decodeInstr 2 0x00FB3403 0x0) = some (.txinit 22 13 3) ∧
    accepted (decodeInstr 2 0x010B3403 0x0) = some (.txexp 22 13 3) ∧
    accepted (decodeInstr 2 0x011B3703 0x0) = some (.txarv 22 13 true true 3) ∧
    accepted (decodeInstr 2 0x012B3400 0x0) = some (.txwait 22 13) ∧
    accepted (decodeInstr 2 0x013DB183 0x0) = some (.txtest 13 22 6 3) ∧
    accepted (decodeInstr 2 0x0149A000 0x0) = some (.twait 38 2) ∧
    accepted (decodeInstr 2 0x01522603 0x0) = some (.tstate 8 38 3) := by decide

theorem test_decode_system_1 :
    accepted (decodeInstr 3 0x00020007 0x0) = some (.srdp 8 7) ∧
    accepted (decodeInstr 3 0x001040B0 0x0) = some (.swrp 1 22) ∧
    accepted (decodeInstr 3 0x00200000 0x0) = some (.trapret) ∧
    accepted (decodeInstr 3 0x003000B0 0x0) = some (.pdone 22) ∧
    accepted (decodeInstr 3 0x00401400 0x0) = some (.tlbinv 20 false) ∧
    accepted (decodeInstr 3 0x00500000 0x0) = some (.ctxwb) ∧
    accepted (decodeInstr 3 0x00600000 0x0) = some (.hzreclaim) ∧
    accepted (decodeInstr 3 0x00721503 0x0) = some (.dbgrd 8 21 3) := by decide

/-- Words that no row of the tables has are refused: opcodes beyond the maps, a bit that must be zero, a counter field
of zero and a mask of 12 (R66, R169, R270). -/
theorem test_decode_refusals :
    accepted (decodeInstr 0 0x07F00000 0) = none ∧ accepted (decodeInstr 2 0x07F00000 0) = none ∧
    accepted (decodeInstr 3 0x07F00000 0) = none ∧ accepted (decodeInstr 0 0x00025599 0) ≠ some (.iadd 9 21 (.v 38)) ∧
    accepted (decodeInstr 0 0x04100001 0) = none ∧ accepted (decodeInstr 0 0x04100000 0) = some .nop := by decide

theorem test_decode_nop : decodeTableWord 8 255 = some .bypass := by decide

/-! ## An ill-formed instruction for each check -/

theorem smoke_illFormed :
    (Instr.iadd 64 0 (.v 0)).ill = some .badRegister ∧ (Instr.iadd 0 0 (.imm 64)).ill = some .badRegister ∧
    (Instr.sadd 32 0 (.s 0)).ill = some .badScalar ∧ (Instr.iaddc 0 0 16 (.v 0)).ill = some .badPredicate ∧
    (Instr.mleave 12).ill = some .badMask ∧ (Instr.mma 64 0 0 1 0 false false false false).ill = some .badTile ∧
    (Instr.iadd64 1 0 (.v 0)).ill = some .oddPair ∧ (Instr.iadd64 0 0 (.v 1)).ill = some .oddPair ∧
    (Instr.cvtw 0 2 false 0).ill = some .badQuad ∧ (Instr.ld 2 0 1 6).ill = some .badQuad ∧
    (Instr.fadd 0 0 5 (.v 0)).ill = some .badRounding := by decide

theorem smoke_illFormed_more :
    (Instr.ldExt 0 0 1 (.ordered true 6) 0).ill = some .badScope ∧ (Instr.ld 0 0 7 0).ill = some .badCounter ∧
    (Instr.ld 0 0 0 0).ill = some .counterRequired ∧ (Instr.lea 0 0 (.v 0) 4 false).ill = some .badCode ∧
    (Instr.sread 0 0 9999).ill = some .badSelector ∧ (Instr.mloop 0 0 12).ill = some .badDescriptor ∧
    (Instr.mloop 0 0 1).ill = some .badDescriptor ∧ (Instr.bra 0 (-32768)).ill = some .badOffset ∧
    (Instr.lop3 0 0 0 0 256).ill = some .badRange ∧ (Instr.matrixBurstEnd 256).ill = some .badUnit ∧
    (Instr.lop3 63 63 63 63 255).ill = none := by decide

end Sys2Proof.Tests
end

section
/-!
SUPPORT. What the scheduler's steps leave of the machine: packets and requests change no memory, dispatch, group or block;
barriers and drains retire nobody.
-/
namespace Sys2Proof.Proofs
open Sys2Proof.Machine Sys2Proof.Laws

/-! ## Steps that touch no work -/

/-- Memory, the scheduler, the groups and the blocks are what they were. -/
structure SameWork (s t : State) : Prop where
  mem : t.mem = s.mem
  disp : t.disp = s.disp
  groups : t.groups = s.groups
  blocks : t.blocks = s.blocks

theorem SameWork.refl (s : State) : SameWork s s := ⟨rfl, rfl, rfl, rfl⟩

theorem SameWork.trans {s t u : State} (h : SameWork s t) (k : SameWork t u) : SameWork s u :=
  ⟨k.mem.trans h.mem, k.disp.trans h.disp, k.groups.trans h.groups, k.blocks.trans h.blocks⟩

theorem sameWork_updCore (s : State) (c : Nat) (f : Core → Core) : SameWork s (s.updCore c f) := ⟨rfl, rfl, rfl, rfl⟩
theorem sameWork_updMesh (s : State) (f : Mesh → Mesh) : SameWork s (s.updMesh f) := ⟨rfl, rfl, rfl, rfl⟩
theorem sameWork_updChip (s : State) (m : Nat) (f : Chip → Chip) : SameWork s (s.updChip m f) := ⟨rfl, rfl, rfl, rfl⟩
theorem sameWork_updGang (s : State) (k : Nat) (f : Gang → Gang) : SameWork s (s.updGang k f) := ⟨rfl, rfl, rfl, rfl⟩
theorem sameWork_updOp (s : State) (id : Nat) (f : Op → Op) : SameWork s (s.updOp id f) := ⟨rfl, rfl, rfl, rfl⟩
theorem sameWork_withOps (s : State) (l : List Op) : SameWork s { s with ops := l } := ⟨rfl, rfl, rfl, rfl⟩
theorem sameWork_took (s : State) : SameWork s s.took := ⟨rfl, rfl, rfl, rfl⟩
theorem sameWork_setTicket (s : State) (t : Ticket) : SameWork s (s.setTicket t) := ⟨rfl, rfl, rfl, rfl⟩
theorem sameWork_tookWalks (s : State) (w : Waiter) : SameWork s (s.tookWalks w) := ⟨rfl, rfl, rfl, rfl⟩

theorem sameWork_toUnit (s : State) (isle unit : Nat) (p : Packet) (at_ : Nat) :
    SameWork s (s.toUnit isle unit p at_) := by
  unfold State.toUnit
  split
  · split
    · exact sameWork_updChip s _ _
    · exact .refl s
  · exact sameWork_updMesh s _

theorem sameWork_pressPort (s : State) (p : Packet) : SameWork s (s.pressPort p) := by
  unfold State.pressPort
  split
  · exact sameWork_updCore s _ _
  · exact .refl s

theorem sameWork_inject (s : State) (p : Packet) : SameWork s (s.inject p) := by
  unfold State.inject
  dsimp only
  split
  · exact (sameWork_updMesh s _).trans (sameWork_pressPort _ p)
  · exact sameWork_updMesh s _

theorem sameWork_markFlits (s : State) (p : Packet) : SameWork s (s.markFlits p).1 := by
  unfold State.markFlits
  split
  · exact .refl s
  · exact ⟨rfl, rfl, rfl, rfl⟩

/-- A packet that is sent changes no work (R388). -/
theorem sameWork_send (s : State) (p : Packet) : SameWork s (s.send p) := by
  unfold State.send
  split
  · exact (sameWork_markFlits s p).trans (sameWork_toUnit _ _ _ _ _)
  · exact sameWork_inject s p

theorem sameWork_sendDirty (s : State) (core : Nat) (l : L1Line) (waiters : List Nat) :
    SameWork s (s.sendDirty core l waiters) := by
  have h := sameWork_send s.took
  exact ⟨(h _).mem, (h _).disp, (h _).groups, (h _).blocks⟩

theorem sameWork_cleanLines (core : Nat) (waiters : List Nat) (l : List L1Line) (s : State) :
    SameWork s (s.cleanLines core waiters l) := by
  induction l generalizing s with
  | nil => exact .refl s
  | cons x t ih =>
    have sent : SameWork s (s.sendDirty core x waiters) := sameWork_sendDirty s core x waiters
    exact (sent.trans (sameWork_updCore _ core _)).trans (ih _)

/-- A drain that starts writes nothing yet: the dirty lines leave as packets (R130). -/
theorem sameWork_startDrain (s : State) (core ctx : Nat) (owner : DrainOwner) :
    SameWork s (s.startDrain core ctx owner) := by
  have h := sameWork_cleanLines core [s.fresh] (s.took.dirtyLines core ctx) s.took
  exact ⟨h.mem, h.disp, h.groups, h.blocks⟩

theorem sameWork_selfInvalidate (s : State) (core ctx : Nat) : SameWork s (s.selfInvalidate core ctx) :=
  ⟨rfl, rfl, rfl, rfl⟩

theorem sameWork_foldl {α : Type} {f : State → α → State} (h : ∀ s a, SameWork s (f s a)) (l : List α) (s : State) :
    SameWork s (l.foldl f s) :=
  List.foldlRecOn l f (.refl s) fun u hu a _ => hu.trans (h u a)

/-! ## What the scheduler asks for -/

theorem sameWork_startWalk (s : State) (w : Waiter) (isle ctx : Nat) (va : W64) :
    SameWork s (s.startWalk w isle ctx va) := by
  unfold State.startWalk
  dsimp only
  split <;> exact ⟨rfl, rfl, rfl, rfl⟩

theorem sameWork_ask {s u : State} {a : Agent} {key : Nat} {p : Packet} (h : s.ask a key p = .wait u) :
    SameWork s u := by
  unfold State.ask at h
  dsimp only at h
  split at h
  · cases h
  · split at h
    · cases h
      exact .refl s
    · cases h
      exact (sameWork_took s).trans ((sameWork_setTicket _ _).trans (sameWork_send _ _))

theorem sameWork_schedAsk {s u : State} {a : Agent} {key : Nat} {p : Packet} (h : s.schedAsk a key p = .wait u) :
    SameWork s u := by
  unfold State.schedAsk at h
  split at h
  · next hw =>
    cases h
    exact sameWork_ask hw
  · cases h

theorem sameWork_schedRead {s u : State} {a : Agent} {key ctx pa : Nat} (h : s.schedRead a key ctx pa = .wait u) :
    SameWork s u := by
  unfold State.schedRead at h
  split at h
  · exact sameWork_schedAsk h
  · cases h

theorem sameWork_schedLoad {s u : State} {a : Agent} {key ctx : Nat} {va : W64}
    (h : s.schedLoad a key ctx va = .wait u) : SameWork s u := by
  unfold State.schedLoad State.schedVirt at h
  split at h
  · cases h
  · split at h
    · cases h
      exact sameWork_startWalk s _ _ _ _
    · cases h
    · exact (sameWork_tookWalks s _).trans (sameWork_schedAsk h)

theorem sameWork_readHeader {s u : State} {a : Agent} {ctx w d : Nat} (h : s.readHeader a ctx w d = .wait u) :
    SameWork s u := by
  unfold State.readHeader at h
  dsimp only at h
  split at h
  · split at h
    · next hw =>
      cases h
      exact sameWork_schedRead hw
    · cases h
    · cases h
  · cases h

/-- Reading a record waits by asking alone (R357, R414). -/
theorem sameWork_readRecord {s u : State} {a : Agent} {ctx pa : Nat} (h : s.readRecord a ctx pa = .wait u) :
    SameWork s u := by
  unfold State.readRecord at h
  split at h
  · next hw =>
    cases h
    exact sameWork_schedRead hw
  · cases h
  · dsimp only at h
    split at h
    · cases h
    · split at h
      · next hw =>
        cases h
        exact sameWork_schedLoad hw
      · cases h
      · split at h
        · exact sameWork_readHeader h
        · cases h

/-! ## Steps that retire nobody -/

/-- Memory, whether a pass is due, and which groups and blocks have retired or are being released, are what they were. -/
structure KeepsRetired (s t : State) : Prop where
  mem : t.mem = s.mem
  passDue : t.disp.passDue = s.disp.passDue
  grp : ∀ g, (t.grp g).retired = (s.grp g).retired
  blk : ∀ b, (t.blk b).retired = (s.blk b).retired ∧ (t.blk b).releasing = (s.blk b).releasing

namespace KeepsRetired

theorem refl (s : State) : KeepsRetired s s := ⟨rfl, rfl, fun _ => rfl, fun _ => ⟨rfl, rfl⟩⟩

theorem trans {s t u : State} (h : KeepsRetired s t) (k : KeepsRetired t u) : KeepsRetired s u where
  mem := k.mem.trans h.mem
  passDue := k.passDue.trans h.passDue
  grp g := (k.grp g).trans (h.grp g)
  blk b := ⟨(k.blk b).1.trans (h.blk b).1, (k.blk b).2.trans (h.blk b).2⟩

/-! Each rule below says what keeps the relation when it is done last, so that a proof follows a definition from its end. -/

variable {s t u : State}

theorem same (h : KeepsRetired s t) (k : SameWork t u) : KeepsRetired s u :=
  h.trans {
    mem := k.mem
    passDue := congrArg (·.passDue) k.disp
    grp := fun g => congrArg (·.retired) (grp_of_groups k.groups g)
    blk := fun b => by simp [blk_of_blocks k.blocks b] }

theorem foldl {α : Type} {f : State → α → State} {l : List α} (h : KeepsRetired s t)
    (hf : ∀ u a, KeepsRetired u (f u a)) : KeepsRetired s (l.foldl f t) :=
  List.foldlRecOn l f h fun v hv a _ => hv.trans (hf v a)

theorem ite {c : Prop} [Decidable c] (h : KeepsRetired s t) (k : KeepsRetired s u) :
    KeepsRetired s (if c then t else u) := by
  split
  · exact h
  · exact k

/-- A group that is changed without being retired. -/
theorem updGrp (h : KeepsRetired s t) (g : Nat) {f : Group → Group}
    (hf : ∀ x, (f x).retired = x.retired := by intro _; rfl) : KeepsRetired s (t.updGrp g f) := by
  refine h.trans ⟨rfl, rfl, fun k => ?_, fun _ => ⟨rfl, rfl⟩⟩
  by_cases hk : g = k
  · subst hk
    by_cases hg : g < t.groups.length
    · rw [grp_updGrp_self t g f hg, hf]
    · simp [State.grp, hg]
  · rw [grp_updGrp_ne t g k f hk]

/-- A block that is changed without being retired or released. -/
theorem updBlk (h : KeepsRetired s t) (b : Nat) {f : Block → Block}
    (hf : ∀ x, (f x).retired = x.retired ∧ (f x).releasing = x.releasing := by exact fun _ => ⟨rfl, rfl⟩) :
    KeepsRetired s (t.updBlk b f) := by
  refine h.trans ⟨rfl, rfl, fun _ => rfl, fun k => ?_⟩
  by_cases hk : b = k
  · subst hk
    by_cases hb : b < t.blocks.length
    · rw [blk_updBlk_self t b f hb]
      exact hf _
    · simp [State.blk, hb]
  · rw [blk_updBlk_ne t b k f hk]
    exact ⟨rfl, rfl⟩

/-! ### Block barriers (R285, R286) -/

theorem barArrivals (h : KeepsRetired s t) (b k : Nat) : KeepsRetired s (t.barArrivals b k) :=
  h.foldl fun u g => ite (((refl u).updGrp g).updBlk b) (refl u)

theorem arriveLanes (h : KeepsRetired s t) (o : Op) (k : Nat) (go : W32) : KeepsRetired s (t.arriveLanes o k go) :=
  (h.updGrp o.grp).same (sameWork_updOp _ o.id _)

theorem arriveAgain (h : KeepsRetired s t) (b k : Nat) : KeepsRetired s (t.arriveAgain b k) :=
  h.foldl fun u o => (refl u).arriveLanes o k o.again

theorem barRelease (h : KeepsRetired s t) (b k p : Nat) : KeepsRetired s (t.barRelease b k p) := by
  have acquired : KeepsRetired s (if (t.blk b).pair then
      (t.blk b).cores.foldl (fun u c => u.selfInvalidate c (t.gang (t.blk b).gang).ctx) t else t) :=
    ite (h.same (sameWork_foldl (fun u c => sameWork_selfInvalidate u c _) _ t)) h
  exact (acquired.foldl fun u g => (refl u).updGrp g).same (sameWork_withOps _ _) |>.arriveAgain b k

theorem barComplete (h : KeepsRetired s t) (b k : Nat) : KeepsRetired s (t.barComplete b k) := by
  refine ite (same ?counted (sameWork_foldl (fun u c => sameWork_startDrain u c _ _) _ _)) (barRelease ?counted b k _)
  exact (h.updBlk b).same (sameWork_withOps _ _)

theorem barCheck (h : KeepsRetired s t) (b k : Nat) : KeepsRetired s (t.barCheck b k) :=
  ite (((h.barArrivals b k).barComplete b k).barArrivals b k) (h.barArrivals b k)

/-! ### Gang barriers (R287, R425) -/

theorem gbarArrivals (h : KeepsRetired s t) (b g : Nat) : KeepsRetired s (t.gbarArrivals b g) :=
  h.foldl fun u i => ite (((refl u).updGrp i).updBlk b) (refl u)

theorem gbarCheck (h : KeepsRetired s t) (b g : Nat) : KeepsRetired s (t.gbarCheck b g) :=
  ite h (ite (((h.gbarArrivals b g).updBlk b).same (sameWork_send _ _)) (h.gbarArrivals b g))

theorem gbarCheckAll (h : KeepsRetired s t) (b : Nat) : KeepsRetired s (t.gbarCheckAll b) :=
  h.foldl fun u g => (refl u).gbarCheck b g

theorem releaseBlocks (h : KeepsRetired s t) (k g isle : Nat) (all : Bool) :
    KeepsRetired s (t.releaseBlocks k g isle all) :=
  h.foldl fun u _ => ite ((refl u).same (sameWork_send u _)) (refl u)

theorem startSlew (h : KeepsRetired s t) (k : Nat) : KeepsRetired s (t.startSlew k) :=
  have closed := h.same (sameWork_foldl (fun u c => sameWork_updCore u c fun x => { x with admitted := false })
    (t.gangCores k) t)
  ⟨closed.mem, closed.passDue, closed.grp, closed.blk⟩

/-- A barrier unit that counts, completes and releases a phase retires nobody (R425). -/
theorem unitCheck (h : KeepsRetired s t) (k g : Nat) : KeepsRetired s (t.unitCheck k g) := by
  unfold State.unitCheck
  refine ite ?_ (ite (((h.same (sameWork_updGang _ k _)).same (sameWork_updGang _ k _)).releaseBlocks k g _ true) h)
  refine ite (foldl (startSlew (same (same ?arrived (sameWork_updGang _ k _)) (sameWork_updGang _ k _)) k)
    fun u _ => (refl u).same (sameWork_send u _)) ?arrived
  exact h.foldl fun u isle => ite (((refl u).same (sameWork_updGang u k _)).same (sameWork_send _ _)) (refl u)

theorem unitChecks (h : KeepsRetired s t) (k : Nat) : KeepsRetired s (t.unitChecks k) :=
  h.foldl fun u g => (refl u).unitCheck k g

end KeepsRetired

end Sys2Proof.Proofs
end

section
/-!
SUPPORT. The scheduler's events, one rule each, and the statement about them.
-/
namespace Sys2Proof.Proofs
open Sys2Proof.Machine Sys2Proof.Laws

/-! ## Lists and sparse maps -/

/-- What is placed stands in the map. -/
theorem mem_place_self {β : Type} (m : SMap β) (k : Nat) (v : β) : (k, v) ∈ place m k v := by
  induction m with
  | nil => simp [place]
  | cons e t ih =>
    simp only [place]
    split
    · simp
    · split <;> simp [ih]

/-- A map written at each of the first `n` keys holds at them what was written, and nothing elsewhere. -/
theorem look_foldl_put_range (f : Nat → Nat) (n k : Nat) :
    look 0 ((List.range n).foldl (fun m i => put 0 m i (f i)) []) k = if k < n then f k else 0 := by
  induction n with
  | zero => simp [look]
  | succ n ih =>
    rw [List.range_succ, List.foldl_append, List.foldl_cons, List.foldl_nil]
    by_cases h : n = k
    · subst h
      simp
    · rw [look_put_ne 0 0 _ n k _ h, ih]
      have : k < n ↔ k < n + 1 := by omega
      simp only [this]

theorem mem_insertBy {α : Type} (lt : α → α → Bool) (x a : α) (l : List α) :
    a ∈ insertBy lt x l ↔ a = x ∨ a ∈ l := by
  induction l with
  | nil => simp [insertBy]
  | cons y t ih =>
    simp only [insertBy]
    split
    · simp
    · simp only [List.mem_cons, ih]
      tauto

/-- Ordering a list keeps its elements. -/
theorem mem_sortBy {α : Type} (lt : α → α → Bool) (a : α) (l : List α) : a ∈ sortBy lt l ↔ a ∈ l := by
  suffices h : ∀ acc, a ∈ l.foldl (fun acc x => insertBy lt x acc) acc ↔ a ∈ acc ∨ a ∈ l by
    simpa [sortBy] using h []
  induction l with
  | nil => simp
  | cons x t ih =>
    intro acc
    rw [List.foldl_cons, ih, mem_insertBy, List.mem_cons]
    tauto

theorem foldl_max_mem {l : List Nat} (h : l ≠ []) : l.foldl max 0 ∈ l := by
  obtain ⟨m, hm⟩ := Option.ne_none_iff_exists'.mp (mt List.max?_eq_none_iff.mp h)
  have largest : l.foldl max 0 = m := by simp [List.foldl_max, hm]
  exact largest ▸ List.max?_mem hm

/-- The first element that satisfies a condition, or else the first of all, is one of them. -/
theorem find_or_head_mem {l : List Nat} (p : Nat → Bool) (h : l ≠ []) : (l.find? p).getD (l.headD 0) ∈ l := by
  cases hf : l.find? p with
  | some a => exact List.mem_of_find?_eq_some hf
  | none =>
    cases l with
    | nil => contradiction
    | cons x t => exact List.mem_cons_self

/-! ## Retirement (R58, R59) -/

/-- A group that has retired (R58, R78). -/
def retiredGroup (x : Group) : Group :=
  { (x.updCtl fun c => { c with masks := [], marr := [] }) with
    retired := true, regs := [], sregs := [], pend := [], gage := 0 }

/-- The state in which a group has retired and the barriers are still to be evaluated. -/
def groupGone (s : State) (g : Nat) : State :=
  (s.updGrp g retiredGroup).updDisp fun d => { d with passDue := true }

/-- After a group has retired its block's barriers and its gang's are evaluated, and no more retires (R58, R286). -/
theorem groupRetire_keeps {s : State} {g : Nat} (h : s.mayRetireGroup g = true) :
    ∃ t, exec (.groupRetire g) s = .next t ∧ KeepsRetired (groupGone s g) t := by
  rw [exec_groupRetire, execGroupRetire, if_pos h]
  refine ⟨_, rfl, KeepsRetired.gbarCheckAll ?_ _⟩
  exact (KeepsRetired.refl (groupGone s g)).foldl fun u k =>
    .ite ((KeepsRetired.refl u).updBlk _) (((KeepsRetired.refl u).updBlk _).barCheck _ k)

/-- A group that retires, and no memory is touched (R58). -/
theorem groupRetire_next {s : State} {g : Nat} (h : s.mayRetireGroup g = true) (hg : g < s.groups.length) :
    ∃ t, exec (.groupRetire g) s = .next t ∧ (t.grp g).retired = true ∧ t.disp.passDue = true ∧ t.mem = s.mem := by
  obtain ⟨t, ht, keeps⟩ := groupRetire_keeps h
  have retired : ((groupGone s g).grp g).retired = true :=
    congrArg Group.retired (grp_updGrp_self s g retiredGroup hg)
  exact ⟨t, ht, (keeps.grp g).trans retired, keeps.passDue, keeps.mem⟩

/-- A drain that starts stands among the drains (R130). -/
theorem drains_startDrain (s : State) (core ctx : Nat) (owner : DrainOwner) :
    (s.startDrain core ctx owner).drains? owner = true := by
  unfold State.drains? State.startDrain
  exact List.any_eq_true.mpr ⟨_, mem_place_self _ _ _, beq_self_eq_true owner⟩

/-- A block's release starts a drain on each of its cores, of which there is one at least (R49, R59). -/
theorem drains_foldl_cores (x : Block) (s : State) (ctx : State → Nat) (owner : DrainOwner) :
    (x.cores.foldl (fun (u : State) c => u.startDrain c (ctx u) owner) s).drains? owner = true := by
  unfold Block.cores
  split <;> exact drains_startDrain _ _ _ owner

/-- A block that has retired and is being released (R59). -/
def retiredBlock (x : Block) : Block := { x with retired := true, releasing := true }

/-- A block that retires starts its release (R59). -/
theorem blockRetire_next {s : State} {b : Nat} (h : s.mayRetireBlock b = true) (hb : b < s.blocks.length) :
    ∃ t, exec (.blockRetire b) s = .next t ∧ (t.blk b).retired = true ∧ (t.blk b).releasing = true ∧
      t.drains? (.block b) = true ∧ t.mem = s.mem := by
  rw [exec_blockRetire, execBlockRetire, if_pos h]
  refine ⟨_, rfl, ?_⟩
  have checked := (KeepsRetired.refl (s.updBlk b retiredBlock)).unitChecks (s.blk b).gang
  have keeps := checked.same (sameWork_foldl
    (fun u c => sameWork_startDrain u c (u.gang (s.blk b).gang).ctx (.block b)) (s.blk b).cores _)
  obtain ⟨retired, releasing⟩ := keeps.blk b
  rw [blk_updBlk_self s b retiredBlock hb] at retired releasing
  exact ⟨retired, releasing, drains_foldl_cores _ _ (fun u => (u.gang (s.blk b).gang).ctx) _, keeps.mem⟩

/-- A gang that retires is freed, and its join counter, if it has one, is to be decremented (R55, R59). -/
theorem gangRetire_next {s : State} {ga : Nat} (h : s.mayRetireGang ga = true) :
    exec (.gangRetire ga) s = .next (if (s.gang ga).record.join = 0 then s.freeGang ga
      else (s.freeGang ga).updDisp fun d =>
        { d with joins := d.joins ++ [⟨ga, (s.gang ga).record.join, (s.gang ga).ctx⟩] }) := by
  rw [exec_gangRetire, execGangRetire, if_pos h]

/-! ## Join counters (R55, R56, R427) -/

theorem joinDecrement_next {s : State} {ga : Nat} {j : Join}
    (h : s.disp.joins.find? (fun j => j.gang == ga && s.joinDue j) = some j) :
    exec (.joinDecrement ga) s = .next (s.joinStep j) := by
  rw [exec_joinDecrement, execJoinDecrement, h]

/-- A request that an agent has not made goes out under a fresh tag, where the unit can send (R492). -/
theorem ask_sends {s : State} {a : Agent} {key : Nat} {p : Packet}
    (lines : (s.ticket a).lines.find? (fun e => e.1 == key) = none) (pend : (s.ticket a).pend = [])
    (room : s.sendFull p.sisle p.sunit p.vc = false) :
    s.ask a key p = .wait ((s.took.setTicket { s.ticket a with pend := [(s.fresh, key)] }).send
      { p with tag := s.fresh }) := by
  simp [State.ask, lines, pend, room]

theorem linePacket_vc (typ vc dlen isle unit ctx : Nat) (h : Option Home) (pa : Nat) :
    (linePacket typ vc dlen isle unit ctx h pa).vc = vc := by cases h <;> rfl
theorem linePacket_sisle (typ vc dlen isle unit ctx : Nat) (h : Option Home) (pa : Nat) :
    (linePacket typ vc dlen isle unit ctx h pa).sisle = isle := by cases h <;> rfl
theorem linePacket_sunit (typ vc dlen isle unit ctx : Nat) (h : Option Home) (pa : Nat) :
    (linePacket typ vc dlen isle unit ctx h pa).sunit = unit := by cases h <;> rfl

/-- The decrement of a counter whose place is known leaves for the counter's home (R55, R394). -/
theorem joinStep_sends {s : State} {j : Join} {x : Xl} {h : Home} (due : s.joinDue j = true)
    (lines : (s.ticket (.join j.gang)).lines.find? (fun e => e.1 == 0) = none)
    (hit : s.lookup (.agent (.join j.gang)) none 0 j.ctx j.va .both = .ok x) (home : s.homeOfXl j.ctx x = some h) :
    s.joinStep j =
      let v := s.tookWalks (.agent (.join j.gang))
      (v.took.setTicket { v.ticket (.join j.gang) with pend := [(v.fresh, 0)] }).send
        { joinPacket j.ctx h x.pa with tag := v.fresh } := by
  simp only [State.joinDue, State.schedWaits, State.asking, State.schedSends, Bool.and_eq_true, Bool.not_eq_true',
    Bool.or_eq_false_iff, Bool.not_eq_false', List.isEmpty_iff] at due
  obtain ⟨⟨pend, -⟩, room⟩ := due
  have sent := ask_sends (s := s.tookWalks (.agent (.join j.gang))) (p := joinPacket j.ctx h x.pa) lines pend
    (by rwa [joinPacket, linePacket_vc, linePacket_sisle, linePacket_sunit])
  simp only [State.joinStep, lines, hit, home, State.schedAsk, sent]

section
variable {s : State} {j : Join} {k poison : Nat} {old : LineData}

/-- A decrement whose answer is poisoned, or that found the counter at zero, is reported (R56, R357). -/
theorem joinStep_reports
    (come : (s.ticket (.join j.gang)).lines.find? (fun e => e.1 == 0) = some (k, old, poison))
    (h : poison ≠ 0 ∨ old = 0) : s.joinStep j = s.joinFails j := by
  simp only [State.joinStep, come]
  exact if_pos h

/-- A decrement that leaves the counter above zero is over (R55). -/
theorem joinStep_ends
    (come : (s.ticket (.join j.gang)).lines.find? (fun e => e.1 == 0) = some (k, old, 0))
    (h0 : old ≠ 0) (h1 : old ≠ 1) : s.joinStep j = s.joinOver j := by
  simp only [State.joinStep, come]
  rw [if_neg (by simp only [ne_eq, not_true_eq_false, false_or]; exact h0), if_neg h1]

/-- A decrement that takes the counter to zero reads the block and pushes its record (R427). -/
theorem joinStep_pushes
    (come : (s.ticket (.join j.gang)).lines.find? (fun e => e.1 == 0) = some (k, 1, 0)) :
    (∀ u, s.schedLoad (.join j.gang) 1 j.ctx j.va = .wait u → s.joinStep j = u) ∧
    (s.schedLoad (.join j.gang) 1 j.ctx j.va = .bad → s.joinStep j = s.joinFails j) ∧
    ∀ d marks, s.schedLoad (.join j.gang) 1 j.ctx j.va = .got d marks →
      s.joinStep j = if marks = 0 then (s.joinOver j).joinPush d else s.joinFails j := by
  have one : ¬((0 : Nat) ≠ 0 ∨ (1 : LineData) = 0) := by simp
  refine ⟨fun u h => ?_, fun h => ?_, fun d marks h => ?_⟩ <;>
    simp only [State.joinStep, come, if_neg one, if_true, h]

/-- A decrement that has no answer yet looks its counter up, and is reported where it has no place (R357, R427). -/
theorem joinStep_looks
    (none_yet : (s.ticket (.join j.gang)).lines.find? (fun e => e.1 == 0) = none) :
    (s.lookup (.agent (.join j.gang)) none 0 j.ctx j.va .both = .miss →
      s.joinStep j = s.startWalk (.agent (.join j.gang)) 0 j.ctx j.va) ∧
    (∀ f, s.lookup (.agent (.join j.gang)) none 0 j.ctx j.va .both = .bad f → s.joinStep j = s.joinFails j) ∧
    ∀ x, s.lookup (.agent (.join j.gang)) none 0 j.ctx j.va .both = .ok x → s.homeOfXl j.ctx x = none →
      s.joinStep j = s.joinFails j := by
  refine ⟨fun h => ?_, fun f h => ?_, fun x h home => ?_⟩
  · simp only [State.joinStep, none_yet, h]
  · simp only [State.joinStep, none_yet, h]
  · simp only [State.joinStep, none_yet, h, home]

end

/-! ## Popping records (R414, R418, R423) -/

theorem queuePop_ready {s : State} {p : Popping} (h : s.popReady = some p) :
    exec .queuePop s = .next (s.popStep p) := by
  rw [exec_queuePop, execQueuePop, h]

theorem popStep_waits {s u : State} {p : Popping} (h : s.readRecord (.pop p.id) p.ctx p.pa = .wait u) :
    s.popStep p = u := by
  rw [State.popStep, h]

theorem popStep_got {s : State} {p : Popping} {w : Nat} {desc header : Option Nat}
    (h : s.readRecord (.pop p.id) p.ctx p.pa = .got w desc header) : s.popStep p = s.takeRecord p w desc header := by
  rw [State.popStep, h]

/-- A well-formed record that has been read joins the pending list, behind those of its priority (R420). -/
theorem takeRecord_ok {s : State} {p : Popping} {w : Nat} {desc header : Option Nat}
    (h : recordOk w desc header = true) : s.takeRecord p w desc header =
      ((s.schedForget (.pop p.id)).updDisp fun d => { d with popping := d.popping.erase p }).updDisp fun d => { d with
        passDue := true
        pending := insertPending d.pending
          ⟨p.queue, BitVec.ofNat 64 p.pa, recordOf w, desc.getD 0, p.ctx, p.pri, s.ptime, false⟩ } := by
  rw [State.takeRecord]
  exact if_pos h

/-- A record that is not well formed is refused (R414). -/
theorem takeRecord_bad {s : State} {p : Popping} {w : Nat} {desc header : Option Nat}
    (h : recordOk w desc header = false) : s.takeRecord p w desc header =
      ((s.schedForget (.pop p.id)).updDisp fun d => { d with popping := d.popping.erase p }).refuseGang p.ctx
        (BitVec.ofNat 64 p.pa) := by
  rw [State.takeRecord]
  exact if_neg (Bool.eq_false_iff.mp h)

/-- A head that is asked for is one that cannot be told yet, so that reading it waits (R423). -/
theorem readHead_of_askHead {s : State} {n : Nat} (h : s.askHead = some n) : ∃ u, s.readHead n = .wait u := by
  unfold State.askHead at h
  split at h
  · have unknown := List.find?_some h
    simp only [State.headUnknown, Bool.and_eq_true] at unknown
    obtain ⟨⟨-, waits⟩, -⟩ := unknown
    split at waits
    · next u hu => exact ⟨u, hu⟩
    · contradiction
  · contradiction

/-- A head asked for changes nothing but what is asked (R423). -/
theorem queuePop_asks {s : State} {n : Nat} (hr : s.popReady = none) (ha : s.askHead = some n) :
    ∃ u, exec .queuePop s = .next u ∧ s.readHead n = .wait u ∧ u.disp = s.disp ∧ u.mem = s.mem := by
  obtain ⟨u, hu⟩ := readHead_of_askHead ha
  have same : SameWork s u := sameWork_readRecord hu
  refine ⟨u, ?_, hu, same.disp, same.mem⟩
  rw [exec_queuePop, execQueuePop, hr, ha]
  exact congrArg (fun r => Host.Outcome.next (HeadRead.asked r s)) hu

/-- The arbiter picks one of the eligible queues (R418). -/
theorem arbiter_eligible {s : State} (h : s.eligibleQueues ≠ []) : s.arbiter.1 ∈ s.eligibleQueues := by
  unfold State.arbiter
  extract_lets el pris relief best p cand
  have some_pri : pris ≠ [] := by simpa [pris, el] using h
  have chosen : p ∈ pris := by
    simp only [p]
    split
    · exact foldl_max_mem some_pri
    · next hne => exact List.mem_of_mem_filter (foldl_max_mem (mt List.isEmpty_iff.mpr hne))
  have in_el : ∀ n, n ∈ cand ↔ n ∈ el ∧ (s.qctl n).pri = p := by simp [cand, mem_sortBy]
  have some_cand : cand ≠ [] := by
    obtain ⟨n, hn, hpri⟩ := List.mem_map.mp (List.mem_dedup.mp chosen)
    exact List.ne_nil_of_mem ((in_el n).mpr ⟨hn, hpri⟩)
  exact ((in_el _).mp (find_or_head_mem _ some_cand)).1

theorem eligible_of_popDue {s : State} (h : s.popDue = true) : s.eligibleQueues ≠ [] := by
  simp only [State.popDue, Bool.and_eq_true, Bool.not_eq_true', List.isEmpty_eq_false_iff] at h
  exact h.2

/-- The record that the arbiter picks is popped (R418, R428). -/
theorem queuePop_pops {s : State} (hr : s.popReady = none) (ha : s.askHead = none) (hd : s.popDue = true) :
    exec .queuePop s = .next (State.popHead ({ s with timers := place s.timers 5600 (s.bclk + 1) }.updDisp fun d =>
      { d with
        rr := place d.rr s.arbiter.2.1 (s.arbiter.1 + 1)
        hc := (s.arbiter.2.2.filter (· < s.arbiter.2.1)).foldl (fun m x => place m x (min (look 0 m x + 1) 256))
          (put 0 d.hc s.arbiter.2.1 0) }) s.arbiter.1) := by
  rw [exec_queuePop, execQueuePop, hr, ha]
  exact if_pos hd

/-! ## Placement (R420, R421) -/

theorem placementPass_next {s : State} (h : s.disp.passDue = true) :
    exec .placementPass s = .next ((s.updDisp fun d => { d with passDue := false }).pass [] s.disp.pending) := by
  rw [exec_placementPass, execPlacementPass, if_pos h]

section
variable {u : State} {p : Pending}

/-- An entry that never fits is refused when no earlier one stays (R22, R420). -/
theorem pass_refuses (h : u.neverFits p = true) :
    u.pass [] [p] = (u.refuseGang p.ctx p.task).updDisp fun d => { d with pending := [] } := by
  simp [State.pass, h]

theorem pass_places {cores : List Nat} {unit : Nat} (fits : u.neverFits p = false)
    (held : u.heldBack p.ctx p.desc = false) (busy : u.imageBusy p = false) (hf : u.fitting p = some (cores, unit)) :
    u.pass [] [p] = (u.addGang p cores unit).updDisp fun d => { d with pending := [] } := by
  simp [State.pass, fits, held, busy, hf]

theorem pass_keeps (fits : u.neverFits p = false)
    (h : u.heldBack p.ctx p.desc = true ∨ u.imageBusy p = false ∧ u.fitting p = none) :
    u.pass [] [p] = u.updDisp fun d => { d with pending := [p] } := by
  cases held : u.heldBack p.ctx p.desc with
  | true => simp [State.pass, fits, held]
  | false =>
    obtain ⟨busy, hf⟩ : u.imageBusy p = false ∧ u.fitting p = none := by simpa [held] using h
    simp [State.pass, fits, held, busy, hf]

theorem pass_recalls (fits : u.neverFits p = false) (held : u.heldBack p.ctx p.desc = false)
    (busy : u.imageBusy p = true) :
    u.pass [] [p] = (u.recallWithin p.record.image.toNat (u.imageLength p)).updDisp fun d =>
      { d with pending := [p] } := by
  simp [State.pass, fits, held, busy]

end

/-- The first entry that has waited 100 µs blocks the later ones from now on (R420). -/
theorem pendingEntryBlocks_next {s : State} {k : Nat}
    (h : (List.range s.disp.pending.length).find? s.blocksNow = some k) :
    exec .pendingEntryBlocks s = .next
      (s.updDisp fun d => { d with pending := d.pending.modify k fun p => { p with blocks := true } }) := by
  rw [exec_pendingEntryBlocks, execPendingEntryBlocks, h]

/-! ## Windows (R409, R423) -/

/-- The remote line requests that the isles have counted for a context so far (R410, R423). -/
def remoteLines (s : State) (c : Nat) : Nat :=
  ((List.range 16).map fun i => look 0 s.mesh.lreqRemote (i * 64 + c)).sum

/-- The blocks that a context has on the part. -/
def liveBlocks (s : State) (c : Nat) : Nat := (s.blocks.filter fun b => b.live && (s.gang b.gang).ctx == c).length

/-- Whether a strait of an isle has carried HBTHR flits in the window that has ended (R423). -/
def isleHot (s : State) (i : Nat) : Bool :=
  (List.range 4).any fun d => decide (s.disp.hbthr ≤ look 0 s.mesh.utilLast (4 * i + d))

theorem isleHot_iff (s : State) (i : Nat) :
    isleHot s i = true ↔ ∃ d, d < 4 ∧ s.disp.hbthr ≤ look 0 s.mesh.utilLast (4 * i + d) := by
  simp [isleHot]

/-- What a holdback window computes (R423). -/
theorem holdbackWindow_next {s : State} (h2 : s.windowDue 5602 = true) (h1 : s.windowDue 5601 = false) :
    ∃ t, exec .holdbackWindow s = .next t ∧
      t.disp = { s.disp with
        mload := (List.range 64).foldl (fun m c =>
          put 0 m c ((remoteLines s c - look 0 s.disp.lastRemote c) / max 1 (liveBlocks s c))) []
        hot := (List.range 16).foldl (fun m i => put 0 m i (bit (isleHot s i))) []
        lastRemote := (List.range 64).foldl (fun m c => put 0 m c (remoteLines s c)) []
        passDue := s.disp.passDue || !s.disp.pending.isEmpty } := by
  rw [exec_holdbackWindow, execHoldbackWindow, h2, h1]
  exact ⟨_, rfl, rfl⟩

/-! ## The statement -/

/-- Settles O49, event by event. -/
theorem gangsComeAndGo : Obligations.GangsComeAndGo := by
  unfold Obligations.GangsComeAndGo
  intro g b ga s
  refine ⟨groupRetire_next, blockRetire_next, fun h => ?gang, fun j hj => ?join, fun p hp => ?ready,
    fun n => queuePop_asks, fun hr ha hd => ?pop, fun hd => ?pass, fun k => pendingEntryBlocks_next, fun hw => ?traffic,
    fun h2 h1 => ?holdback⟩
  case gang =>
    rw [gangRetire_next h]
    exact ⟨fun h0 => by rw [if_pos h0], fun h0 => by rw [if_neg h0]⟩
  case join =>
    intro a gone fails load come hit
    rw [joinDecrement_next hj]
    have due : s.joinDue j = true := by
      have := List.find?_some hj
      simp only [Bool.and_eq_true] at this
      exact this.2
    refine ⟨fun k old poison hcome => ⟨fun hbad => ?_, fun hp h0 h1 => ?_, fun hp h1 => ?_⟩,
      fun hcome => ?_⟩
    · exact congrArg Host.Outcome.next (joinStep_reports hcome hbad)
    · subst hp
      exact congrArg Host.Outcome.next (joinStep_ends hcome h0 h1)
    · subst hp h1
      obtain ⟨waits, bad, got⟩ := joinStep_pushes hcome
      refine ⟨fun u h => congrArg Host.Outcome.next (waits u h), fun h => congrArg Host.Outcome.next (bad h),
        fun d marks h => ⟨fun hm => ?_, fun hm => ?_⟩⟩
      · exact congrArg Host.Outcome.next ((got d marks h).trans (if_neg hm))
      · exact congrArg Host.Outcome.next ((got d marks h).trans (if_pos hm))
    · obtain ⟨misses, bad, lost⟩ := joinStep_looks hcome
      exact ⟨fun h => congrArg Host.Outcome.next (misses h), fun f h => congrArg Host.Outcome.next (bad f h),
        fun x hx => ⟨fun home => congrArg Host.Outcome.next (lost x hx home),
          fun h home => congrArg Host.Outcome.next (joinStep_sends due hcome hx home)⟩⟩
  case ready =>
    intro gone
    rw [queuePop_ready hp]
    refine ⟨fun u h => ?_, fun w desc header h => ⟨fun ok => ?_, fun bad => ?_⟩⟩
    · rw [popStep_waits h]
    · rw [popStep_got h, takeRecord_ok ok]
      rfl
    · rw [popStep_got h, takeRecord_bad bad]
      rfl
  case pop =>
    intro n q p s1 s2 s3 s4
    refine ⟨arbiter_eligible (eligible_of_popDue hd), ?_⟩
    rw [queuePop_pops hr ha hd]
    rfl
  case pass =>
    intro s1
    rw [placementPass_next hd]
    refine ⟨rfl, fun h => ?_, fun p cores u h fits held busy hf => ?_, fun p h fits stays => ?_,
      fun p h fits held busy => ?_, fun p h never => ?_⟩
    · rw [h]
      rfl
    · rw [h]
      exact congrArg Host.Outcome.next (pass_places fits held busy hf)
    · rw [h]
      exact congrArg Host.Outcome.next (pass_keeps fits stays)
    · rw [h]
      exact congrArg Host.Outcome.next (pass_recalls fits held busy)
    · rw [h]
      exact congrArg Host.Outcome.next (pass_refuses never)
  case traffic =>
    intro after
    rw [exec_trafficWindow, execTrafficWindow, State.windowDue, if_pos (decide_eq_true hw)]
    rfl
  case holdback =>
    obtain ⟨t, ht, disp⟩ := holdbackWindow_next (decide_eq_true h2) (decide_eq_false (Nat.not_lt.mpr h1))
    refine ⟨t, ht, fun i hi => ?_, fun c hc => ?_, by rw [disp]⟩
    · simp only [disp, look_foldl_put_range, if_pos hi, ← isleHot_iff]
      cases isleHot s i <;> simp [bit]
    · simp only [disp, look_foldl_put_range, if_pos hc]
      exact ⟨rfl, rfl⟩

end Sys2Proof.Proofs
end

section
/-!
SUPPORT. Lane sets, fibres and lane masks: what each change of a group leaves of them.
-/
namespace Sys2Proof.Proofs
open Sys2Proof.Machine Sys2Proof.Laws

/-! ## Lane sets (R44) -/

theorem getLsbD_laneBit {n : Nat} (h : n < 32) (i : Nat) : (laneBit n).getLsbD i = decide (n = i) := by
  have twoPow : laneBit n = BitVec.twoPow 32 n := rfl
  simp [twoPow, h]

/-- The lanes of a set built up to `n` are those below `n` that satisfy the condition. -/
theorem getLsbD_foldl_laneBit (p : Nat → Bool) (i : Nat) {n : Nat} (h : n ≤ 32) :
    ((List.range n).foldl (fun acc k => if p k then acc ||| laneBit k else acc) 0#32).getLsbD i =
      (decide (i < n) && p i) := by
  induction n with
  | zero => simp
  | succ n ih =>
    have before := ih (by omega)
    have bit := getLsbD_laneBit (n := n) (by omega) i
    rw [List.range_succ, List.foldl_append, List.foldl_cons, List.foldl_nil]
    by_cases hi : n = i
    · subst hi
      cases hp : p n <;> simp [hp, before, bit]
    · have below : i < n + 1 ↔ i < n := by omega
      cases hp : p n <;> simp [before, bit, hi, below]

/-- A lane is in a lane set exactly where it is below 32 and satisfies the condition. -/
@[simp] theorem getLsbD_laneSet (p : Nat → Bool) (i : Nat) : (laneSet p).getLsbD i = (decide (i < 32) && p i) :=
  getLsbD_foldl_laneBit p i le_rfl

/-! ## Fibres -/

/-- A fibre of the changed lanes is what the change makes of it, and any other is as it was. -/
theorem fib_updFibs (x : Group) (l : W32) (f : Nat → Fibre → Fibre) {i : Nat} (h : i < x.ctl.fibs.length) :
    (x.updFibs l f).fib i = if l.getLsbD i then f i (x.fib i) else x.fib i := by
  simp [Group.fib, Group.updFibs, List.getD_eq_getElem?_getD, h]

@[simp] theorem length_fibs_updFibs (x : Group) (l : W32) (f : Nat → Fibre → Fibre) :
    (x.updFibs l f).ctl.fibs.length = x.ctl.fibs.length := by
  simp [Group.updFibs]

/-- A change of all fibres at once, by a function that leaves a vacant slot vacant. -/
theorem fib_map (x : Group) {f : Fibre → Fibre} (h : f Fibre.vacant = Fibre.vacant) (i : Nat) :
    (x.updCtl fun c => { c with fibs := c.fibs.map f }).fib i = f (x.fib i) := by
  have mapped := List.getD_map (n := i) (d := Fibre.vacant) (l := x.ctl.fibs) f
  rwa [h] at mapped

@[simp] theorem mask_updFibs (x : Group) (l : W32) (f : Nat → Fibre → Fibre) (m : Nat) :
    (x.updFibs l f).mask m = x.mask m := rfl

@[simp] theorem pass_wait (f : Fibre) (c : Issue) : (f.pass c).wait = f.wait := by
  unfold Fibre.pass
  split <;> rfl

/-- The address at which an instruction's fibres go on: the next word of the clause, or the header after it (R163). -/
theorem pass_pc (f : Fibre) (c : Issue) :
    (f.pass c).pc = if c.idx + c.len ≤ c.nwords then c.hdr + BitVec.ofNat 64 (4 * (c.idx + c.len))
      else c.hdr + BitVec.ofNat 64 (4 * (c.nwords + 1)) := by
  unfold Fibre.pass
  split <;> rfl

/-! ## A change of a mask (R235, R236) -/

@[simp] theorem mask_updMask_self (x : Group) (m : Nat) (f : W32 → W32) : (x.updMask m f).mask m = f (x.mask m) :=
  look_put_self 0 x.ctl.masks m _

theorem mask_updMask_ne (x : Group) {m j : Nat} (f : W32 → W32) (h : j ≠ m) : (x.updMask m f).mask j = x.mask j :=
  look_put_ne 0 0 x.ctl.masks m j _ h.symm

/-! ## The end of an instruction of a group (R163, R179) -/

/-- A group's instruction moves the active lanes past it. -/
theorem finish_of_group {s : State} (h : s.cur.kind = .group) :
    s.finish = s.updGrp s.cur.grp fun g => g.updFibs s.cur.lanes fun _ f => f.pass s.cur := by
  simp only [State.finish, h]

section
variable {s : State} (issues : s.groupIssues) (F : Group → Group)
include issues

/-- The issuing group after a change of it and the end of its instruction. -/
theorem grp_finish_updGrp : ((s.updGrp s.cur.grp F).finish.grp s.cur.grp) =
    (F (s.grp s.cur.grp)).updFibs s.cur.lanes fun _ f => f.pass s.cur := by
  obtain ⟨kind, exists_, -⟩ := issues
  rw [finish_of_group (s := s.updGrp s.cur.grp F) kind, updGrp_cur, grp_updGrp_self _ _ _ (by simpa using exists_),
    grp_updGrp_self _ _ _ exists_]

/-- A change that keeps the lane slots leaves the active lanes past their instruction. -/
theorem movedOn_finish_updGrp (keeps : (F (s.grp s.cur.grp)).ctl.fibs.length = (s.grp s.cur.grp).ctl.fibs.length) :
    s.movedOn (s.updGrp s.cur.grp F).finish := by
  intro i hi active
  rw [grp_finish_updGrp issues, fib_updFibs _ _ _ (by omega), if_pos active, pass_pc]

end

end Sys2Proof.Proofs
end

section
/-!
SUPPORT. Every step settles the lane masks (R45).
-/
namespace Sys2Proof.Proofs
open Sys2Proof.Machine Sys2Proof.Laws

/-- A mask that holds no waiting fibre once all its live lanes have arrived (R45): `Group.masksSettled` for one mask. -/
def MaskSettled (m : Nat) (g : Group) : Prop := g.maskFull m = true → ∀ i, (g.fib i).wait ≠ .mask m

/-- A mask that is released lets the fibres that wait for it go on, and leaves every other fibre as it is. -/
theorem fib_releaseMask (g : Group) (m i : Nat) :
    (g.releaseMask m).fib i =
      if g.maskFull m = true ∧ (g.fib i).wait = .mask m then { g.fib i with wait := .none } else g.fib i := by
  unfold Group.releaseMask
  split <;> rename_i full
  · rw [fib_map _ (by simp [Fibre.vacant])]
    simp only [full, true_and]
    rfl
  · simp [full]

theorem occupied_releaseMask (g : Group) (m : Nat) : (g.releaseMask m).occupied = g.occupied := by
  unfold Group.occupied
  congr
  funext i
  rw [fib_releaseMask]
  split <;> rfl

theorem mask_releaseMask (g : Group) (m k : Nat) : (g.releaseMask m).mask k = g.mask k := by
  unfold Group.releaseMask
  split <;> rfl

theorem marr_releaseMask_ne (g : Group) {m k : Nat} (h : m ≠ k) : (g.releaseMask m).marr k = g.marr k := by
  unfold Group.releaseMask
  split
  · exact look_put_ne 0 0 g.ctl.marr m k 0 h
  · rfl

/-- The release of one mask does not change whether another's lanes have all arrived. -/
theorem maskFull_releaseMask_ne (g : Group) {m k : Nat} (h : m ≠ k) :
    (g.releaseMask m).maskFull k = g.maskFull k := by
  simp only [Group.maskFull, occupied_releaseMask, mask_releaseMask, marr_releaseMask_ne g h]

theorem maskSettled_releaseMask_self (g : Group) (m : Nat) : MaskSettled m (g.releaseMask m) := by
  intro after i
  rw [fib_releaseMask]
  by_cases full : g.maskFull m = true
  · by_cases waits : (g.fib i).wait = .mask m <;> simp [full, waits]
  · rw [Group.releaseMask, if_neg full] at after
    contradiction

/-- A settled mask stays settled when any mask is released. -/
theorem MaskSettled.releaseMask {g : Group} {k : Nat} (h : MaskSettled k g) (m : Nat) :
    MaskSettled k (g.releaseMask m) := by
  by_cases hm : m = k
  · exact hm ▸ maskSettled_releaseMask_self g m
  · intro full i
    rw [maskFull_releaseMask_ne g hm] at full
    rw [fib_releaseMask]
    split
    · simp
    · exact h full i

theorem maskSettled_foldl {l : List Nat} {m : Nat} (h : m ∈ l) (g : Group) :
    MaskSettled m (l.foldl Group.releaseMask g) := by
  induction l using List.reverseRecOn with
  | nil => contradiction
  | append_singleton l k ih =>
    rw [List.foldl_append, List.foldl_cons, List.foldl_nil]
    rcases List.mem_append.mp h with earlier | last
    · exact (ih earlier).releaseMask k
    · exact List.mem_singleton.mp last ▸ maskSettled_releaseMask_self _ m

/-- The evaluation of all masks leaves none with its lanes arrived and a fibre waiting (R45). -/
theorem masksSettled_releaseMasks (g : Group) : g.releaseMasks.masksSettled :=
  fun _ hm => maskSettled_foldl (List.mem_range.mpr hm) g

/-- A step that goes on ends with the end of step. -/
theorem step_next {s t : State} (h : step s = .next t) : ∃ u : State, t = u.close := by
  unfold step State.cycle at h
  dsimp only at h
  split at h
  · next u _ =>
    cases h
    exact ⟨u, rfl⟩
  · next goes_on => exact absurd h (goes_on t)

/-- The end of a step settles, whatever the step did. -/
theorem settled_close (u : State) : u.close.Settled := by
  refine ⟨rfl, fun g hg => ?_⟩
  obtain ⟨x, -, rfl⟩ := List.mem_map.mp hg
  exact masksSettled_releaseMasks x

/-- Settles O59: the last thing that a step does is to release every mask whose lanes have all arrived, and releasing
one mask neither fills another nor makes a fibre wait. -/
theorem stepSettles : Obligations.StepSettles := by
  intro s t _ h
  obtain ⟨u, rfl⟩ := step_next h
  exact settled_close u

end Sys2Proof.Proofs
end

section
/-!
SUPPORT. The instructions on lane masks, and the statement about them.
-/
namespace Sys2Proof.Proofs
open Sys2Proof.Machine Sys2Proof.Laws

/-- What `mjoin`, `mleave` and `mset` leave: mask `m` holds `v`, and every other mask, the arrivals, the registers and
memory are what they were (R44, R235, R236). -/
def WritesMask (s : State) (i : Instr) (m : Nat) (v : W32) : Prop :=
  ∃ t, exec i s = .next t ∧ (t.grp s.cur.grp).mask m = v ∧
    (∀ j, j ≠ m → (t.grp s.cur.grp).mask j = (s.grp s.cur.grp).mask j) ∧
    (∀ j, (t.grp s.cur.grp).marr j = (s.grp s.cur.grp).marr j) ∧
    (s.grp s.cur.grp).sameRegs (t.grp s.cur.grp) ∧ s.movedOn t ∧ t.mem = s.mem

/-- The lanes of a set that are in a mask arrive at it and wait (R45). -/
def arriveAtMask (lanes : W32) (m : Nat) (g : Group) : Group :=
  (g.updCtl fun c => { c with marr := put 0 c.marr m (look 0 c.marr m ||| (lanes &&& g.mask m)) }).updFibs
    (lanes &&& g.mask m) fun _ f => { f with wait := .mask m }

theorem wait_arriveAtMask (lanes : W32) (m : Nat) (g : Group) {i : Nat} (h : i < g.ctl.fibs.length) :
    ((arriveAtMask lanes m g).fib i).wait =
      if (lanes &&& g.mask m).getLsbD i then .mask m else (g.fib i).wait :=
  (congrArg Fibre.wait (fib_updFibs _ _ _ h)).trans (apply_ite Fibre.wait _ _ _)

section
variable {s : State} (issues : s.groupIssues)
include issues

/-- An instruction whose immediate effect is a change of one mask writes that mask. -/
theorem writesMask_of_nowOp {i : Instr} {m : Nat} {rd : List Reg} {f : Group → W32 → W32}
    (free : s.regsFree rd [] 1)
    (meaning : exec i s = nowOp s rd fun s => s.updGrp s.cur.grp fun g => g.updMask m (f g)) :
    WritesMask s i m (f (s.grp s.cur.grp) ((s.grp s.cur.grp).mask m)) := by
  have after := grp_finish_updGrp issues fun g => g.updMask m (f g)
  refine ⟨_, meaning.trans (nowOp_next issues.1 free), ?_, fun j hj => ?_, fun j => ?_, ?_, ?_, by simp⟩
  · simp [after]
  · simp [after, mask_updMask_ne _ _ hj]
  · rw [after]
    rfl
  · rw [after]
    exact ⟨rfl, rfl, rfl⟩
  · exact movedOn_finish_updGrp issues _ rfl

/-- The active lanes in the mask have arrived and wait for it; nothing else has changed but that the active lanes have
moved on (R45). -/
theorem mwait_waits (m : Nat) :
    ∃ t, exec (.mwait m) s = .next t ∧
      (t.grp s.cur.grp).marr m = (s.grp s.cur.grp).marr m ||| (s.cur.lanes &&& (s.grp s.cur.grp).mask m) ∧
      (∀ j, (t.grp s.cur.grp).mask j = (s.grp s.cur.grp).mask j) ∧
      (s.grp s.cur.grp).sameRegs (t.grp s.cur.grp) ∧ s.movedOn t ∧ t.mem = s.mem ∧
      ∀ i, i < (s.grp s.cur.grp).ctl.fibs.length → ((t.grp s.cur.grp).fib i).wait =
        if (s.cur.lanes &&& (s.grp s.cur.grp).mask m).getLsbD i then .mask m else ((s.grp s.cur.grp).fib i).wait := by
  have after := grp_finish_updGrp issues (arriveAtMask s.cur.lanes m)
  refine ⟨_, (exec_mwait m s).trans (nowOp_next issues.1 regsFree_nil), ?_, fun j => ?_, ?_, ?_, by simp,
    fun i hi => ?_⟩
  · exact (congrArg (·.marr m) after).trans (look_put_self 0 (s.grp s.cur.grp).ctl.marr m _)
  · exact congrArg (·.mask j) after
  · exact after ▸ ⟨rfl, rfl, rfl⟩
  · exact movedOn_finish_updGrp issues _ (length_fibs_updFibs _ _ _)
  · refine (congrArg (fun x => (x.fib i).wait) after).trans ?_
    rw [fib_updFibs _ _ _ (by simpa [arriveAtMask] using hi), apply_ite Fibre.wait, pass_wait, ite_self,
      wait_arriveAtMask _ _ _ hi]

end

/-- Settles O13, by what a change of one mask and the end of an instruction leave of the group. -/
theorem laneMasks : Obligations.LaneMasks := by
  intro m k d s issues
  refine ⟨?_, ?_, fun free => ⟨?_, ?_, ?_⟩, mwait_waits issues m, ?_, ?_, ?_, ?_⟩
  · exact writesMask_of_nowOp issues (f := fun _ x => x ||| s.cur.lanes) regsFree_nil (exec_mjoin m s)
  · exact writesMask_of_nowOp issues (f := fun _ x => x &&& ~~~s.cur.lanes) regsFree_nil (exec_mleave m s)
  · exact writesMask_of_nowOp issues (f := fun g _ => g.s k) free (exec_mset m k 0 s)
  · exact writesMask_of_nowOp issues (f := fun g x => x ||| g.s k) free (exec_mset m k 1 s)
  · exact writesMask_of_nowOp issues (f := fun g x => x &&& ~~~g.s k) free (exec_mset m k 2 s)
  · exact scalarResult_of (exec_mget d m 0) fun _ _ => rfl
  · exact scalarResult_of (exec_mget d m 1) fun _ _ => rfl
  · exact scalarResult_of (exec_mget d m 2) fun _ _ => rfl
  · exact scalarResult_of (exec_mget d m 3) fun _ _ => rfl

end Sys2Proof.Proofs
end

section
/-!
SUPPORT. What a step does in each class of steps, and the statement about it.
-/
namespace Sys2Proof.Proofs
open Sys2Proof.Machine Sys2Proof.Laws

/-! ## The plan of a step -/

/-- What a step makes of the result of its instruction: one that goes on ends with the end of step. -/
def ended (r : Result) : Result :=
  match r with
  | .next u => .next u.close
  | r => r

section
variable {s : State}

theorem step_of_event {i : Instr} {t : State} (h : s.plan = .event i t) : step s = ended (exec i t) := by
  rw [step, State.cycle, h]
  rfl

theorem step_of_quiet {t : State} (h : s.plan = .quiet t) : step s = .next t.close := by
  rw [step, State.cycle, h]

theorem step_of_held {h : HeldEng} (hp : s.plan = .held h) : step s = ended (s.runHeld exec h) := by
  rw [step, State.cycle, hp]
  rfl

theorem step_of_slot {g : Nat} (h : s.plan = .slot g) : step s = ended (s.runSlot exec g) := by
  rw [step, State.cycle, h]
  rfl

theorem step_of_stream {b : Nat} (h : s.plan = .stream b) : step s = ended (s.runStream exec b) := by
  rw [step, State.cycle, h]
  rfl

/-- What comes from outside comes first. -/
theorem plan_of_agenda {i : Instr} {l : List Instr} (running : s.mgmt.frozen = false) (h : s.agenda = i :: l) :
    s.plan = .event i { s with agenda := l } := by
  simp [State.plan, h, running]

/-- Without an event from outside a header that is due is fetched. -/
theorem plan_of_fetchDue {g : Nat} (running : s.mgmt.frozen = false) (outside : s.agenda = [])
    (h : s.fetchDue = some g) : s.plan = .quiet (s.fetchGroup g) := by
  simp [State.plan, outside, running, h]

end

/-! ## Fetching and decoding (R162 to R167) -/

/-- A fetch whose header and words come captures the clause, where no address breakpoint stops it. -/
theorem fetchGroup_captures {s : State} {g h : Nat} {ws : List Nat} :
    let x := s.grp g
    let lanes := s.fetchLanes g
    let pc := (x.fib (firstLane lanes)).pc
    let fetch (a : W64) (n : Nat) : Fetched :=
      s.fetchWords (.clause g) (.group g (firstLane lanes)) (some x.core) (isleOf x.core) (s.ctxOf g) a n
    (s.ctx (s.ctxOf g)).breaks pc = false ∨ lanes &&& ~~~x.skipBp = 0 →
    fetch pc 1 = .words [h] → headOk h = true → fetch (pc + 4) (headWords h) = .words ws →
    s.fetchGroup g = s.capture g lanes ⟨pc, h, ws⟩ none := by
  intro x lanes pc fetch unbroken header ok words
  have no_break : ((s.ctx (s.ctxOf g)).breaks pc && (lanes &&& ~~~x.skipBp) != 0) = false := by
    rcases unbroken with off | passed
    · simp [off]
    · simp [passed]
  unfold State.fetchGroup
  dsimp only [fetch, pc, lanes, x] at *
  simp only [no_break, header, ok, words, List.headD_cons, Bool.false_eq_true, Bool.true_eq_false, if_false]

/-- The instruction at a word of a clause is the one that the word decodes to, where the word is no extension of
another and the instruction stands where it may (R166 to R168). -/
theorem clause_instr_of_decode {c : Clause} {idx : Nat} {i : Instr} :
    let len := if needsExt (headClass c.head) (c.word idx) then 2 else 1
    bits (c.word idx) 30 2 < 2 →
    decodeInstr (headClass c.head) (c.word idx) (if len = 2 then c.word (idx + 1) else 0) = .ok i →
    (i.endsClause = true → headWords c.head < idx + len) →
    c.instr idx = (some i, len) := by
  intro len begins decodes stands
  have in_place : ¬ (i.endsClause = true ∧ idx + len ≤ headWords c.head) := fun h => by
    have := stands h.1
    omega
  unfold Clause.instr
  dsimp only [len] at *
  simp only [decodes, accepted, if_neg (Nat.not_le.mpr begins)]
  exact congrArg (·, _) (if_neg (by simpa using in_place))

/-- A fibre set with a true guard whose header meets nothing runs the instruction of its word (R31, R164, R175). -/
theorem cand_runs {x : Group} {k : Nat} {lanes : W32} {c : Clause} {i : Instr} {len : Nat}
    (captured : (x.fib (firstLane lanes)).code = some c)
    (word : c.instr (x.fib (firstLane lanes)).word = (some i, len)) (hk : k < 32) (member : lanes.getLsbD k = true)
    (guard : (x.fib k).guardTrue c = true) (fetched : (x.fib (firstLane lanes)).bad = none)
    (legal : c.legal (x.fib (firstLane lanes)).word = true)
    (sound : (x.fib (firstLane lanes)).next = 0 → x.errorsAt c = []) :
    ∃ a, x.cand lanes = some a ∧ a.act = .run i ∧ a.clause = c ∧ a.idx = (x.fib (firstLane lanes)).word ∧
      a.len = len ∧ a.lanes = lanes ∧ a.active.getLsbD k = true := by
  have active : (laneSet fun j => lanes.getLsbD j && (x.fib j).guardTrue c).getLsbD k = true := by
    simp [hk, member, guard]
  have some_active : (laneSet fun j => lanes.getLsbD j && (x.fib j).guardTrue c) ≠ 0 := fun h => by
    simp [h] at active
  have no_error : ¬ ((x.fib (firstLane lanes)).next = 0 ∧ (x.errorsAt c).isEmpty = false) := fun h => by
    simp [sound h.1] at h
  have runs : x.actOf (x.fib (firstLane lanes)) c
      ((laneSet fun j => lanes.getLsbD j && (x.fib j).guardTrue c) != 0) = .run i := by
    simp only [Group.actOf, fetched, legal, if_neg no_error, word, bne_iff_ne.mpr some_active,
      Bool.true_eq_false, if_false]
  refine ⟨_, by rw [Group.cand, captured]; rfl, runs, rfl, rfl, congrArg Prod.snd word, rfl, ?_⟩
  dsimp only
  rw [runs]
  exact active

/-! ## What one port performs (R31, R164, R177, R349) -/

section
variable {s : State} {c : Cand} {k : Issue}

theorem perform_run {i : Instr} (act : c.act = .run i) (stalls : s.guardStall k.grp c = false)
    (held : { s with cur := k }.mustHold (headClass c.clause.head) i = false) :
    s.perform exec c k = exec i { s with cur := k } := by
  simp only [State.perform, act, stalls, held, Bool.false_eq_true, if_false]

theorem perform_fetch {f : XFault} {va : W64} (act : c.act = .fetch f va) :
    s.perform exec c k =
      .next ({ s with cur := k }.fetchFault k.grp c.lanes c.clause.addr va f k.port k.other) := by
  simp only [State.perform, act]

theorem perform_illegal (act : c.act = .illegal) :
    s.perform exec c k = .next ({ s with cur := k }.illegalClause k.grp c.lanes c.clause.addr k.port k.other) := by
  simp only [State.perform, act]

theorem perform_bad (act : c.act = .bad) :
    s.perform exec c k = .next ({ s with cur := k }.fail (Fail.illegal 1)) := by
  simp only [State.perform, act]

theorem perform_error {t : State} (act : c.act = .error)
    (h : exec (.memoryErrorTrap k.grp c.lanes.toNat) { s with cur := k } = .next t) :
    s.perform exec c k = .next t.markTrapped := by
  simp only [State.perform, act, h]

theorem perform_skip (act : c.act = .skip) (stalls : s.guardStall k.grp c = false) :
    s.perform exec c k = .next ({ s with cur := k }.skipClause k.grp c.lanes) := by
  simp only [State.perform, act, stalls, Bool.false_eq_true, if_false]

end

/-! ## What both ports perform (R350) -/

section
variable {s ta tb tc : State} {g : Nat} {a b : Cand}

/-- A trap on port A is all that the slot does. -/
theorem performBoth_trapA (first : s.perform exec a (s.issueOf g a 0 b.active) = .next ta)
    (trapped : ta.cur.trapped = true) : s.performBoth exec g a b = .next ta := by
  simp only [State.performBoth, first, trapped, Bool.true_or, if_true]

section
variable (first : s.perform exec a (s.issueOf g a 0 b.active) = .next ta) (goneA : ta.cur.trapped = false)
  (walkA : ta.waitsForWalk g = false) (second : s.perform exec b (s.issueOf g b 1 a.active) = .next tb)
include first goneA walkA second

/-- A trap on port B is all that the slot does: what port A would have done is not done. -/
theorem performBoth_trapB (trapped : tb.cur.trapped = true) : s.performBoth exec g a b = .next tb := by
  simp only [State.performBoth, first, goneA, walkA, second, trapped, Bool.or_self, Bool.true_or, Bool.false_eq_true,
    if_false, if_true]

/-- Where neither port traps, port B performs after port A, without the checks of the scoreboard between them. -/
theorem performBoth_both (goneB : tb.cur.trapped = false) (walkB : tb.waitsForWalk g = false)
    (both : (ta.withChk (s.ctxOf g) false).perform exec b (s.issueOf g b 1 a.active) = .next tc) :
    s.performBoth exec g a b = .next (tc.withChk (s.ctxOf g) (s.ctx (s.ctxOf g)).chk) := by
  simp only [State.performBoth, first, goneA, walkA, second, goneB, walkB, both, Bool.or_self,
    Bool.false_eq_true, if_false]

end
end

/-! ## An issue slot -/

/-- What the ports of a slot perform in a state, for one fibre set or for two. -/
def portsPerform (s : State) (g : Nat) (a : Cand) : Option Cand → Result
  | none => s.perform exec a (s.issueOf g a 0 0)
  | some b => s.performBoth exec g a b

section
variable {s : State} {g : Nat} {a : Cand} {b : Option Cand} (plan : s.plan = .slot g)
  (chosen : s.slotOf g = some (a, b))
include plan chosen

/-- A slot whose ports perform and wait for no walk ends as the slot (R175). -/
theorem step_slot_next {t : State} (performs : portsPerform (s.clearYields g) g a b = .next t)
    (walks : t.waitsForWalk g = false) : step s = .next (s.slotEnd t g a b t.cur.trapped).close := by
  have slot : s.runSlot exec g = .next (s.slotEnd t g a b t.cur.trapped) := by
    cases b <;> simp only [portsPerform] at performs <;>
      simp only [State.runSlot, chosen, performs, walks, Bool.false_eq_true, if_false]
  rw [step_of_slot plan, slot]
  rfl

/-- A fault or a refusal of what the ports perform is the step's. -/
theorem step_slot_stops (stops : ∀ t, portsPerform (s.clearYields g) g a b ≠ .next t) :
    step s = portsPerform (s.clearYields g) g a b := by
  have slot : s.runSlot exec g = portsPerform (s.clearYields g) g a b := by
    cases b <;> simp only [portsPerform] at stops ⊢ <;> simp only [State.runSlot, chosen]
  rw [step_of_slot plan, slot]
  unfold ended
  split
  · next t ht => exact absurd ht (stops t)
  · rfl

end

/-! ## Held accesses and sequencers (R277, R295) -/

/-- A held access that is free takes effect, with the control state and the registers of its group as they are now. -/
theorem runHeld_next {s t : State} {h : HeldEng}
    (runs : exec h.instr (h.within { s with heldEng := s.heldEng.erase h }) = .next t) (goes : t.cur.trapped = false) :
    s.runHeld exec h = .next ((if writesAcc h.instr then t.stampAcc h.issue.grp else t).updGrp h.issue.grp fun y =>
      { y with
        ctl := (s.grp h.issue.grp).ctl, regs := (s.grp h.issue.grp).regs, sregs := (s.grp h.issue.grp).sregs }) := by
  simp only [State.runHeld, runs, goes, Bool.false_eq_true, if_false]

/-- A sequencer that is ready runs the next instruction of its stream. -/
theorem runStream_runs {s : State} {b idx len : Nat} {c : Clause} {i : Instr} (ready : s.streamReady b = true)
    (next : (s.blk b).seq.instr = some (c, idx, len, some i)) :
    let s1 := s.updBlk b fun x => { x with seq := { x.seq with waitBar := none, readyAt := s.blockClock b + 1 } }
    s.runStream exec b = exec i { s1 with cur := s1.streamIssue b c idx len } := by
  simp only [State.runStream, ready, next, if_true]

/-! ## The statement -/

/-- A slot of one fibre set whose instruction runs (R28). -/
theorem step_runs_portA {s : State} {g : Nat} {a : Cand} {i : Instr} :
    let s1 := s.clearYields g
    let r := exec i { s1 with cur := s1.issueOf g a 0 0 }
    s.plan = .slot g → s.slotOf g = some (a, none) → a.act = .run i → s1.guardStall g a = false →
    { s1 with cur := s1.issueOf g a 0 0 }.mustHold (headClass a.clause.head) i = false →
    (∀ t, r = .next t → t.waitsForWalk g = false → step s = .next (s.slotEnd t g a none t.cur.trapped).close) ∧
    (∀ f, r = .fault f → step s = .fault f) ∧ (∀ f, r = .refused f → step s = .refused f) := by
  intro s1 r plan chosen act stalls held
  have performs : portsPerform s1 g a none = r := perform_run act stalls held
  have stops (h : ∀ t, r ≠ .next t) : step s = r :=
    (step_slot_stops plan chosen (performs ▸ h)).trans performs
  refine ⟨fun t ht => step_slot_next plan chosen (performs.trans ht), fun f hf => ?_, fun f hf => ?_⟩
  · exact (stops fun t ht => by simp [hf] at ht).trans hf
  · exact (stops fun t ht => by simp [hf] at ht).trans hf

/-- A slot of two fibre sets whose instructions run (R28, R350). -/
theorem step_runs_both {s ta tb tc : State} {g : Nat} {a b : Cand} {i j : Instr} :
    let s1 := s.clearYields g
    let ctx := s1.ctxOf g
    let s2 := ta.withChk ctx false
    let t := tc.withChk ctx (s1.ctx ctx).chk
    let held (u : State) (c : Cand) (k : Issue) (i : Instr) : Bool :=
      { u with cur := k }.mustHold (headClass c.clause.head) i
    s.plan = .slot g → s.slotOf g = some (a, some b) → a.act = .run i → b.act = .run j →
    s1.guardStall g a = false → held s1 a (s1.issueOf g a 0 b.active) i = false →
    exec i { s1 with cur := s1.issueOf g a 0 b.active } = .next ta →
    ta.waitsForWalk g = false →
    (ta.cur.trapped = true → step s = .next (s.slotEnd ta g a (some b) true).close) ∧
    (ta.cur.trapped = false → s1.guardStall g b = false → held s1 b (s1.issueOf g b 1 a.active) j = false →
      exec j { s1 with cur := s1.issueOf g b 1 a.active } = .next tb → tb.waitsForWalk g = false →
      (tb.cur.trapped = true → step s = .next (s.slotEnd tb g a (some b) true).close) ∧
      (tb.cur.trapped = false → s2.guardStall g b = false → held s2 b (s1.issueOf g b 1 a.active) j = false →
        exec j { s2 with cur := s1.issueOf g b 1 a.active } = .next tc → tc.waitsForWalk g = false →
        step s = .next (s.slotEnd t g a (some b) t.cur.trapped).close)) := by
  intro s1 ctx s2 t held plan chosen actA actB stallA heldA runA walkA
  have first : s1.perform exec a (s1.issueOf g a 0 b.active) = .next ta :=
    (perform_run (s := s1) (k := s1.issueOf g a 0 b.active) actA stallA heldA).trans runA
  refine ⟨fun trapped => ?_, fun goneA stallB heldB runB walkB => ?_⟩
  · have := step_slot_next plan chosen (performBoth_trapA first trapped) walkA
    rwa [trapped] at this
  have second : s1.perform exec b (s1.issueOf g b 1 a.active) = .next tb :=
    (perform_run (s := s1) (k := s1.issueOf g b 1 a.active) actB stallB heldB).trans runB
  refine ⟨fun trapped => ?_, fun goneB stallC heldC runC walkC => ?_⟩
  · have := step_slot_next plan chosen (performBoth_trapB first goneA walkA second trapped) walkB
    rwa [trapped] at this
  · have both : s2.perform exec b (s1.issueOf g b 1 a.active) = .next tc :=
      (perform_run (s := s2) (k := s1.issueOf g b 1 a.active) actB stallC heldC).trans runC
    exact step_slot_next plan chosen (performBoth_both first goneA walkA second goneB walkB both) walkC

/-- A slot of one fibre set that does not run an instruction (R31, R164, R175, R267, R347). -/
theorem step_moves_portA {s : State} {g : Nat} {a : Cand} :
    let s1 := s.clearYields g
    let u := { s1 with cur := s1.issueOf g a 0 0 }
    let ends (t : State) : Prop :=
      t.waitsForWalk g = false → step s = .next (s.slotEnd t g a none t.cur.trapped).close
    s.plan = .slot g → s.slotOf g = some (a, none) →
    (∀ f va, a.act = .fetch f va → ends (u.fetchFault g a.lanes a.clause.addr va f 0 0)) ∧
    (a.act = .illegal → ends (u.illegalClause g a.lanes a.clause.addr 0 0)) ∧
    (a.act = .bad → ends (u.fail (Fail.illegal 1))) ∧
    (∀ t, a.act = .error → exec (.memoryErrorTrap g a.lanes.toNat) u = .next t → ends t.markTrapped) ∧
    (a.act = .skip → s1.guardStall g a = false → ends (u.skipClause g a.lanes)) := by
  intro s1 u ends plan chosen
  have performs {t : State} (h : s1.perform exec a (s1.issueOf g a 0 0) = .next t) : ends t :=
    step_slot_next plan chosen h
  refine ⟨fun f va act => ?_, fun act => ?_, fun act => ?_, fun t act trap => ?_, fun act stalls => ?_⟩
  · exact performs (perform_fetch act)
  · exact performs (perform_illegal act)
  · exact performs (perform_bad act)
  · exact performs (perform_error act trap)
  · exact performs (perform_skip act stalls)

/-- Settles O58, one lemma for each class of steps. -/
theorem stepRunsDecoded : Obligations.StepRunsDecoded := by
  intro s done
  refine ⟨fun i l running outside => ?_, fun i t plan => ?_, fun g running outside due => ?_,
    fun g h ws => fetchGroup_captures, fun i c idx => clause_instr_of_decode, ?_, fun g a i => step_runs_portA,
    fun g a b i j ta tb tc => step_runs_both, fun g a => step_moves_portA, ?_, ?_⟩
  · exact step_of_event (plan_of_agenda running outside)
  · exact step_of_event plan
  · exact step_of_quiet (plan_of_fetchDue running outside due)
  · intro g k lanes c i len f captured word hk member guard fetched legal sound
    exact cand_runs captured word hk member guard fetched legal sound
  · intro h t x plan runs goes
    rw [step_of_held plan, runHeld_next runs goes]
    rfl
  · intro b idx len c i s1 plan ready next
    rw [step_of_stream plan, runStream_runs ready next]
    rfl

end Sys2Proof.Proofs
end

section
/-!
SUPPORT. The events of groups and of translation walks, one rule each, and the statement about them.
-/
namespace Sys2Proof.Proofs
open Sys2Proof.Machine Sys2Proof.Laws

/-! ## Completed operations (R67, R267) -/

/-- A write that lands changes no counter. -/
theorem sb_land (x : Group) (d : Dst) (v : W32) : (x.land d v).ctl.sb = x.ctl.sb := by cases d <;> rfl

theorem sb_landAll (l : List (Dst × W32)) (x : Group) : (x.landAll l).ctl.sb = x.ctl.sb :=
  List.foldlRecOn l (motive := fun y => y.ctl.sb = x.ctl.sb) _ rfl fun y hy e _ => (sb_land y e.1 e.2).trans hy

@[simp] theorem regs_decCounter (x : Group) (k : Nat) : (x.decCounter k).regs = x.regs := by
  unfold Group.decCounter
  split <;> rfl

@[simp] theorem sregs_decCounter (x : Group) (k : Nat) : (x.decCounter k).sregs = x.sregs := by
  unfold Group.decCounter
  split <;> rfl

@[simp] theorem memErr_decCounter (x : Group) (k : Nat) : (x.decCounter k).ctl.memErr = x.ctl.memErr := by
  unfold Group.decCounter
  split <;> rfl

/-- What a decrement leaves of the counters comes from the counters alone. -/
theorem sb_decCounter_congr {x y : Group} (h : x.ctl.sb = y.ctl.sb) (k : Nat) :
    (x.decCounter k).ctl.sb = (y.decCounter k).ctl.sb := by
  unfold Group.decCounter
  split
  · exact h
  · simp only [updCtl_ctl, h]

section
variable {s : State} {o : Op} (exists_ : o.grp < s.groups.length)
include exists_

/-- The group of an operation that retires with its results. -/
theorem grp_retireOp (ok : o.fails = false) :
    (s.retireOp o).grp o.grp = ((s.grp o.grp).landAll o.writes).decCounter o.sb := by
  refine (grp_updGrp_self s o.grp _ exists_).trans ?_
  simp only [ok, Bool.false_eq_true, if_false]

/-- The group of an operation that retires without its results. -/
theorem grp_retireOp_of_fails (failed : o.fails = true) :
    (s.retireOp o).grp o.grp = ((s.grp o.grp).decCounter o.sb).updCtl fun c =>
      { c with memErr := c.memErr ++ [(o.id * 8 + o.sb, o.addr)] } := by
  refine (grp_updGrp_self s o.grp _ exists_).trans ?_
  simp only [failed, if_true]

/-- A finished operation whose time has come leaves the pipeline, with its registers written or its failure kept. -/
theorem scoreboardDecrement_retires {op : Nat} (found : s.op? op = some o) (finished : o.stage = .finished)
    (due : o.notBefore ≤ s.clockOf o.grp) :
    let y := s.grp o.grp
    ∃ t, exec (.scoreboardDecrement op) s = .next t ∧ t.mem = s.mem ∧ (∀ z ∈ t.ops, z.id ≠ o.id) ∧
      (t.grp o.grp).ctl.sb = (y.decCounter o.sb).ctl.sb ∧
      (o.fails = false → (t.grp o.grp).regs = (y.landAll o.writes).regs ∧
        (t.grp o.grp).sregs = (y.landAll o.writes).sregs) ∧
      (o.fails = true → (t.grp o.grp).regs = y.regs ∧ (t.grp o.grp).sregs = y.sregs ∧
        (t.grp o.grp).ctl.memErr = y.ctl.memErr ++ [(o.id * 8 + o.sb, o.addr)]) := by
  intro y
  have retires : s.mayRetire o = true := by simp [State.mayRetire, finished, due]
  refine ⟨s.retireOp o, ?_, rfl, fun z hz => ?_, ?_, fun ok => ?_, fun failed => ?_⟩
  · simp only [exec_scoreboardDecrement, execScoreboardDecrement, found, if_pos retires]
  · simpa using (List.mem_filter.mp hz).2
  · cases h : o.fails with
    | false =>
      rw [grp_retireOp exists_ h]
      exact sb_decCounter_congr (sb_landAll _ _) _
    | true =>
      rw [grp_retireOp_of_fails exists_ h]
      rfl
  · simp [grp_retireOp exists_ ok, y]
  · simp [grp_retireOp_of_fails exists_ failed, y]

end

/-! ## Skipped clauses (R31) -/

/-- The lanes of a set whose fibre stands at a clause whose guard is false: those that CLAUSE_SKIP sends on. -/
def skippedLanes (x : Group) (lanes : Nat) : W32 :=
  laneSet fun i => (BitVec.ofNat 32 lanes).getLsbD i && match (x.fib i).code with
    | some c => (x.fib i).occ && !(x.fib i).guardTrue c
    | none => false

theorem clauseSkip_next (s : State) (g lanes : Nat) :
    exec (.clauseSkip g lanes) s = .next (if skippedLanes (s.grp g) lanes = 0 then s
      else s.skipClause g (skippedLanes (s.grp g) lanes)) := rfl

section
variable {x : Group} {lanes i : Nat}

theorem skippedLanes_of_guard_false {c : Clause} (hi : i < 32) (member : (BitVec.ofNat 32 lanes).getLsbD i = true)
    (occ : (x.fib i).occ = true) (code : (x.fib i).code = some c) (guard : (x.fib i).guardTrue c = false) :
    (skippedLanes x lanes).getLsbD i = true := by
  simp [skippedLanes, hi, member, occ, code, guard]

theorem skippedLanes_of_other (h : (BitVec.ofNat 32 lanes).getLsbD i = false ∨ (x.fib i).code = none) :
    (skippedLanes x lanes).getLsbD i = false := by
  rcases h with other | header
  · simp [skippedLanes, other]
  · simp [skippedLanes, header]

end

/-- A change of the fibres of no lanes changes nothing. -/
theorem updFibs_zero (x : Group) (f : Nat → Fibre → Fibre) : x.updFibs 0 f = x := by
  have unchanged : x.ctl.fibs.mapIdx (fun i y => if (0 : W32).getLsbD i then f i y else y) = x.ctl.fibs := by
    simpa using List.mapIdx_eq_iff.mpr fun i => by simp
  simp only [Group.updFibs, Group.updCtl, unchanged]

section
variable {s : State} {g : Nat} (exists_ : g < s.groups.length) (set : W32)
include exists_

/-- A group whose lanes of a set, if it has any, are sent to the next header. -/
theorem grp_skipClause : ((if set = 0 then s else s.skipClause g set).grp g) =
    (s.grp g).updFibs set fun _ f => match f.code with
      | some c => f.atHeader (nextHeader c.addr (headWords c.head))
      | none => f := by
  split
  · next none_ => rw [none_, updFibs_zero]
  · exact grp_updGrp_self s g _ exists_

end

/-- The lanes whose guard is false go to the next header, and no other lane moves (R31). -/
theorem clauseSkip_skips {s : State} {g lanes : Nat} (exists_ : g < s.groups.length) :
    let x := s.grp g
    ∃ t, exec (.clauseSkip g lanes) s = .next t ∧ t.mem = s.mem ∧ x.sameRegs (t.grp g) ∧
      ∀ i, i < x.ctl.fibs.length → i < 32 →
        (∀ c, (BitVec.ofNat 32 lanes).getLsbD i = true → (x.fib i).occ = true → (x.fib i).code = some c →
          (x.fib i).guardTrue c = false →
          (t.grp g).fib i = (x.fib i).atHeader (c.addr + BitVec.ofNat 64 (4 * (headWords c.head + 1)))) ∧
        ((BitVec.ofNat 32 lanes).getLsbD i = false ∨ (x.fib i).code = none → (t.grp g).fib i = x.fib i) := by
  intro x
  have after := grp_skipClause exists_ (skippedLanes x lanes)
  refine ⟨_, clauseSkip_next s g lanes, by split <;> rfl, after ▸ ⟨rfl, rfl, rfl⟩, fun i hi hi32 =>
    ⟨fun c member occ code guard => ?_, fun other => ?_⟩⟩
  · rw [after, fib_updFibs _ _ _ hi, if_pos (skippedLanes_of_guard_false hi32 member occ code guard), code]
    rfl
  · rw [after, fib_updFibs _ _ _ hi, skippedLanes_of_other other]
    rfl

/-! ## Translation walks (R375, R382, R383) -/

/-- What a walk that has ended leaves: its leaf in the isle's cache, or its failure with its waiters. -/
def WalkEnds (w : Walk) (t : State) : Walked → Prop
  | .leaf e => e ∈ look [] t.itlb w.isle ∧ w ∉ t.walks
  | .absent => { w with failed := some .notPresent } ∈ t.walks
  | .poisoned => { w with failed := some .poisoned } ∈ t.walks

/-- Memory, the isles' translation caches and the walks are what they were. -/
structure KeepsWalks (s t : State) : Prop where
  mem : t.mem = s.mem
  itlb : t.itlb = s.itlb
  walks : t.walks = s.walks

/-- What a walk has left stands as long as caches and walks do. -/
theorem WalkEnds.keeps {w : Walk} {r : Walked} {s t : State} (h : WalkEnds w s r) (k : KeepsWalks s t) :
    WalkEnds w t r := by
  cases r <;> simpa only [WalkEnds, k.itlb, k.walks] using h

/-- The groups that a walk lets go on. -/
theorem keepsWalks_wake (l : List (Waiter × Nat)) (s : State) : KeepsWalks s (l.foldl
    (fun s x => match x.1 with
      | .group g _ =>
        if s.walkFor (Waiter.ofGroup g) then s else s.updGrp g fun y => { y with walkHold := false }
      | _ => s) s) := by
  refine List.foldlRecOn l _ ⟨rfl, rfl, rfl⟩ fun t ht x _ => ?_
  split
  · split
    · exact ht
    · exact ⟨ht.mem, ht.itlb, ht.walks⟩
  · exact ht

/-- A walk that ends touches no memory and leaves its leaf or its failure. -/
theorem endWalk_ends (s : State) (w : Walk) (r : Walked) :
    (s.endWalk w r).mem = s.mem ∧ WalkEnds w (s.endWalk w r) r := by
  have gone (l : List Walk) : w ∉ l.filter (· != w) := by simp
  unfold State.endWalk
  cases r with
  | leaf e =>
    have wake := keepsWalks_wake w.waiters
      ({ s.dropTicket (.walk w.id) with walks := s.walks.filter (· != w) }.fillIsle w.isle e)
    refine ⟨wake.mem, WalkEnds.keeps ⟨?_, gone _⟩ wake⟩
    simp [State.fillIsle]
  | absent =>
    have wake := keepsWalks_wake w.waiters { s.dropTicket (.walk w.id) with
      walks := s.walks.filter (· != w) ++ [{ w with failed := some .notPresent }] }
    exact ⟨wake.mem, WalkEnds.keeps (List.mem_append_right _ (List.mem_singleton_self _)) wake⟩
  | poisoned =>
    have wake := keepsWalks_wake w.waiters { s.dropTicket (.walk w.id) with
      walks := s.walks.filter (· != w) ++ [{ w with failed := some .poisoned }] }
    exact ⟨wake.mem, WalkEnds.keeps (List.mem_append_right _ (List.mem_singleton_self _)) wake⟩

/-- The request of a walk for the entry of its level (R382, R394). -/
def walkPacket (s : State) (w : Walk) (entry : Nat) : Packet :=
  { linePacket 0x02 vcL 0 w.isle unitWalker w.ctx (s.physHome entry) entry with aux := [0, 0, 0, 0, entry % 128 / 64] }

/-- A walk that may go on is in flight on its isle, asks for nothing, and finds room to send (R383, R492). -/
theorem idle_of_mem_walksReady {s : State} {isle : Nat} {w : Walk} (h : w ∈ s.walksReady isle) :
    w.isle = isle ∧ (s.ticket (.walk w.id)).pend = [] ∧ s.sendFull w.isle unitWalker vcL = false := by
  unfold State.walksReady at h
  split at h
  · contradiction
  · next room =>
    obtain ⟨walking, idle⟩ := List.mem_filter.mp h
    have here := (List.mem_filter.mp (List.mem_of_mem_take walking)).2
    obtain ⟨rfl, -⟩ : w.isle = isle ∧ w.failed = none := by simpa using here
    exact ⟨rfl, by simpa [State.asking] using idle, by simpa using room⟩

/-- What has come for an agent is taken. -/
theorem ask_takes {s : State} {a : Agent} {key k : Nat} {p : Packet} {d : LineData} {poison : Nat}
    (come : (s.ticket a).lines.find? (fun e => e.1 == key) = some (k, d, poison)) : s.ask a key p = .got d poison := by
  simp only [State.ask, come]

section
variable {s : State} {w : Walk}

/-- A walk past the last level, or of a context without a root, finds nothing (R379). -/
theorem stepWalk_past (h : levels.drop w.level = [] ∨ w.level = 0 ∧ w.table = 0) :
    s.stepWalk w = s.endWalk w .absent := by
  cases left : levels.drop w.level with
  | nil => simp only [State.stepWalk, left]
  | cons l t =>
    have rootless : w.level = 0 ∧ w.table = 0 := h.resolve_left (left ▸ List.cons_ne_nil l t)
    simp only [State.stepWalk, left, if_pos (Or.inl rootless)]

variable {l : Level} {t : List Level} (left : levels.drop w.level = l :: t)
include left

theorem stepWalk_noMemory (h : s.namesMemory (l.entryAt w.table (w.vpn * 2 ^ 16)) = false) :
    s.stepWalk w = s.endWalk w .absent := by
  simp only [State.stepWalk, left, h, or_true, if_true]

variable (root : ¬ (w.level = 0 ∧ w.table = 0))
  (memory : s.namesMemory (l.entryAt w.table (w.vpn * 2 ^ 16)) = true)
include root memory

theorem stepWalk_waits {u : State}
    (asks : s.ask (.walk w.id) w.level (walkPacket s w (l.entryAt w.table (w.vpn * 2 ^ 16))) = .wait u) :
    s.stepWalk w = u := by
  unfold walkPacket at asks
  simp only [State.stepWalk, left, root, memory, asks, Bool.true_eq_false, or_self, if_false]

section
variable {k poison : Nat} {d : LineData}
  (come : (s.ticket (.walk w.id)).lines.find? (fun e => e.1 == w.level) = some (k, d, poison))
include come

theorem stepWalk_poisoned (h : poison.testBit (l.entryAt w.table (w.vpn * 2 ^ 16) % 128 / 32) = true) :
    s.stepWalk w = s.endWalk w .poisoned := by
  simp only [State.stepWalk, left, root, memory, ask_takes come, h, Bool.true_eq_false, or_self, if_false, if_true]

variable (clean : poison.testBit (l.entryAt w.table (w.vpn * 2 ^ 16) % 128 / 32) = false)
include clean

theorem stepWalk_leaf {e : TlbEnt} (h : s.entryOf w.ctx (w.vpn * 2 ^ 16) (levels.drop w.level)
    (lineGet d (l.entryAt w.table (w.vpn * 2 ^ 16) % 128) 8) = .leaf e) : s.stepWalk w = s.endWalk w (.leaf e) := by
  rw [left] at h
  simp only [State.stepWalk, left, root, memory, ask_takes come, clean, h, Bool.true_eq_false, Bool.false_eq_true,
    or_self, if_false]

theorem stepWalk_absent (h : s.entryOf w.ctx (w.vpn * 2 ^ 16) (levels.drop w.level)
    (lineGet d (l.entryAt w.table (w.vpn * 2 ^ 16) % 128) 8) = .absent) : s.stepWalk w = s.endWalk w .absent := by
  rw [left] at h
  simp only [State.stepWalk, left, root, memory, ask_takes come, clean, h, Bool.true_eq_false, Bool.false_eq_true,
    or_self, if_false]

/-- A table is walked on at the next level (R375). -/
theorem stepWalk_table {p : Nat} (h : s.entryOf w.ctx (w.vpn * 2 ^ 16) (levels.drop w.level)
    (lineGet d (l.entryAt w.table (w.vpn * 2 ^ 16) % 128) 8) = .table p) :
    s.stepWalk w = { s with walks := s.walks.map fun k =>
      if k.id = w.id then { k with level := w.level + 1, table := p } else k } := by
  rw [left] at h
  simp only [State.stepWalk, left, root, memory, ask_takes come, clean, h, Bool.true_eq_false, Bool.false_eq_true,
    or_self, if_false]

end

/-- A walk that has not asked for the entry of its level asks for it (R382, R492). -/
theorem stepWalk_asks (come : (s.ticket (.walk w.id)).lines.find? (fun e => e.1 == w.level) = none)
    (idle : (s.ticket (.walk w.id)).pend = []) (room : s.sendFull w.isle unitWalker vcL = false) :
    s.stepWalk w = (s.took.setTicket { s.ticket (.walk w.id) with pend := [(s.fresh, w.level)] }).send
      { walkPacket s w (l.entryAt w.table (w.vpn * 2 ^ 16)) with tag := s.fresh } := by
  refine stepWalk_waits left root memory (ask_sends come idle ?_)
  dsimp only [walkPacket]
  rwa [linePacket_sisle, linePacket_sunit, linePacket_vc]

end

/-- A walk's event does its step, where the walk may go on. -/
theorem translationWalk_next {s : State} {isle ctx vpn : Nat} {w : Walk}
    (h : (s.walksReady isle).find? (fun k => k.ctx == ctx && k.vpn == vpn) = some w) :
    exec (.translationWalk isle ctx vpn) s = .next (s.stepWalk w) := by
  rw [exec_translationWalk, execTranslationWalk, h]

/-- A step of a walk is one of: a request for its level's entry, the next level, or the walk's end (R375, R382). -/
theorem translationWalk_goes {s : State} {isle ctx vpn : Nat} {w : Walk}
    (ready : (s.walksReady isle).find? (fun k => k.ctx == ctx && k.vpn == vpn) = some w) :
    let va := w.vpn * 2 ^ 16
    let ends (r : Walked) : Prop :=
      ∃ t, exec (.translationWalk isle ctx vpn) s = .next t ∧ t.mem = s.mem ∧ WalkEnds w t r
    (levels.drop w.level = [] ∨ w.level = 0 ∧ w.table = 0 → ends .absent) ∧
    ∀ l, (levels.drop w.level).head? = some l → ¬ (w.level = 0 ∧ w.table = 0) →
      let entry := w.table + 8 * bits va l.lo l.wd
      (s.namesMemory entry = false → ends .absent) ∧
      (s.namesMemory entry = true →
        let come := (s.ticket (.walk w.id)).lines.find? fun e => e.1 == w.level
        (come = none → exec (.translationWalk isle ctx vpn) s = .next
          ((s.took.setTicket { s.ticket (.walk w.id) with pend := [(s.fresh, w.level)] }).send
            { walkPacket s w entry with tag := s.fresh })) ∧
        ∀ k d poison, come = some (k, d, poison) →
          (poison.testBit (entry % 128 / 32) = true → ends .poisoned) ∧
          (poison.testBit (entry % 128 / 32) = false →
            match s.entryOf w.ctx va (levels.drop w.level) (lineGet d (entry % 128) 8) with
            | .leaf e => ends (.leaf e)
            | .absent => ends .absent
            | .table p => exec (.translationWalk isle ctx vpn) s = .next { s with walks := s.walks.map fun k =>
                if k.id = w.id then { k with level := w.level + 1, table := p } else k })) := by
  intro va ends
  have goes {u : State} (h : s.stepWalk w = u) : exec (.translationWalk isle ctx vpn) s = .next u :=
    h ▸ translationWalk_next ready
  have finishes {r : Walked} (h : s.stepWalk w = s.endWalk w r) : ends r := ⟨_, goes h, endWalk_ends s w r⟩
  obtain ⟨-, idle, room⟩ := idle_of_mem_walksReady (List.mem_of_find?_eq_some ready)
  refine ⟨fun past => finishes (stepWalk_past past), fun l head root => ?_⟩
  obtain ⟨rest, left⟩ := List.head?_eq_some_iff.mp head
  refine ⟨fun nowhere => finishes (stepWalk_noMemory left nowhere), fun memory =>
    ⟨fun none_yet => goes (stepWalk_asks left root memory none_yet idle room), fun k d poison come =>
      ⟨fun marked => finishes (stepWalk_poisoned left root memory come marked), fun clean => ?_⟩⟩⟩
  split
  · next found => exact finishes (stepWalk_leaf left root memory come clean found)
  · next found => exact finishes (stepWalk_absent left root memory come clean found)
  · next found => exact goes (stepWalk_table left root memory come clean found)

/-! ## Traps at a header or a waiting instruction (R267, R292, R297) -/

section
variable {s : State} {g lanes : Nat} {c : Clause}

/-- The errors of the counters that a header waits for trap there (R267). -/
theorem memoryErrorTrap_traps :
    let x := s.grp g
    let set := s.errorLanes g (x.fib (firstLane (BitVec.ofNat 32 lanes))).pc
    set ≠ 0 → set = BitVec.ofNat 32 lanes → (x.fib (firstLane set)).code = some c →
    let first := (x.errorsAt c).foldl (fun a e => if e.1 < a.1 then e else a) ((x.errorsAt c).headD (0, 0))
    let s' := s.updGrp g fun y => y.updCtl fun k =>
      { k with memErr := k.memErr.filter fun e => !(headWaits c.head).contains (e.1 % 8) }
    exec (.memoryErrorTrap g lanes) s =
      .next (s'.takeTrap g set 9 0 s.cur.port s.cur.other c.addr 0 (some first.2)) := by
  intro x set some_lane same code
  have meets : ¬ (set = 0 ∨ set ≠ BitVec.ofNat 32 lanes) := by tauto
  dsimp only [set, x] at *
  simp only [exec_memoryErrorTrap, execMemoryErrorTrap, if_neg meets, code, updGrp_cur]

/-- A tile wait that has run out traps at the waiting instruction (R292). -/
theorem tileWaitTimeout_traps (some_lane : s.timeoutLanes g ≠ 0) (same : s.timeoutLanes g = BitVec.ofNat 32 lanes)
    (code : ((s.grp g).fib (firstLane (s.timeoutLanes g))).code = some c) :
    let s' := s.updGrp g fun y => y.updFibs (s.timeoutLanes g) fun _ f => { f with wdog := 0 }
    exec (.tileWaitTimeout g lanes) s = .next (s'.takeTrap g (s.timeoutLanes g) 0x0A 0 0 0 c.addr
      ((s.grp g).fib (firstLane (s.timeoutLanes g))).word none) := by
  have late : ¬ (s.timeoutLanes g = 0 ∨ s.timeoutLanes g ≠ BitVec.ofNat 32 lanes) := by tauto
  simp only [exec_tileWaitTimeout, execTileWaitTimeout, if_neg late, code]

/-- A sequencer that has waited too long for one instruction ends with a stream fault (R297). -/
theorem seqTileWaitTimeout_faults {b : Nat} (live : (s.blk b).live = true) (runs : (s.blk b).seq.stopped = false)
    (late : 2 ^ 24 ≤ (s.blk b).seq.wdog) (code : (s.blk b).seq.code = some c) :
    exec (.seqTileWaitTimeout b) s =
      .next (s.streamFault b 0x1A (c.addr + BitVec.ofNat 64 (4 * max (s.blk b).seq.next 1))) := by
  have due : (s.blk b).live = true ∧ (s.blk b).seq.stopped = false ∧ Config.watchdogClocks ≤ (s.blk b).seq.wdog :=
    ⟨live, runs, late⟩
  simp only [exec_seqTileWaitTimeout, execSeqTileWaitTimeout, if_pos due, code]

end

/-- The due writes of a group land (R176). -/
theorem pendingWriteLands_lands {s : State} {g : Nat} (live : (s.grp g).live = true)
    (due : (s.grp g).pend.any (fun p => decide (p.due ≤ s.clockOf g)) = true) :
    exec (.pendingWriteLands g) s = .next (s.updGrp g fun x => x.landDue (s.clockOf g)) := by
  have lands : s.landsNow g = true := by simp only [State.landsNow, live, due, Bool.and_self]
  rw [exec_pendingWriteLands, execPendingWriteLands, if_pos lands]

/-- Settles O48, one rule for each event. -/
theorem groupEventsAct : Obligations.GroupEventsAct := by
  intro op g lanes b isle ctx vpn s x
  refine ⟨fun o found finished due exists_ => scoreboardDecrement_retires exists_ found finished due,
    pendingWriteLands_lands, clauseSkip_skips, fun w ready => ?_, fun c => memoryErrorTrap_traps,
    fun c => tileWaitTimeout_traps, fun c => seqTileWaitTimeout_faults⟩
  exact translationWalk_goes ready

end Sys2Proof.Proofs
end

section
/-!
SUPPORT. Writes and adds at home, and the statement about them.
-/
namespace Sys2Proof.Proofs
open Sys2Proof.Machine Sys2Proof.Laws

/-! ## Bits of lines and of memory (R5, R18) -/

theorem getLsbD_lineMask {off n i : Nat} :
    (lineMask off n).getLsbD i = (decide (i < 128) && decide (off ≤ i) && decide (i < off + n)) := by
  rw [lineMask, BitVec.getLsbD_ofNat, Nat.testBit_shiftLeft, Nat.testBit_two_pow_sub_one, Bool.and_assoc]
  by_cases h : off ≤ i
  · rw [decide_eq_decide.mpr (show i - off < n ↔ i < off + n by omega)]
  · simp [h]

theorem testBit_lineGet (d : LineData) (off n j : Nat) :
    (lineGet d off n).testBit j = (decide (j < 8 * n) && d.getLsbD (8 * off + j)) := by
  rw [lineGet, Nat.testBit_mod_two_pow, Nat.testBit_shiftRight, BitVec.testBit_toNat]

/-- A field of an otherwise empty line has the bits of the number that was put there. -/
theorem getLsbD_lineSet_zero {off n : Nat} (h : off + n ≤ 128) (v : Nat) {j : Nat} (hj : j < 8 * n) :
    (lineSet 0 off n v).getLsbD (8 * off + j) = v.testBit j := by
  have inside : 8 * off + j < 1024 := by omega
  simp only [lineSet, BitVec.getLsbD_or, BitVec.getLsbD_and, BitVec.getLsbD_ofNat, Nat.testBit_shiftLeft,
    Nat.testBit_mod_two_pow, Nat.testBit_two_pow_sub_one]
  simp [inside, hj]

theorem testBit_readBytes (m : SMap Byte) (a n j : Nat) :
    (readBytes m a n).testBit j = (decide (j < 8 * n) && (look 0 m (a + j / 8)).getLsbD (j % 8)) := by
  induction n generalizing a j with
  | zero => simp [readBytes]
  | succ n ih =>
    have low : (look 0 m a).toNat < 2 ^ 8 := (look 0 m a).isLt
    rw [readBytes, Nat.add_comm, show (256 : Nat) = 2 ^ 8 from rfl, Nat.testBit_two_pow_mul_add _ low]
    split <;> rename_i hj
    · rw [Nat.div_eq_of_lt hj, Nat.mod_eq_of_lt hj, decide_eq_true (by omega), Bool.true_and, Nat.add_zero,
        BitVec.testBit_toNat]
    · rw [ih, show a + 1 + (j - 8) / 8 = a + j / 8 by omega, show (j - 8) % 8 = j % 8 by omega,
        decide_eq_decide.mpr (show j - 8 < 8 * n ↔ j < 8 * (n + 1) by omega)]

/-- A field of the line at a location holds the bytes that stand there in memory. -/
theorem testBit_lineGet_lineAt (s : State) (loc : Nat) {n : Nat} (h : loc % 128 + n ≤ 128) (j : Nat) :
    (lineGet (s.lineAt loc) (loc % 128) n).testBit j =
      (decide (j < 8 * n) && (Memory.read s.mem (loc + j / 8)).getLsbD (j % 8)) := by
  rw [testBit_lineGet, State.lineAt, readLine, BitVec.getLsbD_ofNat, testBit_readBytes, Memory.read]
  by_cases hj : j < 8 * n
  · rw [show loc / 128 * 128 + (8 * (loc % 128) + j) / 8 = loc + j / 8 by omega,
      show (8 * (loc % 128) + j) % 8 = j % 8 by omega]
    simp [show 8 * (loc % 128) + j < 1024 by omega]
  · simp [hj]

/-! ## Writes at home (R399, R462) -/

theorem look_foldl_put_masked (m : SMap Byte) (loc : Nat) (mask : BitVec 128) (d : LineData) (n a : Nat) :
    look 0 ((List.range n).foldl (fun acc i =>
        if mask.getLsbD i then put 0 acc (loc + i) (BitVec.ofNat 8 (d.toNat >>> (8 * i))) else acc) m) a =
      if (loc ≤ a ∧ a < loc + n) ∧ mask.getLsbD (a - loc) = true then BitVec.ofNat 8 (d.toNat >>> (8 * (a - loc)))
      else look 0 m a := by
  induction n with
  | zero => rw [if_neg (by omega)]; rfl
  | succ n ih =>
    rw [List.range_succ, List.foldl_append, List.foldl_cons, List.foldl_nil]
    by_cases here : a = loc + n
    · subst here
      have inside : loc ≤ loc + n ∧ loc + n < loc + (n + 1) := by omega
      rw [Nat.add_sub_cancel_left]
      split <;> rename_i written
      · rw [look_put_self, if_pos ⟨inside, written⟩]
      · rw [ih, if_neg (by omega), if_neg (by simp [written])]
    · have same : (loc ≤ a ∧ a < loc + (n + 1)) ↔ (loc ≤ a ∧ a < loc + n) := by omega
      simp only [same, ← ih]
      split
      · exact look_put_ne 0 0 _ _ _ _ (Ne.symm here)
      · rfl

@[simp] theorem mem_writeHome (s : State) (loc : Nat) (mask : BitVec 128) (d : LineData) (poison : Nat) :
    (s.writeHome loc mask d poison).mem = writeLine s.mem (loc / 128 * 128) mask d := by
  unfold State.writeHome
  dsimp only
  split <;> rfl

/-- After a write at home a byte is the written one where the mask has it, and else what it was. -/
theorem read_writeHome (s : State) (loc : Nat) (mask : BitVec 128) (d : LineData) (poison a : Nat) :
    Memory.read (s.writeHome loc mask d poison).mem a =
      if (loc / 128 * 128 ≤ a ∧ a < loc / 128 * 128 + 128) ∧ mask.getLsbD (a - loc / 128 * 128) = true
      then BitVec.ofNat 8 (lineGet d (a - loc / 128 * 128) 1) else Memory.read s.mem a := by
  have byte (x : Nat) : BitVec.ofNat 8 (x % 2 ^ (8 * 1)) = BitVec.ofNat 8 x := BitVec.eq_of_toNat_eq (by simp)
  rw [mem_writeHome, Memory.read, writeLine, look_foldl_put_masked, lineGet, byte]
  rfl

/-- A number that has bit `i` exactly where the condition holds, as the poison marks are collected. -/
theorem testBit_foldl_two_pow (p : Nat → Bool) (n : Nat) :
    let v := (List.range n).foldl (fun acc i => if p i then acc + 2 ^ i else acc) 0
    v < 2 ^ n ∧ ∀ i, v.testBit i = (decide (i < n) && p i) := by
  induction n with
  | zero => simp
  | succ n ih =>
    obtain ⟨small, bits⟩ := ih
    simp only [List.range_succ, List.foldl_append, List.foldl_cons, List.foldl_nil]
    generalize (List.range n).foldl _ 0 = v at small bits
    refine ⟨by split <;> omega, fun i => ?_⟩
    by_cases marked : p n = true
    · rw [if_pos marked, Nat.add_comm, show 2 ^ n + v = 2 ^ n * 1 + v by omega, Nat.testBit_two_pow_mul_add 1 small, bits]
      rcases Nat.lt_trichotomy i n with below | rfl | above
      · simp [below, show i < n + 1 by omega]
      · simp [marked]
      · have past : Nat.testBit 1 (i - n) = false :=
          Nat.testBit_lt_two_pow (Nat.one_lt_two_pow (by omega))
        simp [show ¬ i < n by omega, show ¬ i < n + 1 by omega, past]
    · rw [if_neg marked, bits]
      by_cases here : i = n
      · simp [here, marked]
      · rw [decide_eq_decide.mpr (show i < n ↔ i < n + 1 by omega)]

theorem testBit_poisonAt_writeHome (s : State) (loc : Nat) (mask : BitVec 128) (d : LineData) (poison : Nat) {i : Nat}
    (h : i < 4) : ((s.writeHome loc mask d poison).poisonAt loc).testBit i =
      ((s.poisonAt loc).testBit i && !(fullSectors mask).testBit i ||
        mask.extractLsb' (32 * i) 32 != 0 && poison.testBit i) := by
  have marks := (testBit_foldl_two_pow (fun i => (s.poisonAt loc).testBit i && !(fullSectors mask).testBit i ||
        mask.extractLsb' (32 * i) 32 != 0 && poison.testBit i) 4).2 i
  rw [decide_eq_true h, Bool.true_and] at marks
  rw [← marks]
  congr 1
  unfold State.writeHome
  dsimp only
  split
  · next same => exact same.symm
  · simp [State.poisonAt]

/-! ## Adds into haze elements (R95, R96, R401) -/

section
variable {s : State} {loc : Nat} (aligned : loc % 16 = 0)
include aligned

/-- The mask of an element touches its own 32 bytes. -/
theorem element_touches : (lineMask (loc % 128) 16).extractLsb' (32 * (loc % 128 / 32)) 32 ≠ 0 := by
  intro none_touched
  have bit := congrArg (fun m : BitVec 32 => m.getLsbD (loc % 32)) none_touched
  rw [BitVec.getLsbD_extractLsb', getLsbD_lineMask, show 32 * (loc % 128 / 32) + loc % 32 = loc % 128 by omega] at bit
  simp at bit
  omega

/-- A write of one element leaves every byte outside it. -/
theorem read_writeHome_outside_element (d : LineData) (poison : Nat) {a : Nat} (outside : a < loc ∨ loc + 16 ≤ a) :
    Memory.read (s.writeHome loc (lineMask (loc % 128) 16) d poison).mem a = Memory.read s.mem a := by
  rw [read_writeHome, if_neg]
  rintro ⟨⟨above, below⟩, masked⟩
  simp only [getLsbD_lineMask, Bool.and_eq_true, decide_eq_true_eq] at masked
  omega

/-- A write of one element leaves the 16 bytes that were written. -/
theorem lineGet_lineAt_writeHome_element (v poison : Nat) :
    lineGet ((s.writeHome loc (lineMask (loc % 128) 16) (lineSet 0 (loc % 128) 16 v) poison).lineAt loc) (loc % 128) 16 =
      v % 2 ^ (8 * 16) := by
  refine Nat.eq_of_testBit_eq fun j => ?_
  rw [testBit_lineGet_lineAt _ _ (by omega), Nat.testBit_mod_two_pow]
  by_cases inside : j < 8 * 16
  · have place : loc + j / 8 - loc / 128 * 128 = loc % 128 + j / 8 := by omega
    have masked : (lineMask (loc % 128) 16).getLsbD (loc % 128 + j / 8) = true := by
      simp only [getLsbD_lineMask, Bool.and_eq_true, decide_eq_true_eq]
      omega
    rw [read_writeHome, place, if_pos ⟨by omega, masked⟩, BitVec.getLsbD_ofNat, testBit_lineGet,
      show 8 * (loc % 128 + j / 8) + j % 8 = 8 * (loc % 128) + j by omega,
      getLsbD_lineSet_zero (by omega) v inside, decide_eq_true (show j % 8 < 8 by omega), Bool.true_and, Bool.true_and]
  · simp [inside]

end

theorem elemBytes_mod (x : Int) (st : Nat) : elemBytes x st % 2 ^ (8 * 16) = elemBytes x st := by
  unfold elemBytes
  omega

theorem elemX_elemBytes {x : Int} (st : Nat) (low : -(2 ^ 95) ≤ x) (high : x < 2 ^ 95) : elemX (elemBytes x st) = x := by
  unfold elemX elemBytes signedOf
  split <;> omega

theorem elemSt_elemBytes (x : Int) (st : Nat) : elemSt (elemBytes x st) = st % 256 := by
  unfold elemSt elemBytes
  omega

/-- SatAdd96 answers an X that 96 bits hold (R96). -/
theorem satAdd96_bounds (x : Int) (st : Nat) (q : Int) (sq : Nat) :
    -(2 ^ 95) ≤ (satAdd96 x st q sq).1 ∧ (satAdd96 x st q sq).1 < 2 ^ 95 := by
  unfold satAdd96
  dsimp only
  split
  · omega
  · split <;> dsimp only <;> omega

section
variable {s : State} {loc : Nat}

theorem addElement_poisoned (poisoned : (s.poisonAt loc).testBit (loc % 128 / 32) = true) (q : Int) (st : Nat) (bad : Bool) :
    s.addElement loc q st bad = s := by
  simp only [State.addElement, poisoned, if_true]

/-- An add into an unpoisoned element writes its 16 bytes, and the mark with an addend that came poisoned. -/
theorem addElement_clean (clean : (s.poisonAt loc).testBit (loc % 128 / 32) = false) (q : Int) (st : Nat) (bad : Bool) :
    let n := lineGet (s.lineAt loc) (loc % 128) 16
    let r := if bad then (elemX n, elemSt n) else satAdd96 (elemX n) (elemSt n) q st
    s.addElement loc q st bad = s.writeHome loc (lineMask (loc % 128) 16)
      (lineSet 0 (loc % 128) 16 (elemBytes r.1 r.2)) (if bad then 15 else 0) := by
  simp only [State.addElement, clean, Bool.false_eq_true, if_false]

variable (aligned : loc % 16 = 0) (clean : (s.poisonAt loc).testBit (loc % 128 / 32) = false)
include aligned clean

theorem read_addElement_outside (q : Int) (st : Nat) (bad : Bool) {a : Nat} (outside : a < loc ∨ loc + 16 ≤ a) :
    Memory.read (s.addElement loc q st bad).mem a = Memory.read s.mem a := by
  rw [addElement_clean clean]
  exact read_writeHome_outside_element aligned _ _ outside

/-- A poisoned addend marks the element's sector (R393). -/
theorem poisonAt_addElement_bad (q : Int) (st : Nat) :
    ((s.addElement loc q st true).poisonAt loc).testBit (loc % 128 / 32) = true := by
  have sector : loc % 128 / 32 < 4 := by omega
  have marked : Nat.testBit 15 (loc % 128 / 32) = true := by
    rw [show 15 = 2 ^ 4 - 1 from rfl, Nat.testBit_two_pow_sub_one, decide_eq_true sector]
  rw [addElement_clean clean, testBit_poisonAt_writeHome _ _ _ _ _ sector]
  simp only [if_true, marked, bne_iff_ne.mpr (element_touches aligned), Bool.and_self, Bool.or_true]

/-- The element holds SatAdd96 of what it held and of the add (R96). -/
theorem element_addElement (q : Int) (st : Nat) :
    let e := lineGet (s.lineAt loc) (loc % 128) 16
    let r := satAdd96 (elemX e) (elemSt e) q st
    lineGet ((s.addElement loc q st false).lineAt loc) (loc % 128) 16 = elemBytes r.1 r.2 := by
  rw [addElement_clean clean]
  exact (lineGet_lineAt_writeHome_element aligned _ _).trans (elemBytes_mod _ _)

end

/-! ## Requests served at home (R395, R402) -/

theorem onPacket_next {s : State} {isle unit typ : Nat} {p : Packet} (takes : s.takesPacket isle unit typ p)
    (f : State → Packet → State) : onPacket s isle unit typ f = .next (f (s.popUnit isle unit p) p) := by
  simp only [onPacket, takes]

theorem typ_of_takesPacket {s : State} {isle unit typ : Nat} {p : Packet} (takes : s.takesPacket isle unit typ p) :
    p.typ = typ :=
  beq_iff_eq.mp (List.find?_some (p := fun q : Packet => q.typ == typ) takes)

theorem site_homeLine (s : State) (isle slice loc pa : Nat) : (s.homeLine isle slice loc pa).site.isSome = true := by
  unfold State.homeLine
  dsimp only
  split
  · assumption
  · rfl

/-- A line that has been brought in is kept as it was found. -/
theorem homeLine_bring (s : State) (p : Packet) :
    (s.bring p).homeLine p.disle p.dunit p.loc p.pa = s.homeLine p.disle p.dunit p.loc p.pa := by
  have held : look HomeLine.none (s.bring p).homes (p.loc / 128) = s.homeLine p.disle p.dunit p.loc p.pa :=
    look_place_self _ _ _ _
  rw [State.homeLine, held]
  exact if_pos (site_homeLine s _ _ _ _)

/-- A request that is no atomic, for a line under no lease, is served. -/
theorem atHome_serves {s : State} {p : Packet} (free : (s.homeLine p.disle p.dunit p.loc p.pa).xhold = none)
    (no_atomic : p.typ ≠ 4) : s.atHome p = (s.bring p).serve p := by
  have goes : (s.bring p).joinWaits p = false := by simp [State.joinWaits, no_atomic]
  simp only [State.atHome, goes, homeLine_bring, free, Option.isSome_none, Bool.false_eq_true, if_false]

theorem serve_hzq (s : State) {p : Packet} (typ : p.typ = 5) : s.serve p = s.applyHzq p := by
  simp [State.serve, Packet.isAcquire, typ]

theorem serve_hzd (s : State) {p : Packet} (typ : p.typ = 8) : s.serve p = s.applyHzd p := by
  simp [State.serve, Packet.isAcquire, typ]

section
variable {s : State} {isle unit : Nat} {p : Packet} (free : (s.homeLine p.disle p.dunit p.loc p.pa).xhold = none)
include free

/-- The same line under no lease is served once the packet has been taken from the unit's input. -/
theorem taken_serves (no_atomic : p.typ ≠ 4) :
    (s.popUnit isle unit p).atHome p = ((s.popUnit isle unit p).bring p).serve p :=
  atHome_serves free no_atomic

theorem hzq_next (takes : s.takesPacket isle unit 0x05 p) :
    exec (.hzq isle unit) s = .next (((s.popUnit isle unit p).bring p).applyHzq p) := by
  have typ := typ_of_takesPacket takes
  rw [exec_hzq, execHzq, onPacket_next takes, taken_serves free (by omega), serve_hzq _ typ]

theorem hzd_next (takes : s.takesPacket isle unit 0x08 p) :
    exec (.hzd isle unit) s = .next (((s.popUnit isle unit p).bring p).applyHzd p) := by
  have typ := typ_of_takesPacket takes
  rw [exec_hzd, execHzd, onPacket_next takes, taken_serves free (by omega), serve_hzd _ typ]

end

/-! ## The statement -/

theorem write_then_send (s : State) (loc : Nat) (mask : BitVec 128) (d : LineData) (poison : Nat) (k : Packet) :
    let t := (s.writeHome loc mask d poison).send k
    (∀ i, i < 128 → Memory.read t.mem (loc / 128 * 128 + i) =
      if mask.getLsbD i then BitVec.ofNat 8 (lineGet d i 1) else Memory.read s.mem (loc / 128 * 128 + i)) ∧
    (∀ a, a < loc / 128 * 128 ∨ loc / 128 * 128 + 128 ≤ a → Memory.read t.mem a = Memory.read s.mem a) ∧
    (Memory.wf s.mem = true → Memory.wf t.mem = true) := by
  intro t
  have sent : t.mem = (s.writeHome loc mask d poison).mem := (sameWork_send _ k).mem
  refine ⟨fun i hi => ?_, fun a outside => ?_, fun h => sent ▸ wf_writeHome s loc mask d poison h⟩
  · have inside : loc / 128 * 128 ≤ loc / 128 * 128 + i ∧ loc / 128 * 128 + i < loc / 128 * 128 + 128 := by omega
    rw [sent, read_writeHome, Nat.add_sub_cancel_left]
    simp only [inside, true_and]
  · rw [sent, read_writeHome, if_neg (by omega)]

/-- What an add into an element leaves: nothing new in a poisoned one, a mark after a poisoned addend, and SatAdd96 of the
element and the add otherwise. -/
theorem element_after_add (s : State) (loc : Nat) (q : Int) (st : Nat) (aligned : loc % 16 = 0) :
    let e := lineGet (s.lineAt loc) (loc % 128) 16
    let t := s.addElement loc q st false
    let n := lineGet (t.lineAt loc) (loc % 128) 16
    ((s.poisonAt loc).testBit (loc % 128 / 32) = true → t = s ∧ s.addElement loc q st true = s) ∧
    ((s.poisonAt loc).testBit (loc % 128 / 32) = false →
      ((s.addElement loc q st true).poisonAt loc).testBit (loc % 128 / 32) = true ∧
      ∀ a, a < loc ∨ loc + 16 ≤ a → Memory.read (s.addElement loc q st true).mem a = Memory.read s.mem a) ∧
    ((s.poisonAt loc).testBit (loc % 128 / 32) = false →
      elemX n = (satAdd96 (elemX e) (elemSt e) q st).1 ∧ elemSt n = (satAdd96 (elemX e) (elemSt e) q st).2 % 256 ∧
      ∀ a, a < loc ∨ loc + 16 ≤ a → Memory.read t.mem a = Memory.read s.mem a) := by
  intro e t n
  refine ⟨fun poisoned => ⟨addElement_poisoned poisoned q st false, addElement_poisoned poisoned q st true⟩,
    fun clean => ⟨poisonAt_addElement_bad aligned clean q st,
      fun a => read_addElement_outside aligned clean q st true⟩, fun clean => ?_⟩
  have holds : n = _ := element_addElement aligned clean q st
  obtain ⟨low, high⟩ := satAdd96_bounds (elemX e) (elemSt e) q st
  rw [holds]
  exact ⟨elemX_elemBytes _ low high, elemSt_elemBytes _ _, fun a => read_addElement_outside aligned clean q st false⟩

/-- Settles O40: a write at home is byte by byte the masked line, an element's bits are those of SatAdd96, whose X fits its
96 bits, and the two packets that bring adds are served at home. -/
theorem writesAndAddsAtHome : Obligations.WritesAndAddsAtHome :=
  ⟨write_then_send, fun _ _ _ s => ⟨element_after_add s, fun free => ⟨hzq_next free, hzd_next free⟩⟩⟩

end Sys2Proof.Proofs
end

section
/-!
SUPPORT. The events of the matrix array, of the commands and of the chain channels, and the statement about them.
-/
namespace Sys2Proof.Proofs
open Sys2Proof.Machine Sys2Proof.Laws

/-! ## Operand reads (R117, R301, R321) -/

theorem operandReadsComplete_next {s : State} {core : Nat} {m : MatOp}
    (due : (s.core core).mq.find? MatOp.readsDue = some m) :
    exec (.operandReadsComplete core) s = .next ((if s.operandsBad m then s.matFault m else s).captureReads m) := by
  rw [exec_operandReadsComplete, execOperandReadsComplete, due]

/-- A multiply captures its products and counts one read of each of its tiles as done. -/
theorem captureReads_mma (s : State) {m : MatOp} {a bt k c0 : Nat} {z ea eb pair scaled : Bool}
    (kind : m.kind = .mma a bt k c0 z ea eb pair scaled) :
    let b := s.blk m.blk
    let sa := if pair then 0 else m.side
    let wa := s.slotFor m.blk (b.tile sa a).fslot
    let wb := s.slotFor m.blk (b.tile m.side bt).fslot
    s.captureReads m = ((s.updMat (b.coreAt m.side) m.id fun x => { x with
      read := true, cells := s.products m.blk sa m.side (b.tile sa a) (b.tile m.side bt) wa wb k c0 }).updTile
        m.blk sa a Tile.readDone).updTile m.blk m.side bt Tile.readDone := by
  unfold State.captureReads
  rw [kind]

/-! ## What a termination leaves of the accumulators (R321, R354) -/

theorem core_updCore (s : State) (c k : Nat) (f : Core → Core) :
    (s.updCore c f).core k = if k = c then f (s.core c) else s.core k := by
  split
  · next h => subst h; exact look_place_self _ _ _ _
  · next h => exact look_place_ne _ _ _ _ _ (Ne.symm h)

/-- Every core's accumulators are what they were. -/
def SameAcc (s t : State) : Prop := ∀ c, (t.core c).acc = (s.core c).acc

theorem acc_foldl_markBusy (l : List Nat) (x : Core) : (l.foldl (fun x r => x.markBusy r 1 false) x).acc = x.acc := by
  induction l generalizing x with
  | nil => rfl
  | cons r l ih => exact ih _

theorem cores_msix (s : State) (v : Nat) : (s.msix v).cores = s.cores := by
  unfold State.msix
  split
  · rfl
  · split <;> rfl

theorem cores_interrupt (s : State) (src : Nat) : (s.interrupt src).cores = s.cores := by
  unfold State.interrupt
  dsimp only
  split
  · rfl
  · split
    · exact cores_msix _ _
    · rfl

namespace SameAcc

theorem refl (s : State) : SameAcc s s := fun _ => rfl

section
variable {s t u : State}

theorem same (h : SameAcc s t) (cores : u.cores = t.cores) : SameAcc s u :=
  fun c => by rw [← h c, State.core, cores, State.core]

theorem updCore (h : SameAcc s t) (c : Nat) {f : Core → Core} (keeps : ∀ x, (f x).acc = x.acc) :
    SameAcc s (t.updCore c f) := by
  intro k
  rw [core_updCore]
  split
  · next same => rw [keeps, same, h]
  · exact h k

theorem foldl {α : Type} {f : State → α → State} {l : List α} (h : SameAcc s t)
    (keeps : ∀ u a, SameAcc s u → SameAcc s (f u a)) : SameAcc s (l.foldl f t) :=
  List.foldlRecOn l f h fun u hu a _ => keeps u a hu

theorem ite {c : Prop} [Decidable c] (h : SameAcc s t) (k : SameAcc s u) : SameAcc s (if c then t else u) := by
  split <;> assumption

theorem freeLoopRows (h : SameAcc s t) (c : Cmd) (j i : Nat) : SameAcc s (t.freeLoopRows c j i) :=
  h.updCore c.core fun x => acc_foldl_markBusy _ x

theorem updGrp (h : SameAcc s t) (g : Nat) (f : Group → Group) : SameAcc s (t.updGrp g f) := fun c => h c

theorem updBlk (h : SameAcc s t) (b : Nat) (f : Block → Block) : SameAcc s (t.updBlk b f) := fun c => h c

theorem updGang (h : SameAcc s t) (k : Nat) (f : Gang → Gang) : SameAcc s (t.updGang k f) := fun c => h c

theorem dropUnsent (h : SameAcc s t) (k : Nat) : SameAcc s (t.dropUnsent k) := fun c => h c

theorem dropFetches (h : SameAcc s t) (k : Nat) : SameAcc s (t.dropFetches k) := fun c => h c

theorem cellsWritten (h : SameAcc s t) (core : Nat) (m : MatOp) : SameAcc s (t.cellsWritten core m) := fun c => h c

theorem withCmds (h : SameAcc s t) (l : List Cmd) : SameAcc s { t with cmds := l } := fun c => h c

theorem takeCommands (h : SameAcc s t) (k : Nat) : SameAcc s (t.takeCommands k) := by
  unfold State.takeCommands
  refine .withCmds (.foldl (.foldl h fun u c hu => ?_) fun u c hu => ?_) _
  · exact hu.updCore c fun _ => rfl
  · exact .ite (hu.freeLoopRows c _ _) hu

theorem discardCommands (h : SameAcc s t) (k : Nat) : SameAcc s (t.discardCommands k) := by
  unfold State.discardCommands
  exact .takeCommands (.foldl h fun _ _ hu => .ite (hu.updBlk _ _) hu) k

theorem svDone (h : SameAcc s t) (result : Nat) : SameAcc s (t.svDone result) :=
  h.same (cores_interrupt _ _)

/-- A pre-emption that a termination ends has its result written (R368). -/
theorem svDone_if (h : SameAcc s t) (c : Prop) [Decidable c] (result : Nat) :
    SameAcc s (if c then t.svDone result else t) := .ite (h.svDone result) h

/-- A termination stops blocks and discards commands; the accumulators keep what they hold (R354). -/
theorem terminate (h : SameAcc s t) (k : Nat) (why : Report) : SameAcc s (t.terminate k why) := by
  unfold State.terminate
  dsimp only
  refine .ite h (.svDone_if (.dropFetches (.dropUnsent (.discardCommands ?_ k) k) k) _ 2)
  exact .foldl (.foldl (h.updGang k _) fun _ _ hu => hu.updGrp _ _) fun _ _ hu => hu.updBlk _ _

end
end SameAcc

theorem sameAcc_matFault (s : State) (m : MatOp) : SameAcc s (s.matFault m) := (SameAcc.refl s).terminate _ _

/-! ## Results of array operations (R99, R118, R301, R304) -/

/-- The atoms of one cell are added in ascending K, one rounding for each; with `.z` the first is added to zero. -/
theorem look_foldCells_cell (acc : SMap W32) (first cell : Nat) (z : Bool) {l : List W32} (some_atom : l ≠ [])
    (count : l.length ≤ 4096) :
    look 0 (foldCells acc first z (l.mapIdx fun j v => (cell * 4096 + j, v))) (first * 256 + cell) =
      l.foldl fpSum (if z then 0 else look 0 acc (first * 256 + cell)) := by
  induction l using List.reverseRecOn with
  | nil => contradiction
  | append_singleton l v ih =>
    have short : l.length < 4096 := by simpa using count
    have key : (cell * 4096 + l.length) / 4096 = cell := by omega
    rw [List.mapIdx_append, List.foldl_append]
    simp only [foldCells, List.foldl_append, List.mapIdx_cons, List.mapIdx_nil, List.foldl_cons, List.foldl_nil] at ih ⊢
    simp only [Nat.zero_add, key, look_put_self]
    congr 1
    cases l with
    | nil => simp
    | cons x l =>
      rw [← ih (by simp) (by omega), if_neg]
      simp only [List.length_cons, Bool.and_eq_true, beq_iff_eq] at short ⊢
      omega

theorem look_filter_keys {β : Type} (d : β) (m : SMap β) (p : Nat → Bool) (k : Nat) :
    look d (m.filter fun e => !p e.1) k = if p k = true then d else look d m k := by
  induction m with
  | nil => simp [look]
  | cons e t ih =>
    rw [List.filter_cons]
    by_cases here : e.1 = k
    · subst here
      by_cases gone : p e.1 = true
      · simpa [gone] using ih
      · simp [gone, look]
    · by_cases gone : p e.1 = true
      · simp [gone, ih, look, here]
      · simp [gone, ih, look, here]

section
variable {s : State} {core : Nat} {m : MatOp}

theorem matrixWriteComplete_next (due : (s.core core).mq.find? (s.mayLand core) = some m) :
    exec (.matrixWriteComplete core) s = .next ((s.landMat m).afterLoop m) := by
  rw [exec_matrixWriteComplete, execMatrixWriteComplete, due]

theorem afterLoop_of_cmd_none (h : m.cmd = none) : s.afterLoop m = s := by
  simp [State.afterLoop, h]

/-- A landed operation has left its core's queue. -/
theorem gone_landMat (owner : m.owner = none) :
    ∀ x ∈ ((s.landMat m).core ((s.blk m.blk).coreAt m.side)).mq, x.id ≠ m.id := by
  intro x
  simp only [State.landMat, owner, core_updCore, if_true, List.mem_filter, bne_iff_ne]
  exact And.right

/-- A multiply folds its products into the accumulators of its core, and whatever else its landing does leaves them. -/
theorem acc_landMat_mma {a bt k c0 : Nat} {z ea eb pair scaled : Bool} (owner : m.owner = none)
    (kind : m.kind = .mma a bt k c0 z ea eb pair scaled) :
    let c := (s.blk m.blk).coreAt m.side
    ((s.landMat m).core c).acc = foldCells (s.core c).acc m.row z m.cells := by
  intro c
  let u := if m.kind.readsRows && s.rowsBad c m.row m.rows then s.matFault m else s
  have faulted : SameAcc s u := .ite (sameAcc_matFault s m) (.refl s)
  have landed : SameAcc (u.updCore c fun x => { x with acc := foldCells x.acc m.row z m.cells }) (s.landMat m) := by
    unfold u State.landMat
    rw [kind, owner]
    exact .updCore (.cellsWritten (.refl _) c m) c fun _ => rfl
  rw [landed, core_updCore, if_pos rfl, faulted]

/-- An `mzero` clears the cells of its rows and no other. -/
theorem acc_landMat_zero (owner : m.owner = none) (kind : m.kind = .zero) (cell : Nat) :
    let c := (s.blk m.blk).coreAt m.side
    look 0 ((s.landMat m).core c).acc cell =
      if m.row * 256 ≤ cell ∧ cell < (m.row + m.rows) * 256 then 0 else look 0 (s.core c).acc cell := by
  intro c
  let cleared (k : Nat) : Bool := decide (m.row * 256 ≤ k) && decide (k < (m.row + m.rows) * 256)
  have landed : SameAcc (s.updCore c fun x => { x with acc := x.acc.filter fun e => !cleared e.1 }) (s.landMat m) := by
    unfold State.landMat
    rw [kind, owner]
    exact .updCore (.cellsWritten (.refl _) c m) c fun _ => rfl
  rw [landed, core_updCore, if_pos rfl, look_filter_keys]
  simp only [cleared, Bool.and_eq_true, decide_eq_true_eq]

/-- What the landing of an operation that owes no counter a decrement leaves (R118, R301, R304). -/
theorem matrixWriteComplete_lands (due : (s.core core).mq.find? (s.mayLand core) = some m) (owner : m.owner = none)
    (cmd : m.cmd = none) :
    let c := (s.blk m.blk).coreAt m.side
    ∃ t, exec (.matrixWriteComplete core) s = .next t ∧ (∀ x ∈ (t.core c).mq, x.id ≠ m.id) ∧
      (∀ a bt k c0 z ea eb pair scaled, m.kind = .mma a bt k c0 z ea eb pair scaled →
        (t.core c).acc = foldCells (s.core c).acc m.row z m.cells) ∧
      (m.kind = .zero → ∀ cell, look 0 (t.core c).acc cell =
        if m.row * 256 ≤ cell ∧ cell < (m.row + m.rows) * 256 then 0 else look 0 (s.core c).acc cell) := by
  refine ⟨s.landMat m, ?_, gone_landMat owner, fun a bt k c0 z ea eb pair scaled => acc_landMat_mma owner,
    acc_landMat_zero owner⟩
  rw [matrixWriteComplete_next due, afterLoop_of_cmd_none cmd]

end

/-! ## Bursts and tokens (R440, R441) -/

section
variable {s : State} {core isle : Nat}

theorem matrixBurstStart_next (starts : s.burstStarts core = true) : exec (.matrixBurstStart core) s =
    .next (s.updCore core fun c => { c with bursting := true, burst := 0 }) := by
  rw [exec_matrixBurstStart, execMatrixBurstStart, if_pos starts]

/-- A burst that ends frees the token of its core, if it holds one. -/
theorem matrixBurstEnd_next (ends : s.burstEnds core = true) :
    let s1 := s.updCore core fun c => { c with bursting := false, burst := 0 }
    exec (.matrixBurstEnd core) s = .next (if (s.core core).token then s1.freeToken core else s1) := by
  rw [exec_matrixBurstEnd, execMatrixBurstEnd, if_pos ends]
  dsimp only
  rw [core_updCore, if_pos rfl]

theorem tokenPass_next (due : s.tokensDue isle = true) : exec (.tokenPass isle) s = .next ((s.chip isle).ring.foldl
    (fun (u : State) at_ =>
      if u.needsToken (16 * isle + (at_ + 1) % 16) then
        u.updCore (16 * isle + (at_ + 1) % 16) fun c => { c with token := true }
      else u.updChip isle fun c => { c with ring := c.ring ++ [(at_ + 1) % 16] })
    ({ s with timers := place s.timers (5400 + isle) (s.bclk + 1) }.updChip isle fun c => { c with ring := [] })) := by
  rw [exec_tokenPass, execTokenPass, if_pos due]
  rfl

end

/-! ## Commands (R307, R311, R313, R323, R473) -/

section
variable {s : State} {core cmd : Nat} {c : Cmd} (found : s.cmd? cmd = some c)
include found

theorem mloopIteration_next (ready : s.mayIterate c = true) : exec (.mloopIteration core cmd) s = .next (s.iterate c) := by
  simp only [exec_mloopIteration, execMloopIteration, found, ready, if_true]

theorem copyEngineTransfer_next (ready : s.mayTransfer c = true) :
    exec (.copyEngineTransfer core cmd) s = .next (s.transfer c) := by
  simp only [exec_copyEngineTransfer, execCopyEngineTransfer, found, ready, if_true]

theorem commandResume_next (ready : s.mayResume c = true) :
    exec (.commandResume core cmd) s = .next (s.updCmd cmd fun c => { c with fault := none }) := by
  simp only [exec_commandResume, execCommandResume, found, ready, if_true]

/-- A sector that has come stands in its tile; the last one ends the command. -/
theorem copySectorArrival_next {d : Nat} (ready : s.readySector c = some d) :
    exec (.copySectorArrival core cmd) s =
      .next (if c.arrived.length + 1 = ((s.blk c.blk).tile c.side c.tile).bytes / 32 then (s.arrive c d).endCmd c
        else s.arrive c d) := by
  simp only [exec_copySectorArrival, execCopySectorArrival, found, ready]

/-- What the next transfer of a command is, by its kind and by whether its last item has been sent. -/
theorem copyEngineTransfer_goes (ready : s.mayTransfer c = true) :
    (c.kind = .tcopy → exec (.copyEngineTransfer core cmd) s = .next (s.readPiece c)) ∧
    (c.kind = .tstore → c.sent < c.total → exec (.copyEngineTransfer core cmd) s = .next (s.writePiece c)) ∧
    (c.kind = .tstore → c.total ≤ c.sent → exec (.copyEngineTransfer core cmd) s = .next (s.lastWrite c)) ∧
    (c.kind = .mloop → exec (.copyEngineTransfer core cmd) s = .next (s.slabPiece c)) ∧
    (c.kind = .tstoreHz → c.sent < c.total → exec (.copyEngineTransfer core cmd) s = .next (s.hazePiece c)) ∧
    (c.kind = .tstoreHz → c.total ≤ c.sent → exec (.copyEngineTransfer core cmd) s = .next (s.endCmd c)) := by
  rw [copyEngineTransfer_next found ready, State.transfer]
  refine ⟨fun kind => ?_, fun kind more => ?_, fun kind done => ?_, fun kind => ?_, fun kind more => ?_, fun kind done => ?_⟩
  · rw [kind]
  · rw [kind]
    exact congrArg _ (if_pos more)
  · rw [kind]
    exact congrArg _ (if_neg (Nat.not_lt.mpr done))
  · rw [kind]
  · rw [kind]
    exact congrArg _ (if_pos more)
  · rw [kind]
    exact congrArg _ (if_neg (Nat.not_lt.mpr done))

end

/-! ## Chains (R316, R317, R323) -/

section
variable {s : State} {key : Nat} {h : Head}

theorem chan_updChan (s : State) (key : Nat) (f : Chan → Chan) : (s.updChan key f).chan key = f (s.chan key) :=
  look_place_self _ _ _ _

theorem chainRecord_next {isle ch : Nat} {l : List Head} (heads : (s.chan (chanKey isle ch)).heads = h :: l)
    (goes : s.mayWalk (chanKey isle ch) = true) : exec (.chainRecord isle ch) s =
      .next ((s.updChan (chanKey isle ch) fun c => { c with fault := none }).walkRecord (chanKey isle ch) h) := by
  simp only [exec_chainRecord, execChainRecord, heads, goes, if_true]

theorem walkRecord_stopped {code : Nat} {va : W64} {iter : List Nat}
    (stop : (s.chan key).stop = some (code, va, iter)) : s.walkRecord key h = s.chanCode key h code va iter := by
  simp only [State.walkRecord, stop]

variable (runs : (s.chan key).stop = none)
include runs

theorem walkRecord_waits {v : State} (asks : s.chanRecord key 3 h = .wait v) : s.walkRecord key h = v := by
  simp only [State.walkRecord, runs, asks]

theorem walkRecord_faults {f : XFault} {va : W64} (faults : s.chanRecord key 3 h = .fault f va) :
    s.walkRecord key h = s.chanFault key h f va [] := by
  simp only [State.walkRecord, runs, faults]

/-- A channel judges a record that has come in the order poison, ownership, counts, alignment, and only then copies
(R317, notes/assumptions/26). -/
theorem walkRecord_got {d : LineData} {poison : Nat} (got : s.chanRecord key 3 h = .got d poison) :
    let sector := h.va.toNat % 128 / 32
    let r := transferOf (lineGet d (h.va.toNat % 128) 64)
    let bad := poison.testBit sector || poison.testBit (sector + 1)
    (bad = true → s.walkRecord key h = s.chanStop key 0x13 h.va []) ∧
    (bad = false → r.own = false → s.walkRecord key h = s.nextHead key) ∧
    (bad = false → r.own = true → r.emptyRun = true → s.walkRecord key h = s.chanStop key 0x15 h.va []) ∧
    (bad = false → r.own = true → r.emptyRun = false → r.misaligned = true →
      s.walkRecord key h = s.chanStop key 0x14 h.va []) ∧
    (bad = false → r.own = true → r.emptyRun = false → r.misaligned = false →
      ((s.chan key).pos < r.src.sectors → s.walkRecord key h = s.copyPiece key h r) ∧
      (r.src.sectors ≤ (s.chan key).pos → s.walkRecord key h = s.afterCopy key h r)) := by
  intro sector r bad
  have judged : s.walkRecord key h =
      if bad then s.chanStop key 0x13 h.va []
      else if !r.own then s.nextHead key
      else if r.emptyRun then s.chanStop key 0x15 h.va []
      else if r.misaligned then s.chanStop key 0x14 h.va []
      else if (s.chan key).pos < r.src.sectors then s.copyPiece key h r
      else s.afterCopy key h r := by
    simp only [State.walkRecord, runs, got]
    rfl
  rw [judged]
  refine ⟨fun dirty => ?_, fun clean others => ?_, fun clean own empty => ?_, fun clean own counts askew => ?_,
    fun clean own counts aligned => ⟨fun more => ?_, fun copied => ?_⟩⟩
  · simp only [dirty, if_true]
  · simp only [clean, others, Bool.not_false, Bool.false_eq_true, if_true, if_false]
  · simp only [clean, own, empty, Bool.not_true, Bool.false_eq_true, if_true, if_false]
  · simp only [clean, own, counts, askew, Bool.not_true, Bool.false_eq_true, if_true, if_false]
  · simp only [clean, own, counts, aligned, more, Bool.not_true, Bool.false_eq_true, if_true, if_false]
  · simp only [clean, own, counts, aligned, Nat.not_lt.mpr copied, Bool.not_true, Bool.false_eq_true, if_false]

end

/-! ## The statement -/

/-- Settles O50, one rule for each event. -/
theorem enginesAct : Obligations.EnginesAct := by
  intro core cmd isle ch s
  refine ⟨fun m due => ⟨operandReadsComplete_next due, ?_⟩, fun m due => ⟨matrixWriteComplete_next due,
    matrixWriteComplete_lands due⟩, fun acc first cell z l => look_foldCells_cell acc first cell z, matrixBurstStart_next,
    fun ends => ?_, tokenPass_next, fun c found => ⟨mloopIteration_next found, copyEngineTransfer_goes found,
      fun d ready => ?_, commandResume_next found⟩, fun h l heads walk => ?_⟩
  · intro a bt k c0 z ea eb pair scaled clean kind
    rw [operandReadsComplete_next due, clean, if_neg Bool.false_ne_true]
    exact congrArg _ (captureReads_mma s kind)
  · refine ⟨fun none_held => ?_, fun held => ?_⟩
    · rw [matrixBurstEnd_next ends, none_held, if_neg Bool.false_ne_true]
    · rw [matrixBurstEnd_next ends, held, if_pos rfl]
  · refine ⟨fun more => ?_, fun last => ?_⟩
    · rw [copySectorArrival_next found ready, if_neg more]
    · rw [copySectorArrival_next found ready, if_pos last]
  · intro key u goes
    have walks {t : State} (leads : u.walkRecord key h = t) : goes t := leads ▸ chainRecord_next heads walk
    have chan : u.chan key = { s.chan key with fault := none } := chan_updChan s key _
    have stop : (u.chan key).stop = (s.chan key).stop := by rw [chan]
    have pos : (u.chan key).pos = (s.chan key).pos := by rw [chan]
    refine ⟨fun code va iter stopped => walks (walkRecord_stopped (stop.trans stopped)), fun runs => ?_⟩
    replace runs := stop.trans runs
    refine ⟨fun v asks => walks (walkRecord_waits runs asks), fun f va faults => walks (walkRecord_faults runs faults),
      fun d poison got => ?_⟩
    obtain ⟨dirty, others, empty, askew, copies⟩ := walkRecord_got runs got
    rw [pos] at copies
    exact ⟨fun bad => walks (dirty bad), fun clean own => walks (others clean own),
      fun clean own none_left => walks (empty clean own none_left),
      fun clean own counts off => walks (askew clean own counts off),
      fun clean own counts aligned => ⟨fun more => walks ((copies clean own counts aligned).1 more),
        fun copied => walks ((copies clean own counts aligned).2 copied)⟩⟩

end Sys2Proof.Proofs
end

section
/-!
SUPPORT. The answers that reach a core, an engine or an agent of the base, and the statement about them.
-/
namespace Sys2Proof.Proofs
open Sys2Proof.Machine Sys2Proof.Laws

/-! ## Whom an answer is for (R394) -/

/-- DATA and ACK are for the agent of the base whose ticket asked, and else for the core, the engine of a core or
nobody. -/
theorem answer_taker (ticket : Bool) (p : Packet) (agent core engine nobody : State) :
    let taken : Result := .next (if ticket = true then agent else if p.dstCore < 256 then core
      else if 176 ≤ p.dunit ∧ p.dunit < 184 then engine else nobody)
    (ticket = true → taken = .next agent) ∧
    (ticket = false → p.dstCore < 256 → taken = .next core) ∧
    (ticket = false → 256 ≤ p.dstCore → 176 ≤ p.dunit ∧ p.dunit < 184 → taken = .next engine) ∧
    (ticket = false → 256 ≤ p.dstCore → p.dunit < 176 ∨ 184 ≤ p.dunit → taken = .next nobody) := by
  refine ⟨fun asked => ?_, fun unasked inside => ?_, fun unasked outside unit => ?_, fun unasked outside other => ?_⟩
  · simp only [asked, if_true]
  · simp only [unasked, inside, Bool.false_eq_true, if_true, if_false]
  · simp only [unasked, Nat.not_lt.mpr outside, unit, and_self, Bool.false_eq_true, if_true, if_false]
  · have no_engine : ¬(176 ≤ p.dunit ∧ p.dunit < 184) := by omega
    simp only [unasked, Nat.not_lt.mpr outside, no_engine, Bool.false_eq_true, if_false]

/-! ## Answers at a core (R113, R276, R279, R283) -/

section
variable {s : State} {p : Packet}

theorem coreData_gone (gone : s.op? p.tag = none) : s.coreData p = s := by
  simp only [State.coreData, gone]

theorem coreAck_filter (filter : p.sunit = unitFilter) : s.coreAck p = s.openAnswer p := by
  simp only [State.coreAck, filter, if_true]

section
variable (home : p.sunit ≠ unitFilter)
include home

theorem coreAck_flight {x : Nat × Flight} (found : s.flights.find? (fun e => e.1 == p.tag) = some x) :
    s.coreAck p = s.landFlight p.tag p.time x.2 := by
  simp only [State.coreAck, home, if_false, found]

variable (no_flight : s.flights.find? (fun e => e.1 == p.tag) = none)
include no_flight

theorem coreAck_gone (gone : s.op? p.tag = none) : s.coreAck p = s := by
  simp only [State.coreAck, home, if_false, no_flight, gone]

theorem coreAck_op {o : Op} (found : s.op? p.tag = some o) :
    s.coreAck p = (s.updParts o.id (o.acknowledged p) fun x => { x with st := .done }).completeOp o.id := by
  simp only [State.coreAck, home, if_false, no_flight, found]

end

variable {o : Op}

theorem takeData_home : s.takeData o p false =
    s.updParts o.id (fun x => (o.answered p).contains x) fun x => x.take p.data p.poison := by
  simp only [State.takeData, Bool.false_eq_true, if_false]

theorem takeData_new_line (absent : s.l1 o.core o.ctx p.loc = none) : s.takeData o p true =
    s.updParts o.id (fun x => (o.answered p).contains x) fun x => x.take p.data p.poison := by
  simp only [State.takeData, if_true, absent]

/-- The core's own dirty bytes stand over what came under a lease (R113). -/
theorem takeData_own_line {l : L1Line} (own : s.l1 o.core o.ctx p.loc = some l) : s.takeData o p true =
    s.updParts o.id (fun x => (o.answered p).contains x) fun x =>
      x.take (lineMerge l.dirty l.data p.data) (p.poison &&& (15 - fullSectors l.dirty)) := by
  simp only [State.takeData, if_true, own]

variable (found : s.op? p.tag = some o)
include found

theorem coreData_ldt {eps : Nat} (ldt : o.kind = .ldt eps) : s.coreData p = (s.takeElements o p).completeOp o.id := by
  simp only [State.coreData, found, ldt]

variable (load : ∀ eps, o.kind ≠ .ldt eps)
include load

/-- An operation that is no tolerant load takes the default case, since `load` excludes the other one. -/
theorem coreData_load : s.coreData p =
    (if (p.aux.headD 0 == 1 && !o.mark) = true then
      (s.takeData o p (p.aux.headD 0 == 1)).installLine o.core { p with disle := p.sisle, dunit := p.sunit }
    else s.takeData o p (p.aux.headD 0 == 1)).completeOp o.id := by
  simp only [State.coreData, found]

theorem coreData_home (no_lease : p.aux.headD 0 ≠ 1) : s.coreData p =
    ((s.updParts o.id (fun x => (o.answered p).contains x) fun x => x.take p.data p.poison).completeOp o.id) := by
  rw [coreData_load found load, beq_eq_false_iff_ne.mpr no_lease, Bool.false_and, if_neg Bool.false_ne_true,
    takeData_home]

/-- A line that came under a lease is installed, but for an operation that is marked. -/
theorem coreData_lease (lease : p.aux.headD 0 = 1) {t : State} (taken : s.takeData o p true = t) : s.coreData p =
    (if o.mark then t else t.installLine o.core { p with disle := p.sisle, dunit := p.sunit }).completeOp o.id := by
  rw [coreData_load found load, beq_iff_eq.mpr lease, Bool.true_and, taken]
  cases o.mark
  · rfl
  · rfl

end

/-! ## The messages -/

section
variable (s : State) (isle unit : Nat) (p : Packet)

@[simp] theorem op?_popUnit (tag : Nat) : (s.popUnit isle unit p).op? tag = s.op? tag := rfl

@[simp] theorem isTicket_popUnit (tag : Nat) : (s.popUnit isle unit p).isTicket tag = s.isTicket tag := rfl

@[simp] theorem l1_popUnit (core ctx line : Nat) : (s.popUnit isle unit p).l1 core ctx line = s.l1 core ctx line := rfl

@[simp] theorem flights_popUnit : (s.popUnit isle unit p).flights = s.flights := rfl

end

section
variable {s : State} {isle unit : Nat} {p : Packet}

theorem dataArrive_cases (takes : s.takesPacket isle unit 0x10 p) :
    let s1 := s.popUnit isle unit p
    let next := exec (.dataArrive isle unit) s
    (s.isTicket p.tag = true → next = .next (s1.answerTicket p.tag p.data p.poison 0)) ∧
    (s.isTicket p.tag = false → p.dstCore < 256 → next = .next (s1.coreData p)) ∧
    (s.isTicket p.tag = false → 256 ≤ p.dstCore → 176 ≤ p.dunit ∧ p.dunit < 184 →
      next = .next (s1.engineData isle p)) ∧
    (s.isTicket p.tag = false → 256 ≤ p.dstCore → p.dunit < 176 ∨ 184 ≤ p.dunit → next = .next s1) := by
  intro s1 next
  simp only [next, exec_dataArrive, execDataArrive, onPacket_next takes]
  exact answer_taker (s.isTicket p.tag) p _ _ _ _

theorem ackArrive_cases (takes : s.takesPacket isle unit 0x11 p) :
    let s1 := s.popUnit isle unit p
    let next := exec (.ackArrive isle unit) s
    (s.isTicket p.tag = true → next = .next (s1.answerTicket p.tag 0 0 p.time)) ∧
    (s.isTicket p.tag = false → p.dstCore < 256 → next = .next (s1.coreAck p)) ∧
    (s.isTicket p.tag = false → 256 ≤ p.dstCore → 176 ≤ p.dunit ∧ p.dunit < 184 →
      next = .next (s1.engineAck p.tag p.time)) ∧
    (s.isTicket p.tag = false → 256 ≤ p.dstCore → p.dunit < 176 ∨ 184 ≤ p.dunit → next = .next s1) := by
  intro s1 next
  simp only [next, exec_ackArrive, execAckArrive, onPacket_next takes]
  exact answer_taker (s.isTicket p.tag) p _ _ _ _

/-- The old values of an atomic's answer go to the lanes that they name (R279). -/
theorem atr_cases (takes : s.takesPacket isle unit 0x12 p) :
    let s1 := s.popUnit isle unit p
    (s.isTicket p.tag = true → exec (.atr isle unit) s = .next (s1.answerTicket p.tag
      (BitVec.ofNat 1024 (p.aux.getD 1 0)) (if p.aux.getD 2 0 = 1 then 15 else p.poison) 0)) ∧
    (s.isTicket p.tag = false → s.op? p.tag = none → exec (.atr isle unit) s = .next s1) ∧
    ∀ o, s.isTicket p.tag = false → s.op? p.tag = some o → exec (.atr isle unit) s = .next
      (((oldValues p.aux).foldl (fun (u : State) e => u.updParts o.id (fun x => x.lane == e.1 && x.st == .sent) fun x =>
        { x with data := e.2.1, poison := e.2.2 || p.poison != 0, st := .done }) s1).completeOp o.id) := by
  intro s1
  rw [exec_atr, execAtr, onPacket_next takes]
  refine ⟨fun asked => ?_, fun unasked gone => ?_, fun o unasked found => ?_⟩
  · rw [isTicket_popUnit, if_pos asked]
  · simp only [s1, isTicket_popUnit, unasked, op?_popUnit, gone, Bool.false_eq_true, if_false]
  · simp only [s1, isTicket_popUnit, unasked, op?_popUnit, found, Bool.false_eq_true, if_false]

end

/-! ## The statement -/

/-- Settles O43: each answer goes to its taker, and at a core to the operation, flight or line that its tag names. -/
theorem answersReachTheirOperations : Obligations.AnswersReachTheirOperations := by
  intro isle unit p s
  rw [← op?_popUnit s isle unit p, ← flights_popUnit s isle unit p]
  refine ⟨fun takes => ?_, atr_cases, fun takes => ?_⟩
  · obtain ⟨agent, core, engine, nobody⟩ := dataArrive_cases takes
    refine ⟨agent, fun unasked inside gone => ?_, engine, nobody, fun o unasked inside found =>
      ⟨fun load => ⟨fun no_lease => ?_, fun lease absent => ?_, fun l lease own => ?_⟩, fun eps ldt => ?_⟩⟩
    all_goals refine (core unasked inside).trans (congrArg _ ?_)
    · exact coreData_gone gone
    · exact coreData_home found load no_lease
    · exact coreData_lease found load lease (takeData_new_line ((l1_popUnit ..).trans absent))
    · exact coreData_lease found load lease (takeData_own_line ((l1_popUnit ..).trans own))
    · exact coreData_ldt found ldt
  · obtain ⟨agent, core, engine, nobody⟩ := ackArrive_cases takes
    refine ⟨agent, engine, nobody, fun unasked inside home x flight => ?_, fun unasked inside filter => ?_,
      fun unasked inside home no_flight => ⟨fun gone => ?_, fun o found => ?_⟩⟩
    all_goals refine (core unasked inside).trans (congrArg _ ?_)
    · exact coreAck_flight home flight
    · exact coreAck_filter filter
    · exact coreAck_gone home no_flight gone
    · exact coreAck_op home no_flight found

end Sys2Proof.Proofs
end

section
/-!
SUPPORT. Requests at home, atomics and exclusive leases, and the statement about them.
-/
namespace Sys2Proof.Proofs
open Sys2Proof.Machine Sys2Proof.Laws

/-! ## Requests at a slice (R394, R395) -/

/-- The requests for lines, by type (R394). -/
def sliceRequests (isle unit : Nat) : List (Nat × Instr) :=
  [(0x01, .rd isle unit), (0x02, .rdh isle unit), (0x03, .wt isle unit), (0x04, .atomAtHome isle unit),
    (0x05, .hzq isle unit), (0x07, .drn isle unit), (0x08, .hzd isle unit), (0x09, .cpr isle unit), (0x0A, .cpw isle unit)]

section
variable {s : State} {isle unit : Nat} {p : Packet}

section
variable (mgmt : unit ≠ unitMgmt) (host : unit ≠ unitHost) (vreles : unit ≠ unitVreles)
include mgmt host vreles

theorem readAt_slice : s.readAt unit p = s.atHome p := by
  simp only [State.readAt, mgmt, host, vreles, if_false]

theorem writeAt_slice : s.writeAt unit p = s.atHome p := by
  simp only [State.writeAt, mgmt, host, vreles, if_false]

/-- A request that a slice takes is a request at home (R395). -/
theorem sliceRequest_next {x : Nat × Instr} (request : x ∈ sliceRequests isle unit)
    (takes : s.takesPacket isle unit x.1 p) : exec x.2 s = .next ((s.popUnit isle unit p).atHome p) := by
  simp only [sliceRequests, List.mem_cons, List.not_mem_nil, or_false] at request
  obtain rfl | rfl | rfl | rfl | rfl | rfl | rfl | rfl | rfl := request
  · exact (exec_rd isle unit s).trans (onPacket_next takes _)
  · exact (exec_rdh isle unit s).trans ((onPacket_next takes _).trans (congrArg _ (readAt_slice mgmt host vreles)))
  · exact (exec_wt isle unit s).trans ((onPacket_next takes _).trans (congrArg _ (writeAt_slice mgmt host vreles)))
  · exact (exec_atomAtHome isle unit s).trans (onPacket_next takes _)
  · exact (exec_hzq isle unit s).trans (onPacket_next takes _)
  · exact (exec_drn isle unit s).trans (onPacket_next takes _)
  · exact (exec_hzd isle unit s).trans (onPacket_next takes _)
  · exact (exec_cpr isle unit s).trans ((onPacket_next takes _).trans (congrArg _ (readAt_slice mgmt host vreles)))
  · exact (exec_cpw isle unit s).trans ((onPacket_next takes _).trans (congrArg _ (writeAt_slice mgmt host vreles)))

end

/-! ## A request at home (R134, R402) -/

section
variable (goes : (s.bring p).joinWaits p = false)
include goes

theorem atHome_free (free : (s.homeLine p.disle p.dunit p.loc p.pa).xhold = none) :
    s.atHome p = (s.bring p).serve p := by
  simp only [State.atHome, goes, homeLine_bring, free, Option.isSome_none, Bool.false_eq_true, if_false]

/-- A request for a line that a core holds exclusively counts for the predictor and waits behind those that wait already;
the first one recalls the line. -/
theorem atHome_held {holder : Nat × Nat} (held : (s.homeLine p.disle p.dunit p.loc p.pa).xhold = some holder) :
    let u := ((s.bring p).updPred p fun x => { x with cnt := min (x.cnt + 1) 3 }).updHome p.disle p.dunit p.loc p.pa
      fun h => { h with waited := true, recalled := true }
    s.atHome p = (if (s.homeLine p.disle p.dunit p.loc p.pa).recalled then u else u.send
      { Packet.basic 0x28 vcC 0 p.disle p.dunit (isleOf holder.1) (unitOfCore holder.1) p.ctx 0 with
        pa := p.pa, loc := p.loc }).updHome p.disle p.dunit p.loc p.pa fun h => { h with waiting := h.waiting ++ [p] } := by
  intro u
  simp only [State.atHome, State.contend, goes, homeLine_bring, held, Option.isSome_some, Bool.false_eq_true, if_false,
    if_true]
  cases (s.homeLine p.disle p.dunit p.loc p.pa).recalled
  · rfl
  · rfl

end

/-- An atomic that is no acquire of a line with another's record is granted the line or runs at home. -/
theorem serve_atomic (typ : p.typ = 4) (own : p.isAcquire = true →
      (∀ r, (s.homeLine p.disle p.dunit p.loc p.pa).rrec = some r → r = (p.srcCore, p.ctx)) ∧
      (s.homeLine p.disle p.dunit p.loc p.pa).draining = false) :
    s.serve p = if s.mayGrant p then s.grant p else s.atomHere p := by
  cases acquire : p.isAcquire
  · simp only [State.serve, acquire, typ, Bool.false_and, Bool.false_eq_true, if_false]
  · obtain ⟨mine, quiet⟩ := own acquire
    cases record : (s.homeLine p.disle p.dunit p.loc p.pa).rrec with
    | none => simp only [State.serve, record, quiet, typ, Bool.or_self, Bool.and_false, Bool.false_eq_true, if_false]
    | some r =>
      have same : (r != (p.srcCore, p.ctx)) = false := by simp [mine r record]
      simp only [State.serve, record, quiet, typ, same, Bool.or_self, Bool.and_false, Bool.false_eq_true, if_false]

/-- An acquire of a line with a record of another core or context is held, and the first one asks the recorded core to
drain. -/
theorem serve_acquire {core ctx : Nat} (acquire : p.isAcquire = true)
    (record : (s.homeLine p.disle p.dunit p.loc p.pa).rrec = some (core, ctx))
    (foreign : (s.homeLine p.disle p.dunit p.loc p.pa).draining = true ∨ (core, ctx) ≠ (p.srcCore, p.ctx)) :
    let held := s.updHome p.disle p.dunit p.loc p.pa fun h => { h with acquires := h.acquires ++ [p], draining := true }
    s.serve p = if (s.homeLine p.disle p.dunit p.loc p.pa).draining then held else held.askDrain p core ctx := by
  have holds : ((core, ctx) != (p.srcCore, p.ctx) || (s.homeLine p.disle p.dunit p.loc p.pa).draining) = true := by
    rw [Bool.or_comm, Bool.or_eq_true, bne_iff_ne]
    exact foreign
  simp only [State.serve, acquire, record, holds, Bool.and_self, if_true]

/-! ## Poison marks of a line at home -/

theorem poison_homeLine (s : State) (isle slice loc pa : Nat) :
    (s.homeLine isle slice loc pa).poison = s.poisonAt loc := by
  unfold State.homeLine
  dsimp only
  split
  · rfl
  · rfl

/-- A change of a line's state that keeps its poison marks. -/
theorem poisonAt_updHome (s : State) (isle slice loc pa : Nat) {f : HomeLine → HomeLine}
    (keeps : ∀ h, (f h).poison = h.poison) : (s.updHome isle slice loc pa f).poisonAt loc = s.poisonAt loc := by
  have held : look HomeLine.none (s.updHome isle slice loc pa f).homes (loc / 128) = f (s.homeLine isle slice loc pa) :=
    look_place_self _ _ _ _
  rw [State.poisonAt, held, keeps, poison_homeLine]

/-! ## Atomics at home (R401, R402) -/

/-- A granted line is held for its core until 2000 ns from now and travels as it stands (R402). -/
theorem grant_bring (s : State) (p : Packet) : (s.bring p).grant p =
    ((s.bring p).updHome p.disle p.dunit p.loc p.pa fun h =>
      { h with xhold := some (p.srcCore, s.ptime + 2000), recalled := false, waited := false }).send
        { p.reply 0x13 vcR 2 with
          time := s.ptime + 2000, data := s.lineAt p.loc, poison := s.poisonAt p.loc, aux := p.aux } := by
  have marks : (s.bring p).poisonAt p.loc = s.poisonAt p.loc := poisonAt_updHome s _ _ _ _ fun _ => rfl
  rw [State.grant, poisonAt_updHome, marks]
  · rfl
  · exact fun _ => rfl

/-- The predictor takes the core of an atomic that runs at home; an agent's atomic leaves it (notes/assumptions/19). -/
def learnAtomic (s : State) (p : Packet) : State :=
  if 256 ≤ p.srcCore then s else s.updPred p fun x => x.atHome p.srcCore s.ptime

/-- An atomic at home: the arithmetic unit's clocks, the predictor, the lanes, the record of a mark, and the answer. -/
theorem atomHere_answers (s : State) (p : Packet) :
    let lanes := atomLanes (p.aux.drop 8)
    let r := (learnAtomic (s.occupy p lanes.length) p).atomAtLine p (p.aux.getD 0 0) (p.aux.getD 1 0) (p.aux.getD 2 0) lanes
    let u := if p.aux.getD 4 0 = 1 then r.1.updHome p.disle p.dunit p.loc p.pa fun h =>
      { h with rrec := some (p.srcCore, p.ctx), renewed := h.draining } else r.1
    let v := if anyPoisoned r.2 then u.logEvent else u
    s.atomHere p = if p.aux.getD 3 0 = 1 then u.send { p.reply 0x12 vcR 1 with aux := r.2 }
      else v.answerAck { p with aux := [] } (v.gwct p) := by
  intro lanes r u v
  have learns : (if p.srcCore < 256 then (s.occupy p lanes.length).updPred p fun x => x.atHome p.srcCore s.ptime
      else s.occupy p lanes.length) = learnAtomic (s.occupy p lanes.length) p := by
    simp only [learnAtomic, ← Nat.not_lt, ite_not]
    rfl
  have marks : r.1.placeRecord p (p.aux.getD 4 0 == 1) = u := by
    simp only [State.placeRecord, beq_iff_eq, u]
  rw [State.atomHere]
  simp only [v, ← marks, r, ← learns]
  rfl

end

/-! ## Exclusive lines at a core (R402) -/

section
variable {s : State} {isle unit : Nat} {p : Packet}

theorem recall_returns {l : L1Line} (takes : s.takesPacket isle unit 0x28 p)
    (holds : (s.core p.dstCore).lines.find? (fun l => l.loc == p.loc && l.excl.isSome) = some l) :
    exec (.recall isle unit) s = .next ((s.popUnit isle unit p).evict p.dstCore l) := by
  have still : ((s.popUnit isle unit p).core p.dstCore).lines.find? (fun l => l.loc == p.loc && l.excl.isSome) = some l :=
    holds
  rw [exec_recall, execRecall, onPacket_next takes]
  simp only [still]
  rfl

theorem exclusiveLeaseEnd_returns {core loc : Nat} {l : L1Line} (ended : s.endedLease core loc = some l) :
    exec (.exclusiveLeaseEnd core loc) s = .next (s.evict core l) := by
  simp only [exec_exclusiveLeaseEnd, execExclusiveLeaseEnd, ended]
  rfl

/-- A line that comes back from its holder is written at home, and what waits for it is served in order. -/
theorem returned_holder (holds : (s.homeLine p.disle p.dunit p.loc p.pa).xhold.map Prod.fst = some p.srcCore) :
    let sp := if s.disp.pending.any (·.record.resume) then s.updDisp fun d => { d with passDue := true } else s
    let s2 := sp.writeHome p.loc (BitVec.allOnes 128) p.data p.poison
    let s3 := if (s.homeLine p.disle p.dunit p.loc p.pa).waited then s2
      else s2.updPred p fun x => { x with cnt := x.cnt - 1 }
    s.returned p = (s.homeLine p.disle p.dunit p.loc p.pa).waiting.foldl (fun (s : State) q => s.atHome q)
      (s3.updHome p.disle p.dunit p.loc p.pa fun h =>
        { h with xhold := none, recalled := false, waited := false, waiting := [] }) := by
  rw [State.returned]
  exact if_neg (not_not.mpr holds)

theorem xret_next (takes : s.takesPacket isle unit 0x14 p) :
    exec (.xret isle unit) s = .next ((s.popUnit isle unit p).returned p) := by
  rw [exec_xret, execXret, onPacket_next takes]

/-- What a granted line leaves at its core: the line held exclusively, over the core's own dirty bytes
(notes/assumptions/60). -/
def granted (s : State) (p : Packet) : State :=
  match s.l1 p.dstCore p.ctx p.loc with
  | some _ => s.updLines p.dstCore (fun x => x.ctx == p.ctx && x.loc == p.loc) fun x =>
    { x with valid := true, lease := p.time, data := lineMerge x.dirty x.data p.data, poison := p.poison
             excl := some p.time, recalled := false, xdata := p.data }
  | none => (s.makeRoom p.dstCore).updCore p.dstCore fun c => { c with lines := c.lines ++
    [⟨p.ctx, p.loc, p.pa, p.sisle, p.sunit, true, p.time, 0, p.data, p.poison, some p.time, false, p.data⟩] }

/-- A core without a cache bank returns a line at once (R108). -/
def keptIfRoom (s : State) (p : Packet) : State :=
  match s.l1 p.dstCore p.ctx p.loc with
  | some l => if s.lineRoom p.dstCore = 0 then s.evict p.dstCore l else s
  | none => s

/-- XGNT: the line comes, the atomic that asked for it performs in it, and the line goes again where there is no room. -/
theorem xgnt_next (takes : s.takesPacket isle unit 0x13 p) :
    let u := granted (s.popUnit isle unit p) p
    (u.op? p.tag = none → exec (.xgnt isle unit) s = .next (keptIfRoom u p)) ∧
    ∀ o op esz wide vec ret, u.op? p.tag = some o → o.kind = .atomic op esz wide vec ret →
      exec (.xgnt isle unit) s = .next (keptIfRoom ((u.atomicHere o op (atomicShape esz wide vec).1
        (atomicShape esz wide vec).2 (o.answered p)).completeOp o.id) p) := by
  intro u
  have room (v : State) : keptIfRoom v p = if v.lineRoom p.dstCore = 0 then
      (match v.l1 p.dstCore p.ctx p.loc with
        | some l => v.returnLine p.dstCore l
        | none => v) else v := by
    unfold keptIfRoom
    cases v.l1 p.dstCore p.ctx p.loc with
    | none => exact (ite_self v).symm
    | some l => rfl
  have comes : exec (.xgnt isle unit) s = .next (keptIfRoom (match u.op? p.tag with
      | some o => match o.kind with
        | .atomic op esz wide vec _ => (u.atomicHere o op (atomicShape esz wide vec).1 (atomicShape esz wide vec).2
            (o.answered p)).completeOp o.id
        | _ => u
      | none => u) p) := by
    rw [exec_xgnt, execXgnt, onPacket_next takes, room]
    rfl
  refine ⟨fun gone => ?_, fun o op esz wide vec ret asked kind => ?_⟩
  · simp only [comes, gone]
  · simp only [comes, asked, kind]

end

/-! ## The statement -/

/-- Settles O41: an atomic at home, a request for a line that a core holds, and the way of an exclusive line to its core and
back, one rule each. -/
theorem atomicsAndLeasesAtHome : Obligations.AtomicsAndLeasesAtHome := by
  intro isle unit core loc p l s s0 s1 h upd back came
  refine ⟨fun takes free goes own => ?atomic, fun x request takes mgmt host vreles goes holder held => ?waits,
    recall_returns, exclusiveLeaseEnd_returns, fun takes => ⟨fun other => ?stranger, fun holds => ?returned⟩,
    fun takes => ?granted⟩
  case atomic =>
    have served : exec (.atomAtHome isle unit) s = .next (if s.mayGrant p then s1.grant p else s1.atomHere p) := by
      rw [exec_atomAtHome, execAtomAtHome, onPacket_next takes, atHome_free goes free,
        serve_atomic (typ_of_takesPacket takes)]
      · rfl
      · rwa [homeLine_bring]
    refine ⟨fun grants => ?_, fun refuses => ?_⟩
    · rw [served, if_pos grants]
      exact congrArg _ (grant_bring s0 p)
    · intro lanes s2 r s3 s4
      rw [served, refuses, if_neg Bool.false_ne_true]
      exact congrArg _ (atomHere_answers s1 p)
  case waits =>
    exact (sliceRequest_next mgmt host vreles request takes).trans (congrArg _ (atHome_held goes held))
  case stranger => exact (xret_next takes).trans (congrArg _ (if_pos other))
  case returned => exact (xret_next takes).trans (congrArg _ (returned_holder holds))
  case granted =>
    intro kept
    obtain ⟨keeps, performs⟩ := xgnt_next takes
    refine ⟨keeps, fun o op esz wide vec ret asked kind => (performs o op esz wide vec ret asked kind).trans ?_⟩
    cases vec
    · rfl
    · rfl

end Sys2Proof.Proofs
end

section
/-!
SUPPORT. Release records and the drains of a core, and the statement about them.
-/
namespace Sys2Proof.Proofs
open Sys2Proof.Machine Sys2Proof.Laws

/-! ## What a packet that is sent leaves alone (R388, R454) -/

/-- The lines of every core and the region table are what they were. -/
structure SameLines (s t : State) : Prop where
  lines : ∀ c, (t.core c).lines = (s.core c).lines
  regions : t.regions = s.regions

theorem SameLines.trans {s t u : State} (h : SameLines s t) (k : SameLines t u) : SameLines s u :=
  ⟨fun c => (k.lines c).trans (h.lines c), k.regions.trans h.regions⟩

theorem sameLines_toUnit (s : State) (isle unit : Nat) (p : Packet) (at_ : Nat) :
    SameLines s (s.toUnit isle unit p at_) := by
  unfold State.toUnit
  dsimp only
  split
  · split
    · exact ⟨fun _ => rfl, rfl⟩
    · exact ⟨fun _ => rfl, rfl⟩
  · exact ⟨fun _ => rfl, rfl⟩

theorem sameLines_markFlits (s : State) (p : Packet) : SameLines s (s.markFlits p).1 := by
  unfold State.markFlits
  split
  · exact ⟨fun _ => rfl, rfl⟩
  · exact ⟨fun _ => rfl, rfl⟩

/-- A core that waits at its port is pressed there, and keeps its lines. -/
theorem sameLines_pressPort (s : State) (p : Packet) : SameLines s (s.pressPort p) := by
  unfold State.pressPort
  split
  · refine ⟨fun c => ?_, rfl⟩
    rw [core_updCore]
    split
    · next same => rw [same]
    · rfl
  · exact ⟨fun _ => rfl, rfl⟩

theorem sameLines_send (s : State) (p : Packet) : SameLines s (s.send p) := by
  unfold State.send State.inject
  dsimp only
  split
  · exact (sameLines_markFlits s p).trans (sameLines_toUnit _ _ _ _ _)
  · split
    · exact SameLines.trans (t := s.updMesh _) ⟨fun _ => rfl, rfl⟩ (sameLines_pressPort _ p)
    · exact ⟨fun _ => rfl, rfl⟩

/-! ## Drains (R130, R134, R400) -/

theorem lines_sendDirty (s : State) (core : Nat) (l : L1Line) (waiters : List Nat) (c : Nat) :
    ((s.sendDirty core l waiters).core c).lines = (s.core c).lines :=
  (sameLines_send s.took _).lines c

theorem lines_updLines (s : State) (core : Nat) (p : L1Line → Bool) (f : L1Line → L1Line) :
    ((s.updLines core p f).core core).lines = (s.core core).lines.map fun l => if p l then f l else l := by
  rw [State.updLines, core_updCore, if_pos rfl]

/-- Lines sent home one after the other leave none of a context dirty when they are all the dirty lines it has. -/
theorem clean_cleanLines {core ctx : Nat} (waiters : List Nat) (l : List L1Line) (s : State)
    (all : ∀ x ∈ (s.core core).lines, x.ctx = ctx → x.dirty ≠ 0 → ∃ y ∈ l, x.ctx = y.ctx ∧ x.loc = y.loc) :
    ∀ x ∈ ((s.cleanLines core waiters l).core core).lines, x.ctx = ctx → x.dirty = 0 := by
  induction l generalizing s with
  | nil =>
    intro x hx own
    by_contra dirty
    obtain ⟨y, hy, -⟩ := all x hx own dirty
    exact List.not_mem_nil hy
  | cons y t ih =>
    refine ih _ fun x hx own dirty => ?_
    rw [lines_updLines, lines_sendDirty] at hx
    obtain ⟨z, hz, rfl⟩ := List.mem_map.mp hx
    by_cases sent : (z.ctx == y.ctx && z.loc == y.loc) = true
    · rw [if_pos sent] at dirty
      exact absurd rfl dirty
    · rw [if_neg sent] at own dirty ⊢
      obtain ⟨w, hw, same⟩ := all z hz own dirty
      rcases List.mem_cons.mp hw with rfl | later
      · exact absurd (by simpa using same) sent
      · exact ⟨w, later, same⟩

/-- A drain leaves no dirty line of its context at its core (R130). -/
theorem clean_startDrain (s : State) (core ctx : Nat) (owner : DrainOwner) :
    ∀ l ∈ ((s.startDrain core ctx owner).core core).lines, l.ctx = ctx → l.dirty = 0 :=
  clean_cleanLines _ _ s.took fun x hx own dirty =>
    ⟨x, List.mem_filter.mpr ⟨hx, Bool.and_eq_true_iff.mpr ⟨beq_iff_eq.mpr own, bne_iff_ne.mpr dirty⟩⟩, rfl, rfl⟩

/-- The answers to drain requests change no line of a core. -/
theorem lines_answerDreqs (s : State) (c : Nat) : (s.answerDreqs.core c).lines = (s.core c).lines := by
  refine List.foldlRecOn (motive := fun (u : State) => (u.core c).lines = (s.core c).lines) s.drains _ rfl ?_
  intro u hu e _
  dsimp only
  split
  · split
    · exact ((sameLines_send _ _).lines c).trans hu
    · exact hu
  · exact hu

section
variable {s : State} {isle unit : Nat} {p : Packet} (takes : s.takesPacket isle unit 0x20 p)
include takes

/-- The base answers a drain request for a core behind closed ports (R400). -/
theorem dreq_closed (closed : s.closedUnit isle unit = true) : exec (.dreq isle unit) s =
    .next ((s.popUnit isle unit p).send { p.reply 0x21 vcC 0 with time := s.ptime }) := by
  rw [exec_dreq, execDreq, onPacket_next takes]
  exact congrArg _ (if_pos closed)

theorem dreq_drains (served : s.closedUnit isle unit = false) : ∃ t, exec (.dreq isle unit) s = .next t ∧
    ∀ l ∈ (t.core p.dstCore).lines, l.ctx = p.ctx → l.dirty = 0 := by
  refine ⟨((s.popUnit isle unit p).startDrain p.dstCore p.ctx (.dreq p.sisle p.sunit p.loc p.pa)).answerDreqs, ?_, ?_⟩
  · rw [exec_dreq, execDreq, onPacket_next takes]
    exact congrArg _ (if_neg (ne_true_of_eq_false served))
  · rw [lines_answerDreqs]
    exact clean_startDrain _ _ _ _

end

section
variable {s : State} {d : Nat} {e : Drain} (found : s.drains.find? (fun x => x.1 == d) = some (d, e))
include found

theorem gwctPassed_waits (waits : s.drainOver e = false) : exec (.gwctPassed d) s = .next s := by
  simp only [exec_gwctPassed, execGwctPassed, found, waits, Bool.false_eq_true, if_false]

theorem gwctPassed_ends (ended : s.drainOver e = true) : exec (.gwctPassed d) s =
    .next ({ s with drains := s.drains.filter fun x => x.1 != d }.passed e) := by
  simp only [exec_gwctPassed, execGwctPassed, found, ended, if_true]

end

theorem passed_home {s : State} {e : Drain} {isle slice loc pa : Nat} (owner : e.owner = .home isle slice loc pa) :
    s.passed e = s.answerAcquires isle slice loc pa := by
  simp only [State.passed, owner]

/-! ## The statement -/

/-- Settles O42: an acquire of a line with another's record is held, the core that it names is left without a dirty line,
and the end of the drain serves what was held. -/
theorem recordsAndDrains : Obligations.RecordsAndDrains := by
  intro isle unit d core ctx p e s s0 s1 h held q asked
  refine ⟨fun x request takes mgmt host vreles acquire free goes record => ?acquires,
    fun takes => ⟨dreq_closed takes, dreq_drains takes⟩, fun takes => ?done, fun found => ?passed⟩
  case acquires =>
    have atSlice : x ∈ sliceRequests isle unit := by
      simp only [List.mem_cons, List.not_mem_nil, or_false] at request
      obtain rfl | rfl := request
      · simp [sliceRequests]
      · simp [sliceRequests]
    have comes := (sliceRequest_next mgmt host vreles atSlice takes).trans (congrArg _ (atHome_free goes free))
    have waits := serve_acquire (s := s0.bring p) (core := core) (ctx := ctx) acquire
    rw [homeLine_bring] at waits
    refine ⟨fun quiet other => ?_, fun drains => ?_⟩
    · exact comes.trans (congrArg _ ((waits record (.inr other)).trans (if_neg (ne_true_of_eq_false quiet))))
    · exact comes.trans (congrArg _ ((waits record (.inl drains)).trans (if_pos drains)))
  case done =>
    rw [exec_ddone, execDdone, onPacket_next takes]
    rfl
  case passed =>
    intro u
    refine ⟨gwctPassed_waits found, gwctPassed_ends found, fun ended hi hs hl hp owner => ?_⟩
    rw [gwctPassed_ends found ended, passed_home owner]
    rfl

end Sys2Proof.Proofs
end

section
/-!
SUPPORT. Shares of haze regions at their homes and at their holders, and the statement about them.
-/
namespace Sys2Proof.Proofs
open Sys2Proof.Machine Sys2Proof.Laws

/-! ## A region-table entry -/

theorem region_of_regions {s t : State} (same : t.regions = s.regions) (n : Nat) : t.region n = s.region n :=
  congrArg (look Region.reset · n) same

@[simp] theorem region_updRegion_self (s : State) (n : Nat) (f : Region → Region) :
    (s.updRegion n f).region n = f (s.region n) :=
  look_place_self _ _ _ _

/-! ## Share requests at a region home (R404) -/

section
variable {s : State} {n : Nat} (p : Packet) (t : List Packet)

theorem serveAsks_loads (loads : (s.region n).loads ≠ []) :
    s.serveAsks n (p :: t) = (s.refuseShare n p).serveAsks n t := by
  simp only [State.serveAsks, List.isEmpty_eq_false_iff.mpr loads, Bool.not_false, if_true]

variable (quiet : (s.region n).loads = [])
include quiet

theorem serveAsks_grants (enough : 2 ^ 32 ≤ (s.region n).unalloc) :
    s.serveAsks n (p :: t) = (s.grantShare n p).serveAsks n t := by
  simp only [State.serveAsks, quiet, List.isEmpty_nil, Bool.not_true, Bool.false_eq_true, if_false, enough, if_true]

variable (few : (s.region n).unalloc < 2 ^ 32)
include few

theorem serveAsks_nobody (nobody : (s.region n).largest = none) :
    s.serveAsks n (p :: t) = (s.refuseShare n p).serveAsks n t := by
  simp only [State.serveAsks, quiet, List.isEmpty_nil, Bool.not_true, Bool.false_eq_true, if_false, Nat.not_le.mpr few,
    nobody]

variable {x : Nat × Nat × Nat} (largest : (s.region n).largest = some x)
include largest

theorem serveAsks_small (small : x.2.2 < 2) : s.serveAsks n (p :: t) = (s.refuseShare n p).serveAsks n t := by
  simp only [State.serveAsks, quiet, List.isEmpty_nil, Bool.not_true, Bool.false_eq_true, if_false, Nat.not_le.mpr few,
    largest, small, if_true]

theorem serveAsks_splits (splits : 2 ≤ x.2.2) : s.serveAsks n (p :: t) =
    (s.toHolder n 0x24 x.1 x.2.1 [n]).updRegion n fun r => { r with splitting := some x.1, asks := p :: t } := by
  simp only [State.serveAsks, quiet, List.isEmpty_nil, Bool.not_true, Bool.false_eq_true, if_false, Nat.not_le.mpr few,
    largest, Nat.not_lt.mpr splits]

end

/-- Half of enough units is recorded for the core that asked and sent to it (R404). -/
theorem grantShare_half {s : State} {n : Nat} (p : Packet) (enough : 2 ^ 32 ≤ (s.region n).unalloc) :
    let r := s.region n
    let core := p.aux.getD 1 0
    s.grantShare n p = (s.updRegion n fun r => { r with unalloc := r.unalloc - r.unalloc / 2 }.record core p.ctx
      (r.unitsOf core p.ctx + r.unalloc / 2)).send
        { Packet.basic 0x23 vcC 0 r.hisle r.hslice (isleOf core) (unitOfCore core) p.ctx 0 with
          aux := [n, r.unalloc / 2] } := by
  intro r core
  have some_units : (s.region n).unalloc / 2 ≠ 0 := by omega
  simp only [State.grantShare, State.toHolder, some_units, if_false, region_updRegion_self]
  rfl

section
variable {s : State} {isle unit : Nat} {p : Packet}

theorem gone_iff {core : Nat} : (s.chip (isleOf core)).state ≠ 0 ↔ ¬ s.holderStands core = true := by
  rw [State.holderStands, beq_iff_eq]

section
variable (takes : s.takesPacket isle unit 0x22 p)
include takes

/-- A share request of a core that has left the map has no effect, one during a split waits, and any other is taken. -/
theorem shreq_next : exec (.shreq isle unit) s =
    .next (if s.holderStands (p.aux.getD 1 0) = false then s.popUnit isle unit p
      else if (s.region (p.aux.headD 0)).splitting.isSome then
        (s.popUnit isle unit p).updRegion (p.aux.headD 0) fun r => { r with asks := r.asks ++ [p] }
      else (s.popUnit isle unit p).serveAsks (p.aux.headD 0) [p]) := by
  rw [exec_shreq, execShreq, onPacket_next takes]
  rfl

theorem shreq_gone (gone : (s.chip (isleOf (p.aux.getD 1 0))).state ≠ 0) :
    exec (.shreq isle unit) s = .next (s.popUnit isle unit p) := by
  rw [shreq_next takes, if_pos (eq_false_of_ne_true (gone_iff.mp gone))]

variable (stands : (s.chip (isleOf (p.aux.getD 1 0))).state = 0)
include stands

theorem shreq_waits {k : Nat} (splitting : (s.region (p.aux.headD 0)).splitting = some k) :
    exec (.shreq isle unit) s = .next ((s.popUnit isle unit p).updRegion (p.aux.headD 0) fun r =>
      { r with asks := (s.region (p.aux.headD 0)).asks ++ [p] }) := by
  simp only [shreq_next takes, State.holderStands, stands, splitting, beq_self_eq_true, Bool.true_eq_false,
    Option.isSome_some, if_false, if_true]
  rfl

theorem shreq_taken (whole : (s.region (p.aux.headD 0)).splitting = none) :
    exec (.shreq isle unit) s = .next ((s.popUnit isle unit p).serveAsks (p.aux.headD 0) [p]) := by
  simp only [shreq_next takes, State.holderStands, stands, whole, beq_self_eq_true, Bool.true_eq_false,
    Option.isSome_none, Bool.false_eq_true, if_false]

end

/-! ## A holder's share (R149, R150, R152, R405) -/

@[simp] theorem share?_popUnit (core ctx region : Nat) :
    (s.popUnit isle unit p).share? core ctx region = s.share? core ctx region := rfl

section
variable (takes : s.takesPacket isle unit 0x23 p)
include takes

theorem shgnt_installs (units : p.aux.getD 1 0 ≠ 0) : exec (.shgnt isle unit) s =
    .next ((s.popUnit isle unit p).updShare p.dstCore p.ctx (p.aux.headD 0) fun h =>
      { h with asked := false, units := p.aux.getD 1 0, tracker := 0, lastAdd := s.ptime }) := by
  rw [exec_shgnt, execShgnt, onPacket_next takes]
  exact congrArg _ (if_neg units)

variable (refused : p.aux.getD 1 0 = 0)
include refused

theorem shgnt_home (absent : ((s.popUnit isle unit p).waitersHome p.dstCore p.ctx (p.aux.headD 0) fun _ => true).share?
    p.dstCore p.ctx (p.aux.headD 0) = none) : exec (.shgnt isle unit) s =
      .next ((s.popUnit isle unit p).waitersHome p.dstCore p.ctx (p.aux.headD 0) fun _ => true) := by
  simp only [exec_shgnt, execShgnt, onPacket_next takes, refused, if_true, absent]

theorem shgnt_ends {h : Share} (holds : ((s.popUnit isle unit p).waitersHome p.dstCore p.ctx (p.aux.headD 0)
    fun _ => true).share? p.dstCore p.ctx (p.aux.headD 0) = some h) :
    let home := (s.popUnit isle unit p).waitersHome p.dstCore p.ctx (p.aux.headD 0) fun _ => true
    exec (.shgnt isle unit) s = .next (if h.answer.isEmpty && h.drains.isEmpty then home.updCore p.dstCore fun c =>
        { c with shares := c.shares.filter fun x => !(x.ctx == p.ctx && x.region == p.aux.headD 0) }
      else home.updShare p.dstCore p.ctx (p.aux.headD 0) fun h => { h with asked := false }) := by
  simp only [exec_shgnt, execShgnt, onPacket_next takes, refused, if_true, holds]

end

section
variable (takes : s.takesPacket isle unit 0x24 p)
include takes

theorem splitShare_absent (absent : s.share? p.dstCore p.ctx (p.aux.headD 0) = none) : exec (.splitShare isle unit) s =
    .next ((s.popUnit isle unit p).sendUnits p.dstCore p.ctx (p.aux.headD 0) 0x25 0) := by
  simp only [exec_splitShare, execSplitShare, onPacket_next takes, share?_popUnit, absent]

variable {h : Share} (holds : s.share? p.dstCore p.ctx (p.aux.headD 0) = some h)
include holds

theorem splitShare_owes (owes : h.answer ≠ []) : exec (.splitShare isle unit) s =
    .next ((s.popUnit isle unit p).owe p.dstCore p.ctx (p.aux.headD 0) 0x25 0) := by
  simp only [exec_splitShare, execSplitShare, onPacket_next takes, share?_popUnit, holds,
    List.isEmpty_eq_false_iff.mpr owes, Bool.not_false, if_true]

/-- Half of the share is given up, after a drain where the tracker is past the new bound (notes/assumptions/70). -/
theorem splitShare_halves (free : h.answer = []) :
    let s1 := s.popUnit isle unit p
    let n := p.aux.headD 0
    let beyond := (num32 h.tracker).compare ((s.region n).shareBound (h.units / 2)) == some .greater
    exec (.splitShare isle unit) s =
      .next (((if beyond then s1.drainRegion p.dstCore p.ctx n else s1).updShare p.dstCore p.ctx n fun h' =>
        { h' with units := h.units / 2 }).owe p.dstCore p.ctx n 0x25 (h.units - h.units / 2)) := by
  simp only [exec_splitShare, execSplitShare, onPacket_next takes, share?_popUnit, holds, free, List.isEmpty_nil,
    Bool.not_true, Bool.false_eq_true, if_false]
  rfl

end

section
variable (takes : s.takesPacket isle unit 0x26 p)
include takes

theorem settle_absent (absent : s.share? p.dstCore p.ctx (p.aux.headD 0) = none) : exec (.settle isle unit) s =
    .next ((s.popUnit isle unit p).sendUnits p.dstCore p.ctx (p.aux.headD 0) 0x27 0) := by
  simp only [exec_settle, execSettle, onPacket_next takes, share?_popUnit, absent]

variable {h : Share} (holds : s.share? p.dstCore p.ctx (p.aux.headD 0) = some h)
include holds

theorem settle_owes (owes : h.answer ≠ []) : exec (.settle isle unit) s =
    .next ((s.popUnit isle unit p).owe p.dstCore p.ctx (p.aux.headD 0) 0x27 0) := by
  simp only [exec_settle, execSettle, onPacket_next takes, share?_popUnit, holds, List.isEmpty_eq_false_iff.mpr owes,
    Bool.false_eq_true, if_false]

theorem settle_surrenders (free : h.answer = []) : exec (.settle isle unit) s =
    .next ((s.popUnit isle unit p).surrender p.dstCore p.ctx (p.aux.headD 0) h) := by
  simp only [exec_settle, execSettle, onPacket_next takes, share?_popUnit, holds, free, List.isEmpty_nil, if_true]

end

theorem idleShare_iff {h : Share} :
    s.idleShare h = true ↔ h.units ≠ 0 ∧ h.answer = [] ∧ h.lastAdd + 64000 ≤ s.ptime := by
  simp [State.idleShare, and_assoc]

theorem hazeIdleSurrender_next {core ctx region : Nat} {h : Share} (holds : s.share? core ctx region = some h) :
    exec (.hazeIdleSurrender core ctx region) s =
      .next (if s.idleShare h then s.surrender core ctx region h else s) := by
  simp only [exec_hazeIdleSurrender, execHazeIdleSurrender, holds]

/-! ## Units that come back (R404 to R406, R408) -/

theorem spdone_next (takes : s.takesPacket isle unit 0x25 p) : exec (.spdone isle unit) s =
    .next (if s.holderStands (p.aux.getD 2 0) then
      ((s.popUnit isle unit p).giveBack (p.aux.headD 0) (p.aux.getD 2 0) p.ctx (p.aux.getD 1 0)).splitOver (p.aux.headD 0)
      else s.popUnit isle unit p) := by
  rw [exec_spdone, execSpdone, onPacket_next takes]
  rfl

theorem surr_next (takes : s.takesPacket isle unit 0x27 p) : exec (.surr isle unit) s =
    .next (if s.holderStands (p.aux.getD 2 0) then
      (((s.popUnit isle unit p).giveBack (p.aux.headD 0) (p.aux.getD 2 0) p.ctx (p.aux.getD 1 0)).updRegion (p.aux.headD 0)
        fun r => { r with settling := r.settling.filter (· != (p.aux.getD 2 0, p.ctx)) }).serveLoads (p.aux.headD 0)
      else s.popUnit isle unit p) := by
  rw [exec_surr, execSurr, onPacket_next takes]
  rfl

/-- A split that is over answers the request that waited for it and takes those behind it. -/
theorem splitOver_answers (n : Nat) :
    let u := s.updRegion n fun r => { r with splitting := none, asks := [] }
    ((s.region n).asks = [] → s.splitOver n = u) ∧
    ∀ q t, (s.region n).asks = q :: t → s.splitOver n =
      (if (s.region n).loads.isEmpty then u.grantShare n q else u.refuseShare n q).serveAsks n t := by
  intro u
  refine ⟨fun nobody => ?_, fun q t asks => ?_⟩
  · simp only [State.splitOver, nobody]
    rfl
  · simp only [State.splitOver, asks, region_updRegion_self]
    rfl

end

/-! ## The statement -/

/-- Settles O44: a request at a region home, what a holder does with its share, and the units that come back, one rule for
each case. -/
theorem hazeSharesMove : Obligations.HazeSharesMove := by
  intro isle unit p s s1 n r toCore toHome gone asker refused
  refine ⟨fun takes => ⟨shreq_gone takes, fun stands => ⟨fun k => shreq_waits takes stands, fun whole => ?shreq⟩⟩,
    fun takes => ⟨shgnt_installs takes, shgnt_home takes, fun h none_came holds => shgnt_ends takes none_came holds⟩,
    fun takes => ⟨splitShare_absent takes, fun h holds =>
      ⟨splitShare_owes takes holds, splitShare_halves takes holds⟩⟩,
    fun takes => ⟨settle_absent takes, fun h holds => ⟨settle_owes takes holds, settle_surrenders takes holds⟩⟩,
    fun core ctx region h holds => ⟨fun units free idle => ?idle, fun busy => ?busy⟩,
    fun takes => ⟨fun left => ?left, fun stands => ?spdone⟩,
    fun takes => ⟨fun left => ?leftSurr, fun stands => ?surr⟩⟩
  case shreq =>
    have taken := shreq_taken takes stands whole
    refine ⟨fun loads => ?_, fun quiet enough => ?_, fun quiet few nobody => ?_, fun x quiet few largest =>
      ⟨fun small => ?_, fun splits => ?_⟩⟩
    all_goals refine taken.trans (congrArg _ ?_)
    · exact serveAsks_loads (s := s1) p [] loads
    · exact (serveAsks_grants (s := s1) p [] quiet enough).trans
        (congrArg (State.serveAsks · n []) (grantShare_half (s := s1) p enough))
    · exact serveAsks_nobody (s := s1) p [] quiet few nobody
    · exact serveAsks_small (s := s1) p [] quiet few largest small
    · exact serveAsks_splits (s := s1) p [] quiet few largest splits
  case idle =>
    rw [hazeIdleSurrender_next holds, if_pos (idleShare_iff.mpr ⟨units, free, idle⟩)]
    rfl
  case busy =>
    have counted : ¬ s.idleShare h = true := by
      rw [idleShare_iff]
      rintro ⟨units, free, idle⟩
      obtain none_held | owes | late := busy
      · exact units none_held
      · exact owes free
      · omega
    rw [hazeIdleSurrender_next holds, if_neg counted]
  case left => exact (spdone_next takes).trans (congrArg _ (if_neg (gone_iff.mp left)))
  case spdone =>
    intro s2 s3
    have back := (spdone_next takes).trans (congrArg _ (if_pos (beq_iff_eq.mpr stands)))
    have kept : s2.region n = _ := region_updRegion_self s1 n _
    obtain ⟨nobody, answers⟩ := splitOver_answers (s := s2) n
    rw [kept] at nobody answers
    exact ⟨fun none_asks => back.trans (congrArg _ (nobody none_asks)),
      fun q t asks => back.trans (congrArg _ (answers q t asks))⟩
  case leftSurr => exact (surr_next takes).trans (congrArg _ (if_neg (gone_iff.mp left)))
  case surr => exact (surr_next takes).trans (congrArg _ (if_pos (beq_iff_eq.mpr stands)))

end Sys2Proof.Proofs
end

section
/-!
SUPPORT. Tolerant loads, settles, and the filters and directories of delta lines, and the statement about them.
-/
namespace Sys2Proof.Proofs
open Sys2Proof.Machine Sys2Proof.Laws

/-! ## Tolerant loads (R152, R406) -/

/-- The answer to a tolerant load whose region home is the slice given: the element is read there for its core, and a settle
is acknowledged. -/
def answerLoad (hisle hslice : Nat) (s : State) (p : Packet) : State :=
  if p.aux.getD 1 0 = 256 then s.answerAck p s.ptime
  else s.send { Packet.basic 0x02 vcL 0 hisle hslice (p.aux.getD 2 0) (p.aux.getD 3 0) p.ctx p.tag with
    pa := p.pa / 128 * 128, loc := p.loc / 128 * 128, aux := [0, 1, p.sisle, p.sunit, p.aux.getD 4 0] }

theorem finishLoad_eq (s : State) (n : Nat) (p : Packet) :
    s.finishLoad n p = answerLoad (s.region n).hisle (s.region n).hslice s p := rfl

@[simp] theorem regions_finishLoad (s : State) (n : Nat) (p : Packet) : (s.finishLoad n p).regions = s.regions := by
  unfold State.finishLoad State.answerAck
  dsimp only
  split
  · exact (sameLines_send s _).regions
  · exact (sameLines_send s _).regions

/-- Loads that return one after the other find the region home where the first finds it. -/
theorem foldl_finishLoad (n : Nat) (l : List (Nat × Packet)) (s : State) :
    l.foldl (fun (u : State) e => u.finishLoad n e.2) s =
      l.foldl (fun (u : State) e => answerLoad (s.region n).hisle (s.region n).hslice u e.2) s := by
  induction l generalizing s with
  | nil => rfl
  | cons e t ih =>
    rw [List.foldl_cons, List.foldl_cons, ih, region_of_regions (regions_finishLoad s n e.2), finishLoad_eq]

/-- Whether the outstanding units satisfy the tolerance of a load that waits; a settle waits for the others of its
`hzsettle`. -/
def loadReady (r : Region) (e : Nat × Packet) : Bool := e.1 != 256 && r.within e.1

/-- The loads of a region that are ready return. -/
def loadsReturned (s : State) (n : Nat) : State :=
  let r := s.region n
  (r.loads.filter (loadReady r)).foldl (fun (u : State) e => answerLoad r.hisle r.hslice u e.2)
    (s.updRegion n fun x => { x with loads := r.loads.filter fun e => !loadReady r e })

/-- The loads that are ready have returned, and the settles that are over are acknowledged. -/
def loadsServed (s : State) (n : Nat) : State :=
  ((s.region n).loads.filter fun e => e.1 == 256).foldl (fun (u : State) e => u.finishSettle e.2) (loadsReturned s n)

/-- Where loads still wait and no settle is under way, the largest holder is told to settle (R152). -/
theorem serveLoads_next (s : State) (n : Nat) :
    let u := loadsServed s n
    ((u.region n).loads = [] ∨ (u.region n).settling ≠ [] ∨ (u.region n).largest = none → s.serveLoads n = u) ∧
    ∀ x, (u.region n).loads ≠ [] → (u.region n).settling = [] → (u.region n).largest = some x →
      s.serveLoads n = (u.toHolder n 0x26 x.1 x.2.1 [n]).updRegion n fun r => { r with settling := [(x.1, x.2.1)] } := by
  intro u
  have returned : loadsReturned s n = ((s.region n).loads.filter (loadReady (s.region n))).foldl
      (fun (v : State) e => v.finishLoad n e.2)
      (s.updRegion n fun r => { r with loads := r.loads.filter fun e => !loadReady r e }) := by
    rw [foldl_finishLoad, region_updRegion_self]
    rfl
  have serves : s.serveLoads n = if (u.region n).loads.isEmpty || !(u.region n).settling.isEmpty then u
      else match (u.region n).largest with
        | none => u
        | some x => (u.toHolder n 0x26 x.1 x.2.1 [n]).updRegion n fun r => { r with settling := [(x.1, x.2.1)] } := by
    simp only [u, loadsServed, returned]
    rfl
  refine ⟨fun stays => ?_, fun x waits quiet largest => ?_⟩
  · rw [serves]
    obtain none_waits | settles | nobody := stays
    · simp only [none_waits, List.isEmpty_nil, Bool.true_or, if_true]
    · simp only [List.isEmpty_eq_false_iff.mpr settles, Bool.not_false, Bool.or_true, if_true]
    · simp only [nobody, ite_self]
  · simp only [serves, List.isEmpty_eq_false_iff.mpr waits, quiet, List.isEmpty_nil, Bool.not_true, Bool.or_self,
      Bool.false_eq_true, if_false, largest]

theorem tolerantLoadRequest_next {s : State} {isle unit : Nat} {p : Packet} (takes : s.takesPacket isle unit 0x06 p) :
    exec (.tolerantLoadRequest isle unit) s = .next (((s.popUnit isle unit p).updRegion (p.aux.headD 0) fun r =>
      { r with loads := r.loads ++ [(p.aux.getD 1 0, p)] }).serveLoads (p.aux.headD 0)) := by
  rw [exec_tolerantLoadRequest, execTolerantLoadRequest, onPacket_next takes]

/-! ## Settles (R153) -/

/-- A settle that ends is acknowledged. -/
theorem acknowledged_or_finishLoad (s : State) (n : Nat) (p : Packet) :
    (if p.aux.getD 1 0 = 256 then s.answerAck p s.ptime else s.finishLoad n p) = s.finishLoad n p := by
  unfold State.finishLoad
  split
  · rfl
  · rfl

theorem finishSettle_over {s : State} {q : Packet} (settled : s.allSettled q = true) :
    s.finishSettle q = s.regions.foldl (fun (v : State) e => (e.2.loads.filter (sameSettle q)).foldl
      (fun (v : State) x => v.finishLoad e.1 x.2)
      (v.updRegion e.1 fun r => { r with loads := r.loads.filter fun x => !sameSettle q x })) s := by
  rw [State.finishSettle, if_pos settled]

theorem finishSettle_waits {s : State} {q : Packet} (waits : s.allSettled q = false) : s.finishSettle q = s := by
  simp only [State.finishSettle, waits, Bool.false_eq_true, if_false]

/-! ## Filters and directories (R407) -/

section
variable {s : State} {isle unit : Nat} {p : Packet}

section
variable (takes : s.takesPacket isle unit 0x29 p)
include takes

theorem dopen_gone (gone : (s.chip (isleOf (p.aux.getD 1 0))).state ≠ 0) :
    exec (.dopen isle unit) s = .next (s.popUnit isle unit p) := by
  rw [exec_dopen, execDopen, onPacket_next takes]
  exact congrArg _ (if_pos gone)

variable (stands : (s.chip (isleOf (p.aux.getD 1 0))).state = 0)
include stands

/-- A directory refuses a new tracking region where it is full, and else records the cluster. -/
theorem dopen_directory (forwarded : p.aux.length = 5) :
    let s1 := s.popUnit isle unit p
    let k := dirKey p.disle (p.aux.headD 0)
    exec (.dopen isle unit) s = .next (if look [] s.directory k = [] ∧ 65536 ≤ entriesOf s.directory p.disle then
        s1.answerOpen p 2
      else { s1 with directory := place s.directory k ((clusterOf (p.aux.getD 1 0) :: look [] s.directory k).dedup)
        }.answerOpen p 0) := by
  rw [exec_dopen, execDopen, onPacket_next takes]
  exact congrArg _ ((if_neg (not_not.mpr stands)).trans (if_pos forwarded))

/-- A filter refuses a new line where it is full, and else records the core and tells the directory. -/
theorem dopen_filter (direct : p.aux.length ≠ 5) :
    let s1 := s.popUnit isle unit p
    let core := p.aux.getD 1 0
    let k := filterKey (clusterOf core) (p.aux.headD 0)
    exec (.dopen isle unit) s = .next (if look [] s.filters k = [] ∧ 16384 ≤ entriesOf s.filters (clusterOf core) then
        s1.answerOpen p 1
      else { s1 with filters := place s.filters k ((core :: look [] s.filters k).dedup) }.send
        { p with sisle := p.disle, sunit := unitFilter, disle := p.aux.getD 2 0, dunit := unitFilter
                 aux := p.aux ++ [1] }) := by
  rw [exec_dopen, execDopen, onPacket_next takes]
  exact congrArg _ ((if_neg (not_not.mpr stands)).trans (if_neg direct))

end

section
variable (takes : s.takesPacket isle unit 0x2A p)
include takes

theorem dclose_directory (forwarded : p.aux.length = 5) :
    let k := dirKey p.disle (p.aux.headD 0)
    exec (.dclose isle unit) s = .next { s.popUnit isle unit p with
      directory := put [] s.directory k ((look [] s.directory k).filter (· != clusterOf (p.aux.getD 1 0))) } := by
  rw [exec_dclose, execDclose, onPacket_next takes]
  exact congrArg _ (if_pos forwarded)

theorem dclose_filter (direct : p.aux.length ≠ 5) :
    let core := p.aux.getD 1 0
    let k := filterKey (clusterOf core) (p.aux.headD 0)
    let u := { s.popUnit isle unit p with filters := put [] s.filters k ((look [] s.filters k).filter (· != core)) }
    exec (.dclose isle unit) s = .next (if u.filterHolds (clusterOf core) (p.aux.headD 0) then u else u.send
      { p with sisle := p.disle, sunit := unitFilter, disle := p.aux.getD 2 0, dunit := unitFilter
               aux := p.aux ++ [1] }) := by
  rw [exec_dclose, execDclose, onPacket_next takes]
  exact congrArg _ (if_neg direct)

end

end

/-! ## The statement -/

/-- Settles O45: what waits at a region home is served as the outstanding units allow, and a notice at a filter or directory
records, refuses or undoes. -/
theorem tolerantLoadsAndFilters : Obligations.TolerantLoadsAndFilters := by
  intro isle unit p s s1 n core r all answer onward read ready returned settled fkey dkey
  refine ⟨fun takes => ?loads, fun q u => ⟨fun ended => ?settle, finishSettle_waits⟩,
    fun takes stands => ⟨fun forwarded => ?directory, fun direct => ?filter⟩, dopen_gone,
    fun takes => ⟨dclose_directory takes, dclose_filter takes⟩⟩
  case loads =>
    intro u
    have comes := tolerantLoadRequest_next takes
    have waits : (s1.updRegion n fun r => { r with loads := all }).region n = { r with loads := all } :=
      region_updRegion_self s1 n _
    have served : loadsServed (s1.updRegion n fun r => { r with loads := all }) n = u := by
      simp only [loadsServed, loadsReturned, waits]
      rfl
    obtain ⟨stays, tells⟩ := serveLoads_next (s1.updRegion n fun r => { r with loads := all }) n
    rw [served] at stays tells
    exact ⟨fun h => comes.trans (congrArg _ (stays h)),
      fun x loads quiet largest => comes.trans (congrArg _ (tells x loads quiet largest))⟩
  case settle =>
    simp only [finishSettle_over ended, acknowledged_or_finishLoad]
  case directory =>
    have comes := dopen_directory takes stands forwarded
    exact ⟨fun new full => comes.trans (congrArg _ (if_pos ⟨new, full⟩)),
      fun room => comes.trans (congrArg _ (if_neg (not_and_or.mpr (room.imp_right Nat.not_le.mpr))))⟩
  case filter =>
    have comes := dopen_filter takes stands direct
    exact ⟨fun new full => comes.trans (congrArg _ (if_pos ⟨new, full⟩)),
      fun room => comes.trans (congrArg _ (if_neg (not_and_or.mpr (room.imp_right Nat.not_le.mpr))))⟩

end Sys2Proof.Proofs
end

section
/-!
SUPPORT. Flits and requests at the Vreles ports, the requests of the host, and the statement about them.
-/
namespace Sys2Proof.Proofs
open Sys2Proof.Machine Sys2Proof.Laws

/-! ## Flits (R397, R472) -/

section
variable {s : State} {port seq vc : Nat} {crcOk : Bool} {msg : PeerMsg} (up : (s.port port).up = true)
  (trained : (s.port port).retraining = none)
include up trained

theorem vrelesFlit_next : exec (.vrelesFlit port seq crcOk vc msg) s =
    .next (if crcOk then (if seq = (s.port port).expect then s.takeFlits port vc msg else s)
      else if (s.port port).got + seqFrom (s.port port).expect seq < peerFlits msg then s.refuseFlit port seq else s) := by
  rw [exec_vrelesFlit, execVrelesFlit]
  exact congrArg _ (if_neg (by simp [up, trained]))

theorem vrelesFlit_delivers (expected : seq = (s.port port).expect) (ok : crcOk = true) :
    exec (.vrelesFlit port seq crcOk vc msg) s = .next (s.takeFlits port vc msg) := by
  rw [vrelesFlit_next up trained, if_pos ok, if_pos expected]

theorem vrelesFlit_outOfSequence (other : seq ≠ (s.port port).expect) (ok : crcOk = true) :
    exec (.vrelesFlit port seq crcOk vc msg) s = .next s := by
  rw [vrelesFlit_next up trained, if_pos ok, if_neg other]

theorem vrelesFlit_refused (error : crcOk = false)
    (own : (s.port port).got + seqFrom (s.port port).expect seq < peerFlits msg) :
    exec (.vrelesFlit port seq crcOk vc msg) s = .next (s.refuseFlit port seq) := by
  rw [vrelesFlit_next up trained, if_neg (ne_true_of_eq_false error), if_pos own]

theorem vrelesFlit_beyond (error : crcOk = false)
    (beyond : peerFlits msg ≤ (s.port port).got + seqFrom (s.port port).expect seq) :
    exec (.vrelesFlit port seq crcOk vc msg) s = .next s := by
  rw [vrelesFlit_next up trained, if_neg (ne_true_of_eq_false error), if_neg (Nat.not_lt.mpr beyond)]

end

/-! ## Requests of peers (R374) -/

section
variable {s u : State} {port c : Nat} {m : PeerMsg} (waits : (s.port port).request = some (c, m))
include waits

theorem peerRequest_asks (asks : s.peerDo port m = (u, false)) : exec (.peerRequest port) s = .next u := by
  simp only [exec_peerRequest, execPeerRequest, waits, asks]

theorem peerRequest_over (answered : s.peerDo port m = (u, true)) : exec (.peerRequest port) s =
    .next ((u.dropTicket (.peer port)).updPort port fun p =>
      { p with bufs := put [] p.bufs c ((look [] p.bufs c).drop 1) }) := by
  simp only [exec_peerRequest, execPeerRequest, waits, answered]

end

section
variable {s u : State} {port o n tag : Nat} {l : List Nat}

theorem peerDo_read_refused (bad : s.peerOk (s.mgmt.pwin + o % 2 ^ 39) n = false) :
    s.peerDo port (.read o n tag) = (s.sendPeer port vcR (.readReply tag (List.replicate n 0) true), true) := by
  simp only [State.peerDo, bad, Bool.false_eq_true, if_false]

theorem peerDo_write_refused (bad : s.peerOk (s.mgmt.pwin + o % 2 ^ 39) l.length = false) :
    s.peerDo port (.write o l tag) = (s.logEvent.sendPeer port vcR (.writeAck tag), true) := by
  simp only [State.peerDo, bad, Bool.false_eq_true, if_false]

section
variable (ok : s.peerOk (s.mgmt.pwin + o % 2 ^ 39) n = true)
include ok

theorem peerDo_read_asks
    (asks : s.readLines (.peer port) unitVreles (s.mgmt.pwin + o % 2 ^ 39) n = (u, none)) :
    s.peerDo port (.read o n tag) = (u, false) := by
  simp only [State.peerDo, ok, if_true, asks]

theorem peerDo_read_come {bad : Bool}
    (come : s.readLines (.peer port) unitVreles (s.mgmt.pwin + o % 2 ^ 39) n = (u, some (l, bad))) :
    s.peerDo port (.read o n tag) = (u.sendPeer port vcR (.readReply tag l bad), true) := by
  simp only [State.peerDo, ok, if_true, come]

end

section
variable (ok : s.peerOk (s.mgmt.pwin + o % 2 ^ 39) l.length = true)
include ok

theorem peerDo_write_asks
    (asks : s.writeLines (.peer port) unitVreles (s.mgmt.pwin + o % 2 ^ 39) l = (u, false)) :
    s.peerDo port (.write o l tag) = (u, false) := by
  simp only [State.peerDo, ok, if_true, asks]

theorem peerDo_write_come
    (come : s.writeLines (.peer port) unitVreles (s.mgmt.pwin + o % 2 ^ 39) l = (u, true)) :
    s.peerDo port (.write o l tag) = (u.sendPeer port vcR (.writeAck tag), true) := by
  simp only [State.peerDo, ok, if_true, come]

end

end

/-! ## Requests of the host (R143, R470, R471) -/

section
variable {s u : State} {r : HostReq} (first : s.mgmt.hostQ = [])
include first

theorem hostTakes_over (answered : s.hostDo r = (u, true)) :
    s.hostTakes r = (u.dropTicket .host).updMgmt fun m => { m with hostQ := [] } := by
  simp only [State.hostTakes, first, List.nil_append, State.serveHost, answered]

theorem hostTakes_waits (asks : s.hostDo r = (u, false)) :
    s.hostTakes r = u.updMgmt fun m => { m with hostQ := [r] } := by
  simp only [State.hostTakes, first, List.nil_append, State.serveHost, asks]

end

section
variable {s u : State} {pa n : Nat} {l : List Nat}

theorem hostDo_read_refused (bad : s.windowOk pa n = false) :
    s.hostDo (.read pa n) = ((s.emit .unsupported).logEvent, true) := by
  simp only [State.hostDo, bad, Bool.false_eq_true, if_false]

theorem hostDo_write_refused (bad : s.windowOk pa l.length = false) : s.hostDo (.write pa l) = (s.logEvent, true) := by
  simp only [State.hostDo, bad, Bool.false_eq_true, if_false]

theorem hostDo_write (ok : s.windowOk pa l.length = true) :
    s.hostDo (.write pa l) = s.writeLines .host unitHost pa l := by
  simp only [State.hostDo, ok, if_true]

theorem hostDo_reg {off v : Nat} (runs : s.mgmt.recovery = false) :
    s.hostDo (.reg off n v) = (s.writeBytes true (bytesAt off (leBytes n v)), true) := by
  simp only [State.hostDo, runs, Bool.false_eq_true, if_false]

theorem hostDo_reg_recovery {off v : Nat} (recovers : s.mgmt.recovery = true) :
    s.hostDo (.reg off n v) = (s.writeMailbox (bytesAt off (leBytes n v)), true) := by
  simp only [State.hostDo, recovers, if_true]

variable (ok : s.windowOk pa n = true)
include ok

theorem hostDo_read_asks (asks : s.readLines .host unitHost pa n = (u, none)) : s.hostDo (.read pa n) = (u, false) := by
  simp only [State.hostDo, ok, if_true, asks]

theorem hostDo_read_come {bad : Bool} (come : s.readLines .host unitHost pa n = (u, some (l, bad))) :
    s.hostDo (.read pa n) = (u.emit (.readData l), true) := by
  simp only [State.hostDo, ok, if_true, come]

end

section
variable {s : State} {off len : Nat} {bytes : List Nat}

/-- A read beyond the bytes of BAR2 is one of a register through BAR0 (notes/assumptions/2). -/
theorem hostMemoryRead_register (bar0 : 2 ^ 36 ≤ off) (up : s.hostUp = true ∨ s.mgmt.recovery = true) :
    exec (.hostMemoryRead off len) s = .next (s.hostTakes (.regRead (off - 2 ^ 36) len)) := by
  rw [exec_hostMemoryRead, execHostMemoryRead, if_pos bar0, if_pos (Bool.or_eq_true_iff.mpr up)]

theorem hostMemoryRead_window (bar2 : off < 2 ^ 36) (runs : s.mgmt.recovery = false) (up : s.hostUp = true) :
    exec (.hostMemoryRead off len) s = .next (s.hostTakes (.read (s.mgmt.hwin + off % 2 ^ 36) len)) := by
  rw [exec_hostMemoryRead, execHostMemoryRead, if_neg (Nat.not_le.mpr bar2), if_neg (ne_true_of_eq_false runs), if_pos up]

theorem hostMemoryRead_recovery (bar2 : off < 2 ^ 36) (recovers : s.mgmt.recovery = true) :
    exec (.hostMemoryRead off len) s = .next (s.emit .unsupported) := by
  rw [exec_hostMemoryRead, execHostMemoryRead, if_neg (Nat.not_le.mpr bar2), if_pos recovers]

theorem hostMemoryWrite_window (runs : s.mgmt.recovery = false) (up : s.hostUp = true) :
    exec (.hostMemoryWrite off bytes) s = .next (s.hostTakes (.write (s.mgmt.hwin + off % 2 ^ 36) bytes)) := by
  rw [exec_hostMemoryWrite, execHostMemoryWrite, if_neg (ne_true_of_eq_false runs), if_pos up]

theorem hostMemoryWrite_recovery (recovers : s.mgmt.recovery = true) :
    exec (.hostMemoryWrite off bytes) s = .next s := by
  rw [exec_hostMemoryWrite, execHostMemoryWrite, if_pos recovers]

end

/-! ## The statement -/

/-- Settles O53: a flit is delivered, refused or discarded, a request of a peer or of the host waits for its lines or is
over, and every register write is a request of the host at its place in the map. -/
theorem portsAndHostActs : Obligations.PortsAndHostActs := by
  intro port seq vc off len val q i crcOk bytes msg s p served reg pa
  refine ⟨fun up trained => ?flits, fun c m waits => ?peers, hostMemoryRead_register, hostMemoryRead_window,
    hostMemoryWrite_window, fun recovers => ⟨fun bar2 => hostMemoryRead_recovery bar2 recovers,
      hostMemoryWrite_recovery recovers⟩, fun first => ?reads, fun first => ?writes,
    fun first => hostTakes_over first rfl, fun first => ?registers, rfl, fun bar => ?wake, rfl, rfl, rfl, rfl, rfl⟩
  case flits =>
    intro last s1 k n bad
    refine ⟨fun expected ok => ?_, vrelesFlit_refused up trained, vrelesFlit_beyond up trained,
      vrelesFlit_outOfSequence up trained⟩
    have come := vrelesFlit_delivers (msg := msg) (vc := vc) up trained expected ok
    refine ⟨fun o n tag is => ?_, fun o l tag is => ?_, fun tag l b is => ?_, fun x m is => ?_, fun x y id t c is => ?_,
      fun tag is => ?_, fun k is => ?_, fun tag is => ?_, fun is => ?_⟩
    all_goals
      subst is
      exact come
  case peers =>
    intro done
    constructor
    · rintro o n tag rfl
      exact ⟨fun bad => peerRequest_over waits (peerDo_read_refused bad), fun ok =>
        ⟨fun u asks => peerRequest_asks waits (peerDo_read_asks ok asks),
          fun u l bad come => peerRequest_over waits (peerDo_read_come ok come)⟩⟩
    · rintro o l tag rfl
      exact ⟨fun bad => peerRequest_over waits (peerDo_write_refused bad), fun ok =>
        ⟨fun u asks => peerRequest_asks waits (peerDo_write_asks ok asks),
          fun u come => peerRequest_over waits (peerDo_write_come ok come)⟩⟩
  case reads =>
    exact ⟨fun ok => ⟨fun u asks => hostTakes_waits first (hostDo_read_asks ok asks),
      fun u l bad come => hostTakes_over first (hostDo_read_come ok come)⟩,
      fun bad => hostTakes_over first (hostDo_read_refused bad)⟩
  case writes =>
    exact ⟨fun ok => ⟨fun u asks => hostTakes_waits first ((hostDo_write ok).trans asks),
      fun u come => hostTakes_over first ((hostDo_write ok).trans come)⟩,
      fun bad => hostTakes_over first (hostDo_write_refused bad)⟩
  case registers =>
    exact ⟨fun runs => hostTakes_over first (hostDo_reg runs),
      fun recovers => hostTakes_over first (hostDo_reg_recovery recovers)⟩
  case wake =>
    rw [exec_wake, execWake, if_neg (Nat.ne_of_lt bar)]
    rfl

end Sys2Proof.Proofs
end

section
/-!
SUPPORT. What it means that the words of an instruction read back, and the rules by which the fields of a word give back
the sources, access codes and offsets that they were written from.
-/
namespace Sys2Proof.Proofs

/-! ## Reading back -/

/-- The words of a code fit, ask for an extension word where the code has one, and are those of `i` to the rows of the
class, whatever follows where there is none. -/
structure Reads (c : Code) (i : Instr) : Prop where
  word : c.w < 2 ^ 32
  ext : c.e.getD 0 < 2 ^ 32
  asks : needsExt c.cls c.w = c.e.isSome
  row : ∀ x, decodeRow c.cls c.w (c.e.getD x) = some i

/-- The code of an instruction, where it has one, reads back if the instruction is well-formed. -/
def ReadsBack (i : Instr) : Prop := i.WellFormed → ∀ c, encode i = some c → Reads c i

/-- The operand checks pass for a well-formed instruction. -/
theorem decodeInstr_of_row {cls w e : Nat} {i : Instr} (row : decodeRow cls w e = some i) (wf : i.WellFormed) :
    decodeInstr cls w e = .ok i := by
  simp only [decodeInstr, row, show i.ill = none from wf]

theorem readsBack_word {i : Instr} {cls v : Nat} (code : encode i = some ⟨cls, v, none⟩)
    (reads : i.WellFormed → v < 2 ^ 32 ∧ needsExt cls v = false ∧ ∀ x, decodeRow cls v x = some i) : ReadsBack i := by
  intro wf c is
  obtain rfl : Code.mk cls v none = c := Option.some.inj (code.symm.trans is)
  obtain ⟨word, asks, row⟩ := reads wf
  exact ⟨word, by simp, asks, row⟩

theorem readsBack_words {i : Instr} {cls v y : Nat} (code : encode i = some ⟨cls, v, some y⟩)
    (reads : i.WellFormed → v < 2 ^ 32 ∧ y < 2 ^ 32 ∧ needsExt cls v = true ∧ decodeRow cls v y = some i) :
    ReadsBack i := by
  intro wf c is
  obtain rfl : Code.mk cls v (some y) = c := Option.some.inj (code.symm.trans is)
  obtain ⟨word, ext, asks, row⟩ := reads wf
  exact ⟨word, ext, asks, fun _ => row⟩

/-! ## What an operand check says of the codes -/

theorem firstIll_cons {b : Bool} {r : Ill} {l : List (Bool × Ill)} :
    firstIll ((b, r) :: l) = none ↔ b = true ∧ firstIll l = none := by
  cases b <;> simp [firstIll]

/-- A vector or scalar register or a 6-bit immediate, with its 2-bit code (R195). -/
theorem okB_source {b : Src} : b.okB 64 64 = true ↔ b.sel < 3 ∧ b.num + 32 * b.isScalar < 64 := by
  cases b <;> simp [Src.okB, Src.sel, Src.num, Src.isScalar]
  omega

/-- A vector or scalar register or a 32-bit immediate in the extension word (R196). -/
theorem okB_extension {b : Src} : b.okB 64 4294967296 = true ↔
    b.sel < 3 ∧ b.num + 4294967264 * b.isScalar < 4294967296 ∧ srcExtOf b.sel b.num = some b := by
  cases b <;> simp [Src.okB, Src.sel, Src.num, Src.isScalar, srcExtOf]
  all_goals omega

/-- A scalar register or a 32-bit immediate in the extension word (R197). -/
theorem okB_uniformExtension {b : Src} : b.okB 0 4294967296 = true ↔
    b.selUniform < 3 ∧ b.num + 4294967264 * b.isScalar < 4294967296 ∧ srcUniformOf b.selUniform b.num = some b := by
  cases b <;> simp only [Src.okB, Src.selUniform, Src.num, Src.isScalar] <;> simp [srcUniformOf]
  omega

/-- A vector or scalar register, the bit naming the scalar file (R197). -/
theorem okB_register {b : Src} : b.okB 64 0 = true ↔
    b.isScalar < 2 ∧ b.num + 32 * b.isScalar < 64 ∧ (if b.isScalar = 1 then Src.s b.num else .v b.num) = b := by
  cases b <;> simp [Src.okB, Src.num, Src.isScalar]
  omega

/-- A scalar register or a 6-bit immediate, the bit naming the immediate (R197). -/
theorem okB_uniform {b : Src} : b.okB 0 64 = true ↔
    b.isImm < 2 ∧ b.num < 32 + 32 * b.isImm ∧ (if b.isImm = 1 then Src.imm b.num else .s b.num) = b := by
  cases b <;> simp [Src.okB, Src.num, Src.isImm]

/-- A scalar register or a 5-bit immediate, the bit naming the register (R197). -/
theorem okB_lane {b : Src} : b.okB 0 32 = true ↔
    b.isScalar < 2 ∧ b.num < 32 ∧ (if b.isScalar = 1 then Src.s b.num else .imm b.num) = b := by
  cases b <;> simp [Src.okB, Src.num, Src.isScalar]

/-- A vector register or a 5-bit immediate, the bit naming the immediate (R197). -/
theorem okVI_source {b : Src} : b.okVI = true ↔
    b.isImm < 2 ∧ b.num + 32 * b.isImm < 64 ∧ (if b.isImm = 1 then Src.imm b.num else .v b.num) = b := by
  cases b <;> simp [Src.okVI, Src.num, Src.isImm]
  omega

/-- An even number is read back from its half. -/
theorem isEven_half {n : Nat} : isEven n = true ↔ n / 2 * 2 = n := by
  simp only [isEven, beq_iff_eq]
  omega

/-- A long offset is read back from its 32 bits (R171, R173). -/
theorem okOffset {x : Int} : (decide (-2147483648 ≤ x) && decide (x < 2147483648)) = true ↔
    unsigned32 x < 2 ^ 32 ∧ signed32 (unsigned32 x) = x := by
  simp only [Bool.and_eq_true, decide_eq_true_eq, unsigned32, signed32]
  split_ifs <;> omega

/-- A short offset is read back from its 16 bits, which are not those of the long form (R173). -/
theorem okShortOffset {x : Int} : (decide (-32767 ≤ x) && decide (x ≤ 32767)) = true ↔
    unsigned16 x < 65536 ∧ unsigned16 x ≠ 32768 ∧ signed16 (unsigned16 x) = x := by
  simp only [Bool.and_eq_true, decide_eq_true_eq, unsigned16, signed16]
  split_ifs <;> omega

/-- An access code with an extension word is read back from its five bits (R271). -/
theorem accOf_code {m : Acc} (width : m.width < 8) (scope : m.okScope = true) :
    8 ≤ m.code ∧ m.code < 32 ∧ accOf m.code = m := by
  cases m with
  | weak w =>
    have small : 8 + w < 16 := by simp only [Acc.width] at width; omega
    exact ⟨Nat.le_add_right 8 w, Nat.lt_trans small (by decide), by simp [Acc.code, accOf, small]; omega⟩
  | ordered sync c =>
    have small : c < 6 := by simpa [Acc.okScope] using scope
    have wide (b : Nat) : ¬ 16 + b + c < 16 := by omega
    cases sync <;> simp only [Acc.code, bit, accOf, if_neg (wide _)] <;> simp <;> omega

theorem bit_lt (b : Bool) : bit b < 2 := by cases b <;> decide

@[simp] theorem bit_eq_one (b : Bool) : (bit b == 1) = b := by cases b <;> rfl

@[simp] theorem srcOf_sel (b : Src) : srcOf b.sel b.num = some b := by cases b <;> rfl

/-- What the operand checks say, as one set of equations for `simp`: to arithmetic over the operands. -/
theorem operandChecks : type_of% @firstIll_cons ∧ type_of% @decide_eq_true_eq ∧ type_of% Bool.and_eq_true ∧
    type_of% Bool.or_eq_true ∧ type_of% (@beq_iff_eq Nat _ _) ∧ type_of% @okB_extension ∧
    type_of% @okB_uniformExtension ∧ type_of% @okB_register ∧ type_of% @okB_uniform ∧ type_of% @okB_lane ∧
    type_of% @okVI_source ∧ type_of% atomOpOk.eq_def ∧ type_of% redmOpOk.eq_def ∧ type_of% swrpOk.eq_def ∧
    type_of% unsigned32.eq_def ∧ type_of% (@List.forall_mem_cons Bool) :=
  ⟨firstIll_cons, decide_eq_true_eq, Bool.and_eq_true, Bool.or_eq_true, beq_iff_eq, okB_extension,
    okB_uniformExtension, okB_register, okB_uniform, okB_lane, okVI_source, atomOpOk.eq_def, redmOpOk.eq_def,
    swrpOk.eq_def, unsigned32.eq_def, List.forall_mem_cons⟩

/-- A row whose condition holds gives what stands first. -/
theorem ite_pos_eq {c : Bool} {o o' : Option Instr} {i : Instr} (hc : c = true) (ho : o = some i) :
    (if c = true then o else o') = some i :=
  (if_pos hc).trans ho

/-- A row whose condition does not hold gives what stands last. -/
theorem ite_neg_eq {c : Bool} {o o' : Option Instr} {i : Instr} (hc : c = false) (ho : o' = some i) :
    (if c = true then o else o') = some i :=
  (if_neg (ne_true_of_eq_false hc)).trans ho

/-! ## The classes

A lemma for each class, without and with an extension word. `F` says what the fields of the words hold, as the row of
the opcode reads them; it follows by arithmetic from the words, the operand checks and the range of the flags. -/

/-- The opcode field of a word that fits. -/
theorem fld_opcode {v opc : Nat} (op : v / 1048576 = opc) (small : opc < 128) : v < 2 ^ 32 ∧ fld v 20 128 = opc := by
  simp only [fld]
  omega

/-- The opcode belongs to the compute map, and its format alone says whether an extension word follows (R167). -/
def fixedExt (opc : Nat) (ext : Bool) : Bool :=
  decide (opc < 128) && (extCompute.contains opc == ext) && !(decide (53 ≤ opc) && decide (opc ≤ 57) || opc == 62)

theorem opcode_lt_of_fixedExt {opc : Nat} {ext : Bool} (fixed : fixedExt opc ext = true) : opc < 128 := by
  simp_all [fixedExt]

theorem needsExt_compute {opc w : Nat} {ext : Bool} (fixed : fixedExt opc ext = true) (op : fld w 20 128 = opc) :
    needsExt 0 w = ext := by
  simp only [fixedExt, Bool.and_eq_true, beq_iff_eq, Bool.not_eq_true'] at fixed
  obtain ⟨⟨-, always⟩, branch⟩ := fixed
  simp only [needsExt, op, always, branch, beq_self_eq_true, if_true, Bool.false_and, Bool.or_false]

theorem decodeRow_compute {opc w e : Nat} (op : fld w 20 128 = opc) : decodeRow 0 w e = decodeCompute opc w e := by
  subst op
  rfl

theorem readsBack_compute {i : Instr} {l : List (Bool × Ill)} {v : Nat}
    (opc : Nat) (fixed : fixedExt opc false = true) (flags : List Bool)
    (checks : i.ill = firstIll l) (code : encode i = some ⟨0, v, none⟩) (F : Nat → Prop)
    (fields : ∀ w, w = v → firstIll l = none → (∀ b ∈ flags, bit b < 2) → w / 1048576 = opc ∧ F w)
    (row : ∀ {w}, F w → firstIll l = none → ∀ x, decodeCompute opc w x = some i) : ReadsBack i := by
  refine readsBack_word code fun wf => ?_
  have ok : firstIll l = none := checks.symm.trans wf
  obtain ⟨op, f⟩ := fields v rfl ok fun b _ => bit_lt b
  obtain ⟨word, field⟩ := fld_opcode op (opcode_lt_of_fixedExt fixed)
  exact ⟨word, needsExt_compute fixed field, fun x => (decodeRow_compute field).trans (row f ok x)⟩

theorem readsBack_computeExt {i : Instr} {l : List (Bool × Ill)} {v y : Nat}
    (opc : Nat) (fixed : fixedExt opc true = true) (flags : List Bool)
    (checks : i.ill = firstIll l) (code : encode i = some ⟨0, v, some y⟩) (F : Nat → Nat → Prop)
    (fields : ∀ w e, w = v → e = y → firstIll l = none → (∀ b ∈ flags, bit b < 2) →
        (w / 1048576 = opc ∧ e < 2 ^ 32) ∧ F w e)
    (row : ∀ {w e}, F w e → firstIll l = none → decodeCompute opc w e = some i) : ReadsBack i := by
  refine readsBack_words code fun wf => ?_
  have ok : firstIll l = none := checks.symm.trans wf
  obtain ⟨⟨op, ext⟩, f⟩ := fields v y rfl rfl ok fun b _ => bit_lt b
  obtain ⟨word, field⟩ := fld_opcode op (opcode_lt_of_fixedExt fixed)
  exact ⟨word, ext, needsExt_compute fixed field, (decodeRow_compute field).trans (row f ok)⟩

/-- In the memory map the word itself says whether an extension word follows: by its E bit, or by an ordered form. -/
theorem readsBack_memory {i : Instr} {l : List (Bool × Ill)} {v : Nat} (opc : Nat) (flags : List Bool)
    (checks : i.ill = firstIll l) (code : encode i = some ⟨1, v, none⟩) (F : Nat → Prop)
    (fields : ∀ w, w = v → firstIll l = none → (∀ b ∈ flags, bit b < 2) → opc < 128 ∧ w / 1048576 = opc ∧ F w)
    (row : ∀ {w}, fld w 20 128 = opc → F w → firstIll l = none →
      needsExt 1 w = false ∧ ∀ x, decodeMemory opc w x = some i) : ReadsBack i := by
  refine readsBack_word code fun wf => ?_
  have ok : firstIll l = none := checks.symm.trans wf
  obtain ⟨small, op, f⟩ := fields v rfl ok fun b _ => bit_lt b
  obtain ⟨word, rfl⟩ := fld_opcode op small
  exact ⟨word, row rfl f ok⟩

theorem readsBack_memoryExt {i : Instr} {l : List (Bool × Ill)} {v y : Nat} (opc : Nat) (flags : List Bool)
    (checks : i.ill = firstIll l) (code : encode i = some ⟨1, v, some y⟩) (F : Nat → Nat → Prop)
    (fields : ∀ w e, w = v → e = y → firstIll l = none → (∀ b ∈ flags, bit b < 2) →
        (opc < 128 ∧ w / 1048576 = opc ∧ e < 2 ^ 32) ∧ F w e)
    (row : ∀ {w e}, fld w 20 128 = opc → F w e → firstIll l = none →
      needsExt 1 w = true ∧ decodeMemory opc w e = some i) : ReadsBack i := by
  refine readsBack_words code fun wf => ?_
  have ok : firstIll l = none := checks.symm.trans wf
  obtain ⟨⟨small, op, ext⟩, f⟩ := fields v y rfl rfl ok fun b _ => bit_lt b
  obtain ⟨word, rfl⟩ := fld_opcode op small
  exact ⟨word, ext, row rfl f ok⟩

/-- The opcode belongs to the engine map, where it alone says whether an extension word follows (R299). -/
def engineExt (opc : Nat) (ext : Bool) : Bool := decide (opc < 128) && (extEngine.contains opc == ext)

theorem readsBack_engine {i : Instr} {l : List (Bool × Ill)} {v : Nat}
    (opc : Nat) (fixed : engineExt opc false = true) (flags : List Bool)
    (checks : i.ill = firstIll l) (code : encode i = some ⟨2, v, none⟩) (F : Nat → Prop)
    (fields : ∀ w, w = v → firstIll l = none → (∀ b ∈ flags, bit b < 2) → w / 1048576 = opc ∧ F w)
    (row : ∀ {w}, F w → firstIll l = none → ∀ x, decodeEngine opc w x = some i) : ReadsBack i := by
  refine readsBack_word code fun wf => ?_
  have ok : firstIll l = none := checks.symm.trans wf
  obtain ⟨op, f⟩ := fields v rfl ok fun b _ => bit_lt b
  simp only [engineExt, Bool.and_eq_true, decide_eq_true_eq, beq_iff_eq] at fixed
  obtain ⟨word, rfl⟩ := fld_opcode op fixed.1
  exact ⟨word, fixed.2, row f ok⟩

theorem readsBack_engineExt {i : Instr} {l : List (Bool × Ill)} {v y : Nat}
    (opc : Nat) (fixed : engineExt opc true = true) (flags : List Bool)
    (checks : i.ill = firstIll l) (code : encode i = some ⟨2, v, some y⟩) (F : Nat → Nat → Prop)
    (fields : ∀ w e, w = v → e = y → firstIll l = none → (∀ b ∈ flags, bit b < 2) →
        (w / 1048576 = opc ∧ e < 2 ^ 32) ∧ F w e)
    (row : ∀ {w e}, F w e → firstIll l = none → decodeEngine opc w e = some i) : ReadsBack i := by
  refine readsBack_words code fun wf => ?_
  have ok : firstIll l = none := checks.symm.trans wf
  obtain ⟨⟨op, ext⟩, f⟩ := fields v y rfl rfl ok fun b _ => bit_lt b
  simp only [engineExt, Bool.and_eq_true, decide_eq_true_eq, beq_iff_eq] at fixed
  obtain ⟨word, rfl⟩ := fld_opcode op fixed.1
  exact ⟨word, ext, fixed.2, row f ok⟩

theorem readsBack_system {i : Instr} {l : List (Bool × Ill)} {v : Nat} (opc : Nat) (flags : List Bool)
    (checks : i.ill = firstIll l) (code : encode i = some ⟨3, v, none⟩) (F : Nat → Prop)
    (fields : ∀ w, w = v → firstIll l = none → (∀ b ∈ flags, bit b < 2) → opc < 128 ∧ w / 1048576 = opc ∧ F w)
    (row : ∀ {w}, F w → firstIll l = none → ∀ x, decodeSystem opc w x = some i) : ReadsBack i := by
  refine readsBack_word code fun wf => ?_
  have ok : firstIll l = none := checks.symm.trans wf
  obtain ⟨small, op, f⟩ := fields v rfl ok fun b _ => bit_lt b
  obtain ⟨word, rfl⟩ := fld_opcode op small
  exact ⟨word, rfl, row f ok⟩

end Sys2Proof.Proofs
end

section
/-!
SUPPORT. The rows of the compute map read back.
-/
namespace Sys2Proof.Proofs

/-! ## Rows that several opcodes of the compute map share -/

section
variable {opc : Nat} {l : List (Bool × Ill)} {d a : Nat}

theorem readsBack_vectorSource {mk : Nat → Nat → Src → Instr} {b : Src} (checks : (mk d a b).ill = firstIll l)
    (code : encode (mk d a b) = some ⟨0, opc * 1048576 + d * 16384 + a * 256 + b.sel + b.num * 4, none⟩)
    (row : ∀ w x, decodeCompute opc w x =
      (srcOf (fld w 0 4) (fld w 2 64)).map fun b => mk (fld w 14 64) (fld w 8 64) b)
    (bounds : firstIll l = none → d < 64 ∧ a < 64 ∧ b.okB 64 64 = true := by simp_all [firstIll_cons])
    (fixed : fixedExt opc false = true := by decide) : ReadsBack (mk d a b) :=
  readsBack_compute opc fixed [] checks code
    (fun w => fld w 14 64 = d ∧ fld w 8 64 = a ∧ fld w 0 4 = b.sel ∧ fld w 2 64 = b.num)
    (fun w is ok _ => by have := bounds ok; simp only [okB_source, fld] at this ⊢; omega)
    (fun h _ _ => by simp [row, h])

theorem readsBack_predicateAndSource {mk : Nat → Nat → Nat → Src → Instr} {c : Nat} {b : Src}
    (checks : (mk d a c b).ill = firstIll l)
    (code : encode (mk d a c b) = some ⟨0, opc * 1048576 + d * 16384 + a * 256 + c + b.sel * 16, some b.num⟩)
    (row : ∀ w e, decodeCompute opc w e = if fld w 6 4 == 0 then
      (srcExtOf (fld w 4 4) e).map fun b => mk (fld w 14 64) (fld w 8 64) (fld w 0 16) b else none)
    (bounds : firstIll l = none → d < 64 ∧ a < 64 ∧ c < 16 ∧ b.okB 64 4294967296 = true := by
      intro ok
      simp only [firstIll_cons, decide_eq_true_eq] at ok
      exact ⟨by omega, by omega, by omega, by simp only [ok]⟩)
    (fixed : fixedExt opc true = true := by decide) : ReadsBack (mk d a c b) :=
  readsBack_computeExt opc fixed [] checks code
    (fun w e => fld w 6 4 = 0 ∧ fld w 14 64 = d ∧ fld w 8 64 = a ∧ fld w 0 16 = c ∧ fld w 4 4 = b.sel ∧ e = b.num)
    (fun w e is ext ok _ => by have := bounds ok; simp only [okB_extension, fld] at this ⊢; omega)
    (fun h ok => by have := bounds ok; simp only [okB_extension] at this; simp [row, h, this])

theorem readsBack_roundedSource {mk : Nat → Nat → Nat → Src → Instr} {rnd : Nat} {b : Src}
    (checks : (mk d a rnd b).ill = firstIll l)
    (code : encode (mk d a rnd b) = some ⟨0, opc * 1048576 + d * 16384 + a * 256 + rnd + b.sel * 8, some b.num⟩)
    (row : ∀ w e, decodeCompute opc w e = if fld w 5 8 == 0 then
      (srcExtOf (fld w 3 4) e).map fun b => mk (fld w 14 64) (fld w 8 64) (fld w 0 8) b else none)
    (bounds : firstIll l = none → d < 64 ∧ a < 64 ∧ rnd < 5 ∧ b.okB 64 4294967296 = true := by simp_all [firstIll_cons])
    (fixed : fixedExt opc true = true := by decide) : ReadsBack (mk d a rnd b) :=
  readsBack_computeExt opc fixed [] checks code
    (fun w e => fld w 5 8 = 0 ∧ fld w 14 64 = d ∧ fld w 8 64 = a ∧ fld w 0 8 = rnd ∧ fld w 3 4 = b.sel ∧ e = b.num)
    (fun w e is ext ok _ => by have := bounds ok; simp only [okB_extension, fld] at this ⊢; omega)
    (fun h ok => by have := bounds ok; simp only [okB_extension] at this; simp [row, h, this])

theorem readsBack_registerAndFlag {mk : Nat → Nat → Src → Bool → Instr} {b : Src} {u : Bool}
    (checks : (mk d a b u).ill = firstIll l)
    (code : encode (mk d a b u) =
      some ⟨0, opc * 1048576 + d * 16384 + a * 256 + b.isScalar + b.num * 4 + (bit u) * 2, none⟩)
    (row : ∀ w x, decodeCompute opc w x = some (mk (fld w 14 64) (fld w 8 64)
      (if fld w 0 2 == 1 then .s (fld w 2 64) else .v (fld w 2 64)) (fld w 1 2 == 1)))
    (bounds : firstIll l = none → d < 64 ∧ a < 64 ∧ b.okB 64 0 = true := by simp_all [firstIll_cons])
    (fixed : fixedExt opc false = true := by decide) : ReadsBack (mk d a b u) :=
  readsBack_compute opc fixed [u] checks code
    (fun w => fld w 14 64 = d ∧ fld w 8 64 = a ∧ fld w 0 2 = b.isScalar ∧
      fld w 2 64 = b.num ∧ fld w 1 2 = bit u)
    (fun w is ok bits => by
      have := bounds ok; simp only [okB_register, List.forall_mem_cons, fld] at this bits ⊢; omega)
    (fun h ok _ => by have := bounds ok; simp only [okB_register] at this; simp [row, h, this])

theorem readsBack_uniformSource {mk : Nat → Nat → Src → Instr} {b : Src} (checks : (mk d a b).ill = firstIll l)
    (code : encode (mk d a b) = some ⟨0, opc * 1048576 + d * 16384 + a * 256 + b.isImm + b.num * 4, none⟩)
    (row : ∀ w x, decodeCompute opc w x = if fld w 1 2 == 0 then some (mk (fld w 14 64) (fld w 8 64)
      (if fld w 0 2 == 1 then .imm (fld w 2 64) else .s (fld w 2 64))) else none)
    (bounds : firstIll l = none → d < 32 ∧ a < 32 ∧ b.okB 0 64 = true := by simp_all [firstIll_cons])
    (fixed : fixedExt opc false = true := by decide) : ReadsBack (mk d a b) :=
  readsBack_compute opc fixed [] checks code
    (fun w => fld w 1 2 = 0 ∧ fld w 14 64 = d ∧ fld w 8 64 = a ∧
      fld w 0 2 = b.isImm ∧ fld w 2 64 = b.num)
    (fun w is ok _ => by have := bounds ok; simp only [okB_uniform, fld] at this ⊢; omega)
    (fun h ok _ => by have := bounds ok; simp only [okB_uniform] at this; simp [row, h, this])

theorem readsBack_flagged {mk : Nat → Nat → Bool → Instr} {flag : Bool} (checks : (mk d a flag).ill = firstIll l)
    (code : encode (mk d a flag) = some ⟨0, opc * 1048576 + d * 16384 + a * 256 + bit flag, none⟩)
    (row : ∀ w x, decodeCompute opc w x =
      if fld w 1 128 == 0 then some (mk (fld w 14 64) (fld w 8 64) (fld w 0 2 == 1)) else none)
    (bounds : firstIll l = none → d < 64 ∧ a < 64 := by simp only [firstIll_cons, decide_eq_true_eq]; omega)
    (fixed : fixedExt opc false = true := by decide) : ReadsBack (mk d a flag) :=
  readsBack_compute opc fixed [flag] checks code
    (fun w => fld w 1 128 = 0 ∧ fld w 14 64 = d ∧ fld w 8 64 = a ∧ fld w 0 2 = bit flag)
    (fun w is ok bits => by have := bounds ok; simp only [List.forall_mem_cons, fld] at bits ⊢; omega)
    (fun h _ _ => by simp [row, h])

theorem readsBack_unary {mk : Nat → Nat → Instr} (checks : (mk d a).ill = firstIll l)
    (code : encode (mk d a) = some ⟨0, opc * 1048576 + d * 16384 + a * 256, none⟩)
    (row : ∀ w x, decodeCompute opc w x = if fld w 0 256 == 0 then some (mk (fld w 14 64) (fld w 8 64)) else none)
    (bounds : firstIll l = none → d < 64 ∧ a < 64 := by simp only [firstIll_cons, decide_eq_true_eq]; omega)
    (fixed : fixedExt opc false = true := by decide) : ReadsBack (mk d a) :=
  readsBack_compute opc fixed [] checks code
    (fun w => fld w 0 256 = 0 ∧ fld w 14 64 = d ∧ fld w 8 64 = a)
    (fun w is ok _ => by have := bounds ok; simp only [fld]; omega)
    (fun h _ _ => by simp [row, h])

theorem readsBack_mask {mk : Nat → Instr} {m : Nat} (checks : (mk m).ill = firstIll l)
    (code : encode (mk m) = some ⟨0, opc * 1048576 + m * 16384, none⟩)
    (row : ∀ w x, decodeCompute opc w x = if fld w 0 16384 == 0 then some (mk (fld w 14 64)) else none)
    (bounds : firstIll l = none → m < 12 := by simp only [firstIll_cons, decide_eq_true_eq]; omega)
    (fixed : fixedExt opc false = true := by decide) : ReadsBack (mk m) :=
  readsBack_compute opc fixed [] checks code
    (fun w => fld w 0 16384 = 0 ∧ fld w 14 64 = m)
    (fun w is ok _ => by have := bounds ok; simp only [fld]; omega)
    (fun h _ _ => by simp [row, h])

theorem readsBack_crossLane {mk : Nat → Nat → Nat → Bool → Nat → Instr} {m op : Nat} {flag : Bool}
    (checks : (mk d a m flag op).ill = firstIll l)
    (code : encode (mk d a m flag op) =
      some ⟨0, opc * 1048576 + d * 16384 + a * 256 + m * 4 + (bit flag) * 64 + op, none⟩)
    (row : ∀ w x, decodeCompute opc w x = if fld w 7 2 == 0 then
      some (mk (fld w 14 64) (fld w 8 64) (fld w 2 16) (fld w 6 2 == 1) (fld w 0 4)) else none)
    (bounds : firstIll l = none → d < 64 ∧ a < 64 ∧ m < 12 ∧ op < 3 := by
      simp only [firstIll_cons, decide_eq_true_eq]; omega)
    (fixed : fixedExt opc false = true := by decide) : ReadsBack (mk d a m flag op) :=
  readsBack_compute opc fixed [flag] checks code
    (fun w => fld w 7 2 = 0 ∧ fld w 14 64 = d ∧ fld w 8 64 = a ∧
      fld w 2 16 = m ∧ fld w 6 2 = bit flag ∧ fld w 0 4 = op)
    (fun w is ok bits => by have := bounds ok; simp only [List.forall_mem_cons, fld] at bits ⊢; omega)
    (fun h _ _ => by simp [row, h])

end

/-! ## Branches

The offset field says whether an extension word follows (R171, R173). -/

theorem needsExt_branch {opc w : Nat} (branch : opc ∈ [53, 54, 55, 56, 57, 62]) (op : fld w 20 128 = opc) :
    needsExt 0 w = (fld w 0 65536 == 32768) := by
  simp only [List.mem_cons, List.not_mem_nil, or_false] at branch
  rcases branch with rfl | rfl | rfl | rfl | rfl | rfl <;> simp [needsExt, op, extCompute]

theorem readsBack_exit {p : Nat} : ReadsBack (.exit p) := by
  refine readsBack_word rfl fun wf => ?_
  change firstIll _ = none at wf
  simp only [firstIll_cons, decide_eq_true_eq] at wf
  generalize is : 62 * 1048576 + p * 65536 = w
  obtain ⟨word, op⟩ := fld_opcode (v := w) (opc := 62) (by omega) (by decide)
  have h : fld w 0 65536 = 0 ∧ fld w 16 16 = p := by
    simp only [fld]
    omega
  exact ⟨word, by simp [needsExt_branch (by decide) op, h], fun x =>
    (decodeRow_compute op).trans (ite_pos_eq (by simp [h]) (by simp [h]))⟩

section
variable {opc p : Nat} {off : Int} {short long : Nat → Int → Instr}
  (row : ∀ w e, decodeCompute opc w e = if fld w 0 65536 == 32768 then some (long (fld w 16 16) (signed32 e))
    else some (short (fld w 16 16) (signed16 (fld w 0 65536))))
  (branch : opc ∈ [53, 54, 55, 56, 57, 62])
include row branch

theorem readsBack_branch
    (checks : (short p off).ill = firstIll [(decide (p < 16), .badPredicate),
      (decide (-32767 ≤ off) && decide (off ≤ 32767), .badOffset)])
    (code : encode (short p off) = some ⟨0, opc * 1048576 + p * 65536 + unsigned16 off, none⟩) :
    ReadsBack (short p off) := by
  refine readsBack_word code fun wf => ?_
  replace wf := checks.symm.trans wf
  simp only [firstIll_cons, decide_eq_true_eq, okShortOffset] at wf
  obtain ⟨hp, ⟨inField, notLong, back⟩, -⟩ := wf
  generalize is : opc * 1048576 + p * 65536 + unsigned16 off = w
  obtain ⟨word, op⟩ := fld_opcode (v := w) (opc := opc) (by omega) (by simp at branch; omega)
  have h : fld w 0 65536 = unsigned16 off ∧ fld w 16 16 = p := by
    simp only [fld]
    omega
  exact ⟨word, by simp [needsExt_branch branch op, h, notLong], fun x => by
    simp [decodeRow_compute op, row, h, notLong, back]⟩

theorem readsBack_branchLong
    (checks : (long p off).ill = firstIll [(decide (p < 16), .badPredicate),
      (decide (-2147483648 ≤ off) && decide (off < 2147483648), .badOffset)])
    (code : encode (long p off) = some ⟨0, opc * 1048576 + 32768 + p * 65536, some (unsigned32 off)⟩) :
    ReadsBack (long p off) := by
  refine readsBack_words code fun wf => ?_
  replace wf := checks.symm.trans wf
  simp only [firstIll_cons, decide_eq_true_eq, okOffset] at wf
  obtain ⟨hp, ⟨ext, back⟩, -⟩ := wf
  generalize is : opc * 1048576 + 32768 + p * 65536 = w
  obtain ⟨word, op⟩ := fld_opcode (v := w) (opc := opc) (by omega) (by simp at branch; omega)
  have h : fld w 0 65536 = 32768 ∧ fld w 16 16 = p := by
    simp only [fld]
    omega
  exact ⟨word, ext, by simp [needsExt_branch branch op, h], by simp [decodeRow_compute op, row, h, back]⟩

end

/-! ## Rows of one opcode of the compute map -/

theorem readsBack_imad {d a : Nat} {b c : Src} : ReadsBack (.imad d a b c) :=
  readsBack_computeExt 6 rfl [] rfl rfl (fun w e => fld w 2 64 = 0 ∧ fld e 6 4 = 0 ∧ fld e 14 262144 = 0 ∧
    fld w 14 64 = d ∧ fld w 8 64 = a ∧ fld w 0 2 = b.isScalar ∧ fld e 0 64 = b.num ∧ fld w 1 2 = c.isScalar ∧
    fld e 8 64 = c.num)
    (by simp only [operandChecks, fld]; omega)
    fun h ok => ite_pos_eq (by simp [h]) (by simp only [firstIll_cons, okB_register] at ok; simp [h, ok])

theorem readsBack_idot4 {d a b : Nat} {ua ub : Bool} : ReadsBack (.idot4 d a b ua ub) :=
  readsBack_compute 11 rfl [ua, ub] rfl rfl (fun w => fld w 14 64 = d ∧ fld w 8 64 = a ∧ fld w 2 64 = b ∧
    fld w 0 2 = bit ua ∧ fld w 1 2 = bit ub)
    (by simp only [operandChecks, fld]; omega) fun h _ _ => congrArg some (by simp [h])

theorem readsBack_lea {d a : Nat} {b : Src} {k : Nat} {u : Bool} : ReadsBack (.lea d a b k u) :=
  readsBack_computeExt 13 rfl [u] rfl rfl (fun w e => fld w 4 16 = 0 ∧ fld e 6 67108864 = 0 ∧ fld w 14 64 = d ∧
    fld w 8 64 = a ∧ fld w 3 2 = b.isScalar ∧ fld e 0 64 = b.num ∧ fld w 0 4 = k ∧ fld w 2 2 = bit u)
    (by simp only [operandChecks, fld]; omega)
    fun h ok => ite_pos_eq (by simp [h]) (by simp only [firstIll_cons, okB_register] at ok; simp [h, ok])

theorem readsBack_isetp {p a code : Nat} {u : Bool} {b : Src} : ReadsBack (.isetp p a code u b) :=
  readsBack_computeExt 15 rfl [u] rfl rfl (fun w e => fld w 6 4 = 0 ∧ fld w 4 4 = b.sel ∧ fld w 14 64 = p ∧
    fld w 8 64 = a ∧ fld w 0 8 = code ∧ fld w 3 2 = bit u ∧ e = b.num)
    (by simp only [operandChecks, fld]; omega)
    fun h ok => ite_pos_eq (by simp [h]) (by simp only [firstIll_cons, okB_extension] at ok; simp [h, ok])

theorem readsBack_lop3 {d a b c t : Nat} : ReadsBack (.lop3 d a b c t) :=
  readsBack_computeExt 22 rfl [] rfl rfl (fun w e => fld e 6 4 = 0 ∧ fld e 14 262144 = 0 ∧ fld w 14 64 = d ∧
    fld w 8 64 = a ∧ fld e 0 64 = b ∧ fld e 8 64 = c ∧ fld w 0 256 = t)
    (by simp only [operandChecks, fld]; omega) fun h _ => ite_pos_eq (by simp [h]) (by simp [h])

theorem readsBack_fshl {d a b : Nat} {c : Src} : ReadsBack (.fshl d a b c) :=
  readsBack_computeExt 27 rfl [] rfl rfl (fun w e => fld w 1 128 = 0 ∧ fld e 6 4 = 0 ∧ fld e 14 262144 = 0 ∧
    fld w 14 64 = d ∧ fld w 8 64 = a ∧ fld e 0 64 = b ∧ fld w 0 2 = c.isImm ∧ fld e 8 64 = c.num)
    (by simp only [operandChecks, fld]; omega)
    fun h ok => ite_pos_eq (by simp [h]) (by simp only [firstIll_cons, okVI_source] at ok; simp [h, ok])

theorem readsBack_bfx {d a pos len : Nat} {sx : Bool} : ReadsBack (.bfx d a pos len sx) :=
  readsBack_computeExt 33 rfl [sx] rfl rfl (fun w e => fld w 1 128 = 0 ∧ fld e 0 64 = 0 ∧ fld e 17 32768 = 0 ∧
    fld w 14 64 = d ∧ fld w 8 64 = a ∧ fld e 6 32 = pos ∧ fld e 11 64 = len ∧ fld w 0 2 = bit sx)
    (by simp only [operandChecks, fld]; omega) fun h _ => ite_pos_eq (by simp [h]) (by simp [h])

theorem readsBack_bfi {d a b pos len : Nat} : ReadsBack (.bfi d a b pos len) :=
  readsBack_computeExt 34 rfl [] rfl rfl (fun w e => fld w 0 256 = 0 ∧ fld e 17 32768 = 0 ∧ fld w 14 64 = d ∧
    fld w 8 64 = a ∧ fld e 0 64 = b ∧ fld e 6 32 = pos ∧ fld e 11 64 = len)
    (by simp only [operandChecks, fld]; omega) fun h _ => ite_pos_eq (by simp [h]) (by simp [h])

theorem readsBack_movi {d imm : Nat} : ReadsBack (.movi d imm) :=
  readsBack_computeExt 36 rfl [] rfl rfl (fun w e => fld w 0 16384 = 0 ∧ fld w 14 64 = d ∧ fld e 0 4294967296 = imm)
    (by simp only [operandChecks, fld]; omega) fun h _ => ite_pos_eq (by simp [h]) (by simp [h])

theorem readsBack_movs {d s : Nat} {w64 : Bool} : ReadsBack (.movs d s w64) :=
  readsBack_compute 37 rfl [w64] rfl rfl (fun w => fld w 1 4 = 0 ∧ fld w 8 64 = 0 ∧ fld w 14 64 = d ∧ fld w 3 32 = s ∧
    fld w 0 2 = bit w64)
    (by simp only [operandChecks, fld]; omega) fun h _ _ => ite_pos_eq (by simp [h]) (by simp [h])

theorem lt_of_selectorOk {n : Nat} (h : selectorOk n = true) : n < 67 := by
  simp only [selectorOk, Bool.or_eq_true, Bool.and_eq_true, beq_iff_eq, decide_eq_true_eq] at h
  omega

theorem readsBack_sread {d kind rsel : Nat} : ReadsBack (.sread d kind rsel) :=
  readsBack_compute 38 rfl [] rfl rfl (fun w => fld w 14 64 = d ∧ fld w 8 64 = kind ∧ fld w 0 256 = rsel)
    (fun w is ok _ => by
      simp only [operandChecks] at ok
      obtain ⟨hd, hkind, hrsel, -⟩ := ok
      have := lt_of_selectorOk hrsel
      simp only [fld]
      omega)
    fun h _ _ => congrArg some (by simp [h])

theorem readsBack_plop {p pa pb pc t : Nat} : ReadsBack (.plop p pa pb pc t) :=
  readsBack_computeExt 39 rfl [] rfl rfl (fun w e => fld e 8 16777216 = 0 ∧ fld w 14 64 = p ∧ fld w 8 64 = pa ∧
    fld e 0 16 = pb ∧ fld e 4 16 = pc ∧ fld w 0 256 = t)
    (by simp only [operandChecks, fld]; omega) fun h _ => ite_pos_eq (by simp [h]) (by simp [h])

theorem readsBack_pmov {wr : Bool} {r : Nat} : ReadsBack (.pmov wr r) := by
  cases wr with
  | false =>
    exact readsBack_compute (v := 40 * 1048576 + 0 + r * 16384) 40 rfl [] rfl rfl
      (fun w => fld w 2 64 = 0 ∧ fld w 1 2 = 0 ∧ fld w 0 2 = 0 ∧ fld w 8 64 = 0 ∧ fld w 14 64 = r)
      (by simp only [operandChecks, fld]; omega) fun h _ _ => ite_pos_eq (by simp [h]) (by simp [h])
  | true =>
    exact readsBack_compute (v := 40 * 1048576 + 1 + r * 256) 40 rfl [] rfl rfl
      (fun w => fld w 2 64 = 0 ∧ fld w 1 2 = 0 ∧ fld w 0 2 = 1 ∧ fld w 14 64 = 0 ∧ fld w 8 64 = r)
      (by simp only [operandChecks, fld]; omega) fun h _ _ => ite_pos_eq (by simp [h]) (by simp [h])

theorem readsBack_sshr {d a : Nat} {b : Src} {ar : Bool} : ReadsBack (.sshr d a b ar) :=
  readsBack_compute 48 rfl [ar] rfl rfl (fun w => fld w 14 64 = d ∧ fld w 8 64 = a ∧ fld w 0 2 = b.isImm ∧
    fld w 2 64 = b.num ∧ fld w 1 2 = bit ar)
    (by simp only [operandChecks, fld]; omega)
    fun h ok _ => congrArg some (by simp only [firstIll_cons, okB_uniform] at ok; simp [h, ok])

theorem readsBack_smovi {d imm : Nat} : ReadsBack (.smovi d imm) :=
  readsBack_computeExt 50 rfl [] rfl rfl (fun w e => fld w 0 16384 = 0 ∧ fld w 14 64 = d ∧ fld e 0 4294967296 = imm)
    (by simp only [operandChecks, fld]; omega) fun h _ => ite_pos_eq (by simp [h]) (by simp [h])

theorem readsBack_ssetp {p a code : Nat} {u : Bool} {b : Src} : ReadsBack (.ssetp p a code u b) :=
  readsBack_computeExt 51 rfl [u] rfl rfl (fun w e => fld w 6 4 = 0 ∧ fld w 4 4 = b.selUniform ∧ fld w 14 64 = p ∧
    fld w 8 64 = a ∧ fld w 0 8 = code ∧ fld w 3 2 = bit u ∧ e = b.num)
    (by simp only [operandChecks, fld]; omega)
    fun h ok => ite_pos_eq (by simp [h]) (by simp only [firstIll_cons, okB_uniformExtension] at ok; simp [h, ok])

theorem readsBack_slane {d a : Nat} {lane : Src} {w64 : Bool} : ReadsBack (.slane d a lane w64) :=
  readsBack_compute 52 rfl [w64] rfl rfl (fun w => fld w 14 64 = d ∧ fld w 8 64 = a ∧ fld w 0 2 = lane.isScalar ∧
    fld w 2 64 = lane.num ∧ fld w 1 2 = bit w64)
    (by simp only [operandChecks, fld]; omega)
    fun h ok _ => congrArg some (by simp only [firstIll_cons, okB_lane] at ok; simp [h, ok])

theorem readsBack_jmp {tgt : Src} : ReadsBack (.jmp tgt) :=
  readsBack_compute 58 rfl [] rfl rfl (fun w => fld w 1 128 = 0 ∧ fld w 14 64 = 0 ∧ fld w 0 2 = tgt.isScalar ∧
    fld w 8 64 = tgt.num)
    (by simp only [operandChecks, fld]; omega)
    fun h ok _ => ite_pos_eq (by simp [h]) (by simp only [firstIll_cons, okB_register] at ok; simp [h, ok])

theorem readsBack_call {frame : Nat} {off : Int} : ReadsBack (.call frame off) :=
  readsBack_computeExt 59 rfl [] rfl rfl (fun w e => fld w 0 256 = 0 ∧ fld w 14 64 = 0 ∧ fld w 8 64 = frame / 2 ∧
    e = unsigned32 off)
    (by simp only [operandChecks, fld]; omega)
    fun h ok => ite_pos_eq (by simp [h]) (by simp only [firstIll_cons, isEven_half, okOffset] at ok; simp [h, ok])

theorem readsBack_calli {frame : Nat} {tgt : Src} : ReadsBack (.calli frame tgt) :=
  readsBack_compute 60 rfl [] rfl rfl (fun w => fld w 1 2 = 0 ∧ fld w 14 64 = 0 ∧ fld w 2 64 = frame / 2 ∧
    fld w 0 2 = tgt.isScalar ∧ fld w 8 64 = tgt.num)
    (by simp only [operandChecks, fld]; omega)
    fun h ok _ => ite_pos_eq (by simp [h]) (by simp only [firstIll_cons, isEven_half, okB_register] at ok; simp [h, ok])

theorem readsBack_ret {link frame : Nat} : ReadsBack (.ret link frame) :=
  readsBack_compute 61 rfl [] rfl rfl (fun w => fld w 0 4 = 0 ∧ fld w 14 64 = 0 ∧ fld w 8 64 = link ∧
    fld w 2 64 = frame / 2)
    (by simp only [operandChecks, fld]; omega)
    fun h ok _ => ite_pos_eq (by simp [h]) (by simp only [firstIll_cons, isEven_half] at ok; simp [h, ok])

theorem readsBack_fspawn {d p win : Nat} {off : Int} : ReadsBack (.fspawn d p win off) :=
  readsBack_computeExt 63 rfl [] rfl rfl (fun w e => fld w 5 8 = 0 ∧ fld w 14 64 = d ∧ fld w 8 64 = p ∧
    fld w 0 32 = win / 2 ∧ e = unsigned32 off)
    (by simp only [operandChecks, fld]; omega)
    fun h ok => ite_pos_eq (by simp [h]) (by simp only [firstIll_cons, isEven_half, okOffset] at ok; simp [h, ok])

theorem readsBack_yield : ReadsBack .yield :=
  readsBack_compute (l := []) 64 rfl [] rfl rfl (fun w => fld w 0 1048576 = 0)
    (by simp only [fld]; omega) fun h _ _ => ite_pos_eq (by simp [h]) rfl

theorem readsBack_nop : ReadsBack .nop :=
  readsBack_compute (l := []) 65 rfl [] rfl rfl (fun w => fld w 0 1048576 = 0)
    (by simp only [fld]; omega) fun h _ _ => ite_pos_eq (by simp [h]) rfl

theorem readsBack_bkpt {code : Nat} : ReadsBack (.bkpt code) :=
  readsBack_compute 66 rfl [] rfl rfl (fun w => fld w 8 4096 = 0 ∧ fld w 0 256 = code)
    (by simp only [operandChecks, fld]; omega) fun h _ _ => ite_pos_eq (by simp [h]) (by simp [h])

theorem readsBack_utrap {code : Nat} : ReadsBack (.utrap code) :=
  readsBack_compute 67 rfl [] rfl rfl (fun w => fld w 8 4096 = 0 ∧ fld w 0 256 = code)
    (by simp only [operandChecks, fld]; omega) fun h _ _ => ite_pos_eq (by simp [h]) (by simp [h])

theorem readsBack_mset {m s mode : Nat} : ReadsBack (.mset m s mode) :=
  readsBack_compute 71 rfl [] rfl rfl (fun w => fld w 8 64 = 0 ∧ fld w 14 64 = m ∧ fld w 3 32 = s ∧ fld w 0 8 = mode)
    (by simp only [operandChecks, fld]; omega) fun h _ _ => ite_pos_eq (by simp [h]) (by simp [h])

theorem readsBack_mget {d m mode : Nat} : ReadsBack (.mget d m mode) :=
  readsBack_compute 72 rfl [] rfl rfl (fun w => fld w 2 64 = 0 ∧ fld w 14 64 = d ∧ fld w 8 64 = m ∧ fld w 0 4 = mode)
    (by simp only [operandChecks, fld]; omega) fun h _ _ => ite_pos_eq (by simp [h]) (by simp [h])

theorem readsBack_vote {d pa m q mode : Nat} : ReadsBack (.vote d pa m q mode) :=
  readsBack_compute 73 rfl [] rfl rfl (fun w => fld w 14 64 = d ∧ fld w 8 64 = pa ∧ fld w 2 16 = m ∧ fld w 6 4 = q ∧
    fld w 0 4 = mode)
    (by simp only [operandChecks, fld]; omega) fun h _ _ => congrArg some (by simp [h])

theorem readsBack_matchl {d a m : Nat} {w64 : Bool} : ReadsBack (.matchl d a m w64) :=
  readsBack_compute 74 rfl [w64] rfl rfl (fun w => fld w 1 2 = 0 ∧ fld w 14 64 = d ∧ fld w 8 64 = a ∧ fld w 2 64 = m ∧
    fld w 0 2 = bit w64)
    (by simp only [operandChecks, fld]; omega) fun h _ _ => ite_pos_eq (by simp [h]) (by simp [h])

theorem readsBack_shfl {d a mlo mhi : Nat} {b : Src} {w64 : Bool} {m seg : Nat} {z : Bool} :
    ReadsBack (.shfl d a mlo mhi b w64 m seg z) :=
  readsBack_computeExt 75 rfl [w64, z] rfl rfl (fun w e => fld e 6 4 = 0 ∧ fld e 13 524288 = 0 ∧ fld w 14 64 = d ∧
    fld w 8 64 = a ∧ fld w 0 4 = mlo ∧ fld e 11 2 = mhi ∧ fld w 2 2 = b.isImm ∧ fld e 0 64 = b.num ∧
    fld w 3 2 = bit w64 ∧ fld w 4 16 = m ∧ fld e 8 8 = seg ∧ fld e 12 2 = bit z)
    (by simp only [operandChecks, fld]; omega)
    fun h ok => ite_pos_eq (by simp [h]) (by simp only [firstIll_cons, okVI_source] at ok; simp [h, ok])

theorem readsBack_redadd {d a m mode : Nat} : ReadsBack (.redadd d a m mode) :=
  readsBack_compute 78 rfl [] rfl rfl (fun w => fld w 6 4 = 0 ∧ fld w 14 64 = d ∧ fld w 8 64 = a ∧ fld w 2 16 = m ∧
    fld w 0 4 = mode)
    (by simp only [operandChecks, fld]; omega) fun h _ _ => ite_pos_eq (by simp [h]) (by simp [h])

theorem readsBack_fredadd {d a m : Nat} {w64 : Bool} : ReadsBack (.fredadd d a m w64) :=
  readsBack_compute 79 rfl [w64] rfl rfl (fun w => fld w 1 2 = 0 ∧ fld w 6 4 = 0 ∧ fld w 14 64 = d ∧ fld w 8 64 = a ∧
    fld w 2 16 = m ∧ fld w 0 2 = bit w64)
    (by simp only [operandChecks, fld]; omega) fun h _ _ => ite_pos_eq (by simp [h]) (by simp [h])

theorem readsBack_redlog {d a m op : Nat} : ReadsBack (.redlog d a m op) :=
  readsBack_compute 81 rfl [] rfl rfl (fun w => fld w 6 4 = 0 ∧ fld w 14 64 = d ∧ fld w 8 64 = a ∧ fld w 2 16 = m ∧
    fld w 0 4 = op)
    (by simp only [operandChecks, fld]; omega) fun h _ _ => ite_pos_eq (by simp [h]) (by simp [h])

theorem readsBack_ffma {d a : Nat} {b c : Src} {rnd : Nat} {np : Bool} : ReadsBack (.ffma d a b c rnd np) :=
  readsBack_computeExt 85 rfl [np] rfl rfl (fun w e => fld w 6 4 = 0 ∧ fld e 6 4 = 0 ∧ fld e 14 262144 = 0 ∧
    fld w 14 64 = d ∧ fld w 8 64 = a ∧ fld w 3 2 = b.isScalar ∧ fld e 0 64 = b.num ∧ fld w 4 2 = c.isScalar ∧
    fld e 8 64 = c.num ∧ fld w 0 8 = rnd ∧ fld w 5 2 = bit np)
    (by simp only [operandChecks, fld]; omega)
    fun h ok => ite_pos_eq (by simp [h]) (by simp only [firstIll_cons, okB_register] at ok; simp [h, ok])

theorem readsBack_fdiv {d a : Nat} {b : Src} : ReadsBack (.fdiv d a b) :=
  readsBack_compute 93 rfl [] rfl rfl (fun w => fld w 1 2 = 0 ∧ fld w 14 64 = d ∧ fld w 8 64 = a ∧
    fld w 0 2 = b.isScalar ∧ fld w 2 64 = b.num)
    (by simp only [operandChecks, fld]; omega)
    fun h ok _ => ite_pos_eq (by simp [h]) (by simp only [firstIll_cons, okB_register] at ok; simp [h, ok])

theorem readsBack_dadd {d a : Nat} {b : Src} {rnd : Nat} : ReadsBack (.dadd d a b rnd) :=
  readsBack_computeExt 98 rfl [] rfl rfl (fun w e => fld w 4 16 = 0 ∧ fld e 6 67108864 = 0 ∧ fld w 14 64 = d ∧
    fld w 8 64 = a ∧ fld w 3 2 = b.isScalar ∧ fld e 0 64 = b.num ∧ fld w 0 8 = rnd)
    (by simp only [operandChecks, fld]; omega)
    fun h ok => ite_pos_eq (by simp [h]) (by simp only [firstIll_cons, okB_register] at ok; simp [h, ok])

theorem readsBack_dmul {d a : Nat} {b : Src} {rnd : Nat} : ReadsBack (.dmul d a b rnd) :=
  readsBack_computeExt 99 rfl [] rfl rfl (fun w e => fld w 4 16 = 0 ∧ fld e 6 67108864 = 0 ∧ fld w 14 64 = d ∧
    fld w 8 64 = a ∧ fld w 3 2 = b.isScalar ∧ fld e 0 64 = b.num ∧ fld w 0 8 = rnd)
    (by simp only [operandChecks, fld]; omega)
    fun h ok => ite_pos_eq (by simp [h]) (by simp only [firstIll_cons, okB_register] at ok; simp [h, ok])

theorem readsBack_dfma {d a : Nat} {b c : Src} {rnd : Nat} {np : Bool} : ReadsBack (.dfma d a b c rnd np) :=
  readsBack_computeExt 100 rfl [np] rfl rfl (fun w e => fld w 6 4 = 0 ∧ fld e 6 4 = 0 ∧ fld e 14 262144 = 0 ∧
    fld w 14 64 = d ∧ fld w 8 64 = a ∧ fld w 3 2 = b.isScalar ∧ fld e 0 64 = b.num ∧ fld w 4 2 = c.isScalar ∧
    fld e 8 64 = c.num ∧ fld w 0 8 = rnd ∧ fld w 5 2 = bit np)
    (by simp only [operandChecks, fld]; omega)
    fun h ok => ite_pos_eq (by simp [h]) (by simp only [firstIll_cons, okB_register] at ok; simp [h, ok])

theorem readsBack_ddiv {d a : Nat} {b : Src} : ReadsBack (.ddiv d a b) :=
  readsBack_compute 104 rfl [] rfl rfl (fun w => fld w 1 2 = 0 ∧ fld w 14 64 = d ∧ fld w 8 64 = a ∧
    fld w 0 2 = b.isScalar ∧ fld w 2 64 = b.num)
    (by simp only [operandChecks, fld]; omega)
    fun h ok _ => ite_pos_eq (by simp [h]) (by simp only [firstIll_cons, okB_register] at ok; simp [h, ok])

theorem readsBack_hadd2 {d a : Nat} {b : Src} {rnd : Nat} {bf : Bool} : ReadsBack (.hadd2 d a b rnd bf) :=
  readsBack_computeExt 105 rfl [bf] rfl rfl (fun w e => fld w 5 8 = 0 ∧ fld e 6 67108864 = 0 ∧ fld w 14 64 = d ∧
    fld w 8 64 = a ∧ fld w 4 2 = b.isScalar ∧ fld e 0 64 = b.num ∧ fld w 0 8 = rnd ∧ fld w 3 2 = bit bf)
    (by simp only [operandChecks, fld]; omega)
    fun h ok => ite_pos_eq (by simp [h]) (by simp only [firstIll_cons, okB_register] at ok; simp [h, ok])

theorem readsBack_hmul2 {d a : Nat} {b : Src} {rnd : Nat} {bf : Bool} : ReadsBack (.hmul2 d a b rnd bf) :=
  readsBack_computeExt 106 rfl [bf] rfl rfl (fun w e => fld w 5 8 = 0 ∧ fld e 6 67108864 = 0 ∧ fld w 14 64 = d ∧
    fld w 8 64 = a ∧ fld w 4 2 = b.isScalar ∧ fld e 0 64 = b.num ∧ fld w 0 8 = rnd ∧ fld w 3 2 = bit bf)
    (by simp only [operandChecks, fld]; omega)
    fun h ok => ite_pos_eq (by simp [h]) (by simp only [firstIll_cons, okB_register] at ok; simp [h, ok])

theorem readsBack_hfma2 {d a : Nat} {b c : Src} {rnd : Nat} {bf : Bool} : ReadsBack (.hfma2 d a b c rnd bf) :=
  readsBack_computeExt 107 rfl [bf] rfl rfl (fun w e => fld w 6 4 = 0 ∧ fld e 6 4 = 0 ∧ fld e 14 262144 = 0 ∧
    fld w 14 64 = d ∧ fld w 8 64 = a ∧ fld w 4 2 = b.isScalar ∧ fld e 0 64 = b.num ∧ fld w 5 2 = c.isScalar ∧
    fld e 8 64 = c.num ∧ fld w 0 8 = rnd ∧ fld w 3 2 = bit bf)
    (by simp only [operandChecks, fld]; omega)
    fun h ok => ite_pos_eq (by simp [h]) (by simp only [firstIll_cons, okB_register] at ok; simp [h, ok])

theorem readsBack_cmul {d a b rnd : Nat} {cj : Bool} : ReadsBack (.cmul d a b rnd cj) :=
  readsBack_computeExt 108 rfl [cj] rfl rfl (fun w e => fld w 4 16 = 0 ∧ fld e 6 67108864 = 0 ∧ fld w 14 64 = d ∧
    fld w 8 64 = a ∧ fld e 0 64 = b ∧ fld w 0 8 = rnd ∧ fld w 3 2 = bit cj)
    (by simp only [operandChecks, fld]; omega) fun h _ => ite_pos_eq (by simp [h]) (by simp [h])

theorem readsBack_cfma {d a b c rnd : Nat} {cj : Bool} : ReadsBack (.cfma d a b c rnd cj) :=
  readsBack_computeExt 109 rfl [cj] rfl rfl (fun w e => fld w 4 16 = 0 ∧ fld e 6 4 = 0 ∧ fld e 14 262144 = 0 ∧
    fld w 14 64 = d ∧ fld w 8 64 = a ∧ fld e 0 64 = b ∧ fld e 8 64 = c ∧ fld w 0 8 = rnd ∧ fld w 3 2 = bit cj)
    (by simp only [operandChecks, fld]; omega) fun h _ => ite_pos_eq (by simp [h]) (by simp [h])

theorem readsBack_cvtff {d a rnd : Nat} {sat : Bool} {df sf dp sp : Nat} : ReadsBack (.cvtff d a rnd sat df sf dp sp) :=
  readsBack_computeExt 110 rfl [sat] rfl rfl (fun w e => fld w 4 16 = 0 ∧ fld e 12 1048576 = 0 ∧ fld w 14 64 = d ∧
    fld w 8 64 = a ∧ fld w 0 8 = rnd ∧ fld w 3 2 = bit sat ∧ fld e 0 16 = df ∧ fld e 4 16 = sf ∧ fld e 8 4 = dp ∧
    fld e 10 4 = sp)
    (by simp only [operandChecks, fld]; omega) fun h _ => ite_pos_eq (by simp [h]) (by simp [h])

theorem readsBack_cvtfi {d a rnd sf sp dt : Nat} : ReadsBack (.cvtfi d a rnd sf sp dt) :=
  readsBack_computeExt 111 rfl [] rfl rfl (fun w e => fld w 3 32 = 0 ∧ fld e 8 16777216 = 0 ∧ fld w 14 64 = d ∧
    fld w 8 64 = a ∧ fld w 0 8 = rnd ∧ fld e 0 16 = sf ∧ fld e 4 4 = sp ∧ fld e 6 4 = dt)
    (by simp only [operandChecks, fld]; omega) fun h _ => ite_pos_eq (by simp [h]) (by simp [h])

theorem readsBack_cvtif {d a rnd : Nat} {sat : Bool} {df ty dp : Nat} : ReadsBack (.cvtif d a rnd sat df ty dp) :=
  readsBack_computeExt 112 rfl [sat] rfl rfl (fun w e => fld w 4 16 = 0 ∧ fld e 8 16777216 = 0 ∧ fld w 14 64 = d ∧
    fld w 8 64 = a ∧ fld w 0 8 = rnd ∧ fld w 3 2 = bit sat ∧ fld e 0 16 = df ∧ fld e 4 4 = ty ∧ fld e 6 4 = dp)
    (by simp only [operandChecks, fld]; omega) fun h _ => ite_pos_eq (by simp [h]) (by simp [h])

theorem readsBack_cvtpk {d a rnd ty slot m : Nat} : ReadsBack (.cvtpk d a rnd ty slot m) :=
  readsBack_computeExt 113 rfl [] rfl rfl (fun w e => fld e 4 268435456 = 0 ∧ fld w 14 64 = d ∧ fld w 8 64 = a ∧
    fld w 0 8 = rnd ∧ fld w 3 4 = ty ∧ fld w 5 8 = slot ∧ fld e 0 16 = m)
    (by simp only [operandChecks, fld]; omega) fun h _ => ite_pos_eq (by simp [h]) (by simp [h])

theorem readsBack_cvtunpk {d a b k slot : Nat} : ReadsBack (.cvtunpk d a b k slot) :=
  readsBack_computeExt 114 rfl [] rfl rfl (fun w e => fld w 6 4 = 0 ∧ fld e 6 67108864 = 0 ∧ fld w 14 64 = d ∧
    fld w 8 64 = a ∧ fld e 0 64 = b ∧ fld w 0 8 = k ∧ fld w 3 8 = slot)
    (by simp only [operandChecks, fld]; omega) fun h _ => ite_pos_eq (by simp [h]) (by simp [h])

theorem readsBack_cvtw {d a : Nat} {q : Bool} {width : Nat} : ReadsBack (.cvtw d a q width) :=
  readsBack_computeExt 115 rfl [q] rfl rfl (fun w e => fld w 1 128 = 0 ∧ fld e 8 16777216 = 0 ∧ fld w 14 64 = d ∧
    fld w 8 64 = a ∧ fld w 0 2 = bit q ∧ fld e 0 256 = width)
    (by simp only [operandChecks, fld]; omega) fun h _ => ite_pos_eq (by simp [h]) (by simp [h])

end Sys2Proof.Proofs
end

section
/-!
SUPPORT. The rows of the memory, engine and system maps read back.
-/
namespace Sys2Proof.Proofs

/-! ## The memory map -/

section
variable {opc : Nat} {l : List (Bool × Ill)} {d b sb : Nat} {weak : Nat → Nat → Nat → Nat → Instr}
  {access : Nat → Nat → Nat → Acc → Int → Instr}
  (row : ∀ w e, decodeMemory opc w e = if decide (8 ≤ fld w 0 32) then
      some (access (fld w 14 64) (fld w 8 64) (fld w 5 8) (accOf (fld w 0 32)) (signed32 e))
    else if fld w 3 4 == 0 then some (weak (fld w 14 64) (fld w 8 64) (fld w 5 8) (fld w 0 8)) else none)
  (small : opc < 3)
include row small

/-- The weak forms of `ld`, `st` and `lds` without an offset (R270, R271). -/
theorem readsBack_weak {width : Nat} (checks : (weak d b sb width).ill = firstIll l)
    (code : encode (weak d b sb width) = some ⟨1, opc * 1048576 + d * 16384 + b * 256 + sb * 32 + width, none⟩)
    (bounds : firstIll l = none → d < 64 ∧ b < 64 ∧ sb < 7 ∧ width < 7 := by
      simp only [firstIll_cons, decide_eq_true_eq]; omega) : ReadsBack (weak d b sb width) :=
  readsBack_memory opc [] checks code
    (fun w => fld w 0 32 = width ∧ width < 7 ∧ fld w 14 64 = d ∧ fld w 8 64 = b ∧
      fld w 5 8 = sb ∧ fld w 3 4 = 0 ∧ fld w 0 8 = width)
    (fun w is ok _ => by have := bounds ok; simp only [fld]; omega)
    (fun is h _ => by
      have short : ¬ 8 ≤ width := by omega
      have other : opc ≠ 3 ∧ opc ≠ 4 ∧ opc ≠ 6 ∧ opc ≠ 8 ∧ opc ≠ 9 := by omega
      exact ⟨by simp [needsExt, is, h, short, other], fun x => by simp [row, h, short]⟩)

/-- The forms of `ld`, `st` and `lds` with an offset or an order (R270, R271). -/
theorem readsBack_access {acc : Acc} {off : Int} (checks : (access d b sb acc off).ill = firstIll l)
    (code : encode (access d b sb acc off) =
      some ⟨1, opc * 1048576 + d * 16384 + b * 256 + sb * 32 + acc.code, some (unsigned32 off)⟩)
    (width : firstIll l = none → acc.width < 8)
    (bounds : firstIll l = none → d < 64 ∧ b < 64 ∧ sb < 7 := by
      simp only [firstIll_cons, decide_eq_true_eq]; omega)
    (others : firstIll l = none → acc.okScope = true ∧
      (decide (-2147483648 ≤ off) && decide (off < 2147483648)) = true := by simp_all [firstIll_cons]) :
    ReadsBack (access d b sb acc off) :=
  readsBack_memoryExt opc [] checks code
    (fun w e => fld w 0 32 = acc.code ∧ fld w 14 64 = d ∧ fld w 8 64 = b ∧
      fld w 5 8 = sb ∧ e = unsigned32 off)
    (fun w e is ext ok _ => by
      have := bounds ok
      have := accOf_code (width ok) (others ok).1
      simp only [unsigned32, fld] at ext ⊢
      omega)
    (fun is h ok => by
      obtain ⟨wide, -, accBack⟩ := accOf_code (width ok) (others ok).1
      obtain ⟨-, offBack⟩ := okOffset.mp (others ok).2
      have low : opc ≤ 2 := by omega
      exact ⟨by simp [needsExt, is, h, wide, low], by simp [row, h, wide, accBack, offBack]⟩)

end

theorem readsBack_ldl {d : Nat} {b : Src} {sb width : Nat} : ReadsBack (.ldl d b sb width) :=
  readsBack_memory 3 [] rfl rfl (fun w => fld w 3 2 = 0 ∧ fld w 14 64 = d ∧ fld w 4 2 = b.isScalar ∧
    fld w 8 64 = b.num ∧ fld w 5 8 = sb ∧ fld w 0 8 = width)
    (by simp only [operandChecks, fld]; omega) fun is h ok => ⟨by simp [needsExt, is, h], fun _ =>
    ite_neg_eq (by simp [h]) (ite_pos_eq (by simp [h])
      (by simp only [firstIll_cons, okB_register] at ok; simp [h, ok]))⟩

theorem readsBack_ldlExt {d : Nat} {b : Src} {sb width : Nat} {off : Int} : ReadsBack (.ldlExt d b sb width off) :=
  readsBack_memoryExt 3 [] rfl rfl (fun w e => fld w 3 2 = 1 ∧ fld w 14 64 = d ∧ fld w 4 2 = b.isScalar ∧
    fld w 8 64 = b.num ∧ fld w 5 8 = sb ∧ fld w 0 8 = width ∧ e = unsigned32 off)
    (by simp only [operandChecks, fld]; omega) fun is h ok =>
    ⟨by simp [needsExt, is, h], ite_pos_eq (by simp [h])
      (by simp only [firstIll_cons, okB_register, okOffset] at ok; simp [h, ok])⟩

theorem readsBack_stl {d : Nat} {b : Src} {sb width : Nat} : ReadsBack (.stl d b sb width) :=
  readsBack_memory 4 [] rfl rfl (fun w => fld w 3 2 = 0 ∧ fld w 14 64 = d ∧ fld w 4 2 = b.isScalar ∧
    fld w 8 64 = b.num ∧ fld w 5 8 = sb ∧ fld w 0 8 = width)
    (by simp only [operandChecks, fld]; omega) fun is h ok => ⟨by simp [needsExt, is, h], fun _ =>
    ite_neg_eq (by simp [h]) (ite_pos_eq (by simp [h])
      (by simp only [firstIll_cons, okB_register] at ok; simp [h, ok]))⟩

theorem readsBack_stlExt {d : Nat} {b : Src} {sb width : Nat} {off : Int} : ReadsBack (.stlExt d b sb width off) :=
  readsBack_memoryExt 4 [] rfl rfl (fun w e => fld w 3 2 = 1 ∧ fld w 14 64 = d ∧ fld w 4 2 = b.isScalar ∧
    fld w 8 64 = b.num ∧ fld w 5 8 = sb ∧ fld w 0 8 = width ∧ e = unsigned32 off)
    (by simp only [operandChecks, fld]; omega) fun is h ok =>
    ⟨by simp [needsExt, is, h], ite_pos_eq (by simp [h])
      (by simp only [firstIll_cons, okB_register, okOffset] at ok; simp [h, ok])⟩

theorem readsBack_ldt {d b sb k : Nat} : ReadsBack (.ldt d b sb k) :=
  readsBack_memory 5 [] rfl rfl (fun w => fld w 14 64 = d ∧ fld w 8 64 = b ∧ fld w 5 8 = sb ∧ fld w 0 32 = k)
    (by simp only [operandChecks, fld]; omega)
    fun is h _ => ⟨by simp [needsExt, is, h], fun _ => congrArg some (by simp [h])⟩

theorem readsBack_hzadd {a b sb : Nat} : ReadsBack (.hzadd a b sb) :=
  readsBack_memory 6 [] rfl rfl (fun w => fld w 3 2 = 0 ∧ fld w 0 32 = 0 ∧ fld w 14 64 = a ∧ fld w 8 64 = b ∧
    fld w 5 8 = sb)
    (by simp only [operandChecks, fld]; omega) fun is h _ =>
    ⟨by simp [needsExt, is, h], fun _ => ite_neg_eq (by simp [h]) (ite_pos_eq (by simp [h]) (by simp [h]))⟩

theorem readsBack_hzaddExt {a b sb : Nat} {off : Int} : ReadsBack (.hzaddExt a b sb off) :=
  readsBack_memoryExt 6 [] rfl rfl (fun w e => fld w 3 2 = 1 ∧ fld w 0 8 = 0 ∧ fld w 4 2 = 0 ∧ fld w 14 64 = a ∧
    fld w 8 64 = b ∧ fld w 5 8 = sb ∧ e = unsigned32 off)
    (by simp only [operandChecks, fld]; omega) fun is h ok => ⟨by simp [needsExt, is, h],
    ite_pos_eq (by simp [h]) (ite_pos_eq (by simp [h]) (by simp only [firstIll_cons, okOffset] at ok; simp [h, ok]))⟩

theorem readsBack_hzsettle {l b sb : Nat} : ReadsBack (.hzsettle l b sb) :=
  readsBack_memory 7 [] rfl rfl (fun w => fld w 0 32 = 0 ∧ fld w 14 64 = l ∧ fld w 8 64 = b ∧ fld w 5 8 = sb)
    (by simp only [operandChecks, fld]; omega)
    fun is h _ => ⟨by simp [needsExt, is, h], fun _ => ite_pos_eq (by simp [h]) (by simp [h])⟩

theorem readsBack_pref {b sb : Nat} : ReadsBack (.pref b sb) :=
  readsBack_memory 8 [] rfl rfl (fun w => fld w 3 2 = 0 ∧ fld w 0 32 = 0 ∧ fld w 14 64 = 0 ∧ fld w 8 64 = b ∧
    fld w 5 8 = sb)
    (by simp only [operandChecks, fld]; omega) fun is h _ =>
    ⟨by simp [needsExt, is, h], fun _ => ite_neg_eq (by simp [h]) (ite_pos_eq (by simp [h]) (by simp [h]))⟩

theorem readsBack_prefExt {b sb : Nat} {off : Int} : ReadsBack (.prefExt b sb off) :=
  readsBack_memoryExt 8 [] rfl rfl (fun w e => fld w 3 2 = 1 ∧ fld w 0 8 = 0 ∧ fld w 4 2 = 0 ∧ fld w 14 64 = 0 ∧
    fld w 8 64 = b ∧ fld w 5 8 = sb ∧ e = unsigned32 off)
    (by simp only [operandChecks, fld]; omega) fun is h ok => ⟨by simp [needsExt, is, h],
    ite_pos_eq (by simp [h]) (ite_pos_eq (by simp [h]) (by simp only [firstIll_cons, okOffset] at ok; simp [h, ok]))⟩

theorem readsBack_wback {b sb : Nat} {all : Bool} : ReadsBack (.wback b sb all) :=
  readsBack_memory 9 [all] rfl rfl (fun w => fld w 3 2 = 0 ∧ fld w 0 16 = 0 ∧ fld w 14 64 = 0 ∧ fld w 4 2 = bit all ∧
    fld w 8 64 = b ∧ fld w 5 8 = sb)
    (by simp only [operandChecks, fld]; omega) fun is h _ =>
    ⟨by simp [needsExt, is, h], fun _ => ite_neg_eq (by simp [h]) (ite_pos_eq (by simp [h]) (by simp [h]))⟩

theorem readsBack_wbackExt {b sb : Nat} {off : Int} : ReadsBack (.wbackExt b sb off) :=
  readsBack_memoryExt 9 [] rfl rfl (fun w e => fld w 3 2 = 1 ∧ fld w 0 8 = 0 ∧ fld w 4 2 = 0 ∧ fld w 14 64 = 0 ∧
    fld w 8 64 = b ∧ fld w 5 8 = sb ∧ e = unsigned32 off)
    (by simp only [operandChecks, fld]; omega) fun is h ok => ⟨by simp [needsExt, is, h],
    ite_pos_eq (by simp [h]) (ite_pos_eq (by simp [h]) (by simp only [firstIll_cons, okOffset] at ok; simp [h, ok]))⟩

theorem readsBack_fence {sb kind scope : Nat} : ReadsBack (.fence sb kind scope) :=
  readsBack_memory 10 [] rfl rfl (fun w => fld w 8 4096 = 0 ∧ fld w 5 8 = sb ∧ fld w 3 4 = kind ∧ fld w 0 8 = scope)
    (by simp only [operandChecks, fld]; omega)
    fun is h _ => ⟨by simp [needsExt, is], fun _ => ite_pos_eq (by simp [h]) (by simp [h])⟩

theorem readsBack_atom {op b sb ord scope : Nat} : ReadsBack (.atom op b sb ord scope) :=
  readsBack_memory 11 [] rfl rfl (fun w => fld w 14 64 = op ∧ fld w 8 64 = b ∧ fld w 5 8 = sb ∧ fld w 3 4 = ord ∧
    fld w 0 8 = scope)
    (by simp only [operandChecks, fld]; omega)
    fun is h _ => ⟨by simp [needsExt, is], fun _ => congrArg some (by simp [h])⟩

theorem readsBack_atomv {esz op b sb ord scope : Nat} : ReadsBack (.atomv esz op b sb ord scope) :=
  readsBack_memory 12 [] rfl rfl (fun w => fld w 18 4 = esz ∧ fld w 14 16 = op ∧ fld w 8 64 = b ∧ fld w 5 8 = sb ∧
    fld w 3 4 = ord ∧ fld w 0 8 = scope)
    (by simp only [operandChecks, fld]; omega)
    fun is h _ => ⟨by simp [needsExt, is], fun _ => congrArg some (by simp [h])⟩

theorem readsBack_redm {op b sb ord scope : Nat} : ReadsBack (.redm op b sb ord scope) :=
  readsBack_memory 13 [] rfl rfl (fun w => fld w 14 64 = op ∧ fld w 8 64 = b ∧ fld w 5 8 = sb ∧ fld w 3 4 = ord ∧
    fld w 0 8 = scope)
    (by simp only [operandChecks, fld]; omega)
    fun is h _ => ⟨by simp [needsExt, is], fun _ => congrArg some (by simp [h])⟩

theorem readsBack_bar {k sb : Nat} : ReadsBack (.bar k sb) :=
  readsBack_memory 14 [] rfl rfl (fun w => fld w 0 32 = 0 ∧ fld w 8 64 = 0 ∧ fld w 14 64 = k ∧ fld w 5 8 = sb)
    (by simp only [operandChecks, fld]; omega)
    fun is h _ => ⟨by simp [needsExt, is, h], fun _ => ite_neg_eq (by simp [h]) (ite_neg_eq (by simp [h])
    (ite_pos_eq (by simp [h]) (by simp [h])))⟩

theorem readsBack_barArv {k sb : Nat} : ReadsBack (.barArv k sb) :=
  readsBack_memory 14 [] rfl rfl (fun w => fld w 0 32 = 1 ∧ fld w 8 64 = 0 ∧ fld w 14 64 = k ∧ fld w 5 8 = sb)
    (by simp only [operandChecks, fld]; omega)
    fun is h _ => ⟨by simp [needsExt, is, h], fun _ => ite_pos_eq (by simp [h]) (ite_pos_eq (by simp [h])
    (by simp [h]))⟩

theorem readsBack_barExp {k cnt sb : Nat} : ReadsBack (.barExp k cnt sb) :=
  readsBack_memory 14 [] rfl rfl (fun w => fld w 0 32 = 2 ∧ fld w 8 64 = cnt ∧ fld w 14 64 = k ∧ fld w 5 8 = sb)
    (by simp only [operandChecks, fld]; omega)
    fun is h _ => ⟨by simp [needsExt, is, h], fun _ => ite_neg_eq (by simp [h]) (ite_pos_eq (by simp [h])
    (by simp [h]))⟩

theorem readsBack_gbar {g sb : Nat} : ReadsBack (.gbar g sb) :=
  readsBack_memory 15 [] rfl rfl (fun w => fld w 0 32 = 0 ∧ fld w 8 64 = 0 ∧ fld w 14 64 = g ∧ fld w 5 8 = sb)
    (by simp only [operandChecks, fld]; omega)
    fun is h _ => ⟨by simp [needsExt, is, h], fun _ => ite_pos_eq (by simp [h]) (by simp [h])⟩

/-! ## The engine and system maps -/

theorem readsBack_accumulator {opc : Nat} {l : List (Bool × Ill)} {mk : Nat → Nat → Nat → Instr} {d a sb : Nat}
    (checks : (mk d a sb).ill = firstIll l)
    (code : encode (mk d a sb) = some ⟨2, opc * 1048576 + d * 16384 + a * 256 + sb, none⟩)
    (row : ∀ w x, decodeEngine opc w x =
      if fld w 3 32 == 0 then some (mk (fld w 14 64) (fld w 8 64) (fld w 0 8)) else none)
    (bounds : firstIll l = none → d < 64 ∧ a < 64 ∧ sb < 7 := by simp only [firstIll_cons, decide_eq_true_eq]; omega)
    (fixed : engineExt opc false = true := by decide) : ReadsBack (mk d a sb) :=
  readsBack_engine opc fixed [] checks code
    (fun w => fld w 3 32 = 0 ∧ fld w 14 64 = d ∧ fld w 8 64 = a ∧ fld w 0 8 = sb)
    (fun w is ok _ => by have := bounds ok; simp only [fld]; omega)
    (fun h _ _ => by simp [row, h])

theorem readsBack_mma {ta tb r k c0 : Nat} {z ea eb pr : Bool} : ReadsBack (.mma ta tb r k c0 z ea eb pr) :=
  readsBack_engineExt 0 rfl [z, ea, eb, pr] rfl rfl (fun w e => fld e 20 4096 = 0 ∧ fld w 14 64 = ta ∧ fld w 8 64 = tb ∧
    fld w 0 256 = r ∧ fld e 0 4096 = k ∧ fld e 12 16 = c0 ∧ fld e 16 2 = bit z ∧ fld e 17 2 = bit ea ∧
    fld e 18 2 = bit eb ∧ fld e 19 2 = bit pr)
    (by simp only [operandChecks, fld]; omega) fun h _ => ite_pos_eq (by simp [h]) (by simp [h])

theorem readsBack_mmas {ta tb r k c0 : Nat} {z ea eb pr : Bool} : ReadsBack (.mmas ta tb r k c0 z ea eb pr) :=
  readsBack_engineExt 1 rfl [z, ea, eb, pr] rfl rfl (fun w e => fld e 20 4096 = 0 ∧ fld w 14 64 = ta ∧ fld w 8 64 = tb ∧
    fld w 0 256 = r ∧ fld e 0 4096 = k ∧ fld e 12 16 = c0 ∧ fld e 16 2 = bit z ∧ fld e 17 2 = bit ea ∧
    fld e 18 2 = bit eb ∧ fld e 19 2 = bit pr)
    (by simp only [operandChecks, fld]; omega) fun h _ => ite_pos_eq (by simp [h]) (by simp [h])

theorem readsBack_mzero {r n1 sb : Nat} : ReadsBack (.mzero r n1 sb) :=
  readsBack_engine 2 rfl [] rfl rfl (fun w => fld w 3 2 = 0 ∧ fld w 12 256 = r ∧ fld w 4 256 = n1 ∧ fld w 0 8 = sb)
    (by simp only [operandChecks, fld]; omega) fun h _ _ => ite_pos_eq (by simp [h]) (by simp [h])

theorem readsBack_maccOut {t r sb rnd : Nat} {hi : Bool} {c0 : Nat} : ReadsBack (.maccOut t r sb rnd hi c0) :=
  readsBack_engineExt 3 rfl [hi] rfl rfl (fun w e => fld w 5 2 = 0 ∧ fld w 3 8 = 0 ∧ fld e 3 2 = 0 ∧
    fld e 9 8388608 = 0 ∧ fld w 14 64 = t ∧ fld w 6 256 = r ∧ fld w 0 8 = sb ∧ fld e 0 8 = rnd ∧
    fld e 4 2 = bit hi ∧ fld e 5 16 = c0)
    (by simp only [operandChecks, fld]; omega)
    fun h _ => ite_neg_eq (by simp [h]) (ite_pos_eq (by simp [h]) (by simp [h]))

theorem readsBack_maccIn {t r sb rnd : Nat} {add hi : Bool} {c0 : Nat} : ReadsBack (.maccIn t r sb rnd add hi c0) :=
  readsBack_engineExt 3 rfl [add, hi] rfl rfl (fun w e => fld w 5 2 = 1 ∧ fld w 3 4 = 0 ∧ fld e 9 8388608 = 0 ∧
    fld w 14 64 = t ∧ fld w 6 256 = r ∧ fld w 0 8 = sb ∧ fld e 0 8 = rnd ∧ fld e 3 2 = bit add ∧ fld e 4 2 = bit hi ∧
    fld e 5 16 = c0)
    (by simp only [operandChecks, fld]; omega)
    fun h _ => ite_pos_eq (by simp [h]) (ite_pos_eq (by simp [h]) (by simp [h]))

theorem readsBack_mloop {ta tb sd : Nat} : ReadsBack (.mloop ta tb sd) :=
  readsBack_engine 4 rfl [] rfl rfl (fun w => fld w 0 8 = 0 ∧ fld w 14 64 = ta ∧ fld w 8 64 = tb ∧ fld w 3 32 = sd)
    (by simp only [operandChecks, fld]; omega) fun h _ _ => ite_pos_eq (by simp [h]) (by simp [h])

theorem readsBack_talloc {p t sg sb : Nat} : ReadsBack (.talloc p t sg sb) :=
  readsBack_engine 5 rfl [] rfl rfl (fun w => fld w 3 4 = 0 ∧ fld w 16 16 = p ∧ fld w 10 64 = t ∧ fld w 5 32 = sg ∧
    fld w 0 8 = sb)
    (by simp only [operandChecks, fld]; omega) fun h _ _ => ite_pos_eq (by simp [h]) (by simp [h])

theorem readsBack_tfree {t sb : Nat} : ReadsBack (.tfree t sb) :=
  readsBack_engine 6 rfl [] rfl rfl (fun w => fld w 3 2048 = 0 ∧ fld w 14 64 = t ∧ fld w 0 8 = sb)
    (by simp only [operandChecks, fld]; omega) fun h _ _ => ite_pos_eq (by simp [h]) (by simp [h])

theorem readsBack_tcopy {t sd : Nat} {acq rel : Bool} {scope : Nat} {ir : Bool} {sb rnd slot : Nat} {cv hi : Bool} :
    ReadsBack (.tcopy t sd acq rel scope ir sb rnd slot cv hi) :=
  readsBack_engineExt 7 rfl [acq, rel, ir, cv, hi] rfl rfl (fun w e => fld e 8 16777216 = 0 ∧ fld w 14 64 = t ∧
    fld w 9 32 = sd ∧ fld w 8 2 = bit acq ∧ fld w 7 2 = bit rel ∧ fld w 4 8 = scope ∧ fld w 3 2 = bit ir ∧
    fld w 0 8 = sb ∧ fld e 0 8 = rnd ∧ fld e 3 8 = slot ∧ fld e 6 2 = bit cv ∧ fld e 7 2 = bit hi)
    (by simp only [operandChecks, fld]; omega) fun h _ => ite_pos_eq (by simp [h]) (by simp [h])

theorem readsBack_tchain {sh ch : Nat} {ir : Bool} {scope sb : Nat} : ReadsBack (.tchain sh ch ir scope sb) :=
  readsBack_engine 8 rfl [ir] rfl rfl (fun w => fld w 3 32 = 0 ∧ fld w 15 32 = sh ∧ fld w 12 8 = ch ∧
    fld w 11 2 = bit ir ∧ fld w 8 8 = scope ∧ fld w 0 8 = sb)
    (by simp only [operandChecks, fld]; omega) fun h _ _ => ite_pos_eq (by simp [h]) (by simp [h])

theorem readsBack_tstore {t sd : Nat} {acq rel : Bool} {scope : Nat} {ir : Bool} {sb rnd slot : Nat} {cv hi : Bool} :
    ReadsBack (.tstore t sd acq rel scope ir sb rnd slot cv hi) :=
  readsBack_engineExt 9 rfl [acq, rel, ir, cv, hi] rfl rfl (fun w e => fld e 8 2 = 0 ∧ fld e 8 16777216 = 0 ∧
    fld w 14 64 = t ∧ fld w 9 32 = sd ∧ fld w 8 2 = bit acq ∧ fld w 7 2 = bit rel ∧ fld w 4 8 = scope ∧
    fld w 3 2 = bit ir ∧ fld w 0 8 = sb ∧ fld e 0 8 = rnd ∧ fld e 3 8 = slot ∧ fld e 6 2 = bit cv ∧ fld e 7 2 = bit hi)
    (by simp only [operandChecks, fld]; omega)
    fun h _ => ite_neg_eq (by simp [h]) (ite_pos_eq (by simp [h]) (by simp [h]))

theorem readsBack_tstoreHz {sd : Nat} {acq rel : Bool} {scope : Nat} {ir : Bool} {sb : Nat} {hi : Bool}
    {r rows1 c0 : Nat} : ReadsBack (.tstoreHz sd acq rel scope ir sb hi r rows1 c0) :=
  readsBack_engineExt 9 rfl [acq, rel, ir, hi] rfl rfl (fun w e => fld e 8 2 = 1 ∧ fld w 14 64 = 0 ∧ fld e 0 128 = 0 ∧
    fld e 29 8 = 0 ∧ fld w 9 32 = sd ∧ fld w 8 2 = bit acq ∧ fld w 7 2 = bit rel ∧ fld w 4 8 = scope ∧
    fld w 3 2 = bit ir ∧ fld w 0 8 = sb ∧ fld e 7 2 = bit hi ∧ fld e 9 256 = r ∧ fld e 17 256 = rows1 ∧
    fld e 25 16 = c0)
    (by simp only [operandChecks, fld]; omega)
    fun h _ => ite_pos_eq (by simp [h]) (ite_pos_eq (by simp [h]) (by simp [h]))

theorem readsBack_tfill {t sv : Nat} {hi : Bool} {sb : Nat} : ReadsBack (.tfill t sv hi sb) :=
  readsBack_engine 10 rfl [hi] rfl rfl (fun w => fld w 3 32 = 0 ∧ fld w 14 64 = t ∧ fld w 9 32 = sv ∧
    fld w 8 2 = bit hi ∧ fld w 0 8 = sb)
    (by simp only [operandChecks, fld]; omega) fun h _ _ => ite_pos_eq (by simp [h]) (by simp [h])

theorem readsBack_seqbar {k : Nat} : ReadsBack (.seqbar k) :=
  readsBack_engine 11 rfl [] rfl rfl (fun w => fld w 14 4 = 0 ∧ fld w 0 65536 = 0 ∧ fld w 16 16 = k)
    (by simp only [operandChecks, fld]; omega)
    fun h _ _ => ite_neg_eq (by simp [h]) (ite_neg_eq (by simp [h]) (ite_pos_eq (by simp [h]) (by simp [h])))

theorem readsBack_seqbarArv {k : Nat} : ReadsBack (.seqbarArv k) :=
  readsBack_engine 11 rfl [] rfl rfl (fun w => fld w 14 4 = 1 ∧ fld w 0 16384 = 0 ∧ fld w 16 16 = k)
    (by simp only [operandChecks, fld]; omega)
    fun h _ _ => ite_pos_eq (by simp [h]) (ite_pos_eq (by simp [h]) (by simp [h]))

theorem readsBack_seqbarWait {k : Nat} : ReadsBack (.seqbarWait k) :=
  readsBack_engine 11 rfl [] rfl rfl (fun w => fld w 14 4 = 2 ∧ fld w 0 16384 = 0 ∧ fld w 16 16 = k)
    (by simp only [operandChecks, fld]; omega)
    fun h _ _ => ite_neg_eq (by simp [h]) (ite_pos_eq (by simp [h]) (ite_pos_eq (by simp [h]) (by simp [h])))

theorem readsBack_awset {sg sb0 sl : Nat} {last : Bool} : ReadsBack (.awset sg sb0 sl last) :=
  readsBack_engine 14 rfl [last] rfl rfl (fun w => fld w 0 16 = 0 ∧ fld w 15 32 = sg ∧ fld w 10 32 = sb0 ∧
    fld w 5 32 = sl ∧ fld w 4 2 = bit last)
    (by simp only [operandChecks, fld]; omega) fun h _ _ => ite_pos_eq (by simp [h]) (by simp [h])

theorem readsBack_txinit {x c sb : Nat} : ReadsBack (.txinit x c sb) :=
  readsBack_engine 15 rfl [] rfl rfl (fun w => fld w 3 128 = 0 ∧ fld w 15 32 = x ∧ fld w 10 32 = c ∧ fld w 0 8 = sb)
    (by simp only [operandChecks, fld]; omega) fun h _ _ => ite_pos_eq (by simp [h]) (by simp [h])

theorem readsBack_txexp {x cnt sb : Nat} : ReadsBack (.txexp x cnt sb) :=
  readsBack_engine 16 rfl [] rfl rfl (fun w => fld w 3 128 = 0 ∧ fld w 15 32 = x ∧ fld w 10 32 = cnt ∧ fld w 0 8 = sb)
    (by simp only [operandChecks, fld]; omega) fun h _ _ => ite_pos_eq (by simp [h]) (by simp [h])

theorem readsBack_txarv {x cnt : Nat} {exp one : Bool} {sb : Nat} : ReadsBack (.txarv x cnt exp one sb) :=
  readsBack_engine 17 rfl [exp, one] rfl rfl (fun w => fld w 3 32 = 0 ∧ fld w 15 32 = x ∧ fld w 10 32 = cnt ∧
    fld w 9 2 = bit exp ∧ fld w 8 2 = bit one ∧ fld w 0 8 = sb)
    (by simp only [operandChecks, fld]; omega) fun h _ _ => ite_pos_eq (by simp [h]) (by simp [h])

theorem readsBack_txwait {x ph : Nat} : ReadsBack (.txwait x ph) :=
  readsBack_engine 18 rfl [] rfl rfl (fun w => fld w 0 1024 = 0 ∧ fld w 15 32 = x ∧ fld w 10 32 = ph)
    (by simp only [operandChecks, fld]; omega) fun h _ _ => ite_pos_eq (by simp [h]) (by simp [h])

theorem readsBack_txtest {p x ph sb : Nat} : ReadsBack (.txtest p x ph sb) :=
  readsBack_engine 19 rfl [] rfl rfl (fun w => fld w 3 8 = 0 ∧ fld w 16 16 = p ∧ fld w 11 32 = x ∧ fld w 6 32 = ph ∧
    fld w 0 8 = sb)
    (by simp only [operandChecks, fld]; omega) fun h _ _ => ite_pos_eq (by simp [h]) (by simp [h])

theorem readsBack_twait {t state : Nat} : ReadsBack (.twait t state) :=
  readsBack_engine 20 rfl [] rfl rfl (fun w => fld w 0 4096 = 0 ∧ fld w 14 64 = t ∧ fld w 12 4 = state)
    (by simp only [operandChecks, fld]; omega) fun h _ _ => ite_pos_eq (by simp [h]) (by simp [h])

theorem readsBack_srdp {d rsel : Nat} : ReadsBack (.srdp d rsel) :=
  readsBack_system 0 [] rfl rfl (fun w => fld w 8 64 = 0 ∧ fld w 14 64 = d ∧ fld w 0 256 = rsel)
    (by simp only [operandChecks, fld]; omega) fun h _ _ => ite_pos_eq (by simp [h]) (by simp [h])

theorem readsBack_swrp {rsel s : Nat} : ReadsBack (.swrp rsel s) :=
  readsBack_system 1 [] rfl rfl (fun w => fld w 0 8 = 0 ∧ fld w 8 64 = 0 ∧ fld w 14 64 = rsel ∧ fld w 3 32 = s)
    (by simp only [operandChecks, fld]; omega) fun h _ _ => ite_pos_eq (by simp [h]) (by simp [h])

theorem readsBack_trapret : ReadsBack .trapret :=
  readsBack_system (l := []) 2 [] rfl rfl (fun w => fld w 0 1048576 = 0)
    (by simp only [fld]; omega) fun h _ _ => ite_pos_eq (by simp [h]) rfl

theorem readsBack_pdone {s : Nat} : ReadsBack (.pdone s) :=
  readsBack_system 3 [] rfl rfl (fun w => fld w 0 8 = 0 ∧ fld w 8 4096 = 0 ∧ fld w 3 32 = s)
    (by simp only [operandChecks, fld]; omega) fun h _ _ => ite_pos_eq (by simp [h]) (by simp [h])

theorem readsBack_tlbinv {a : Nat} {all : Bool} : ReadsBack (.tlbinv a all) :=
  readsBack_system 4 [all] rfl rfl (fun w => fld w 1 128 = 0 ∧ fld w 14 64 = 0 ∧ fld w 8 64 = a ∧ fld w 0 2 = bit all)
    (by simp only [operandChecks, fld]; omega) fun h _ _ => ite_pos_eq (by simp [h]) (by simp [h])

theorem readsBack_ctxwb : ReadsBack .ctxwb :=
  readsBack_system (l := []) 5 [] rfl rfl (fun w => fld w 0 1048576 = 0)
    (by simp only [fld]; omega) fun h _ _ => ite_pos_eq (by simp [h]) rfl

theorem readsBack_hzreclaim : ReadsBack .hzreclaim :=
  readsBack_system (l := []) 6 [] rfl rfl (fun w => fld w 0 1048576 = 0)
    (by simp only [fld]; omega) fun h _ _ => ite_pos_eq (by simp [h]) rfl

theorem readsBack_dbgrd {d a obj : Nat} : ReadsBack (.dbgrd d a obj) :=
  readsBack_system 7 [] rfl rfl (fun w => fld w 14 64 = d ∧ fld w 8 64 = a ∧ fld w 0 256 = obj)
    (by simp only [operandChecks, fld]; omega) fun h _ _ => congrArg some (by simp [h])

end Sys2Proof.Proofs
end

section
/-!
SUPPORT. Every well-formed instruction reads back from its words, and the statements about decoding and encoding.
-/
namespace Sys2Proof.Proofs

theorem width_lt_of_okLoad {m : Acc} (h : m.okLoad = true) : m.width < 8 := by
  cases m <;> simp_all [Acc.okLoad, Acc.width]
  omega

theorem width_lt_of_okStore {m : Acc} (h : m.okStore = true) : m.width < 8 := by
  cases m <;> simp_all [Acc.okStore, Acc.width]
  omega

theorem width_lt_of_okLds {m : Acc} (h : m.okLds = true) : m.width < 8 := by
  cases m <;> simp_all [Acc.okLds, Acc.width]
  omega

/-- Every row of the four maps, by its lemma; the events and the instructions of the test port have no words. -/
theorem readsBack (i : Instr) : ReadsBack i := by
  cases i
  case iadd d a b => exact readsBack_vectorSource (opc := 0) rfl (by simp [encode]) fun _ _ => rfl
  case isub d a b | imul d a b | iadd64 d a b | and d a b | or d a b | xor d a b | andn d a b | orn d a b | shl d a b |
      shr d a b | sar d a b | rol d a b | shl64 d a b =>
    exact readsBack_vectorSource rfl rfl fun _ _ => rfl
  case iaddc d a c b | isubb d a c b | sel d a c b | fsetp d a c b | dsetp d a c b =>
    exact readsBack_predicateAndSource rfl rfl fun _ _ => rfl
  case fadd d a rnd b | fsub d a rnd b | fmul d a rnd b => exact readsBack_roundedSource rfl rfl fun _ _ => rfl
  case imulh d a b u | imin d a b u | imax d a b u | fmin d a b u | fmax d a b u | dmin d a b u | dmax d a b u =>
    exact readsBack_registerAndFlag rfl rfl fun _ _ => rfl
  case sadd d a b | ssub d a b | smul d a b | sand d a b | sor d a b | sxor d a b | sshl d a b =>
    exact readsBack_uniformSource rfl rfl fun _ _ => rfl
  case iabs d a f | ineg d a f | mov d a f | smov d a f | fclass d a f => exact readsBack_flagged rfl rfl fun _ _ => rfl
  case not d a | popc d a | clz d a | ctz d a | brev d a | frcp d a | frsq d a | fsqrt d a | fexp2 d a | flog2 d a |
      fsinpi d a | fcospi d a =>
    exact readsBack_unary rfl rfl fun _ _ => rfl
  case mjoin m | mleave m | mwait m => exact readsBack_mask rfl rfl fun _ _ => rfl
  case redmin d a m f op | redmax d a m f op | scan d a m f op => exact readsBack_crossLane rfl rfl fun _ _ => rfl
  case bra p off | bany p off | ball p off | bnone p off | bdiv p off =>
    exact readsBack_branch (fun _ _ => rfl) (by decide) rfl rfl
  case braLong p off | banyLong p off | ballLong p off | bnoneLong p off | bdivLong p off =>
    exact readsBack_branchLong (fun _ _ => rfl) (by decide) rfl rfl
  case ld d b sb w => exact readsBack_weak (opc := 0) (fun _ _ => rfl) (by decide) rfl (by simp [encode])
  case st d b sb w | lds d b sb w => exact readsBack_weak (fun _ _ => rfl) (by decide) rfl rfl
  case ldExt d b sb acc off =>
    exact readsBack_access (opc := 0) (fun _ _ => rfl) (by decide) rfl (by simp [encode]) fun ok =>
      width_lt_of_okLoad (by simp_all [firstIll_cons])
  case stExt d b sb acc off =>
    exact readsBack_access (fun _ _ => rfl) (by decide) rfl rfl fun ok =>
      width_lt_of_okStore (by simp_all [firstIll_cons])
  case ldsExt d b sb acc off =>
    exact readsBack_access (fun _ _ => rfl) (by decide) rfl rfl fun ok =>
      width_lt_of_okLds (by simp_all [firstIll_cons])
  case accrd d a sb | accwr d a sb | tstate d a sb => exact readsBack_accumulator rfl rfl fun _ _ => rfl
  case exit => exact readsBack_exit
  case imad => exact readsBack_imad
  case idot4 => exact readsBack_idot4
  case lea => exact readsBack_lea
  case isetp => exact readsBack_isetp
  case lop3 => exact readsBack_lop3
  case fshl => exact readsBack_fshl
  case bfx => exact readsBack_bfx
  case bfi => exact readsBack_bfi
  case movi => exact readsBack_movi
  case movs => exact readsBack_movs
  case sread => exact readsBack_sread
  case plop => exact readsBack_plop
  case pmov => exact readsBack_pmov
  case sshr => exact readsBack_sshr
  case smovi => exact readsBack_smovi
  case ssetp => exact readsBack_ssetp
  case slane => exact readsBack_slane
  case jmp => exact readsBack_jmp
  case call => exact readsBack_call
  case calli => exact readsBack_calli
  case ret => exact readsBack_ret
  case fspawn => exact readsBack_fspawn
  case yield => exact readsBack_yield
  case nop => exact readsBack_nop
  case bkpt => exact readsBack_bkpt
  case utrap => exact readsBack_utrap
  case mset => exact readsBack_mset
  case mget => exact readsBack_mget
  case vote => exact readsBack_vote
  case matchl => exact readsBack_matchl
  case shfl => exact readsBack_shfl
  case redadd => exact readsBack_redadd
  case fredadd => exact readsBack_fredadd
  case redlog => exact readsBack_redlog
  case ffma => exact readsBack_ffma
  case fdiv => exact readsBack_fdiv
  case dadd => exact readsBack_dadd
  case dmul => exact readsBack_dmul
  case dfma => exact readsBack_dfma
  case ddiv => exact readsBack_ddiv
  case hadd2 => exact readsBack_hadd2
  case hmul2 => exact readsBack_hmul2
  case hfma2 => exact readsBack_hfma2
  case cmul => exact readsBack_cmul
  case cfma => exact readsBack_cfma
  case cvtff => exact readsBack_cvtff
  case cvtfi => exact readsBack_cvtfi
  case cvtif => exact readsBack_cvtif
  case cvtpk => exact readsBack_cvtpk
  case cvtunpk => exact readsBack_cvtunpk
  case cvtw => exact readsBack_cvtw
  case ldl => exact readsBack_ldl
  case ldlExt => exact readsBack_ldlExt
  case stl => exact readsBack_stl
  case stlExt => exact readsBack_stlExt
  case ldt => exact readsBack_ldt
  case hzadd => exact readsBack_hzadd
  case hzaddExt => exact readsBack_hzaddExt
  case hzsettle => exact readsBack_hzsettle
  case pref => exact readsBack_pref
  case prefExt => exact readsBack_prefExt
  case wback => exact readsBack_wback
  case wbackExt => exact readsBack_wbackExt
  case fence => exact readsBack_fence
  case atom => exact readsBack_atom
  case atomv => exact readsBack_atomv
  case redm => exact readsBack_redm
  case bar => exact readsBack_bar
  case barArv => exact readsBack_barArv
  case barExp => exact readsBack_barExp
  case gbar => exact readsBack_gbar
  case mma => exact readsBack_mma
  case mmas => exact readsBack_mmas
  case mzero => exact readsBack_mzero
  case maccOut => exact readsBack_maccOut
  case maccIn => exact readsBack_maccIn
  case mloop => exact readsBack_mloop
  case talloc => exact readsBack_talloc
  case tfree => exact readsBack_tfree
  case tcopy => exact readsBack_tcopy
  case tchain => exact readsBack_tchain
  case tstore => exact readsBack_tstore
  case tstoreHz => exact readsBack_tstoreHz
  case tfill => exact readsBack_tfill
  case seqbar => exact readsBack_seqbar
  case seqbarArv => exact readsBack_seqbarArv
  case seqbarWait => exact readsBack_seqbarWait
  case awset => exact readsBack_awset
  case txinit => exact readsBack_txinit
  case txexp => exact readsBack_txexp
  case txarv => exact readsBack_txarv
  case txwait => exact readsBack_txwait
  case txtest => exact readsBack_txtest
  case twait => exact readsBack_twait
  case srdp => exact readsBack_srdp
  case swrp => exact readsBack_swrp
  case trapret => exact readsBack_trapret
  case pdone => exact readsBack_pdone
  case tlbinv => exact readsBack_tlbinv
  case ctxwb => exact readsBack_ctxwb
  case hzreclaim => exact readsBack_hzreclaim
  case dbgrd => exact readsBack_dbgrd
  all_goals exact fun _ c is => nomatch is

theorem decodeTap_encodeTap {i : Instr} {k : Nat} (is : encodeTap i = some k) : k < 2 ^ 8 ∧ decodeTap k = i := by
  cases i
  case bypass | idcode | frzsel | frzread =>
    cases is
    exact ⟨by decide, rfl⟩
  all_goals nomatch is

/-! ## The statements -/

/-- Settles O57: the words of every instruction read back row by row, and the codes of the test port one by one. -/
theorem roundTrip : Obligations.RoundTrip := by
  refine ⟨fun i c wf is => ?_, fun _ _ => decodeTap_encodeTap⟩
  obtain ⟨word, ext, asks, row⟩ := readsBack i wf c is
  refine ⟨word, ext, asks, fun x some => ?_, fun none x => ?_⟩
  · exact decodeInstr_of_row (by simpa [some] using row x) wf
  · exact decodeInstr_of_row (by simpa [none] using row x) wf

/-- The codes without an instruction of their own (R367). -/
theorem decodeTap_eq_bypass {k : Nat} (idcode : k ≠ 0x01) (frzsel : k ≠ 0x20) (frzread : k ≠ 0x21) :
    decodeTap k = .bypass := by
  simp [decodeTap, idcode, frzsel, frzread]

/-- Settles O56: each word is decoded, by class; a code of the test port that is none of the three selects BYPASS. -/
theorem decodeWords : Obligations.DecodeWords := by
  refine ⟨
    -- class compute
    rfl, rfl, rfl, rfl, rfl, rfl, rfl, rfl, rfl, rfl, rfl, rfl, rfl,
    -- class memory
    rfl, rfl, rfl, rfl,
    -- class engine
    rfl, rfl, rfl, rfl,
    -- class system
    rfl, rfl,
    ?headerOfSix, ?headerOfOne, rfl, rfl, rfl, fun _ => decodeTap_eq_bypass⟩
  case headerOfSix => decide
  case headerOfOne => decide

end Sys2Proof.Proofs
end

section
/-!
SUPPORT. The integer functions of R198 to R209, as the rules give them: by the value of a word or bit by bit.
-/
namespace Sys2Proof.Proofs
open Sys2Proof.Machine Sys2Proof.Laws

/-! ## Shifts (R199) -/

/-- A shift left is the product with a power of two; of a count beyond the word nothing is left. -/
theorem ite_shiftLeft {w : Nat} (x : BitVec w) (n : Nat) :
    (if n < w then x <<< n else 0) = BitVec.ofNat w (x.toNat * 2 ^ n) := by
  have product : x <<< n = BitVec.ofNat w (x.toNat * 2 ^ n) :=
    BitVec.eq_of_toNat_eq (by simp [Nat.shiftLeft_eq])
  rw [← product]
  split
  · rfl
  · next far => exact (BitVec.shiftLeft_eq_zero (Nat.le_of_not_lt far)).symm

theorem shlWord_eq (a n : W32) : shlWord a n = BitVec.ofNat 32 (a.toNat * 2 ^ n.toNat) :=
  ite_shiftLeft a n.toNat

theorem shrWord_eq (a n : W32) : shrWord a n = BitVec.ofNat 32 (a.toNat / 2 ^ n.toNat) := by
  have quotient : a >>> n.toNat = BitVec.ofNat 32 (a.toNat / 2 ^ n.toNat) := by
    rw [← Nat.shiftRight_eq_div_pow, ← BitVec.toNat_ushiftRight, BitVec.ofNat_toNat, BitVec.setWidth_eq]
  rw [← quotient, shrWord]
  split
  · rfl
  · next far => exact (BitVec.ushiftRight_eq_zero (Nat.le_of_not_lt far)).symm

/-- From 32 places on a signed shift leaves the sign alone, so the count may be cut at 32. -/
theorem sshiftRight_min (a : W32) (n : Nat) : a.sshiftRight (min n 32) = a.sshiftRight n := by
  ext i hi
  rw [BitVec.getElem_sshiftRight, BitVec.getElem_sshiftRight]
  rcases Nat.le_total n 32 with near | far
  · simp only [min_eq_left near]
  · rw [dif_neg (by omega), dif_neg (by omega)]

theorem sarWord_eq (a n : W32) : sarWord a n = BitVec.ofInt 32 (a.toInt / 2 ^ n.toNat) := by
  rw [sarWord, sshiftRight_min, BitVec.sshiftRight_eq, Int.shiftRight_eq_div_pow]
  norm_cast

/-- The left half of a pair shifted left: what leaves the pair at the top is not in it (R208). -/
theorem funnelShift_eq (a b : W32) (n : Nat) :
    funnelShift a b n = BitVec.ofNat 32 ((a.toNat * 2 ^ 32 + b.toNat) * 2 ^ (n % 32) / 2 ^ 32) := by
  apply BitVec.eq_of_toNat_eq
  rw [funnelShift, BitVec.toNat_ofNat, BitVec.toNat_ofNat]
  generalize (a.toNat * 2 ^ 32 + b.toNat) * 2 ^ (n % 32) = pair
  omega

/-! ## The smaller, the larger, the negative and the magnitude (R200, R201) -/

/-- A choice by order that does not depend on it between equals. -/
theorem ite_le_eq_ite_lt {α β γ : Type} [LinearOrder β] {f : α → β} (inj : Function.Injective f) {a b : α} {x y : γ}
    (same : a = b → x = y) : (if f a ≤ f b then x else y) = if f a < f b then x else y := by
  rcases lt_trichotomy (f a) (f b) with less | equal | greater
  · rw [if_pos less.le, if_pos less]
  · rw [if_pos equal.le, if_neg equal.not_lt, same (inj equal)]
  · rw [if_neg greater.not_ge, if_neg greater.not_gt]

theorem toInt_injective : Function.Injective (BitVec.toInt : W32 → Int) := fun _ _ => BitVec.eq_of_toInt_eq

/-- A choice between words by their order, signed or unsigned. -/
theorem ite_leWord {γ : Type} (u : Bool) {a b : W32} {x y : γ} (same : a = b → x = y) :
    (if leWord u a b then x else y) =
      if u then (if a.toNat < b.toNat then x else y) else (if a.toInt < b.toInt then x else y) := by
  cases u
  · simpa [leWord] using ite_le_eq_ite_lt toInt_injective same
  · simpa [leWord] using ite_le_eq_ite_lt BitVec.toNat_injective same

theorem minWord_eq (u : Bool) (a b : W32) :
    minWord u a b = if u then (if a.toNat < b.toNat then a else b) else (if a.toInt < b.toInt then a else b) :=
  ite_leWord u id

theorem maxWord_eq (u : Bool) (a b : W32) :
    maxWord u a b = if u then (if a.toNat < b.toNat then b else a) else (if a.toInt < b.toInt then b else a) :=
  ite_leWord u Eq.symm

theorem negWord_eq (sat : Bool) (a : W32) :
    negWord sat a = if sat = true ∧ a = 0x80000000#32 then 0x7FFFFFFF#32 else -a := by
  simp [negWord]

theorem absWord_eq (sat : Bool) (a : W32) :
    absWord sat a = if sat = true ∧ a = 0x80000000#32 then 0x7FFFFFFF#32 else BitVec.ofInt 32 |a.toInt| := by
  unfold absWord
  split
  · next negative =>
    rw [negWord_eq, abs_of_neg (BitVec.toInt_neg_of_msb_true negative), BitVec.ofInt_neg, BitVec.ofInt_toInt]
  · next positive =>
    have msb : a.msb = false := by simpa using positive
    have not_least : a ≠ 0x80000000#32 := by
      rintro rfl
      contradiction
    rw [if_neg (not_least ·.2), abs_of_nonneg (BitVec.toInt_nonneg_of_msb_false msb), BitVec.ofInt_toInt]

/-! ## Counting and finding bits (R201) -/

theorem popCount_eq (a : W32) : popCount a = (List.range 32).countP a.getLsbD :=
  List.countP_eq_length_filter.symm

theorem trailingZeros_eq (a : W32) : trailingZeros a = ((List.range 32).find? a.getLsbD).getD 32 := by
  rw [trailingZeros, lanesOf, List.headD_eq_head?_getD, List.head?_filter]

theorem leadingZeros_eq (a : W32) :
    leadingZeros a = ((List.range 32).find? fun k => a.getLsbD (31 - k)).getD 32 := by
  unfold leadingZeros
  split
  · next zero =>
    have none_set : ((List.range 32).find? fun k => a.getLsbD (31 - k)) = none := by simp [zero]
    rw [none_set, Option.getD_none]
  · next some_set =>
    have nonzero : a.toNat ≠ 0 := fun h => some_set (BitVec.eq_of_toNat_eq h)
    have top : a.toNat.log2 < 32 := (Nat.log2_lt nonzero).mpr a.isLt
    have found : ((List.range 32).find? fun k => a.getLsbD (31 - k)) = some (31 - a.toNat.log2) := by
      refine List.find?_range_eq_some.mpr ⟨?_, List.mem_range.mpr (by omega), fun k hk => ?_⟩
      · rw [Nat.sub_sub_self (by omega)]
        exact Nat.testBit_log2 nonzero
      · have above : a.toNat < 2 ^ (31 - k) := (Nat.log2_lt nonzero).mp (by omega)
        exact Bool.not_eq_true' _ |>.mpr (Nat.testBit_lt_two_pow above)
    rw [found, Option.getD_some]

/-- A lane set is the word with the bits of its condition. -/
theorem eq_laneSet {x : W32} {p : Nat → Bool} (h : ∀ i, i < 32 → x.getLsbD i = p i) : x = laneSet p :=
  BitVec.eq_of_getLsbD_eq fun i hi => by rw [h i hi, getLsbD_laneSet, decide_eq_true hi, Bool.true_and]

theorem reverseWord_eq (a : W32) : reverseWord a = a.reverse :=
  (eq_laneSet fun i hi => by rw [BitVec.getLsbD_reverse, BitVec.getMsbD, decide_eq_true hi, Bool.true_and]).symm

/-! ## Sums with a carry and differences with a borrow (R202) -/

theorem boolWord_eq (k : Bool) : boolWord k = BitVec.ofNat 32 k.toNat := by
  cases k <;> rfl

theorem add_carry_eq (x y : W32) (k : Bool) :
    x + y + boolWord k = BitVec.ofNat 32 (x.toNat + y.toNat + k.toNat) := by
  simp [boolWord_eq, BitVec.ofNat_add]

theorem sub_borrow_eq (x y : W32) (k : Bool) :
    x - y - boolWord k = BitVec.ofInt 32 ((x.toNat : Int) - y.toNat - k.toNat) := by
  simp [boolWord_eq, sub_eq_add_neg, BitVec.ofInt_add, BitVec.ofInt_neg]

theorem borrowOut_eq (x y : W32) (k : Bool) :
    borrowOut x y k = decide ((x.toNat : Int) - y.toNat - k.toNat < 0) :=
  decide_eq_decide.mpr (by omega)

/-! ## Wide results (R204 to R206) -/

theorem dot4_eq (ua ub : Bool) (acc a b : W32) :
    dot4 ua ub acc a b = BitVec.ofInt 32 (acc.toInt +
      byteInt ua a 0 * byteInt ub b 0 + byteInt ua a 1 * byteInt ub b 1 +
      byteInt ua a 2 * byteInt ub b 2 + byteInt ua a 3 * byteInt ub b 3) := rfl

/-- An index scaled by a power of two and added to a base, modulo 2^64 (R206). -/
theorem scaled_index_eq (x : W64) (index : Int) (k : Nat) :
    x + BitVec.ofInt 64 index <<< k = BitVec.ofInt 64 (x.toNat + index * 2 ^ k) := by
  have power : BitVec.twoPow 64 k = BitVec.ofInt 64 (2 ^ k) := by
    have cast : (2 : Int) ^ k = ((2 ^ k : Nat) : Int) := by norm_cast
    rw [cast, BitVec.ofInt_natCast]
    exact BitVec.eq_of_toNat_eq (by simp)
  rw [BitVec.shiftLeft_eq_mul_twoPow, power, BitVec.ofInt_add, BitVec.ofInt_mul, BitVec.ofInt_natCast,
    BitVec.ofNat_toNat, BitVec.setWidth_eq]

theorem leaIndex_eq (u : Bool) (x : W32) :
    (if u then x.setWidth 64 else x.signExtend 64) =
      BitVec.ofInt 64 (if u then (x.toNat : Int) else x.toInt) := by
  cases u
  case false => rfl
  case true => exact BitVec.eq_of_toNat_eq (by simp)

/-! ## Bit fields (R209) -/

/-- A field of at least one bit, read as a signed number. -/
theorem signedOf_toNat {w : Nat} (x : BitVec w) (some_bit : 1 ≤ w) : signedOf w x.toNat = x.toInt := by
  obtain ⟨n, rfl⟩ := Nat.exists_eq_add_of_le' some_bit
  rw [BitVec.toInt_eq_toNat_cond, signedOf, Nat.add_sub_cancel]
  push_cast
  congr 1
  rw [Nat.pow_succ]
  exact propext (by omega)

theorem extractField_eq (sx : Bool) (a : W32) {pos len : Nat} (low : pos < 32) (some_bit : 1 ≤ len) :
    extractField sx a pos len =
      if sx then (a.extractLsb' pos (min len (32 - pos))).signExtend 32
      else (a.extractLsb' pos (min len (32 - pos))).setWidth 32 := by
  have field : a.toNat / 2 ^ pos % 2 ^ min len (32 - pos) = (a.extractLsb' pos (min len (32 - pos))).toNat := by
    rw [BitVec.extractLsb'_toNat, Nat.shiftRight_eq_div_pow]
  simp only [extractField, fieldWidth, field]
  rw [signedOf_toNat _ (by omega), BitVec.ofNat_toNat]
  rfl

theorem insertField_eq (a b : W32) (pos len : Nat) : insertField a b pos len =
    laneSet fun j => if pos ≤ j ∧ j < pos + len then b.getLsbD (j - pos) else a.getLsbD j := by
  refine eq_laneSet fun j hj => ?_
  have clipped : j < pos + fieldWidth pos len ↔ j < pos + len := by simp only [fieldWidth]; omega
  simp only [insertField, getLsbD_laneSet, hj, decide_true, Bool.true_and, clipped]

/-! ## Relations (R210) -/

theorem admits_order {β : Type} [LinearOrder β] {f : W32 → β} (inj : Function.Injective f) (code : Nat) (a b : W32) :
    admits code (if a = b then .equal else if decide (f a < f b) then .less else .greater) =
      ((decide (f a < f b) && code.testBit 2) || (decide (f b < f a) && code.testBit 1) ||
        (!decide (f a < f b) && !decide (f b < f a) && !code.testBit 0)) := by
  rcases lt_trichotomy (f a) (f b) with less | equal | greater
  · have differ : a ≠ b := fun h => less.ne (congrArg f h)
    simp [differ, less, less.not_gt, admits]
  · simp [inj equal, admits]
  · have differ : a ≠ b := fun h => greater.ne (congrArg f h.symm)
    simp [differ, greater, greater.not_gt, admits]

/-- The truth of a relation code, from the two strict orders. -/
theorem admits_relation (code : Nat) (u : Bool) (a b : W32) :
    let less := if u then decide (a.toNat < b.toNat) else decide (a.toInt < b.toInt)
    let greater := if u then decide (b.toNat < a.toNat) else decide (b.toInt < a.toInt)
    admits code (relation u a b) =
      ((less && code.testBit 2) || (greater && code.testBit 1) || (!less && !greater && !code.testBit 0)) := by
  cases u
  case false => exact admits_order toInt_injective code a b
  case true => exact admits_order BitVec.toNat_injective code a b

end Sys2Proof.Proofs
end

section
/-!
SUPPORT. The integer instructions of R198 to R212, and the statements about them.
-/
namespace Sys2Proof.Proofs
open Sys2Proof.Machine Sys2Proof.Laws

/-- A write of one register is the write of an equal word. -/
theorem write_congr (r : Reg) {x y : W32} (h : x = y) : [(r, x)] = [(r, y)] := congrArg (fun z => [(r, z)]) h

/-! ## The shapes of R198 to R212 -/

section
variable {i : Instr} {lat d a : Nat} {b c : Src} {g : State → Machine.Group → Nat → List (Reg × W32)}

theorem binaryOp_result {f : W32 → W32 → W32} (hx : ∀ s, exec i s = binaryOp s lat d a b f)
    (hf : ∀ s x k, [(.v d, f (x.v k a) (x.src k b))] = g s x k) : LaneResult i lat (.v a :: b.uses) [.v d] g :=
  laneResult_of (f := fun _ x k => [(.v d, f (x.v k a) (x.src k b))]) hx hf

theorem unaryOp_result {f : W32 → W32} (hx : ∀ s, exec i s = unaryOp s lat d a f)
    (hf : ∀ s x k, [(.v d, f (x.v k a))] = g s x k) : LaneResult i lat [.v a] [.v d] g :=
  laneResult_of (f := fun _ x k => [(.v d, f (x.v k a))]) hx hf

theorem ternaryOp_result {f : W32 → W32 → W32 → W32} (hx : ∀ s, exec i s = ternaryOp s lat d a b c f)
    (hf : ∀ s x k, [(.v d, f (x.v k a) (x.src k b) (x.src k c))] = g s x k) :
    LaneResult i lat (.v a :: b.uses ++ c.uses) [.v d] g :=
  laneResult_of (f := fun _ x k => [(.v d, f (x.v k a) (x.src k b) (x.src k c))]) hx hf

end

/-! ## The statements -/

/-- Settles O1: each function of the model is the one that the rule gives. -/
theorem integerResults : Obligations.IntegerResults := by
  intro d a b u sat
  refine ⟨?iadd, ?isub, ?imul, ?and, ?or, ?xor, ?andn, ?orn, ?shl, ?shr, ?sar, ?rol, ?imulh, ?imin, ?imax, ?iabs, ?ineg,
    ?not, ?popc, ?clz, ?ctz, ?brev⟩
  case iadd => exact binaryOp_result (exec_iadd d a b) fun _ _ _ => rfl
  case isub => exact binaryOp_result (exec_isub d a b) fun _ _ _ => rfl
  case imul => exact binaryOp_result (exec_imul d a b) fun _ _ _ => rfl
  case and => exact binaryOp_result (exec_and d a b) fun _ _ _ => rfl
  case or => exact binaryOp_result (exec_or d a b) fun _ _ _ => rfl
  case xor => exact binaryOp_result (exec_xor d a b) fun _ _ _ => rfl
  case andn => exact binaryOp_result (exec_andn d a b) fun _ _ _ => rfl
  case orn => exact binaryOp_result (exec_orn d a b) fun _ _ _ => rfl
  case shl => exact binaryOp_result (exec_shl d a b) fun _ _ _ => write_congr _ (shlWord_eq _ _)
  case shr => exact binaryOp_result (exec_shr d a b) fun _ _ _ => write_congr _ (shrWord_eq _ _)
  case sar => exact binaryOp_result (exec_sar d a b) fun _ _ _ => write_congr _ (sarWord_eq _ _)
  case rol => exact binaryOp_result (exec_rol d a b) fun _ _ _ => rfl
  case imulh => exact binaryOp_result (exec_imulh d a b u) fun _ _ _ => rfl
  case imin => exact binaryOp_result (exec_imin d a b u) fun _ _ _ => write_congr _ (minWord_eq u _ _)
  case imax => exact binaryOp_result (exec_imax d a b u) fun _ _ _ => write_congr _ (maxWord_eq u _ _)
  case iabs => exact unaryOp_result (exec_iabs d a sat) fun _ _ _ => write_congr _ (absWord_eq sat _)
  case ineg => exact unaryOp_result (exec_ineg d a sat) fun _ _ _ => write_congr _ (negWord_eq sat _)
  case not => exact unaryOp_result (exec_not d a) fun _ _ _ => rfl
  case popc => exact unaryOp_result (exec_popc d a) fun _ _ _ => write_congr _ (congrArg _ (popCount_eq _))
  case clz => exact unaryOp_result (exec_clz d a) fun _ _ _ => write_congr _ (congrArg _ (leadingZeros_eq _))
  case ctz => exact unaryOp_result (exec_ctz d a) fun _ _ _ => write_congr _ (congrArg _ (trailingZeros_eq _))
  case brev => exact unaryOp_result (exec_brev d a) fun _ _ _ => write_congr _ (reverseWord_eq _)

/-- Settles O2: sums, differences and products are exact before they are cut to the width of the result. -/
theorem carryAndWideResults : Obligations.CarryAndWideResults := by
  intro d a c k b e ua ub u vb
  refine ⟨?iaddc, ?isubb, ?imad, ?idot4, ?iadd64, ?shl64, ?lea⟩
  case iaddc =>
    refine laneResult_of (exec_iaddc d a c b) fun _ x i => ?_
    dsimp only
    rw [add_carry_eq]
    rfl
  case isubb =>
    refine laneResult_of (exec_isubb d a c b) fun _ x i => ?_
    dsimp only
    rw [sub_borrow_eq, borrowOut_eq]
  case imad => exact ternaryOp_result (exec_imad d a b e) fun _ _ _ => rfl
  case idot4 => exact laneResult_of (exec_idot4 d a vb ua ub) fun _ _ _ => write_congr _ (dot4_eq ua ub _ _ _)
  case iadd64 => exact laneResult_of (exec_iadd64 d a b) fun _ _ _ => rfl
  case shl64 => exact laneResult_of (exec_shl64 d a b) fun _ x i => congrArg (putPair d) (ite_shiftLeft _ _)
  case lea =>
    refine laneResult_of (exec_lea d a b k u) fun _ x i => ?_
    dsimp only
    rw [leaIndex_eq, scaled_index_eq]

/-- Settles O3: the table lookup bit by bit, fields clipped at bit 31, and relations by the two strict orders. -/
theorem fieldAndMoveResults : Obligations.FieldAndMoveResults := by
  intro d a vb vc t p code imm k pos len b u sx w64
  refine ⟨?lop3, ?fshl, fun low some_bit _ => ⟨?bfx, ?bfi⟩, ?isetp, ?sel, ?mov, ?movi, ?movs⟩
  case lop3 => exact ternaryOp_result (exec_lop3 d a vb vc t) fun _ _ _ => rfl
  case fshl => exact ternaryOp_result (exec_fshl d a vb b) fun _ _ _ => write_congr _ (funnelShift_eq _ _ _)
  case bfx =>
    exact unaryOp_result (exec_bfx d a pos len sx) fun _ _ _ => write_congr _ (extractField_eq sx _ low some_bit)
  case bfi => exact binaryOp_result (exec_bfi d a vb pos len) fun _ _ _ => write_congr _ (insertField_eq _ _ pos len)
  case isetp =>
    exact laneResult_of (exec_isetp p a code u b) fun _ _ _ =>
      write_congr _ (congrArg boolWord (admits_relation code u _ _))
  case sel => exact laneResult_of (exec_sel d a p b) fun _ _ _ => rfl
  case mov =>
    cases w64
    case false => exact unaryOp_result (f := id) (exec_mov d a false) fun _ _ _ => rfl
    case true => exact laneResult_of (f := fun _ x i => putPair d (x.vp i a)) (exec_mov d a true) fun _ _ _ => rfl
  case movi => exact laneResult_of (exec_movi d imm) fun _ _ _ => rfl
  case movs =>
    cases w64
    case false => exact laneResult_of (f := fun _ x _ => [(.v d, x.s k)]) (exec_movs d k false) fun _ _ _ => rfl
    case true => exact laneResult_of (f := fun _ x _ => putPair d (x.sp k)) (exec_movs d k true) fun _ _ _ => rfl

end Sys2Proof.Proofs
end

section
/-!
SUPPORT. Special registers, scalar and predicate instructions (R213 to R220), and the statements about them.
-/
namespace Sys2Proof.Proofs
open Sys2Proof.Machine Sys2Proof.Laws

/-! ## Special registers (R76, R213) -/

section
variable (s : State) (g i : Nat) {k : Nat}

/-- Selectors 16 to 31 name the format slots of the gang, two selectors each. -/
theorem special_formatSlot (h : k < 8) :
    s.special g i (16 + 2 * k) = BitVec.ofNat 64 (bits (s.gang (s.blk (s.grp g).blk).gang).desc (64 * k) 64) := by
  have below : 16 + 2 * k < 32 := by omega
  have other : ∀ n, n < 16 → 16 + 2 * k ≠ n := fun n hn => by omega
  simp [State.special, below, other, Gang.fslot]

/-- Selectors 32 to 63 name the words of the launch descriptor. -/
theorem special_descriptorWord (h : k < 32) :
    s.special g i (32 + k) = BitVec.ofNat 64 (bits (s.gang (s.blk (s.grp g).blk).gang).desc (32 * k) 32) := by
  have below : 32 + k < 64 := by omega
  have other : ∀ n, n < 32 → 32 + k ≠ n := fun n hn => by omega
  simp [State.special, below, other, Gang.field]

end

/-! The kinds of `sread`: a lane's register or the set's scalar, of one half or of both. -/

theorem exec_sread_lane (d n : Nat) (s : State) : exec (.sread d 0 n) s =
    laneOp s 6 [] [.v d] fun _ i => [(.v d, lo32 (s.special s.cur.grp i n))] := rfl

theorem exec_sread_lanePair (d n : Nat) (s : State) : exec (.sread d 2 n) s =
    laneOp s 6 [] (vpair d) fun _ i =>
      [(.v d, lo32 (s.special s.cur.grp i n)),
       (.v (d + 1), if special64 n then hi32 (s.special s.cur.grp i n) else 0)] := rfl

theorem exec_sread_scalar (d n : Nat) (s : State) : exec (.sread d 1 n) s =
    scalarOp s 6 [] [.s d] fun _ => [(.s d, lo32 (s.special s.cur.grp (firstLane s.cur.lanes) n))] := rfl

theorem exec_sread_scalarPair (d n : Nat) (s : State) : exec (.sread d 3 n) s =
    scalarOp s 6 [] (spair d) fun _ =>
      [(.s d, lo32 (s.special s.cur.grp (firstLane s.cur.lanes) n)),
       (.s (d + 1), if special64 n then hi32 (s.special s.cur.grp (firstLane s.cur.lanes) n) else 0)] := rfl

/-- Settles O4: the four kinds of `sread`, and the selectors one by one. -/
theorem specialRegisterReads : Obligations.SpecialRegisterReads := by
  intro d n
  refine ⟨?lane, ?lanePair, ?scalar, ?scalarPair, fun s g i k => ?selectors⟩
  case lane => exact laneResult_of (exec_sread_lane d n) fun _ _ _ => rfl
  case lanePair => exact laneResult_of (exec_sread_lanePair d n) fun _ _ _ => rfl
  case scalar => exact scalarResult_of (exec_sread_scalar d n) fun _ _ => rfl
  case scalarPair => exact scalarResult_of (exec_sread_scalarPair d n) fun _ _ => rfl
  case selectors =>
    exact ⟨rfl, rfl, rfl, rfl, rfl, rfl, rfl, rfl, rfl, rfl, rfl, rfl, rfl, special_formatSlot s g i,
      special_descriptorWord s g i, rfl, rfl, rfl⟩

/-! ## Scalar and predicate instructions (R214 to R220) -/

theorem exec_pmov_to (a : Nat) (s : State) : exec (.pmov true a) s =
    laneOp s 2 [.v a] ((List.range 15).map .p) fun x i =>
      (List.range 15).map fun k => (.p k, boolWord ((x.v i a).getLsbD k)) := rfl

theorem exec_pmov_from (d : Nat) (s : State) : exec (.pmov false d) s =
    laneOp s 2 ((List.range 15).map .p) [.v d] fun x i =>
      [(.v d, ((x.fib i).pred ||| 0x8000#16).setWidth 32)] := rfl

/-- The predicate word as it is read, bit 15 as 1 (R65, R220). -/
theorem predWord_eq (x : Machine.Group) (i : Nat) :
    ((x.fib i).pred ||| 0x8000#16).setWidth 32 = laneSet fun k => decide (k < 16) && x.p i k := by
  have top : ∀ k < 16, (0x8000#16).getLsbD k = (k == 15) := by decide
  refine eq_laneSet fun k hk => ?_
  rw [BitVec.getLsbD_setWidth, BitVec.getLsbD_or, decide_eq_true hk, Bool.true_and]
  rcases lt_or_ge k 16 with inside | outside
  · rw [top k inside, decide_eq_true inside, Bool.true_and, Bool.or_comm]
    rfl
  · simp [outside]

theorem scalarBinary_result {i : Instr} {lat d a : Nat} {b : Src} {f : W32 → W32 → W32}
    {g : State → Machine.Group → List (Reg × W32)} (hx : ∀ s, exec i s = scalarBinary s lat d a b f)
    (hf : ∀ s x, [(.s d, f (x.s a) (x.src 0 b))] = g s x) : ScalarResult i lat (.s a :: b.uses) [.s d] g :=
  scalarResult_of (f := fun _ x => [(.s d, f (x.s a) (x.src 0 b))]) hx hf

/-- Settles O5: the functions are those of the vector instructions, once for the set. -/
theorem scalarResults : Obligations.ScalarResults := by
  intro d a p pa pb pc t code imm b u w64 ar
  refine ⟨?sadd, ?ssub, ?smul, ?sand, ?sor, ?sxor, ?sshl, ?sshr, ?smov, ?smovi, ?ssetp, ?plop, ?pmovTo, ?pmovFrom⟩
  case sadd => exact scalarBinary_result (exec_sadd d a b) fun _ _ => rfl
  case ssub => exact scalarBinary_result (exec_ssub d a b) fun _ _ => rfl
  case smul => exact scalarBinary_result (exec_smul d a b) fun _ _ => rfl
  case sand => exact scalarBinary_result (exec_sand d a b) fun _ _ => rfl
  case sor => exact scalarBinary_result (exec_sor d a b) fun _ _ => rfl
  case sxor => exact scalarBinary_result (exec_sxor d a b) fun _ _ => rfl
  case sshl => exact scalarBinary_result (exec_sshl d a b) fun _ _ => write_congr _ (shlWord_eq _ _)
  case sshr =>
    cases ar
    case false => exact scalarBinary_result (exec_sshr d a b false) fun _ _ => write_congr _ (shrWord_eq _ _)
    case true => exact scalarBinary_result (exec_sshr d a b true) fun _ _ => write_congr _ (sarWord_eq _ _)
  case smov =>
    cases w64
    case false => exact scalarResult_of (f := fun _ x => [(.s d, x.s a)]) (exec_smov d a false) fun _ _ => rfl
    case true =>
      exact scalarResult_of (f := fun _ x => [(.s d, x.s a), (.s (d + 1), x.s (a + 1))]) (exec_smov d a true)
        fun _ _ => rfl
  case smovi => exact scalarResult_of (exec_smovi d imm) fun _ _ => rfl
  case ssetp =>
    exact laneResult_of (exec_ssetp p a code u b) fun _ _ _ =>
      write_congr _ (congrArg boolWord (admits_relation code u _ _))
  case plop => exact laneResult_of (exec_plop p pa pb pc t) fun _ _ _ => rfl
  case pmovTo => exact laneResult_of (exec_pmov_to a) fun _ _ _ => rfl
  case pmovFrom => exact laneResult_of (exec_pmov_from d) fun _ x i => write_congr _ (predWord_eq x i)

/-! ## A lane's register in a scalar (R218) -/

theorem mem_lanesOf {l : W32} {i : Nat} : i ∈ lanesOf l ↔ i < 32 ∧ l.getLsbD i = true := by
  simp [lanesOf]

/-- The registers of one lane lie in its window, where the lane is among those read. -/
theorem inWindow_one {x : Machine.Group} {l k : Nat} (low : l < 32) (active : Bool)
    (h : active = true → x.entry l k < x.n) :
    x.inWindow (if active then laneBit l else 0) (.v k) = true := by
  refine List.all_eq_true.mpr fun i hi => ?_
  obtain ⟨-, bit⟩ := mem_lanesOf.mp hi
  cases active
  case false => simp at bit
  case true =>
    rw [if_pos rfl, getLsbD_laneBit low, decide_eq_true_eq] at bit
    exact decide_eq_true (bit ▸ h rfl)

section
variable {s : State} {a d l : Nat} {w64 : Bool} {b : Src}

/-- The checks of `slane` pass where its scalars and the lane's register are free and the register is in its window. -/
theorem slaneFail_none (low : l < 32)
    (scalars : s.shortStall s.cur.grp s.cur.lanes b.uses (if w64 then spair d else [.s d]) 6 = false)
    (register : s.shortStall s.cur.grp (if s.cur.lanes.getLsbD l then laneBit l else 0)
      (if w64 then vpair a else [.v a]) [] 6 = false)
    (inside : s.cur.lanes.getLsbD l = true →
      (s.grp s.cur.grp).entry l (if w64 then a + 1 else a) < (s.grp s.cur.grp).n) :
    s.slaneFail a d l w64 b = none := by
  have windows : (if w64 then vpair a else [.v a]).all
      ((s.grp s.cur.grp).inWindow (if s.cur.lanes.getLsbD l then laneBit l else 0)) = true := by
    refine List.all_eq_true.mpr fun r hr => ?_
    cases w64
    case false =>
      obtain rfl := List.mem_singleton.mp hr
      exact inWindow_one low _ inside
    case true =>
      have lower (active : s.cur.lanes.getLsbD l = true) : (s.grp s.cur.grp).entry l a < (s.grp s.cur.grp).n :=
        Nat.lt_of_succ_lt (inside active)
      rcases List.mem_pair.mp hr with rfl | rfl
      · exact inWindow_one low _ lower
      · exact inWindow_one low _ inside
  simp only [State.slaneFail, scalars, register, windows, Bool.or_self, Bool.false_eq_true, if_false, if_true]

end

/-- Settles O6: the checks pass, and the writes are to scalars, which no window moves. -/
theorem laneToScalar : Obligations.LaneToScalar := by
  intro d a lane w64 s g l active one group scalars register inside
  have passes : s.slaneFail a d l w64 lane = none :=
    slaneFail_none (Nat.mod_lt _ (by norm_num)) scalars register inside
  rw [exec_slane, execSlane, asGroup_group group]
  dsimp only
  rw [passes]
  cases w64 <;> rfl

end Sys2Proof.Proofs
end

section
/-!
SUPPORT. Branches, jumps, hints and breakpoints (R221 to R228, R231 to R233), and the statements about them.
-/
namespace Sys2Proof.Proofs
open Sys2Proof.Machine Sys2Proof.Laws

/-! ## Branches (R221 to R223) -/

section
variable {s : State} (group : s.cur.kind = .group)
include group

/-- A branch whose predicate is free sends each active lane to the target or to the next header. -/
theorem branchOp_next {p : Nat} (off : Int) (taken : Machine.Group → Nat → Bool) (free : s.regsFree [.p p] [] 1) :
    branchOp s p off taken =
      .next (s.goto fun i => if taken (s.grp s.cur.grp) i then branchTarget s.cur.hdr off else s.next) := by
  rw [branchOp, asGroup_group group, regFail_none free]

end

section
variable (s : State) (x : Machine.Group) (p : Nat)

theorem any_trueLanes : (!(s.trueLanes x p).isEmpty) = (lanesOf s.cur.lanes).any fun j => x.p j p := by
  rw [Bool.eq_iff_iff]
  simp [State.trueLanes]

theorem all_trueLanes :
    ((s.trueLanes x p).length == (lanesOf s.cur.lanes).length) = (lanesOf s.cur.lanes).all fun j => x.p j p := by
  rw [Bool.eq_iff_iff]
  simp [State.trueLanes]

theorem none_trueLanes : (s.trueLanes x p).isEmpty = (lanesOf s.cur.lanes).all fun j => !x.p j p := by
  rw [Bool.eq_iff_iff]
  simp [State.trueLanes]

end

/-- Settles O7: the short and the long form of a branch have one meaning. -/
theorem branchesGo : Obligations.BranchesGo := by
  intro p off s g target next go group free
  have each : branchEach s p off = .next (go fun i => g.p i p) := branchOp_next group off _ free
  have any : branchAny s p off = .next (go fun _ => (lanesOf s.cur.lanes).any fun j => g.p j p) := by
    rw [branchAny, branchOp_next group off _ free, any_trueLanes]
    rfl
  have all : branchAll s p off = .next (go fun _ => (lanesOf s.cur.lanes).all fun j => g.p j p) := by
    rw [branchAll, branchOp_next group off _ free, all_trueLanes]
    rfl
  have none : branchNone s p off = .next (go fun _ => (lanesOf s.cur.lanes).all fun j => !g.p j p) := by
    rw [branchNone, branchOp_next group off _ free, none_trueLanes]
    rfl
  have diverged : branchDiverged s p off = .next (go fun i => s.cur.diverged && g.p i p) :=
    branchOp_next group off _ free
  exact ⟨each, each, any, any, all, all, none, none, diverged, diverged⟩

/-! ## Jumps, calls and returns (R224 to R228) -/

/-- The window base of every lane of a set stays in its range when it moves (R225, R227). -/
def WindowStays (x : Machine.Group) (lanes : W32) (delta : Int) : Prop :=
  ∀ i ∈ lanesOf lanes, 0 ≤ ((x.fib i).wb : Int) + delta ∧ ((x.fib i).wb : Int) + delta ≤ 62

theorem windowMoveBad_eq_false_iff {x : Machine.Group} {lanes : W32} {delta : Int} :
    windowMoveBad x lanes delta = false ↔ WindowStays x lanes delta := by
  simp [windowMoveBad, WindowStays]

theorem windowMoveBad_of_not {x : Machine.Group} {lanes : W32} {delta : Int} (h : ¬ WindowStays x lanes delta) :
    windowMoveBad x lanes delta = true :=
  Bool.eq_true_of_not_eq_false fun stays => h (windowMoveBad_eq_false_iff.mp stays)

section
variable {lanes : W32} {t : Nat → W64} {windowBad : Bool}

/-- The lowest lane whose target is misaligned decides. -/
theorem targetFail_misaligned {j : Nat} (first : (lanesOf lanes).find? (fun i => (t i).toNat % 4 != 0) = some j) :
    targetFail lanes t windowBad = some (Fail.misaligned (t j)) := by
  simp [targetFail, badTarget, first]

/-- No target is misaligned. -/
theorem badTarget_aligned (aligned : ∀ i ∈ lanesOf lanes, (t i).toNat % 4 = 0) :
    badTarget lanes t (fun x => x.toNat % 4 != 0) = none := by
  have nobody : (lanesOf lanes).find? (fun i => (t i).toNat % 4 != 0) = none :=
    List.find?_eq_none.mpr fun i hi => by simp [aligned i hi]
  rw [badTarget, nobody, Option.map_none]

theorem targetFail_window (aligned : ∀ i ∈ lanesOf lanes, (t i).toNat % 4 = 0) :
    targetFail lanes t true = some Fail.window := by
  rw [targetFail, badTarget_aligned aligned, if_pos rfl]

theorem targetFail_nonCanonical {j : Nat} (aligned : ∀ i ∈ lanesOf lanes, (t i).toNat % 4 = 0)
    (first : (lanesOf lanes).find? (fun i => !canonical (t i)) = some j) :
    targetFail lanes t false = some (Fail.translation 3 (t j)) := by
  rw [targetFail, badTarget_aligned aligned, if_neg Bool.false_ne_true, badTarget, first]
  rfl

theorem targetFail_none (good : ∀ i ∈ lanesOf lanes, (t i).toNat % 4 = 0 ∧ canonical (t i) = true) :
    targetFail lanes t false = none := by
  have canonicals : (lanesOf lanes).find? (fun i => !canonical (t i)) = none :=
    List.find?_eq_none.mpr fun i hi => by simp [(good i hi).2]
  rw [targetFail, badTarget_aligned fun i hi => (good i hi).1, if_neg Bool.false_ne_true, badTarget, canonicals]
  rfl

end

/-- The targets that `jmp` and `calli` name. -/
abbrev sourceTarget (tgt : Src) (x : Machine.Group) (i : Nat) : W64 := x.srcp i tgt

/-- The targets that `ret` names. -/
abbrev linkTarget (link : Nat) (x : Machine.Group) (i : Nat) : W64 := x.vp i link

section
variable {s : State} (t : Machine.Group → Nat → W64) (group : s.cur.kind = .group) {rd : List Reg}
  (free : s.regsFree rd [] 1) {delta : Int}
include group

section
include free

theorem jumpOp_fails {e : Fail} (fails : targetFail s.cur.lanes (t (s.grp s.cur.grp))
      (windowMoveBad (s.grp s.cur.grp) s.cur.lanes delta) = some e) :
    jumpOp s rd delta t = .next (s.fail e) := by
  rw [jumpOp, asGroup_group group, regFail_none free]
  dsimp only
  rw [fails]

theorem jumpOp_goes (stays : WindowStays (s.grp s.cur.grp) s.cur.lanes delta)
    (good : ∀ i ∈ lanesOf s.cur.lanes,
      (t (s.grp s.cur.grp) i).toNat % 4 = 0 ∧ canonical (t (s.grp s.cur.grp) i) = true) :
    jumpOp s rd delta t = .next (s.jumpTo (t (s.grp s.cur.grp)) delta) := by
  rw [jumpOp, asGroup_group group, regFail_none free]
  dsimp only
  rw [windowMoveBad_eq_false_iff.mpr stays, targetFail_none good]

theorem jumpOp_misaligned {j : Nat}
    (first : (lanesOf s.cur.lanes).find? (fun i => (t (s.grp s.cur.grp) i).toNat % 4 != 0) = some j) :
    jumpOp s rd delta t = .next (s.fail (Fail.misaligned (t (s.grp s.cur.grp) j))) :=
  jumpOp_fails t group free (targetFail_misaligned first)

section
variable (aligned : ∀ i ∈ lanesOf s.cur.lanes, (t (s.grp s.cur.grp) i).toNat % 4 = 0)
include aligned

theorem jumpOp_window (leaves : ¬ WindowStays (s.grp s.cur.grp) s.cur.lanes delta) :
    jumpOp s rd delta t = .next (s.fail Fail.window) :=
  jumpOp_fails t group free (by rw [windowMoveBad_of_not leaves, targetFail_window aligned])

theorem jumpOp_nonCanonical {j : Nat}
    (first : (lanesOf s.cur.lanes).find? (fun i => !canonical (t (s.grp s.cur.grp) i)) = some j)
    (stays : WindowStays (s.grp s.cur.grp) s.cur.lanes delta) :
    jumpOp s rd delta t = .next (s.fail (Fail.translation 3 (t (s.grp s.cur.grp) j))) :=
  jumpOp_fails t group free (by rw [windowMoveBad_eq_false_iff.mpr stays, targetFail_nonCanonical aligned first])

end
end

theorem call_goes {f : Nat} (off : Int) (stays : WindowStays (s.grp s.cur.grp) s.cur.lanes f) :
    execCall f off s = .next (s.jumpTo (fun _ => branchTarget s.cur.hdr off) f) := by
  rw [execCall, asGroup_group group, windowMoveBad_eq_false_iff.mpr stays, if_neg Bool.false_ne_true]

theorem call_window {f : Nat} (off : Int) (leaves : ¬ WindowStays (s.grp s.cur.grp) s.cur.lanes f) :
    execCall f off s = .next (s.fail Fail.window) := by
  rw [execCall, asGroup_group group, windowMoveBad_of_not leaves, if_pos rfl]

end

/-- Settles O8: misalignment is checked before the window, and the window before the canonical form. -/
theorem jumpsMoveWindow : Obligations.JumpsMoveWindow := by
  intro f link off tgt s g lanes go good aligned stays group
  refine ⟨?jmp, ?call, ?calli, ?ret, ?callWindow, ?calliWindow, ?retWindow, ?misaligned, ?retMisaligned, ?nonCanonical,
    ?retNonCanonical⟩
  case jmp => exact fun free ok stays => jumpOp_goes (sourceTarget tgt) group free stays ok
  case call => exact fun stays => call_goes group off stays
  case calli => exact fun free ok stays => jumpOp_goes (sourceTarget tgt) group free stays ok
  case ret => exact fun free ok stays => jumpOp_goes (linkTarget link) group free stays ok
  case callWindow => exact fun leaves => call_window group off leaves
  case calliWindow => exact fun free ok leaves => jumpOp_window (sourceTarget tgt) group free ok leaves
  case retWindow => exact fun free ok leaves => jumpOp_window (linkTarget link) group free ok leaves
  case misaligned =>
    exact fun j free first =>
      ⟨jumpOp_misaligned (sourceTarget tgt) group free first, jumpOp_misaligned (sourceTarget tgt) group free first⟩
  case retMisaligned => exact fun j free first => jumpOp_misaligned (linkTarget link) group free first
  case nonCanonical =>
    exact fun j free ok first =>
      ⟨jumpOp_nonCanonical (sourceTarget tgt) group free ok first,
        jumpOp_nonCanonical (sourceTarget tgt) group free ok first⟩
  case retNonCanonical =>
    exact fun j free ok first stays => jumpOp_nonCanonical (linkTarget link) group free ok first stays

/-! ## Hints and breakpoints (R231 to R233) -/

/-- Settles O9: each is an immediate effect on the active lanes, with no register to check. -/
theorem hintsAndBreakpoints : Obligations.HintsAndBreakpoints := by
  intro code s group
  refine ⟨?nop, ?yield, ?bkpt⟩
  case nop => exact nowOp_next group regsFree_nil
  case yield => exact (exec_yield s).trans (nowOp_next group regsFree_nil)
  case bkpt => exact (exec_bkpt code s).trans (nowOp_next group regsFree_nil)

end Sys2Proof.Proofs
end

section
/-!
SUPPORT. Votes and matches (R238, R239), and the statement about them.
-/
namespace Sys2Proof.Proofs
open Sys2Proof.Machine Sys2Proof.Laws

/-! ## Votes (R238) -/

/-- The set bits of a lane set are counted by its condition. -/
theorem popCount_laneSet (p : Nat → Bool) : popCount (laneSet p) = (List.range 32).countP p := by
  rw [popCount_eq]
  refine List.countP_congr fun i hi => ?_
  rw [getLsbD_laneSet, decide_eq_true (List.mem_range.mp hi), Bool.true_and]

/-- The contributing lanes in which a predicate is true. -/
def yesLanes (s : State) (m a : Nat) (x : Machine.Group) : W32 :=
  laneSet fun i => (s.contributors m).getLsbD i && x.p i a

theorem popCount_yesLanes (s : State) (m a : Nat) (x : Machine.Group) :
    popCount (yesLanes s m a x) = (List.range 32).countP fun i => (s.contributors m).getLsbD i && x.p i a :=
  popCount_laneSet _

section
variable (d a m q : Nat) (s : State)

theorem exec_vote_mask : exec (.vote d a m q 0) s =
    crossOp s 6 (s.contributors m) [.p a] [] [.v d] fun x _ => [(.v d, yesLanes s m a x)] := rfl

theorem exec_vote_count : exec (.vote d a m q 1) s =
    crossOp s 6 (s.contributors m) [.p a] [] [.v d] fun x _ =>
      [(.v d, BitVec.ofNat 32 (popCount (yesLanes s m a x) + popCount (s.contributors m) * 256))] := rfl

theorem exec_vote_quorum : exec (.vote d a m q 2) s =
    crossOp s 6 (s.contributors m) [.p a] [] [.p d] fun x _ =>
      [(.p d, boolWord (quorum q (popCount (yesLanes s m a x)) (popCount (s.contributors m))))] := rfl

end

/-- A quorum is told by the count of the lanes that agree and the count of those that contribute. -/
theorem quorum_result (d a m q : Nat) (f : Nat → Nat → Bool) (hf : ∀ t c, quorum q t c = f t c) :
    CrossResult (.vote d a m q 2) 6 (fun s => s.contributors m) [.p a] [] [.p d] fun s x _ =>
      [(.p d, boolWord (f ((List.range 32).countP fun j => (s.contributors m).getLsbD j && x.p j a)
        ((List.range 32).countP (s.contributors m).getLsbD)))] :=
  crossResult_of (exec_vote_quorum d a m q) fun _ _ _ => by rw [hf, popCount_yesLanes, popCount_eq]

/-! ## Matches (R239) -/

/-- Two pairs are equal where both halves are (R63). -/
theorem vp_beq_vp (x : Machine.Group) (i j k : Nat) :
    (x.vp i k == x.vp j k) = (x.v i k == x.v j k && x.v i (k + 1) == x.v j (k + 1)) := by
  rw [Bool.eq_iff_iff, Bool.and_eq_true, beq_iff_eq, beq_iff_eq, beq_iff_eq, Group.vp, Group.vp]
  constructor
  · intro pairs
    have low := congrArg (BitVec.setWidth 32) pairs
    rw [BitVec.setWidth_append_eq_right, BitVec.setWidth_append_eq_right] at low
    rw [low, BitVec.append_left_inj] at pairs
    exact ⟨low, pairs⟩
  · rintro ⟨low, high⟩
    rw [low, high]

/-- Whether two lanes hold the same bits, in a register or in a pair. -/
theorem same_bits (x : Machine.Group) (i j a : Nat) (w64 : Bool) :
    (x.v i a == x.v j a && (!w64 || x.v i (a + 1) == x.v j (a + 1))) =
      if w64 then x.vp i a == x.vp j a else x.v i a == x.v j a := by
  cases w64
  case false => exact Bool.and_true _
  case true => exact (vp_beq_vp x i j a).symm

theorem exec_matchl_crossOp (d a m : Nat) (w64 : Bool) (s : State) : exec (.matchl d a m w64) s =
    crossOp s 6 (s.contributors m) (if w64 then vpair a else [.v a]) [] [.v d] fun x i =>
      [(.v d, if (s.contributors m).getLsbD i then
        laneSet fun j => (s.contributors m).getLsbD j &&
          (x.v i a == x.v j a && (!w64 || x.v i (a + 1) == x.v j (a + 1))) else 0)] := rfl

/-- Settles O14: what is counted is counted over the contributing lanes, and a pair is compared half by half. -/
theorem votesAndMatches : Obligations.VotesAndMatches := by
  intro d a m q w64 c yes all
  refine ⟨?mask, ?count, ?some_, ?most, ?every, ?same, ?matchl⟩
  case mask => exact crossResult_of (exec_vote_mask d a m q) fun _ _ _ => rfl
  case count =>
    exact crossResult_of (exec_vote_count d a m q) fun _ _ _ => by rw [popCount_yesLanes, popCount_eq]; rfl
  case some_ => exact quorum_result d a m 0 (fun t _ => decide (1 ≤ t)) fun _ _ => rfl
  case most => exact quorum_result d a m 1 (fun t c => decide (c < 2 * t)) fun _ _ => rfl
  case every => exact quorum_result d a m 2 (fun t c => t == c) fun _ _ => rfl
  case same => exact quorum_result d a m 3 (fun t c => t == 0 || t == c) fun _ _ => rfl
  case matchl =>
    refine crossResult_of (exec_matchl_crossOp d a m w64) fun s x i => ?_
    simp only [same_bits]
    rfl

end Sys2Proof.Proofs
end

section
/-!
SUPPORT. The user trap (R234), and the statement about it.
-/
namespace Sys2Proof.Proofs
open Sys2Proof.Machine Sys2Proof.Laws

/-- The record of a trap (R349). -/
structure TrapRecord where
  tcause : W32
  tlanes : W32
  tolanes : W32
  tpc : W64
  tidx : Nat
  taddr : W64

/-- A group whose trap registers hold a record (R343). -/
def recordTrap (r : TrapRecord) (x : Machine.Group) : Machine.Group :=
  x.updCtl fun c => { c with
    trapMode := true
    tcause := r.tcause
    tlanes := r.tlanes
    tolanes := r.tolanes
    tpc := r.tpc
    tidx := r.tidx
    taddr := r.taddr }

/-- A fibre of the trap set at the trap vector (R349). -/
def atVector (tvec : W64) (f : Fibre) : Fibre :=
  { f with pc := tvec, code := none, next := 0, wait := .none,
           waited := false, bkptCode := none, bkptHeld := f.bkptCode, bad := none, wdog := 0 }

/-- A group that enters trap mode: its record is written, and the lanes of the trap set stand at TVEC (R349). -/
def enterTrap (r : TrapRecord) (x : Machine.Group) : Machine.Group :=
  (recordTrap r x).updFibs r.tlanes fun _ f => atVector x.ctl.tvec f

/-- A trap of a group in no handler and not in trap mode, with TVEC not 0 and a multiple of 4, enters trap mode. -/
theorem takeTrapAt_enters {s : State} {g : Nat} (no_handler : (s.grp g).handler = .none)
    (no_trap : (s.grp g).ctl.trapMode = false) (vector : (s.grp g).ctl.tvec ≠ 0)
    (aligned : (s.grp g).ctl.tvec.toNat % 4 = 0) (iaddr : W64) (set : W32) (cause info port : Nat) (tolanes : W32)
    (tpc : W64) (tidx : Nat) (addr : Option W64) :
    s.takeTrapAt iaddr g set cause info port tolanes tpc tidx addr =
      s.updGrp g (enterTrap ⟨tcauseOf cause port info addr.isSome, set, tolanes, tpc, tidx, addr.getD 0⟩) := by
  have enters : ¬ ((s.grp g).handler = .resume ∨ (s.grp g).ctl.tvec = 0 ∨ (s.grp g).ctl.tvec.toNat % 4 ≠ 0 ∨
      (s.grp g).ctl.trapMode = true) := by
    rintro (resume | zero | odd | trapped)
    · exact nomatch no_handler.symm.trans resume
    · exact vector zero
    · exact odd aligned
    · exact nomatch no_trap.symm.trans trapped
  rw [State.takeTrapAt, if_neg (by rw [no_handler]; exact nofun), if_neg enters]
  rfl

/-- What the user trap records: the active lanes, and the word or header after `utrap` (R234). -/
def userRecord (s : State) (code : Nat) : TrapRecord where
  tcause := tcauseOf 0x0B s.cur.port code false
  tlanes := s.cur.lanes
  tolanes := s.cur.other
  tpc := if s.cur.idx + 1 ≤ s.cur.nwords then s.cur.hdr else nextHeader s.cur.hdr s.cur.nwords
  tidx := if s.cur.idx + 1 ≤ s.cur.nwords then s.cur.idx + 1 else 0
  taddr := 0

/-- The lanes of the trap set stand at TVEC. -/
theorem fib_enterTrap (r : TrapRecord) (x : Machine.Group) {i : Nat} (h : i < x.ctl.fibs.length)
    (trapped : r.tlanes.getLsbD i = true) :
    ((enterTrap r x).fib i).pc = x.ctl.tvec ∧ ((enterTrap r x).fib i).code = none := by
  rw [enterTrap, fib_updFibs (recordTrap r x) _ _ h, if_pos trapped]
  exact ⟨rfl, rfl⟩

theorem tcause_userRecord (s : State) (code : Nat) :
    (userRecord s code).tcause = BitVec.ofNat 32 (0x0B + s.cur.port * 2 ^ 8 + code * 2 ^ 16) := by
  simp [userRecord, tcauseOf]

section
variable {s : State} (issues : s.groupIssues)
include issues

theorem grp_finish : s.finish.grp s.cur.grp =
    (s.grp s.cur.grp).updFibs s.cur.lanes fun _ f => f.pass s.cur := by
  rw [finish_of_group issues.1, grp_updGrp_self _ _ _ issues.2.1]

theorem utrap_enters (code : Nat) (no_handler : (s.grp s.cur.grp).handler = .none)
    (no_trap : (s.grp s.cur.grp).ctl.trapMode = false) (vector : (s.grp s.cur.grp).ctl.tvec ≠ 0)
    (aligned : (s.grp s.cur.grp).ctl.tvec.toNat % 4 = 0) :
    exec (.utrap code) s = .next (s.finish.updGrp s.cur.grp (enterTrap (userRecord s code))).markTrapped := by
  have past := grp_finish issues
  rw [exec_utrap, execUtrap, asGroup_group issues.1]
  dsimp only
  rw [takeTrapAt_enters (by rw [past]; exact no_handler) (by rw [past]; exact no_trap) (by rw [past]; exact vector)
    (by rw [past]; exact aligned)]
  rfl

/-- The issuing group after `utrap`: past the instruction, and then in trap mode. -/
theorem grp_utrap (code : Nat) :
    (s.finish.updGrp s.cur.grp (enterTrap (userRecord s code))).markTrapped.grp s.cur.grp =
      enterTrap (userRecord s code) ((s.grp s.cur.grp).updFibs s.cur.lanes fun _ f => f.pass s.cur) := by
  have stands : s.cur.grp < s.finish.groups.length := by simpa [finish_of_group issues.1] using issues.2.1
  rw [← grp_finish issues]
  exact grp_updGrp_self _ _ _ stands

end

/-- Settles O10: the lanes move past the instruction, and then the group enters trap mode. -/
theorem userTrapCompletes : Obligations.UserTrapCompletes := by
  intro code s issues g no_handler no_trap vector aligned
  refine ⟨_, utrap_enters issues code no_handler no_trap vector aligned, ?_⟩
  dsimp only [State.lanesAt]
  rw [grp_utrap issues]
  refine ⟨rfl, tcause_userRecord s code, rfl, rfl, rfl, rfl, fun i hi active => ?lanes, ⟨rfl, rfl, rfl⟩, finish_mem s⟩
  case lanes => exact fib_enterTrap _ _ (by simpa using hi) active

end Sys2Proof.Proofs
end

section
/-!
SUPPORT. What the evaluation of a block's barriers leaves of its groups (R285, R287): the places, predicates and
occupation of their fibres, their lane masks, their registers, and memory.
-/
namespace Sys2Proof.Proofs
open Sys2Proof.Machine Sys2Proof.Laws

/-! ## Fibres and groups -/

/-- A fibre whose place, predicates and occupation are what they were. -/
structure SamePlace (f f' : Fibre) : Prop where
  pc : f'.pc = f.pc
  pred : f'.pred = f.pred
  occ : f'.occ = f.occ

theorem SamePlace.refl (f : Fibre) : SamePlace f f := ⟨rfl, rfl, rfl⟩

theorem SamePlace.trans {f f' f'' : Fibre} (h : SamePlace f f') (k : SamePlace f' f'') : SamePlace f f'' :=
  ⟨k.pc.trans h.pc, k.pred.trans h.pred, k.occ.trans h.occ⟩

theorem samePlace_arrive (f : Fibre) (k p : Nat) : SamePlace f (f.arrive k p) := by
  unfold Fibre.arrive
  split
  · exact ⟨rfl, rfl, rfl⟩
  · split
    · exact ⟨rfl, rfl, rfl⟩
    · exact .refl f

theorem samePlace_barReleased (f : Fibre) (k p : Nat) : SamePlace f (f.barReleased k p) := by
  unfold Fibre.barReleased
  split
  · exact ⟨rfl, rfl, rfl⟩
  · exact .refl f

/-- A group whose registers and lane masks are what they were, and whose fibres are where they were. -/
structure SameLanes (x y : Machine.Group) : Prop where
  regs : x.sameRegs y
  masks : y.ctl.masks = x.ctl.masks
  marr : y.ctl.marr = x.ctl.marr
  fib : ∀ i, SamePlace (x.fib i) (y.fib i)

namespace SameLanes

theorem refl (x : Machine.Group) : SameLanes x x := ⟨⟨rfl, rfl, rfl⟩, rfl, rfl, fun _ => .refl _⟩

theorem trans {x y z : Machine.Group} (h : SameLanes x y) (k : SameLanes y z) : SameLanes x z where
  regs := ⟨k.regs.1.trans h.regs.1, k.regs.2.1.trans h.regs.2.1, k.regs.2.2.trans h.regs.2.2⟩
  masks := k.masks.trans h.masks
  marr := k.marr.trans h.marr
  fib i := (h.fib i).trans (k.fib i)

end SameLanes

/-- A change of an arrival set of a block or gang barrier. -/
theorem sameLanes_barArr (x : Machine.Group) (k : Nat) (v : W32) :
    SameLanes x (x.updCtl fun c => { c with barArr := put 0 c.barArr k v }) :=
  ⟨⟨rfl, rfl, rfl⟩, rfl, rfl, fun _ => ⟨rfl, rfl, rfl⟩⟩

theorem sameLanes_gbarArr (x : Machine.Group) (g : Nat) (v : W32) :
    SameLanes x (x.updCtl fun c => { c with gbarArr := put 0 c.gbarArr g v }) :=
  ⟨⟨rfl, rfl, rfl⟩, rfl, rfl, fun _ => ⟨rfl, rfl, rfl⟩⟩

theorem fib_outside {x : Machine.Group} {i : Nat} (h : x.ctl.fibs.length ≤ i) : x.fib i = Fibre.vacant := by
  simp [Group.fib, List.getD_eq_getElem?_getD, h]

/-- A change of fibres that leaves each where it was. -/
theorem sameLanes_updFibs (x : Machine.Group) (l : W32) {f : Nat → Fibre → Fibre} (keeps : ∀ i y, SamePlace y (f i y)) :
    SameLanes x (x.updFibs l f) := by
  refine ⟨⟨rfl, rfl, rfl⟩, rfl, rfl, fun i => ?_⟩
  rcases lt_or_ge i x.ctl.fibs.length with inside | outside
  · rw [fib_updFibs x l f inside]
    split
    · exact keeps i _
    · exact .refl _
  · rw [fib_outside outside, fib_outside (by simpa using outside)]
    exact .refl _

theorem sameLanes_barReleased (x : Machine.Group) (k p : Nat) :
    SameLanes x (x.updCtl fun c => { c with fibs := c.fibs.map fun f => f.barReleased k p }) := by
  refine ⟨⟨rfl, rfl, rfl⟩, rfl, rfl, fun i => ?_⟩
  rw [fib_map x (by simp [Fibre.barReleased, Fibre.vacant])]
  exact samePlace_barReleased _ k p

/-! ## States -/

/-- Memory is what it was, and every group's fibres, masks and registers are. -/
structure KeepsLanes (s t : State) : Prop where
  mem : t.mem = s.mem
  grp : ∀ g, SameLanes (s.grp g) (t.grp g)

namespace KeepsLanes

variable {s t u : State}

theorem refl (s : State) : KeepsLanes s s := ⟨rfl, fun _ => .refl _⟩

theorem trans (h : KeepsLanes s t) (k : KeepsLanes t u) : KeepsLanes s u :=
  ⟨k.mem.trans h.mem, fun g => (h.grp g).trans (k.grp g)⟩

/-! Each rule below says that the relation is kept when one more change is done last, as in `KeepsRetired`. -/

theorem same (h : KeepsLanes s t) (k : SameWork t u) : KeepsLanes s u :=
  h.trans ⟨k.mem, fun g => grp_of_groups k.groups g ▸ .refl _⟩

theorem foldl {α : Type} {f : State → α → State} {l : List α} (h : KeepsLanes s t)
    (hf : ∀ u a, KeepsLanes u (f u a)) : KeepsLanes s (l.foldl f t) :=
  List.foldlRecOn l f h fun v hv a _ => hv.trans (hf v a)

theorem ite {c : Prop} [Decidable c] (h : KeepsLanes s t) (k : KeepsLanes s u) :
    KeepsLanes s (if c then t else u) := by
  split
  · exact h
  · exact k

theorem updGrp (h : KeepsLanes s t) (g : Nat) {f : Machine.Group → Machine.Group} (hf : ∀ x, SameLanes x (f x)) :
    KeepsLanes s (t.updGrp g f) := by
  refine h.trans ⟨rfl, fun k => ?_⟩
  by_cases hk : g = k
  · subst hk
    by_cases hg : g < t.groups.length
    · rw [grp_updGrp_self t g f hg]
      exact hf _
    · have absent : (t.updGrp g f).grp g = t.grp g := by simp [State.grp, hg]
      exact absent ▸ .refl _
  · rw [grp_updGrp_ne t g k f hk]
    exact .refl _

theorem updBlk (h : KeepsLanes s t) (b : Nat) (f : Block → Block) : KeepsLanes s (t.updBlk b f) :=
  h.trans ⟨rfl, fun _ => .refl _⟩

/-! ### Block barriers (R285, R286) -/

theorem barArrivals (h : KeepsLanes s t) (b k : Nat) : KeepsLanes s (t.barArrivals b k) :=
  h.foldl fun u g => ite (((refl u).updGrp g fun x => sameLanes_barArr x k 0).updBlk b _) (refl u)

theorem arriveLanes (h : KeepsLanes s t) (o : Op) (k : Nat) (go : W32) : KeepsLanes s (t.arriveLanes o k go) :=
  (h.updGrp o.grp fun x => (sameLanes_barArr x k _).trans
    (sameLanes_updFibs _ _ fun _ f => samePlace_arrive f k _)).same (sameWork_updOp _ o.id _)

theorem arriveAgain (h : KeepsLanes s t) (b k : Nat) : KeepsLanes s (t.arriveAgain b k) :=
  h.foldl fun u o => (refl u).arriveLanes o k o.again

theorem barRelease (h : KeepsLanes s t) (b k p : Nat) : KeepsLanes s (t.barRelease b k p) := by
  have acquired : KeepsLanes s (if (t.blk b).pair then
      (t.blk b).cores.foldl (fun u c => u.selfInvalidate c (t.gang (t.blk b).gang).ctx) t else t) :=
    ite (h.same (sameWork_foldl (fun u c => sameWork_selfInvalidate u c _) _ t)) h
  exact (acquired.foldl fun u g => (refl u).updGrp g fun x => sameLanes_barReleased x k p).same
    (sameWork_withOps _ _) |>.arriveAgain b k

theorem barComplete (h : KeepsLanes s t) (b k : Nat) : KeepsLanes s (t.barComplete b k) := by
  refine ite (same ?counted (sameWork_foldl (fun u c => sameWork_startDrain u c _ _) _ _)) (barRelease ?counted b k _)
  exact (h.updBlk b _).same (sameWork_withOps _ _)

theorem barCheck (h : KeepsLanes s t) (b k : Nat) : KeepsLanes s (t.barCheck b k) :=
  ite (((h.barArrivals b k).barComplete b k).barArrivals b k) (h.barArrivals b k)

theorem barCheckAll (h : KeepsLanes s t) (b : Nat) : KeepsLanes s (t.barCheckAll b) :=
  ite (h.foldl fun u k => (refl u).barCheck b k) h

/-! ### Gang barriers (R287) -/

theorem gbarArrivals (h : KeepsLanes s t) (b g : Nat) : KeepsLanes s (t.gbarArrivals b g) :=
  h.foldl fun u i => ite (((refl u).updGrp i fun x => sameLanes_gbarArr x g 0).updBlk b _) (refl u)

theorem gbarCheck (h : KeepsLanes s t) (b g : Nat) : KeepsLanes s (t.gbarCheck b g) :=
  ite h (ite (((h.gbarArrivals b g).updBlk b _).same (sameWork_send _ _)) (h.gbarArrivals b g))

theorem gbarCheckAll (h : KeepsLanes s t) (b : Nat) : KeepsLanes s (t.gbarCheckAll b) :=
  h.foldl fun u g => (refl u).gbarCheck b g

end KeepsLanes

end Sys2Proof.Proofs
end

section
/-!
SUPPORT. Fibres that end (R43, R229), and the statement about `exit`.
-/
namespace Sys2Proof.Proofs
open Sys2Proof.Machine Sys2Proof.Laws

/-! ## Lanes that leave the masks (R43) -/

/-- A lane is in no set of a map. -/
def ClearIn (m : SMap W32) (i : Nat) : Prop := ∀ e ∈ m, e.2.getLsbD i = false

/-- A map of lane sets after the lanes `gone` have left them. -/
def leaveSets (gone : W32) (m : SMap W32) : SMap W32 :=
  (m.map fun e => (e.1, e.2 &&& ~~~gone)).filter fun e => e.2 != 0

theorem getLsbD_look {m : SMap W32} {i : Nat} (h : ClearIn m i) (k : Nat) : (look 0 m k).getLsbD i = false := by
  induction m with
  | nil => simp [look]
  | cons e t ih =>
    obtain ⟨here, later⟩ := List.forall_mem_cons.mp h
    rw [look]
    split
    · exact here
    · exact ih later

theorem mem_leaveSets {gone : W32} {m : SMap W32} {e : Nat × W32} (h : e ∈ leaveSets gone m) :
    ∃ e' ∈ m, e.2 = e'.2 &&& ~~~gone := by
  obtain ⟨e', mem, rfl⟩ := List.mem_map.mp (List.mem_of_mem_filter h)
  exact ⟨e', mem, rfl⟩

theorem clearIn_leaveSets {gone : W32} {i : Nat} (h : gone.getLsbD i = true) (m : SMap W32) :
    ClearIn (leaveSets gone m) i := by
  intro e he
  obtain ⟨e', -, same⟩ := mem_leaveSets he
  simp [same, h]

theorem ClearIn.leaveSets {m : SMap W32} {i : Nat} (h : ClearIn m i) (gone : W32) : ClearIn (leaveSets gone m) i := by
  intro e he
  obtain ⟨e', mem, same⟩ := mem_leaveSets he
  simp [same, h e' mem]

theorem masks_leaveMasks (x : Machine.Group) (gone : W32) :
    (x.leaveMasks gone).ctl.masks = leaveSets gone x.ctl.masks := rfl

theorem marr_leaveMasks (x : Machine.Group) (gone : W32) :
    (x.leaveMasks gone).ctl.marr = leaveSets gone x.ctl.marr := rfl

@[simp] theorem fib_leaveMasks (x : Machine.Group) (gone : W32) (i : Nat) : (x.leaveMasks gone).fib i = x.fib i := rfl

/-! ## `exit` (R229) -/

/-- The active lanes whose predicate is true, which end. -/
def exitLanes (s : State) (p : Nat) : W32 := laneSet fun i => s.cur.lanes.getLsbD i && (s.grp s.cur.grp).p i p

/-- The issuing group after `exit`, before the barriers of its block are evaluated. -/
def exited (s : State) (p : Nat) (x : Machine.Group) : Machine.Group :=
  (x.updFibs s.cur.lanes fun _ f => f.atHeader s.next).endFibres (exitLanes s p)

theorem fib_exited (s : State) (p : Nat) (x : Machine.Group) {i : Nat} (h : i < x.ctl.fibs.length) :
    (exited s p x).fib i = if (exitLanes s p).getLsbD i then Fibre.vacant
      else if s.cur.lanes.getLsbD i then (x.fib i).atHeader s.next else x.fib i := by
  rw [exited, Group.endFibres, fib_leaveMasks, fib_updFibs _ _ _ (by simpa using h), fib_updFibs _ _ _ h]

/-- The state after `exit`, before the barriers of the block are evaluated. -/
def exitedState (s : State) (p : Nat) : State :=
  (s.goto fun _ => s.next).updGrp s.cur.grp fun x => x.endFibres (exitLanes s p)

section
variable {s : State} (issues : s.groupIssues) {p : Nat}
include issues

theorem grp_exitedState : (exitedState s p).grp s.cur.grp = exited s p (s.grp s.cur.grp) := by
  obtain ⟨-, stands, -⟩ := issues
  rw [exitedState, grp_updGrp_self _ _ _ (by simpa [State.goto] using stands), State.goto,
    grp_updGrp_self _ _ _ stands, exited]

/-- `exit` ends its lanes and sends the others on, and the barriers that are evaluated again leave them so. -/
theorem exit_next (free : s.regsFree [.p p] [] 1) : ∃ t, exec (.exit p) s = .next t ∧ t.mem = s.mem ∧
    SameLanes (exited s p (s.grp s.cur.grp)) (t.grp s.cur.grp) := by
  let b := (s.grp s.cur.grp).blk
  have meaning : exec (.exit p) s = .next (((exitedState s p).barCheckAll b).gbarCheckAll b) := by
    rw [exec_exit, execExit, asGroup_group issues.1, regFail_none free]
    rfl
  have evaluated : KeepsLanes (exitedState s p) (((exitedState s p).barCheckAll b).gbarCheckAll b) :=
    ((KeepsLanes.refl _).barCheckAll b).gbarCheckAll b
  exact ⟨_, meaning, evaluated.mem, grp_exitedState issues ▸ evaluated.grp s.cur.grp⟩

end

theorem mem_exitLanes {s : State} {p i : Nat} (low : i < 32) : (exitLanes s p).getLsbD i =
    (s.cur.lanes.getLsbD i && (s.grp s.cur.grp).p i p) := by
  rw [exitLanes, getLsbD_laneSet, decide_eq_true low, Bool.true_and]

/-- A lane that has ended is in no lane mask and no arrival set. -/
theorem masks_exited {s : State} {p i : Nat} (x : Machine.Group) (ends : (exitLanes s p).getLsbD i = true) (m : Nat) :
    ((exited s p x).mask m).getLsbD i = false ∧ ((exited s p x).marr m).getLsbD i = false := by
  rw [exited, Group.endFibres, Group.mask, Group.marr, masks_leaveMasks, marr_leaveMasks]
  exact ⟨getLsbD_look (clearIn_leaveSets ends _) m, getLsbD_look (clearIn_leaveSets ends _) m⟩

/-- Settles O11: what `exit` does to the lanes, and that the barriers evaluated after it leave them where they are. -/
theorem exitEndsLanes : Obligations.ExitEndsLanes := by
  intro p s issues free
  obtain ⟨t, runs, mem, same⟩ := exit_next issues free
  refine ⟨t, runs, mem, same.regs, fun i hi low => ?_⟩
  obtain ⟨pc, pred, occ⟩ := same.fib i
  have member := mem_exitLanes (s := s) (p := p) low
  rw [fib_exited s p _ hi] at pc pred occ
  dsimp only
  rw [pc, pred, occ]
  refine ⟨fun active yes => ?ends, fun active no => ?goes, fun inactive => ?stays⟩
  case ends =>
    rw [active, yes, Bool.and_self] at member
    refine ⟨by rw [if_pos member]; rfl, fun m => ?_⟩
    obtain ⟨mask, arrivals⟩ := masks_exited (s.grp s.cur.grp) member m
    exact ⟨by rwa [Group.mask, same.masks], by rwa [Group.marr, same.marr]⟩
  case goes =>
    rw [active, no, Bool.and_false] at member
    rw [member, active]
    exact ⟨rfl, rfl⟩
  case stays =>
    rw [inactive, Bool.false_and] at member
    rw [member, inactive]
    exact ⟨rfl, rfl, rfl⟩

end Sys2Proof.Proofs
end

section
/-!
SUPPORT. Fibres that start (R41, R42, R230), and the statement about `fspawn`.
-/
namespace Sys2Proof.Proofs
open Sys2Proof.Machine Sys2Proof.Laws

/-! ## One fibre that starts (R41) -/

section
variable (x : Machine.Group) (slot : Nat) (f : Fibre)

theorem fibs_spawn : (x.spawn slot f).ctl.fibs = x.ctl.fibs.modify slot fun _ => f := rfl

theorem length_fibs_spawn : (x.spawn slot f).ctl.fibs.length = x.ctl.fibs.length := by
  rw [fibs_spawn, List.length_modify]

theorem fib_spawn_self (h : slot < x.ctl.fibs.length) : (x.spawn slot f).fib slot = f := by
  simp [Group.fib, fibs_spawn, List.getD_eq_getElem?_getD, h]

theorem fib_spawn_ne {j : Nat} (h : slot ≠ j) : (x.spawn slot f).fib j = x.fib j := by
  simp [Group.fib, fibs_spawn, List.getD_eq_getElem?_getD, h]

theorem masks_spawn : (x.spawn slot f).ctl.masks = leaveSets (laneSet fun i => i == slot) x.ctl.masks := rfl

end

/-! ## The fibres of one `fspawn` (R42) -/

/-- A fibre starts in the slot that a spawner receives, if it receives one. -/
def spawnOne (start : Nat → Fibre) (x : Machine.Group) (e : Nat × Option Nat) : Machine.Group :=
  match e.2 with
  | some slot => x.spawn slot (start e.1)
  | none => x

/-- The fibres of a list of spawners and slots start, one after the other. -/
def spawnAll (start : Nat → Fibre) (l : List (Nat × Option Nat)) (x : Machine.Group) : Machine.Group :=
  l.foldl (spawnOne start) x

section
variable {start : Nat → Fibre} {l : List (Nat × Option Nat)} {x : Machine.Group}

/-- What every start of a fibre keeps holds after all of them. -/
theorem spawnAll_keeps {P : Machine.Group → Prop} (h : P x)
    (keeps : ∀ y, P y → ∀ i slot, (i, some slot) ∈ l → P (y.spawn slot (start i))) : P (spawnAll start l x) :=
  List.foldlRecOn l _ h fun y hy e he => by
    obtain ⟨i, received⟩ := e
    cases received with
    | none => exact hy
    | some slot => exact keeps y hy i slot he

theorem pend_spawnAll : (spawnAll start l x).pend = x.pend :=
  spawnAll_keeps (P := fun y => y.pend = x.pend) rfl fun _ hy _ _ _ => hy

theorem length_fibs_spawnAll : (spawnAll start l x).ctl.fibs.length = x.ctl.fibs.length :=
  spawnAll_keeps (P := fun y => y.ctl.fibs.length = x.ctl.fibs.length) rfl fun _ hy _ _ _ =>
    (length_fibs_spawn _ _ _).trans hy

/-- A slot that nobody receives is as it was. -/
theorem fib_spawnAll_other {slot : Nat} (h : ∀ e ∈ l, e.2 ≠ some slot) : (spawnAll start l x).fib slot = x.fib slot :=
  spawnAll_keeps (P := fun y => y.fib slot = x.fib slot) rfl fun _ hy _ other received =>
    have differ : other ≠ slot := fun same => h _ received (congrArg some same)
    (fib_spawn_ne _ _ _ differ).trans hy

/-- A lane that is in no mask is in none after other fibres have started. -/
theorem clearIn_spawnAll {slot : Nat} (h : ClearIn x.ctl.masks slot) : ClearIn (spawnAll start l x).ctl.masks slot :=
  spawnAll_keeps (P := fun y => ClearIn y.ctl.masks slot) h fun _ hy _ _ _ => hy.leaveSets _

/-- The fibre that starts in a slot which only one spawner receives, and its bit in the masks. -/
theorem spawnAll_starts {before after : List (Nat × Option Nat)} {i slot : Nat} (low : slot < 32)
    (stands : slot < x.ctl.fibs.length) (once : ∀ e ∈ after, e.2 ≠ some slot) :
    (spawnAll start (before ++ (i, some slot) :: after) x).fib slot = start i ∧
    ClearIn (spawnAll start (before ++ (i, some slot) :: after) x).ctl.masks slot := by
  have split : spawnAll start (before ++ (i, some slot) :: after) x =
      spawnAll start after ((spawnAll start before x).spawn slot (start i)) := by
    rw [spawnAll, List.foldl_append, List.foldl_cons]
    rfl
  rw [split]
  constructor
  · rw [fib_spawnAll_other once, fib_spawn_self _ _ _ (stands.trans_eq length_fibs_spawnAll.symm)]
  · exact clearIn_spawnAll (masks_spawn _ _ _ ▸ clearIn_leaveSets (by simp [low]) _)

end

/-! ## The slots and the writes (R42) -/

theorem nodup_vacantSlots (s : State) : s.vacantSlots.Nodup := List.nodup_range.filter _

theorem lt_of_mem_vacantSlots {s : State} {slot : Nat} (h : slot ∈ s.vacantSlots) : slot < 32 :=
  List.mem_range.mp (List.mem_of_mem_filter h)

/-- The `n`-th lane receives the `n`-th slot, and nobody after it does. -/
theorem spawnPairs_split {lanes slots : List Nat} {n i slot : Nat} (distinct : slots.Nodup) (lane : lanes[n]? = some i)
    (received : slots[n]? = some slot) : ∃ before after,
      spawnPairs lanes slots = before ++ (i, some slot) :: after ∧ ∀ e ∈ after, e.2 ≠ some slot := by
  obtain ⟨inside, -⟩ := List.getElem?_eq_some_iff.mp received
  have place : (spawnPairs lanes slots)[n]? = some (i, some slot) := by
    rw [spawnPairs, List.getElem?_mapIdx, lane, received]
    rfl
  obtain ⟨short, here⟩ := List.getElem?_eq_some_iff.mp place
  refine ⟨(spawnPairs lanes slots).take n, (spawnPairs lanes slots).drop (n + 1), ?_, fun e he same => ?_⟩
  · rw [← here, List.getElem_cons_drop, List.take_append_drop]
  · obtain ⟨k, hk, rfl⟩ := List.getElem_of_mem he
    have later : slots[n + 1 + k]? = some slot := by simpa [spawnPairs] using same
    have again : n = n + 1 + k := (List.getElem?_inj inside distinct).mp (received.trans later.symm)
    omega

/-! ## The state after `fspawn` -/

/-- What a spawner starts (R41): its own predicate word at the target, with window base `w`. -/
def startOf (s : State) (w : Nat) (off : Int) (i : Nat) : Fibre :=
  Fibre.spawned (branchTarget s.cur.hdr off) ((s.grp s.cur.grp).fib i).pred w

/-- The writes of `fspawn` to the spawners' registers (R230). -/
def spawnWrites (s : State) (d p : Nat) : List (Dst × W32) :=
  (spawnPairs (lanesOf s.cur.lanes) s.vacantSlots).flatMap fun e =>
    match e.2 with
    | some slot => (s.grp s.cur.grp).resolve e.1 [(.v d, BitVec.ofNat 32 slot), (.p p, 1)]
    | none => (s.grp s.cur.grp).resolve e.1 [(.p p, 0)]

/-- The spawners' writes on their way, and then the fibres started. -/
def spawned (s : State) (d p w : Nat) (off : Int) (x : Machine.Group) : Machine.Group :=
  spawnAll (startOf s w off) (spawnPairs (lanesOf s.cur.lanes) s.vacantSlots)
    { x with pend := x.pend ++ (spawnWrites s d p).map fun e => ⟨s.clockOf s.cur.grp + 6, s.cur.port, e.1, e.2, false⟩ }

theorem length_fibs_spawned (s : State) (d p w : Nat) (off : Int) (x : Machine.Group) :
    (spawned s d p w off x).ctl.fibs.length = x.ctl.fibs.length := length_fibs_spawnAll

/-- Two changes of one group are one change. -/
theorem updGrp_updGrp (s : State) (g : Nat) (f h : Machine.Group → Machine.Group) :
    (s.updGrp g f).updGrp g h = s.updGrp g fun x => h (f x) := by
  simp only [State.updGrp, List.modify_modify_eq]
  rfl

/-- A fibre of the issuing group starts in the slot that a spawner receives, if it receives one. -/
def spawnNext (start : W64 → Nat → Fibre) (t : State) (e : Nat × Option Nat) : State :=
  match e.2 with
  | some slot => t.updGrp t.cur.grp fun x => x.spawn slot (start t.cur.hdr e.1)
  | none => t

/-- The fibres that start one after the other are one change of the group. -/
theorem foldl_spawnNext (start : W64 → Nat → Fibre) (l : List (Nat × Option Nat)) (t : State) :
    l.foldl (spawnNext start) t = t.updGrp t.cur.grp (spawnAll (start t.cur.hdr) l) := by
  induction l generalizing t with
  | nil =>
    have unchanged : t.groups.modify t.cur.grp id = t.groups := List.modify_id _ _
    exact congrArg (fun gs => { t with groups := gs }) unchanged.symm
  | cons e l ih =>
    obtain ⟨i, received⟩ := e
    cases received with
    | none => exact ih t
    | some slot => exact (ih _).trans (updGrp_updGrp t t.cur.grp _ _)

theorem fspawn_next {s : State} {d p w : Nat} {off : Int} (group : s.cur.kind = .group)
    (free : s.regsFree ((List.range 15).map .p) [.v d, .p p] 6) :
    exec (.fspawn d p w off) s = .next (s.updGrp s.cur.grp (spawned s d p w off)).finish := by
  rw [exec_fspawn, execFspawn, asGroup_group group, wholeWord, regFail_none free]
  have started := foldl_spawnNext (fun hdr i => Fibre.spawned (branchTarget hdr off) ((s.grp s.cur.grp).fib i).pred w)
    (spawnPairs (lanesOf s.cur.lanes) s.vacantSlots) (s.queue 6 (spawnWrites s d p))
  exact congrArg (fun t => Host.Outcome.next t.finish) (started.trans (updGrp_updGrp s s.cur.grp _ _))

/-- Settles O12: the slots are distinct, so a fibre that has started in one is not touched by
those that start after it. -/
theorem spawnFillsVacantSlots : Obligations.SpawnFillsVacantSlots := by
  intro d p w off s issues free size g lanes slots
  have after := grp_finish_updGrp issues (spawned s d p w off)
  refine ⟨_, fspawn_next issues.1 free, by simp, ?writes, fun n i slot lane received inactive => ?starts⟩
  case writes =>
    rw [after]
    exact pend_spawnAll
  case starts =>
    have vacant : slot < 32 := lt_of_mem_vacantSlots (List.mem_of_getElem? received)
    obtain ⟨before, later, split, once⟩ := spawnPairs_split (nodup_vacantSlots s) lane received
    have stands : slot < (spawned s d p w off g).ctl.fibs.length :=
      vacant.trans_eq (size.symm.trans (length_fibs_spawned s d p w off g).symm)
    obtain ⟨starts, clear⟩ : (spawned s d p w off g).fib slot = startOf s w off i ∧
        ClearIn (spawned s d p w off g).ctl.masks slot := by
      rw [spawned, split]
      exact spawnAll_starts vacant (vacant.trans_eq size.symm) once
    dsimp only
    rw [after, fib_updFibs _ _ _ stands, inactive, if_neg Bool.false_ne_true, starts]
    exact ⟨rfl, rfl, rfl, rfl, rfl, getLsbD_look clear⟩

end Sys2Proof.Proofs
end

section
/-!
SUPPORT. Reductions, scans and shuffles (R259 to R264), and the statements about them.
-/
namespace Sys2Proof.Proofs
open Sys2Proof.Machine Sys2Proof.Laws

/-! ## Sums over the contributing lanes (R262) -/

/-- Adding up words keeps the sum of their values modulo the width. -/
theorem foldl_add_eq_ofNat {w : Nat} (f : Nat → BitVec w) (l : List Nat) (acc : BitVec w) :
    l.foldl (fun acc i => acc + f i) acc = acc + BitVec.ofNat w (l.map fun i => (f i).toNat).sum := by
  induction l generalizing acc with
  | nil => simp
  | cons i l ih => simp [ih, BitVec.ofNat_add, BitVec.add_assoc]

theorem foldl_add_eq_sum (f : Nat → Int) (l : List Nat) : l.foldl (fun acc i => acc + f i) 0 = (l.map f).sum := by
  rw [List.sum_eq_foldl, List.foldl_map]

/-- Modulo the width, words have one sum, signed or unsigned. -/
theorem ofInt_sum_toInt {w : Nat} (f : Nat → BitVec w) (l : List Nat) :
    BitVec.ofInt w (l.map fun i => (f i).toInt).sum = BitVec.ofNat w (l.map fun i => (f i).toNat).sum := by
  induction l with
  | nil => simp
  | cons i l ih => simp [ih, BitVec.ofInt_add, BitVec.ofNat_add]

/-! ## Bitwise combinations over the contributing lanes (R262) -/

section
variable (f : Nat → W32) (l : List Nat) (acc : W32) (k : Nat)

theorem getLsbD_foldl_and :
    (l.foldl (fun acc i => acc &&& f i) acc).getLsbD k = (acc.getLsbD k && l.all fun i => (f i).getLsbD k) := by
  induction l generalizing acc with
  | nil => simp
  | cons i l ih => simp [ih, Bool.and_assoc]

theorem getLsbD_foldl_or :
    (l.foldl (fun acc i => acc ||| f i) acc).getLsbD k = (acc.getLsbD k || l.any fun i => (f i).getLsbD k) := by
  induction l generalizing acc with
  | nil => simp
  | cons i l ih => simp [ih, Bool.or_assoc]

/-- One more is odd where the rest is not. -/
theorem succ_mod_two_beq (n : Nat) : ((n + 1) % 2 == 1) = !(n % 2 == 1) := by
  rw [Bool.eq_iff_iff]
  simp [Nat.succ_mod_two_eq_one_iff]

/-- The exclusive OR has a bit that an odd number of words have. -/
theorem getLsbD_foldl_xor : (l.foldl (fun acc i => acc ^^^ f i) acc).getLsbD k =
    (acc.getLsbD k ^^ (l.countP fun i => (f i).getLsbD k) % 2 == 1) := by
  induction l generalizing acc with
  | nil => simp
  | cons i l ih =>
    rw [List.foldl_cons, ih, BitVec.getLsbD_xor, List.countP_cons]
    cases (f i).getLsbD k
    · simp
    · simp [succ_mod_two_beq]

end

/-- What `redlog` folds the words of the contributing lanes with. -/
def logStep (op : Nat) (acc x : W32) : W32 := if op = 0 then acc &&& x else if op = 1 then acc ||| x else acc ^^^ x

/-- The three bitwise combinations of words, bit by bit. -/
theorem foldl_logStep (op : Nat) (f : Nat → W32) (l : List Nat) :
    l.foldl (fun acc i => logStep op acc (f i)) (if op = 0 then 0xFFFFFFFF else 0) =
      if op = 0 then laneSet fun k => l.all fun j => (f j).getLsbD k
      else if op = 1 then laneSet fun k => l.any fun j => (f j).getLsbD k
      else laneSet fun k => l.countP (fun j => (f j).getLsbD k) % 2 == 1 := by
  have ones (k : Nat) (low : k < 32) : (0xFFFFFFFF : W32).getLsbD k = true :=
    (BitVec.getLsbD_allOnes (v := 32)).trans (decide_eq_true low)
  unfold logStep
  split
  · exact eq_laneSet fun k low => by rw [getLsbD_foldl_and, ones k low, Bool.true_and]
  · split
    · exact eq_laneSet fun k _ => by rw [getLsbD_foldl_or]; simp
    · exact eq_laneSet fun k _ => by rw [getLsbD_foldl_xor]; simp

/-! ## The meanings of the reductions, form by form -/

/-- The writes of an extreme, with `.idx` the lowest lane that holds it beside it. -/
def extremeWrites (d : Nat) (idx : Bool) (r : W32 × W32) : List (Reg × W32) :=
  if idx then [(.v d, r.1), (.v (d + 1), r.2)] else [(.v d, r.1)]

section
variable (d a m : Nat) (s : State)

theorem exec_redmin_extreme (idx : Bool) (ty : Nat) : exec (.redmin d a m idx ty) s =
    crossOp s 10 (s.contributors m) [.v a] [] (if idx then vpair d else [.v d])
      fun x _ => extremeWrites d idx (extreme false ty (x.valuesOf (s.contributors m) a)) := rfl

theorem exec_redmax_extreme (idx : Bool) (ty : Nat) : exec (.redmax d a m idx ty) s =
    crossOp s 10 (s.contributors m) [.v a] [] (if idx then vpair d else [.v d])
      fun x _ => extremeWrites d idx (extreme true ty (x.valuesOf (s.contributors m) a)) := rfl

theorem exec_redadd_pair : exec (.redadd d a m 1) s =
    crossOp s 10 (s.contributors m) (vpair a) [] (vpair d) fun x _ =>
      putPair d ((lanesOf (s.contributors m)).foldl (fun acc j => acc + x.vp j a) 0) := rfl

theorem exec_redadd_wraps : exec (.redadd d a m 0) s =
    crossOp s 10 (s.contributors m) [.v a] [] [.v d] fun x _ =>
      [(.v d, BitVec.ofInt 32 ((lanesOf (s.contributors m)).foldl (fun acc j => acc + (x.v j a).toInt) 0))] := rfl

theorem exec_redadd_clamps : exec (.redadd d a m 2) s =
    crossOp s 10 (s.contributors m) [.v a] [] [.v d] fun x _ =>
      [(.v d, BitVec.ofInt 32 (max (-(2 ^ 31)) (min (2 ^ 31 - 1)
        ((lanesOf (s.contributors m)).foldl (fun acc j => acc + (x.v j a).toInt) 0))))] := rfl

theorem exec_redlog_step (op : Nat) : exec (.redlog d a m op) s =
    crossOp s 10 (s.contributors m) [.v a] [] [.v d] fun x _ =>
      [(.v d, (lanesOf (s.contributors m)).foldl (fun acc j => logStep op acc (x.v j a))
        (if op = 0 then 0xFFFFFFFF else 0))] := rfl

theorem exec_fredadd_pair : exec (.fredadd d a m true) s =
    crossOp s 14 (s.contributors m) (vpair a) [] (vpair d) fun x _ =>
      putPair d (BitVec.ofNat 64 (treeSum fp64 ((List.range 32).map fun j =>
        if (s.contributors m).getLsbD j then (x.vp j a).toNat else fp64.zero true))) := rfl

theorem exec_fredadd_single : exec (.fredadd d a m false) s =
    crossOp s 14 (s.contributors m) [.v a] [] [.v d] fun x _ =>
      [(.v d, BitVec.ofNat 32 (treeSum fp32 ((List.range 32).map fun j =>
        if (s.contributors m).getLsbD j then (x.v j a).toNat else fp32.zero true)))] := rfl

end

theorem fp32_zero_negative : fp32.zero true = 0x80000000 := by decide

theorem fp64_zero_negative : fp64.zero true = 0x8000000000000000 := by decide

/-- Settles O15: sums are cut to the width after they are formed, bitwise combinations go bit by bit, and lanes that do
not contribute hold -0.0 in the tree. -/
theorem reductionResults : Obligations.ReductionResults := by
  intro d a m op ty idx w64 excl c vals ext
  refine ⟨?redmin, ?redmax, ?wraps, ?pair, ?clamps, ?redlog, ?fredadd, ?scan⟩
  case redmin => exact crossResult_of (fun s => exec_redmin_extreme d a m s idx ty) fun _ _ _ => rfl
  case redmax => exact crossResult_of (fun s => exec_redmax_extreme d a m s idx ty) fun _ _ _ => rfl
  case wraps =>
    refine crossResult_of (exec_redadd_wraps d a m) fun s x _ => ?_
    rw [foldl_add_eq_sum, ofInt_sum_toInt]
    rfl
  case pair =>
    refine crossResult_of (exec_redadd_pair d a m) fun s x _ => ?_
    rw [foldl_add_eq_ofNat, zero_add]
    rfl
  case clamps =>
    refine crossResult_of (exec_redadd_clamps d a m) fun s x _ => ?_
    rw [foldl_add_eq_sum]
    rfl
  case redlog =>
    exact crossResult_of (fun s => exec_redlog_step d a m s op) fun s x _ =>
      write_congr _ (foldl_logStep op (fun j => x.v j a) (lanesOf (c s)))
  case fredadd =>
    cases w64
    case false =>
      refine crossResult_of (exec_fredadd_single d a m) fun s x _ => ?_
      rw [fp32_zero_negative]
      rfl
    case true =>
      refine crossResult_of (exec_fredadd_pair d a m) fun s x _ => ?_
      rw [fp64_zero_negative]
      rfl
  case scan => exact crossResult_of (exec_scan d a m excl op) fun _ _ _ => rfl

/-! ## Shuffles (R259, R260) -/

/-- The source lanes of a shuffle that the issuing group executes. -/
def shuffleSources (mode seg : Nat) (b : Src) (s : State) (i : Nat) : Option Nat :=
  shuffleSource mode (segWidth seg) i ((s.grp s.cur.grp).src i b).toNat

/-- The value of a register that a lane takes: its source lane's if that contributes, and out of range its own or 0. -/
def shuffled (c : W32) (z : Bool) (x : Machine.Group) (src : Nat → Option Nat) (i k : Nat) : W32 :=
  match src i with
  | none => if z then 0 else x.v i k
  | some j => if c.getLsbD j then x.v j k else 0

/-- A shuffle reads its source register in the lanes that some active lane takes its value from. -/
theorem shfl_next {d a mlo mhi m seg : Nat} {b : Src} {w64 z : Bool} {s : State} (group : s.cur.kind = .group)
    (free : s.crossFree 6
      (shuffleReads (s.contributors m) s.cur.lanes z (shuffleSources (mlo + 4 * mhi) seg b s))
      (if w64 then vpair a else [.v a]) b.uses (if w64 then vpair d else [.v d])) :
    exec (.shfl d a mlo mhi b w64 m seg z) s = .next (s.afterWrites 6 fun i =>
      let val := shuffled (s.contributors m) z (s.grp s.cur.grp) (shuffleSources (mlo + 4 * mhi) seg b s) i
      if w64 then [(.v d, val a), (.v (d + 1), val (a + 1))] else [(.v d, val a)]) :=
  (exec_shfl d a mlo mhi b w64 m seg z s).trans (crossOp_next group free)

/-- Settles O16: the lanes whose register a shuffle reads, and the value each active lane takes, are those of R260. -/
theorem shuffleResults : Obligations.ShuffleResults :=
  fun _ _ _ _ _ _ _ _ _ _ group free => shfl_next group free

end Sys2Proof.Proofs
end

section
/-!
SUPPORT. Floating-point instructions and special functions (R245 to R252), and the statements about them.
-/
namespace Sys2Proof.Proofs
open Sys2Proof.Machine Sys2Proof.Laws

/-! ## FP32 (R245 to R248) -/

/-! The class word of a register and of a pair. -/

theorem exec_fclass_single (d a : Nat) (s : State) : exec (.fclass d a false) s =
    unaryOp s 4 d a fun x => BitVec.ofNat 32 (classWord fp32 x.toNat) := rfl

theorem exec_fclass_pair (d a : Nat) (s : State) : exec (.fclass d a true) s =
    laneOp s 4 (vpair a) [.v d] fun x i => [(.v d, BitVec.ofNat 32 (classWord fp64 (x.vp i a).toNat))] := rfl

/-- Settles O17: each function of the model is the exact operation with its one rounding. -/
theorem fp32Results : Obligations.Fp32Results := by
  intro d a p rnd cond b e nan w64 np
  refine ⟨?fadd, ?fsub, ?fmul, ?ffma, ?fmin, ?fmax, ?fsetp, ?fclass⟩
  case fadd => exact binaryOp_result (exec_fadd d a rnd b) fun _ _ _ => rfl
  case fsub => exact binaryOp_result (exec_fsub d a rnd b) fun _ _ _ => rfl
  case fmul => exact binaryOp_result (exec_fmul d a rnd b) fun _ _ _ => rfl
  case ffma => exact ternaryOp_result (exec_ffma d a b e rnd np) fun _ _ _ => rfl
  case fmin => exact binaryOp_result (exec_fmin d a b nan) fun _ _ _ => rfl
  case fmax => exact binaryOp_result (exec_fmax d a b nan) fun _ _ _ => rfl
  case fsetp => exact laneResult_of (exec_fsetp p a cond b) fun _ _ _ => rfl
  case fclass =>
    cases w64
    case false => exact unaryOp_result (exec_fclass_single d a) fun _ _ _ => rfl
    case true => exact laneResult_of (exec_fclass_pair d a) fun _ _ _ => rfl

/-! ## Special functions (R249) -/

/-- A special function of one operand writes its value after 16 clocks. -/
theorem specialOp_result {i : Instr} {d a : Nat} {f : Machine.Num → Nat} (hx : ∀ s, exec i s = specialOp s d a f) :
    LaneResult i 16 [.v a] [.v d] fun _ x k => [(.v d, BitVec.ofNat 32 (f (num32 (x.v k a))))] :=
  unaryOp_result hx fun _ _ _ => rfl

/-- A result of two pairs is the pair of the function of their values. -/
theorem binaryPair_result {i : Instr} {lat d a : Nat} {b : Src} {f : W64 → W64 → W64}
    {g : State → Machine.Group → Nat → List (Reg × W32)} (hx : ∀ s, exec i s = binaryPair s lat d a b f)
    (hf : ∀ s x k, putPair d (f (x.vp k a) (x.srcp k b)) = g s x k) :
    LaneResult i lat (vpair a ++ b.usesPair) (vpair d) g :=
  laneResult_of (f := fun _ x k => putPair d (f (x.vp k a) (x.srcp k b))) hx hf

/-- Settles O18: seven functions of one operand, and the quotients of registers and of pairs. -/
theorem specialFunctionResults : Obligations.SpecialFunctionResults := by
  intro d a b one
  refine ⟨?frcp, ?frsq, ?fsqrt, ?fexp2, ?flog2, ?fsinpi, ?fcospi, ?fdiv, ?ddiv⟩
  case frcp => exact specialOp_result (exec_frcp d a)
  case frsq => exact specialOp_result (exec_frsq d a)
  case fsqrt => exact specialOp_result (exec_fsqrt d a)
  case fexp2 => exact specialOp_result (exec_fexp2 d a)
  case flog2 => exact specialOp_result (exec_flog2 d a)
  case fsinpi => exact specialOp_result (exec_fsinpi d a)
  case fcospi => exact specialOp_result (exec_fcospi d a)
  case fdiv => exact binaryOp_result (exec_fdiv d a b) fun _ _ _ => rfl
  case ddiv => exact binaryPair_result (exec_ddiv d a b) fun _ _ _ => rfl

/-! ## FP64, packed halves and complex pairs (R250 to R252) -/

/-- Settles O19: pairs, halves and complex components each hold one rounding of their own exact result. -/
theorem wideAndPackedResults : Obligations.WideAndPackedResults := by
  intro d a p vb vc rnd cond b e nan np bf cj
  refine ⟨?dadd, ?dmul, ?dfma, ?dmin, ?dmax, ?dsetp, ⟨?hadd2, ?hmul2, ?hfma2⟩, ?cmul, ?cfma⟩
  case dadd => exact binaryPair_result (exec_dadd d a b rnd) fun _ _ _ => rfl
  case dmul => exact binaryPair_result (exec_dmul d a b rnd) fun _ _ _ => rfl
  case dfma => exact laneResult_of (exec_dfma d a b e rnd np) fun _ _ _ => rfl
  case dmin => exact binaryPair_result (exec_dmin d a b nan) fun _ _ _ => rfl
  case dmax => exact binaryPair_result (exec_dmax d a b nan) fun _ _ _ => rfl
  case dsetp => exact laneResult_of (exec_dsetp p a cond b) fun _ _ _ => rfl
  case hadd2 => exact binaryOp_result (exec_hadd2 d a b rnd bf) fun _ _ _ => rfl
  case hmul2 => exact binaryOp_result (exec_hmul2 d a b rnd bf) fun _ _ _ => rfl
  case hfma2 => exact ternaryOp_result (exec_hfma2 d a b e rnd bf) fun _ _ _ => rfl
  case cmul => exact laneResult_of (exec_cmul d a vb rnd cj) fun _ _ _ => rfl
  case cfma => exact laneResult_of (exec_cfma d a vb vc rnd cj) fun _ _ _ => rfl

end Sys2Proof.Proofs
end

section
/-!
SUPPORT. Conversions to a narrow format (R253, R255, R265), and the statement about conversions.
-/
namespace Sys2Proof.Proofs
open Sys2Proof.Machine Sys2Proof.Laws

/-! ## Writes of a conversion's part (R265) -/

/-- A conversion to a narrow format with free registers: its writes are a conversion's part. -/
theorem partOp_next {s : State} {lat : Nat} {rd wr : List Reg} {f : Machine.Group → Nat → List (Reg × W32)}
    (group : s.cur.kind = .group) (free : s.regsFree rd wr lat) :
    partOp s lat rd wr f = .next (s.queuePart lat ((lanesOf s.cur.lanes).flatMap fun i =>
      (s.grp s.cur.grp).resolve i (f (s.grp s.cur.grp) i))).finish := by
  rw [partOp, asGroup_group group, regFail_none free]

section
variable {s : State} (issues : s.groupIssues) (lat : Nat) (ws : List (Dst × W32))
include issues

/-- The writes that an instruction of the issuing group has put on their way are whole registers. -/
theorem pend_queue_finish : ((s.queue lat ws).finish.grp s.cur.grp).pend =
    (s.grp s.cur.grp).pend ++ ws.map fun w => ⟨s.clockOf s.cur.grp + lat, s.cur.port, w.1, w.2, false⟩ := by
  rw [State.queue, grp_finish_updGrp issues, updFibs_pend]

/-- Those that a narrow conversion has put on their way hold a part. -/
theorem pend_queuePart_finish : ((s.queuePart lat ws).finish.grp s.cur.grp).pend =
    (s.grp s.cur.grp).pend ++ ws.map fun w => ⟨s.clockOf s.cur.grp + lat, s.cur.port, w.1, w.2, true⟩ := by
  rw [State.queuePart, grp_finish_updGrp issues, updFibs_pend]

/-- One write on its way tells a conversion's part from a whole register. -/
theorem queuePart_finish_ne_queue_finish (some_write : ws ≠ []) :
    (s.queuePart lat ws).finish ≠ (s.queue lat ws).finish := by
  intro same
  have pends : ((s.queuePart lat ws).finish.grp s.cur.grp).pend = ((s.queue lat ws).finish.grp s.cur.grp).pend := by
    rw [same]
  rw [pend_queuePart_finish issues, pend_queue_finish issues, List.append_cancel_left_eq] at pends
  obtain ⟨w, rest, rfl⟩ := List.exists_cons_of_ne_nil some_write
  simp at pends

end

/-! ## A narrow conversion that the statement does not allow for -/

/-- A group of one fibre in lane 0, with 64 vector registers that hold 0, issues an instruction of a clause of one
word at 0x10000. -/
def oneLane : State := { State.reset.placeWord 0x04100000 0 with
  cur := { Issue.none with kind := .group, lanes := 1, hdr := 0x10000, nwords := 1, idx := 1, len := 1, occ := 1 } }

theorem oneLane_issues : oneLane.groupIssues := by decide +kernel

/-- Registers 0 and 1 are in the window of lane 0, and nothing is on its way to them. -/
theorem oneLane_free : oneLane.regsFree [.v 1, .v 0] [.v 0] 6 := by decide +kernel

/-- What `cvtff` to FP16 writes of v1 into the low half of v0 (R253). -/
def cvtffWrites (x : Machine.Group) (i : Nat) : List (Reg × W32) :=
  x.putPart i 2 0 0 (roundF (fp32.decode (x.partOf i 0 1 0)) fp16 0 false)

/-- A conversion to FP16 has the shape of one that writes part of its register. -/
theorem exec_cvtff_narrow (s : State) :
    exec (.cvtff 0 1 0 false 2 0 0 0) s = partOp s 6 [.v 1, .v 0] [.v 0] cvtffWrites := rfl

/-- Refutes O20: `cvtff` to FP16 writes part of its register, and the model marks such a write as a part (R265), so
that it is not the whole-register write that `State.afterWrites` puts on its way. -/
theorem not_conversionResults : ¬ Obligations.ConversionResults := by
  intro h
  obtain ⟨cvtff, -⟩ := h 0 1 0 0 2 0 0 0 0 0 0 0 0 0 false
  have claimed := cvtff oneLane oneLane_issues.1 oneLane_free
  rw [exec_cvtff_narrow, partOp_next oneLane_issues.1 oneLane_free] at claimed
  exact queuePart_finish_ne_queue_finish oneLane_issues 6 _ (by decide +kernel) (Host.Outcome.next.inj claimed)

end Sys2Proof.Proofs
end

section
/-!
SUPPORT. How an instruction with addresses issues (R121, R266, R269): its addresses are translated, which leaves the
work of the machine alone, and its operation joins the pipeline.
-/
namespace Sys2Proof.Proofs
open Sys2Proof.Machine Sys2Proof.Laws

/-! ## Translation at issue (R121, R381, R383) -/

/-- The issuer, the pipeline and the work of the machine are what they were. -/
structure SameIssue (s t : State) : Prop extends SameWork s t where
  cur : t.cur = s.cur
  ops : t.ops = s.ops

namespace SameIssue

theorem refl (s : State) : SameIssue s s := ⟨.refl s, rfl, rfl⟩

theorem trans {s t u : State} (h : SameIssue s t) (k : SameIssue t u) : SameIssue s u :=
  ⟨h.toSameWork.trans k.toSameWork, k.cur.trans h.cur, k.ops.trans h.ops⟩

variable {s t : State} (h : SameIssue s t)
include h

theorem grp (g : Nat) : t.grp g = s.grp g := grp_of_groups h.groups g

theorem groupIssues (issues : s.groupIssues) : t.groupIssues := by
  simpa only [State.groupIssues, h.cur, h.groups, h.blocks, h.grp] using issues

end SameIssue

/-- All that changes when the addresses of an issuing group's instruction translate are the walks that it has waited for
and the translation caches of cores. -/
structure Translated (s t : State) : Prop extends SameIssue s t where
  gangs : t.gangs = s.gangs
  regions : t.regions = s.regions
  lines : ∀ c, (t.core c).lines = (s.core c).lines

namespace Translated

theorem refl (s : State) : Translated s s := ⟨.refl s, rfl, rfl, fun _ => rfl⟩

theorem trans {s t u : State} (h : Translated s t) (k : Translated t u) : Translated s u :=
  ⟨h.toSameIssue.trans k.toSameIssue, k.gangs.trans h.gangs, k.regions.trans h.regions,
    fun c => (k.lines c).trans (h.lines c)⟩

variable {s t : State} (h : Translated s t)
include h

theorem ctxOf (g : Nat) : t.ctxOf g = s.ctxOf g := by
  simp only [State.ctxOf, State.gangOf, State.gang, h.gangs, h.grp, blk_of_blocks h.blocks]

theorem regionAt (pa : Nat) : t.regionAt pa = s.regionAt pa := by simp only [State.regionAt, h.regions]

theorem regionsBehind (l : List (Nat × Nat)) : t.regionsBehind l = s.regionsBehind l := by
  simp only [State.regionsBehind, h.regions]

theorem dirtyLines (core ctx : Nat) : t.dirtyLines core ctx = s.dirtyLines core ctx := by
  simp only [State.dirtyLines, h.lines]

end Translated

theorem translated_tookLanes (s : State) (g : Nat) (lanes : W32) : Translated s (s.tookLanes g lanes) :=
  ⟨⟨⟨rfl, rfl, rfl, rfl⟩, rfl, rfl⟩, rfl, rfl, fun _ => rfl⟩

theorem translated_fillCore (s : State) (core : Nat) (e : TlbEnt) : Translated s (s.fillCore core e) := by
  unfold State.fillCore
  split
  · exact .refl s
  · refine ⟨⟨sameWork_updCore s core _, rfl, rfl⟩, rfl, rfl, fun c => ?_⟩
    rw [core_updCore]
    split
    · next same => rw [same]
    · rfl

/-- Where all addresses translate, the instruction goes on with their translations. -/
theorem withAddresses_all {s : State} {wants : Machine.Group → List Want} {l : List (Want × Xl)}
    (all : s.translates (wants (s.grp s.cur.grp)) l) :
    ∃ t, Translated s t ∧ ∀ k, withAddresses s wants k = k t l := by
  simp only [withAddresses, all]
  refine ⟨_, (translated_tookLanes s s.cur.grp s.cur.lanes).trans ?_, fun _ => rfl⟩
  refine List.foldlRecOn l _ (.refl _) fun u hu e _ => hu.trans ?_
  split
  · exact translated_fillCore u _ _
  · exact .refl u

/-! ## Joining the pipeline (R67, R269) -/

@[simp] theorem sameRegs_incCounter (x : Machine.Group) (k : Nat) : x.sameRegs (x.incCounter k) := by
  unfold Group.incCounter
  split
  · exact ⟨rfl, rfl, rfl⟩
  · exact ⟨rfl, rfl, rfl⟩

@[simp] theorem fibs_incCounter (x : Machine.Group) (k : Nat) : (x.incCounter k).ctl.fibs = x.ctl.fibs := by
  unfold Group.incCounter
  split <;> rfl

section
variable {s t : State} (issues : s.groupIssues) (same : SameIssue s t) {o : Op} (own : o.grp = s.cur.grp)
include issues same own

/-- The issuing group after its operation has joined and the instruction has ended. -/
theorem grp_finish_addOp : (t.addOp o).finish.grp s.cur.grp =
    ((s.grp s.cur.grp).incCounter o.sb).updFibs s.cur.lanes fun _ f => f.pass s.cur := by
  have changed := grp_finish_updGrp (same.groupIssues issues) fun g => g.incCounter o.sb
  have ended : (t.addOp o).finish.groups = ((t.updGrp t.cur.grp fun g => g.incCounter o.sb).finish).groups := by
    rw [finish_of_group (s := t.addOp o) (same.groupIssues issues).1,
      finish_of_group (s := t.updGrp t.cur.grp _) (same.groupIssues issues).1, State.addOp, own, ← same.cur]
    rfl
  rw [grp_of_groups ended, ← same.cur, changed, same.grp]

theorem joined_finish_addOp : s.joined (t.addOp o).finish o.sb o := by
  refine ⟨⟨t.fresh, ?ops⟩, ?counter, ?regs, ?mem⟩
  case ops => rw [finish_ops, ← same.ops]; rfl
  case counter => rw [grp_finish_addOp issues same own]; rfl
  case regs =>
    rw [grp_finish_addOp issues same own]
    exact sameRegs_incCounter _ o.sb
  case mem => rw [finish_mem]; exact same.mem

theorem movedOn_finish_addOp : s.movedOn (t.addOp o).finish := by
  intro i hi active
  rw [grp_finish_addOp issues same own, fib_updFibs _ _ _ (by simpa using hi), if_pos active, pass_pc]

end

/-! ## The shape of a memory instruction (R266) -/

section
variable {s : State} {rd wr : List Reg} {pre : Machine.Group → Option Fail} {wants : Machine.Group → List Want}
  {post : State → List (Want × Xl) → Option Fail} {mk : State → Machine.Group → List (Want × Xl) → Op} {i : Instr}
  (shape : exec i s = memoryOp s rd wr pre wants post mk) (issues : s.groupIssues) (free : s.regsFree rd wr laterLat)
include shape issues free

/-- A check before translation that fails is a trap, and nothing is performed. -/
theorem memoryOp_refuses {e : Fail} (refused : pre (s.grp s.cur.grp) = some e) : exec i s = .next (s.fail e) := by
  simp only [shape, memoryOp, asGroup_group issues.1, regFail_none free, refused]

variable {l : List (Want × Xl)} (aligned : pre (s.grp s.cur.grp) = none)
  (all : s.translates (wants (s.grp s.cur.grp)) l)
include aligned all

/-- A check after translation that fails is a trap too. -/
theorem memoryOp_traps {e : Fail} (refused : ∀ t, Translated s t → post t l = some e) :
    ∃ t, Translated s t ∧ exec i s = .next (t.fail e) := by
  obtain ⟨t, same, goes⟩ := withAddresses_all all
  refine ⟨t, same, ?_⟩
  simp only [shape, memoryOp, asGroup_group issues.1, regFail_none free, aligned, goes, refused t same]

/-- The operation joins the pipeline where the registers are free and every check passes. -/
theorem memoryOp_joins (passes : ∀ t, Translated s t → post t l = none) :
    ∃ t, Translated s t ∧ exec i s = .next (t.addOp (mk t (s.grp s.cur.grp) l)).finish := by
  obtain ⟨t, same, goes⟩ := withAddresses_all all
  refine ⟨t, same, ?_⟩
  simp only [shape, memoryOp, asGroup_group issues.1, regFail_none free, aligned, goes, passes t same, same.cur,
    same.grp]

end


/-! ## What the operation is -/

/-- An operation of the issuing lanes on the translated addresses `l`. -/
structure IssuedOn (s : State) (sb : Nat) (l : List (Want × Xl)) (o : Op) : Prop where
  grp : o.grp = s.cur.grp
  lanes : o.lanes = s.cur.lanes
  sb : o.sb = sb
  places : o.parts.map (fun p => (p.lane, p.va, p.pa)) = l.map fun e => (e.1.lane, e.1.va, e.2.pa)

/-- An operation with the issuer, lanes and counter of `State.opOf`. -/
theorem issuedOn_of_opOf {s t : State} {sb : Nat} {l : List (Want × Xl)} {o : Op} (same : Translated s t)
    (places : o.parts.map (fun p => (p.lane, p.va, p.pa)) = l.map fun e => (e.1.lane, e.1.va, e.2.pa))
    (grp : o.grp = t.cur.grp := by rfl) (lanes : o.lanes = t.cur.lanes := by rfl)
    (counter : o.sb = sb := by rfl) : IssuedOn s sb l o :=
  ⟨grp.trans (congrArg (·.grp) same.cur), lanes.trans (congrArg (·.lanes) same.cur), counter, places⟩

/-- The accesses of `l`, one for each translated address. -/
theorem places_partOf (t : State) (ctx width : Nat) (l : List (Want × Xl)) (data data2 : Want × Xl → Nat) :
    (l.map fun e => t.partOf ctx e.1.lane e.1.va e.2 width (data e) (data2 e)).map (fun p => (p.lane, p.va, p.pa)) =
      l.map fun e => (e.1.lane, e.1.va, e.2.pa) := by
  simp [State.partOf]

section
variable {s : State} {rd wr : List Reg} {pre : Machine.Group → Option Fail} {wants : Machine.Group → List Want}
  {post : State → List (Want × Xl) → Option Fail} {mk : State → Machine.Group → List (Want × Xl) → Op}
  {l : List (Want × Xl)} {i : Instr} {sb : Nat} {P : Op → Prop}

/-- A memory instruction starts the operation that its meaning builds, where every check passes. -/
theorem starts_of_memoryOp (shape : exec i s = memoryOp s rd wr pre wants post mk) (issues : s.groupIssues)
    (free : s.regsFree rd wr laterLat) (aligned : pre (s.grp s.cur.grp) = none)
    (all : s.translates (wants (s.grp s.cur.grp)) l) (passes : ∀ t, Translated s t → post t l = none)
    (issued : ∀ t, Translated s t → IssuedOn s sb l (mk t (s.grp s.cur.grp) l))
    (good : ∀ t, Translated s t → P (mk t (s.grp s.cur.grp) l)) : s.starts i sb l P := by
  obtain ⟨t, same, runs⟩ := memoryOp_joins shape issues free aligned all passes
  obtain ⟨grp, lanes, rfl, places⟩ := issued t same
  exact ⟨_, _, runs, joined_finish_addOp issues same.toSameIssue grp,
    movedOn_finish_addOp issues same.toSameIssue grp, grp, lanes, places, good t same⟩

end

/-- An instruction that names no address has nothing to translate. -/
theorem translates_nil (s : State) : s.translates [] [] := rfl

/-- No lane is misaligned where every address is a multiple of the width. -/
theorem misalignedLane_none {lanes : List Nat} {n : Nat} {addr : Nat → W64} (h : ∀ i ∈ lanes, (addr i).toNat % n = 0) :
    misalignedLane lanes n addr = none := by
  simpa [misalignedLane] using h

end Sys2Proof.Proofs
end

section
/-!
SUPPORT. Loads and stores (R272, R273), and the statements about their issue.
-/
namespace Sys2Proof.Proofs
open Sys2Proof.Machine Sys2Proof.Laws

/-! ## The ordering of an access (R271) -/

section
variable (o : Op) (s : State) (a : Acc) (load : Bool)

@[simp] theorem ordered_grp : (o.ordered s a load).grp = o.grp := by cases a <;> rfl
@[simp] theorem ordered_lanes : (o.ordered s a load).lanes = o.lanes := by cases a <;> rfl
@[simp] theorem ordered_sb : (o.ordered s a load).sb = o.sb := by cases a <;> rfl
@[simp] theorem ordered_kind : (o.ordered s a load).kind = o.kind := by cases a <;> rfl
@[simp] theorem ordered_dsts : (o.ordered s a load).dsts = o.dsts := by cases a <;> rfl

end

theorem ordered_acq_load (o : Op) (s : State) (a : Acc) (weak : o.acq = false) :
    (o.ordered s a true).acq = true ↔ ∃ sc, a = .ordered true sc := by
  cases a <;> simp [Op.ordered, weak]

theorem ordered_rel_store (o : Op) (s : State) (a : Acc) (weak : o.rel = false) :
    (o.ordered s a false).rel = true ↔ ∃ sc, a = .ordered true sc := by
  cases a <;> simp [Op.ordered, weak]

theorem ordered_rel_load (o : Op) (s : State) (a : Acc) (weak : o.rel = false) : (o.ordered s a true).rel = false := by
  cases a <;> simp [Op.ordered, weak]

theorem ordered_acq_store (o : Op) (s : State) (a : Acc) (weak : o.acq = false) :
    (o.ordered s a false).acq = false := by
  cases a <;> simp [Op.ordered, weak]

/-! ## Loads (R272, R273) -/

/-- A load as it joins the pipeline: an acquire where its code says so, its accesses of its width, its destinations. -/
def IsLoad (acc : Acc) (dsts : List (Nat × Nat × Dst)) (op : Op) : Prop :=
  op.kind = .load (widthBytes acc.width) (widthSigned acc.width) ∧ op.rel = false ∧
    (∀ p ∈ op.parts, p.width = widthBytes acc.width) ∧ op.dsts = dsts ∧ (op.acq = true ↔ ∃ sc, acc = .ordered true sc)

/-- A store as it joins the pipeline: a release where its code says so, each lane's access with the lane's data. -/
def IsStore (acc : Acc) (data : Nat → Nat) (op : Op) : Prop :=
  op.kind = .store (widthBytes acc.width) ∧ op.acq = false ∧ op.dsts = [] ∧
    (∀ p ∈ op.parts, p.width = widthBytes acc.width ∧ p.data = data p.lane) ∧
    (op.rel = true ↔ ∃ sc, acc = .ordered true sc)

section
variable {s : State} {d b sb : Nat} {acc : Acc} {off : Int} {l : List (Want × Xl)} {i : Instr} (issues : s.groupIssues)
include issues

theorem load_starts (shape : exec i s = loadOp d b sb acc off s)
    (free : s.regsFree (vpair b) (vregs d (widthRegs acc.width)) laterLat)
    (aligned : ∀ i ∈ lanesOf s.cur.lanes, ((s.grp s.cur.grp).address b off i).toNat % widthBytes acc.width = 0)
    (all : s.translates ((lanesOf s.cur.lanes).map fun i => ⟨i, (s.grp s.cur.grp).address b off i, .read, []⟩) l) :
    s.starts i sb l (IsLoad acc ((lanesOf s.cur.lanes).flatMap fun i =>
      (List.range (widthRegs acc.width)).map fun j => (i, j, Dst.v i ((s.grp s.cur.grp).entry i (d + j))))) := by
  dsimp only [loadOp] at shape
  exact starts_of_memoryOp shape issues free (misalignedLane_none aligned) all (fun _ _ => rfl)
    (fun t same => issuedOn_of_opOf same (places_partOf ..) (ordered_grp ..) (ordered_lanes ..) (ordered_sb ..))
    fun t same => ⟨ordered_kind .., ordered_rel_load _ _ _ rfl, List.forall_mem_map.mpr fun _ _ => rfl, rfl,
      ordered_acq_load _ _ _ rfl⟩

/-- A scalar load is one access, of the lowest active lane (R273). -/
theorem scalarLoad_starts (shape : exec i s = scalarLoadOp d b sb acc off s)
    (free : s.regsFree (spair b) (sregs d (widthRegs acc.width)) laterLat)
    (aligned : ((s.grp s.cur.grp).sp b + BitVec.ofInt 64 off).toNat % widthBytes acc.width = 0)
    (all : s.translates [⟨firstLane s.cur.lanes, (s.grp s.cur.grp).sp b + BitVec.ofInt 64 off, .read, []⟩] l)
    (lane : ∀ e ∈ l, e.1.lane = firstLane s.cur.lanes) :
    s.starts i sb l (IsLoad acc
      ((List.range (widthRegs acc.width)).map fun j => (firstLane s.cur.lanes, j, Dst.s (d + j)))) := by
  dsimp only [scalarLoadOp] at shape
  refine starts_of_memoryOp shape issues free (misalignedLane_none (by simpa using aligned)) all (fun _ _ => rfl)
    (fun t same => issuedOn_of_opOf same ?places (ordered_grp ..) (ordered_lanes ..) (ordered_sb ..))
    fun t same => ⟨ordered_kind .., ordered_rel_load _ _ _ rfl, List.forall_mem_map.mpr fun _ _ => rfl, rfl,
      ordered_acq_load _ _ _ rfl⟩
  case places =>
    rw [List.map_map]
    exact List.map_congr_left fun e he => by rw [lane e he]; rfl

theorem store_starts (shape : exec i s = storeOp d b sb acc off s)
    (free : s.regsFree (vpair b ++ vregs d (widthRegs acc.width)) [] laterLat)
    (aligned : ∀ i ∈ lanesOf s.cur.lanes, ((s.grp s.cur.grp).address b off i).toNat % widthBytes acc.width = 0)
    (all : s.translates ((lanesOf s.cur.lanes).map fun i => ⟨i, (s.grp s.cur.grp).address b off i, .write, []⟩) l) :
    s.starts i sb l (IsStore acc fun j =>
      (s.grp s.cur.grp).storeData j d (widthRegs acc.width) % 2 ^ (8 * widthBytes acc.width)) := by
  dsimp only [storeOp] at shape
  exact starts_of_memoryOp shape issues free (misalignedLane_none aligned) all (fun _ _ => rfl)
    (fun t same => issuedOn_of_opOf same (places_partOf ..) (ordered_grp ..) (ordered_lanes ..) (ordered_sb ..))
    fun t same => ⟨ordered_kind .., ordered_acq_store _ _ _ rfl, ordered_dsts ..,
      List.forall_mem_map.mpr fun _ _ => ⟨rfl, rfl⟩, ordered_rel_store _ _ _ rfl⟩

end

/-- Settles O21: loads with and without an offset word have one shape, and so have scalar loads. -/
theorem loadsIssue : Obligations.LoadsIssue := by
  intro d b sb acc off s l issues
  refine ⟨fun free aligned all => ⟨load_starts issues (exec_ldExt ..) free aligned all, ?_⟩,
    fun free aligned all lane => ⟨scalarLoad_starts issues (exec_ldsExt ..) free aligned all lane, ?_⟩⟩
  · rintro w rfl rfl
    exact load_starts issues (exec_ld ..) free aligned all
  · rintro w rfl rfl
    exact scalarLoad_starts issues (exec_lds ..) free aligned all lane

/-- Settles O22: stores with and without an offset word have one shape. -/
theorem storesIssue : Obligations.StoresIssue := by
  intro d b sb acc off s l issues g n lanes va good free aligned all
  refine ⟨store_starts issues (exec_stExt ..) free aligned all, ?_⟩
  rintro w rfl rfl
  exact store_starts issues (exec_st ..) free aligned all

end Sys2Proof.Proofs
end

section
/-!
SUPPORT. Loads and stores of the local store (R274), and the statement about their issue.
-/
namespace Sys2Proof.Proofs
open Sys2Proof.Machine Sys2Proof.Laws

/-- Whether an access of `n` bytes lies in a scratchpad of `size` bytes. -/
def insideScratch (size n : Nat) (addr : Int) : Bool := decide (0 ≤ addr) && decide (addr + n ≤ (size : Int))

section
variable {size n : Nat} {lanes : List Nat} {addr : Nat → Int} (aligned : ∀ i ∈ lanes, addr i % n = 0)
include aligned

/-- Aligned local addresses are checked against the scratchpad alone. -/
theorem localFail_of_aligned : localFail size n lanes addr =
    (lanes.find? fun i => !insideScratch size n (addr i)).map fun i => Fail.windowAt (BitVec.ofInt 64 (addr i)) := by
  have no_lane : lanes.find? (fun i => addr i % n != 0) = none := by simpa using aligned
  have outside (i : Nat) :
      (decide (addr i < 0) || decide ((size : Int) < addr i + n)) = !insideScratch size n (addr i) := by
    simp only [insideScratch, Bool.not_and, ← decide_not, not_le]
  simp only [localFail, no_lane, outside]

end

/-- A load of the local store as it joins the pipeline. -/
def IsLocalLoad (x : Machine.Group) (lanes : List Nat) (d w : Nat) (op : Op) : Prop :=
  op.kind = .lload (widthBytes w) (widthSigned w) ∧
    op.dsts = lanes.flatMap fun i => (List.range (widthRegs w)).map fun j => (i, j, Dst.v i (x.entry i (d + j)))

/-- A store of the local store as it joins the pipeline, with each lane's data. -/
def IsLocalStore (x : Machine.Group) (d w : Nat) (op : Op) : Prop :=
  op.kind = .lstore ∧ op.dsts = [] ∧
    ∀ p ∈ op.parts, p.data = x.storeData p.lane d (widthRegs w) % 2 ^ (8 * widthBytes w)

section
variable {s : State} {store : Bool} {d sb w : Nat} {b : Src} {off : Int} {i : Instr}
  (shape : exec i s = localOp store d b sb w off s) (issues : s.groupIssues)
  (free : s.regsFree (if store then b.uses ++ vregs d (widthRegs w) else b.uses)
    (if store then [] else vregs d (widthRegs w)) laterLat)
  (aligned : ∀ i ∈ lanesOf s.cur.lanes, (s.grp s.cur.grp).localAddr b off i % widthBytes w = 0)
include shape issues free aligned

/-- An access that does not lie in the scratchpad is a window fault of its lane, and nothing is performed. -/
theorem local_faults {j : Nat} (outside : (lanesOf s.cur.lanes).find? (fun i =>
      !insideScratch s.scratchSize (widthBytes w) ((s.grp s.cur.grp).localAddr b off i)) = some j) :
    exec i s = .next (s.fail (Fail.windowAt (BitVec.ofInt 64 ((s.grp s.cur.grp).localAddr b off j)))) := by
  have refused := localFail_of_aligned (size := s.scratchSize) aligned
  rw [outside] at refused
  dsimp only [localOp] at shape
  exact memoryOp_refuses shape issues free refused

/-- Accesses in the scratchpad join the pipeline. -/
theorem local_joins (inside : ∀ i ∈ lanesOf s.cur.lanes,
      insideScratch s.scratchSize (widthBytes w) ((s.grp s.cur.grp).localAddr b off i) = true) :
    ∃ t op, exec i s = .next t ∧ s.joined t sb op ∧ s.movedOn t ∧
      op.parts.map (fun p => (p.lane, p.pa, p.width)) =
        (lanesOf s.cur.lanes).map (fun j => (j, ((s.grp s.cur.grp).localAddr b off j).toNat, widthBytes w)) ∧
      if store then IsLocalStore (s.grp s.cur.grp) d w op
      else IsLocalLoad (s.grp s.cur.grp) (lanesOf s.cur.lanes) d w op := by
  have passes : localFail s.scratchSize (widthBytes w) (lanesOf s.cur.lanes) ((s.grp s.cur.grp).localAddr b off) =
      none := by
    rw [localFail_of_aligned aligned, List.find?_eq_none.mpr (by simpa using inside), Option.map_none]
  dsimp only [localOp] at shape
  obtain ⟨t, same, runs⟩ := memoryOp_joins shape issues free passes (translates_nil s) (fun _ _ => rfl)
  refine ⟨_, _, runs, joined_finish_addOp issues same.toSameIssue (congrArg (·.grp) same.cur),
    movedOn_finish_addOp issues same.toSameIssue (congrArg (·.grp) same.cur), List.map_map .., ?_⟩
  cases store
  case false => exact ⟨rfl, rfl⟩
  case true => exact ⟨rfl, rfl, List.forall_mem_map.mpr fun _ _ => rfl⟩

end

/-- Settles O23: `ldl` and `stl` with and without an offset word have one shape. -/
theorem scratchpadAccessesIssue : Obligations.ScratchpadAccessesIssue := by
  intro d sb w b off s issues g n lanes va size inside does loads stores aligned
  refine ⟨fun free => ⟨fun within => ⟨?_, ?_⟩, fun j outside => ⟨?_, ?_⟩⟩,
    fun free => ⟨fun within => ⟨?_, ?_⟩, fun j outside => ⟨?_, ?_⟩⟩⟩
  · exact local_joins (exec_ldlExt ..) issues free aligned within
  · rintro rfl
    exact local_joins (exec_ldl ..) issues free aligned within
  · exact local_faults (exec_ldlExt ..) issues free aligned outside
  · rintro rfl
    exact local_faults (exec_ldl ..) issues free aligned outside
  · exact local_joins (exec_stlExt ..) issues free aligned within
  · rintro rfl
    exact local_joins (exec_stl ..) issues free aligned within
  · exact local_faults (exec_stlExt ..) issues free aligned outside
  · rintro rfl
    exact local_faults (exec_stl ..) issues free aligned outside

end Sys2Proof.Proofs
end

section
/-!
SUPPORT. Atomics (R278 to R281), and the statement about their issue.
-/
namespace Sys2Proof.Proofs
open Sys2Proof.Machine Sys2Proof.Laws

/-- A strong operation that acquires and releases as its order field says (R279). -/
def IsOrdered (ord : Nat) (o : Op) : Prop := o.strong = true ∧ (o.acq = true ↔ ord % 2 = 1) ∧ (o.rel = true ↔ 2 ≤ ord)

theorem isOrdered_of_eq {ord : Nat} {o : Op} (strong : o.strong = true) (acq : o.acq = (ord % 2 == 1))
    (rel : o.rel = decide (2 ≤ ord)) : IsOrdered ord o :=
  ⟨strong, by simp [acq], by simp [rel]⟩

/-- The bytes and the registers of an atomic's element (R278). -/
def atomicBytes (op : Nat) : Nat := if 16 ≤ op then 8 else 4
def atomicRegs (op : Nat) : Nat := if 16 ≤ op then 2 else 1

/-- The registers that an atomic reads: its address, and the operands that its operation has (R278). -/
def atomicReads (op b : Nat) : List Reg :=
  vpair b ++ (if op % 16 = 13 then [] else vregs (b + 2) (atomicRegs op)) ++
    (if op % 16 = 9 then vregs (b + 2 + atomicRegs op) (atomicRegs op) else if op % 16 = 14 then [.v (b + 3)] else [])

/-- The registers that a lane's old value of `k` words goes to. -/
def atomicDsts (s : State) (b k : Nat) : List (Nat × Nat × Dst) :=
  (lanesOf s.cur.lanes).flatMap fun i =>
    (List.range k).map fun w => (i, w, Dst.v i ((s.grp s.cur.grp).entry i (b + 2 + w)))

section
variable {s : State} {op b sb ord scope : Nat} {ret : Bool} {l : List (Want × Xl)} {i : Instr}

/-- An atomic with or without a result joins the pipeline; one without lists no destination. -/
theorem atomic_starts (shape : exec i s = atomicOp op b sb ord scope ret s) (issues : s.groupIssues)
    (free : s.regsFree (atomicReads op b) (if ret then vregs (b + 2) (atomicRegs op) else []) laterLat)
    (aligned : ∀ i ∈ lanesOf s.cur.lanes, ((s.grp s.cur.grp).address b 0 i).toNat % atomicBytes op = 0)
    (all : s.translates ((lanesOf s.cur.lanes).map fun i =>
      ⟨i, (s.grp s.cur.grp).address b 0 i, atomicAccess op ret, [3, 4]⟩) l) :
    s.starts i sb l fun o => IsOrdered ord o ∧ o.kind = .atomic op 0 (decide (16 ≤ op)) false ret ∧
      o.dsts = if ret then atomicDsts s b (atomicRegs op) else [] := by
  simp only [atomicOp, decide_eq_true_eq, beq_iff_eq] at shape
  exact starts_of_memoryOp shape issues free (misalignedLane_none aligned) all (fun _ _ => rfl)
    (fun t same => issuedOn_of_opOf same (places_partOf ..)) fun t same => ⟨isOrdered_of_eq rfl rfl rfl, rfl, rfl⟩

/-- The vector form takes 32 bytes of each lane (R280). -/
theorem atomv_starts {esz : Nat} (issues : s.groupIssues) (free : s.regsFree (vregs b 10) (vregs (b + 2) 8) laterLat)
    (aligned : ∀ i ∈ lanesOf s.cur.lanes, ((s.grp s.cur.grp).address b 0 i).toNat % 32 = 0)
    (all : s.translates ((lanesOf s.cur.lanes).map fun i => ⟨i, (s.grp s.cur.grp).address b 0 i, .both, [3, 4]⟩) l) :
    s.starts (.atomv esz op b sb ord scope) sb l fun o => IsOrdered ord o ∧ o.kind = .atomic op esz false true true ∧
      o.dsts = atomicDsts s b 8 := by
  have shape : exec (.atomv esz op b sb ord scope) s = execAtomv esz op b sb ord scope s := exec_atomv ..
  dsimp only [execAtomv] at shape
  exact starts_of_memoryOp shape issues free (misalignedLane_none aligned) all (fun _ _ => rfl)
    (fun t same => issuedOn_of_opOf same (places_partOf ..)) fun t same => ⟨isOrdered_of_eq rfl rfl rfl, rfl, rfl⟩

end

/-- Settles O24: `atom` and `redm` have one shape, and `atomv` another. -/
theorem atomicsIssue : Obligations.AtomicsIssue := fun _ _ _ _ _ _ _ _ issues =>
  ⟨fun aligned => ⟨fun free all => atomic_starts (exec_atom ..) issues free aligned all,
    fun free all => atomic_starts (exec_redm ..) issues free aligned all⟩,
    fun aligned free all => atomv_starts issues free aligned all⟩

end Sys2Proof.Proofs
end

section
/-!
SUPPORT. Fences, prefetches and write-backs (R275 to R277), and the statement about their issue.
-/
namespace Sys2Proof.Proofs
open Sys2Proof.Machine Sys2Proof.Laws

section
variable {s : State} {b sb : Nat} {off : Int} {l : List (Want × Xl)} {i : Instr} (issues : s.groupIssues)
include issues

theorem fence_starts (kind scope : Nat) : s.starts (.fence sb kind scope) sb [] fun o =>
    o.kind = .fence ∧ (o.acq = true ↔ kind ≠ 2) ∧ (o.rel = true ↔ kind ≠ 1) := by
  have shape : exec (.fence sb kind scope) s = execFence sb kind scope s := exec_fence ..
  dsimp only [execFence] at shape
  exact starts_of_memoryOp shape issues regsFree_nil rfl (translates_nil s) (fun _ _ => rfl)
    (fun t same => issuedOn_of_opOf same rfl) fun t same => ⟨rfl, bne_iff_ne, bne_iff_ne⟩

/-- `wback.all` names the dirty lines of the context in the core (R276). -/
theorem wbackAll_joins : ∃ t o, exec (.wback b sb true) s = .next t ∧ s.joined t sb o ∧ s.movedOn t ∧
    o.kind = .wback true ∧ o.parts.map (fun p => (p.loc, p.pa)) =
      (s.dirtyLines (s.grp s.cur.grp).core (s.ctxOf s.cur.grp)).map fun x => (x.loc, x.pa) := by
  have shape : exec (.wback b sb true) s = execWback b sb true s := exec_wback ..
  simp only [execWback, if_true] at shape
  obtain ⟨t, same, runs⟩ := memoryOp_joins shape issues regsFree_nil rfl (translates_nil s) fun _ _ => rfl
  have own := congrArg (·.grp) same.cur
  refine ⟨_, _, runs, joined_finish_addOp issues same.toSameIssue own,
    movedOn_finish_addOp issues same.toSameIssue own, rfl, ?_⟩
  have lines : t.dirtyLines (t.grp t.cur.grp).core (t.ctxOf t.cur.grp) =
      s.dirtyLines (s.grp s.cur.grp).core (s.ctxOf s.cur.grp) := by
    rw [same.dirtyLines, same.grp, same.ctxOf, same.cur]
  exact (List.map_map ..).trans (congrArg _ lines)

variable (free : s.regsFree (vpair b) [] laterLat)
include free

theorem wback_starts (shape : exec i s = wbackOp b sb off s)
    (all : s.translates ((lanesOf s.cur.lanes).map fun i => ⟨i, (s.grp s.cur.grp).address b off i, .write, []⟩) l) :
    s.starts i sb l fun o => o.kind = .wback false := by
  dsimp only [wbackOp] at shape
  exact starts_of_memoryOp shape issues free rfl all (fun _ _ => rfl)
    (fun t same => issuedOn_of_opOf same (places_partOf ..)) fun t same => rfl

theorem pref_starts (shape : exec i s = prefOp b sb off s)
    (all : s.translates (s.prefWants (s.grp s.cur.grp) b off) l) :
    s.starts i sb l fun o => o.kind = .pref := by
  dsimp only [prefOp] at shape
  exact starts_of_memoryOp shape issues free rfl all (fun _ _ => rfl)
    (fun t same => issuedOn_of_opOf same (places_partOf ..)) fun t same => rfl

end

/-- Settles O26: each of these instructions has the shape of a memory instruction without a check of alignment. -/
theorem fencesAndPrefetchesIssue : Obligations.FencesAndPrefetchesIssue := by
  intro b sb kind scope off s l issues
  refine ⟨fence_starts issues kind scope, wbackAll_joins issues, fun free =>
    ⟨fun all => ⟨wback_starts issues free (exec_wbackExt ..) all, ?wback⟩,
      fun all => ⟨pref_starts issues free (exec_prefExt ..) all, ?pref⟩⟩⟩
  case wback =>
    rintro rfl
    exact wback_starts issues free (exec_wback ..) all
  case pref =>
    rintro rfl
    exact pref_starts issues free (exec_pref ..) all

end Sys2Proof.Proofs
end

section
/-!
SUPPORT. What the translation of an instruction's addresses answers (R121, R266), and traps of checks (R349).
-/
namespace Sys2Proof.Proofs
open Sys2Proof.Machine Sys2Proof.Laws

/-! ## Translated addresses -/

/-- What is kept of a list of which each member is kept, and tells which it was. -/
theorem map_filterMap_eq_self {α β : Type} {f : α → Option β} {k : β → α} {l : List α}
    (kept : ∀ a ∈ l, ∃ b, f a = some b ∧ k b = a) : (l.filterMap f).map k = l := by
  induction l with
  | nil => rfl
  | cons a t ih =>
    obtain ⟨b, found, back⟩ := kept a List.mem_cons_self
    rw [List.filterMap_cons_some found, List.map_cons, back, ih fun x hx => kept x (List.mem_cons_of_mem a hx)]

/-- Where all addresses of an instruction translate, the translations stand in the order of the addresses. -/
theorem map_fst_of_xlateAll {s : State} {g : Nat} {core : Option Nat} {isle ctx : Nat} {wants : List Want}
    {l : List (Want × Xl)} (all : s.xlateAll g core isle ctx wants = .all l) : l.map Prod.fst = wants := by
  simp only [State.xlateAll] at all
  split at all
  · exact nomatch all
  next no_miss =>
  split at all
  · exact nomatch all
  next no_trap =>
  split at all
  · exact nomatch all
  next no_demand =>
  obtain rfl := Xlated.all.inj all
  rw [List.filterMap_map]
  refine map_filterMap_eq_self fun x mem => ?_
  have looked := List.mem_map_of_mem (f := fun x => (x, s.lookupWant (.group g x.lane) core isle ctx x)) mem
  cases found : s.lookupWant (.group g x.lane) core isle ctx x with
  | ok y => exact ⟨(x, y), by simp [found], rfl⟩
  | miss =>
    have absent := List.filterMap_eq_nil_iff.mp (not_not.mp no_miss) _ looked
    simp [found] at absent
  | bad f =>
    have hard := List.findSome?_eq_none_iff.mp no_trap _ looked
    have soft := List.findSome?_eq_none_iff.mp no_demand _ looked
    simp only [found] at hard soft
    cases recoverable : s.recoverable ctx f <;> simp [recoverable] at hard soft

/-! ## A failed check (R347, R349) -/

/-- The record of a failed check of the issuing group's instruction. -/
def failRecord (s : State) (f : Fail) : TrapRecord where
  tcause := tcauseOf f.cause s.cur.port f.info f.addr.isSome
  tlanes := s.cur.lanes
  tolanes := s.cur.other
  tpc := s.cur.hdr
  tidx := s.cur.idx
  taddr := f.addr.getD 0

/-- A failed check of a group in no handler and not in trap mode, with TVEC not 0 and a multiple of 4, enters trap
mode. -/
theorem fail_enters {s : State} (group : s.cur.kind = .group) (no_handler : (s.grp s.cur.grp).handler = .none)
    (no_trap : (s.grp s.cur.grp).ctl.trapMode = false) (vector : (s.grp s.cur.grp).ctl.tvec ≠ 0)
    (aligned : (s.grp s.cur.grp).ctl.tvec.toNat % 4 = 0) (f : Fail) :
    s.fail f = (s.updGrp s.cur.grp (enterTrap (failRecord s f))).markTrapped := by
  rw [State.fail, group]
  exact congrArg State.markTrapped (takeTrapAt_enters no_handler no_trap vector aligned ..)

end Sys2Proof.Proofs
end

section
/-!
SUPPORT. Haze instructions (R282 to R284), and the statement about their issue.
-/
namespace Sys2Proof.Proofs
open Sys2Proof.Machine Sys2Proof.Laws

/-! ## Elements outside every region (R148, R282) -/

theorem hazeRange_of_translated {s t : State} (same : Translated s t) (l : List (Want × Xl)) : t.hazeRange l =
    (l.find? fun e => !(s.regionAt e.2.pa).isSome).map fun e => Fail.hazeRange e.1.va := by
  simp only [State.hazeRange, same.regionAt, Option.not_isSome]

theorem hazeRange_none {s t : State} (same : Translated s t) {l : List (Want × Xl)}
    (inside : ∀ e ∈ l, (s.regionAt e.2.pa).isSome = true) : t.hazeRange l = none := by
  rw [hazeRange_of_translated same, List.find?_eq_none.mpr fun e he => by rw [inside e he]; simp, Option.map_none]

section
variable {s : State} {a b d k sb : Nat} {off : Int} {l : List (Want × Xl)} {i : Instr} (issues : s.groupIssues)
include issues

section
variable (shape : exec i s = hazeAddOp a b sb off s) (free : s.regsFree (.v a :: vpair b) [] laterLat)
  (aligned : ∀ i ∈ lanesOf s.cur.lanes, ((s.grp s.cur.grp).address b off i).toNat % 16 = 0)
  (all : s.translates ((lanesOf s.cur.lanes).map fun i => ⟨i, (s.grp s.cur.grp).address b off i, .write, []⟩) l)
include shape free aligned all

theorem hazeAdd_starts (inside : ∀ e ∈ l, (s.regionAt e.2.pa).isSome = true) : s.starts i sb l fun o =>
    o.kind = .hzadd ∧ o.dsts = [] ∧ ∀ p ∈ o.parts, p.data = ((s.grp s.cur.grp).v p.lane a).toNat := by
  dsimp only [hazeAddOp] at shape
  exact starts_of_memoryOp shape issues free (misalignedLane_none aligned) all
    (fun _ same => hazeRange_none same inside) (fun t same => issuedOn_of_opOf same (places_partOf ..))
    fun t same => ⟨rfl, rfl, List.forall_mem_map.mpr fun _ _ => rfl⟩

/-- The trap of an element in no region leaves memory, operations and registers as they were (R148, R349). -/
theorem hazeAdd_traps {e : Want × Xl} (outside : l.find? (fun e => !(s.regionAt e.2.pa).isSome) = some e)
    (no_handler : (s.grp s.cur.grp).handler = .none) (no_trap : (s.grp s.cur.grp).ctl.trapMode = false)
    (vector : (s.grp s.cur.grp).ctl.tvec ≠ 0) (vector_aligned : (s.grp s.cur.grp).ctl.tvec.toNat % 4 = 0) :
    ∃ t, exec i s = .next t ∧ t.mem = s.mem ∧ t.ops = s.ops ∧ (t.grp s.cur.grp).ctl.taddr = e.1.va ∧
      (s.grp s.cur.grp).sameRegs (t.grp s.cur.grp) ∧
      (t.grp s.cur.grp).ctl.tcause = BitVec.ofNat 32 (6 + s.cur.port * 2 ^ 8 + 2 ^ 9) := by
  dsimp only [hazeAddOp] at shape
  obtain ⟨t, same, traps⟩ := memoryOp_traps shape issues free (misalignedLane_none aligned) all
    fun t same => (hazeRange_of_translated same l).trans (congrArg _ outside)
  have group : t.grp t.cur.grp = s.grp s.cur.grp := by rw [same.cur, same.grp]
  obtain ⟨kind, stands, -⟩ := same.groupIssues issues
  have entered := fail_enters kind (by rwa [group]) (by rwa [group]) (by rwa [group]) (by rwa [group])
    (Fail.hazeRange e.1.va)
  refine ⟨_, traps, ?_⟩
  rw [entered]
  have trapped : (t.updGrp t.cur.grp (enterTrap (failRecord t (Fail.hazeRange e.1.va)))).markTrapped.grp s.cur.grp =
      enterTrap (failRecord t (Fail.hazeRange e.1.va)) (s.grp s.cur.grp) := by
    rw [← group, ← same.cur]
    exact grp_updGrp_self t t.cur.grp _ stands
  rw [trapped]
  refine ⟨same.mem, same.ops, rfl, ⟨rfl, rfl, rfl⟩, ?cause⟩
  case cause => simp [enterTrap, recordTrap, failRecord, Fail.hazeRange, tcauseOf, same.cur, Group.updFibs]

end

/-- A tolerant load has its tolerance from the low byte of its scalar (R283). -/
theorem ldt_starts (free : s.regsFree (.s k :: vpair b) (vpair d) laterLat)
    (aligned : ∀ i ∈ lanesOf s.cur.lanes, ((s.grp s.cur.grp).vp i b).toNat % 16 = 0)
    (all : s.translates ((lanesOf s.cur.lanes).map fun i => ⟨i, (s.grp s.cur.grp).address b 0 i, .read, [4]⟩) l)
    (inside : ∀ e ∈ l, (s.regionAt e.2.pa).isSome = true) : s.starts (.ldt d b sb k) sb l fun o =>
      o.kind = .ldt (((s.grp s.cur.grp).s k).toNat % 256) ∧ o.dsts = (lanesOf s.cur.lanes).flatMap fun i =>
        [(i, 0, Dst.v i ((s.grp s.cur.grp).entry i d)), (i, 1, Dst.v i ((s.grp s.cur.grp).entry i (d + 1)))] := by
  have shape : exec (.ldt d b sb k) s = execLdt d b sb k s := exec_ldt ..
  dsimp only [execLdt] at shape
  exact starts_of_memoryOp shape issues free (misalignedLane_none (by simpa [Group.address] using aligned)) all
    (fun _ same => hazeRange_none same inside) (fun t same => issuedOn_of_opOf same (places_partOf ..))
    fun t same => ⟨rfl, rfl⟩

end

/-! ## The pieces of a range (R284) -/

/-- A piece of a range ends in the page of 64 KiB in which it begins. -/
theorem rangePieces_in_page {a fuel len : Nat} : ∀ p ∈ rangePieces a fuel len, p.2 ≤ 65536 - p.1 % 65536 := by
  induction fuel generalizing a len with
  | zero => simp [rangePieces]
  | succ fuel ih =>
    rw [rangePieces]
    split
    · simp
    · exact List.forall_mem_cons.mpr ⟨min_le_right _ _, ih⟩

/-- The pieces that are looked up are the first ones. -/
theorem goodPieces_isPrefix (s : State) (g : Nat) (l : List (Nat × Nat)) : s.goodPieces g l <+: l := by
  induction l with
  | nil => exact List.prefix_rfl
  | cons p t ih =>
    rw [State.goodPieces]
    split
    · exact (List.prefix_cons_inj p).mpr ih
    · exact ⟨t, rfl⟩

/-- The page of an address goes to its end. -/
theorem page_length (a : Nat) : ((rangePieces a 1 65536).headD (0, 0)).2 = 65536 - a % 65536 := by
  simp [rangePieces]

theorem toNat_ofNat_mod_page (a : Nat) : (BitVec.ofNat 64 a).toNat % 65536 = a % 65536 := by
  rw [BitVec.toNat_ofNat]
  omega

/-- The regions that a settle reaches are those that overlap the physical bytes behind the looked-up pieces (R284). -/
theorem behind_pieces {s : State} {g lane : Nat} {pieces : List (Nat × Nat)} {l : List (Want × Xl)}
    (in_page : ∀ p ∈ pieces, p.2 ≤ 65536 - p.1 % 65536)
    (wanted : l.map Prod.fst = (s.goodPieces g pieces).map fun p => ⟨lane, BitVec.ofNat 64 p.1, .both, []⟩) :
    List.zipWith (fun e p => (e.1, min e.2 p.2))
      (l.map fun e => (e.2.pa, ((rangePieces e.1.va.toNat 1 65536).headD (0, 0)).2)) pieces =
      (l.zip pieces).map fun e => (e.1.2.pa, e.2.2) := by
  refine List.ext_getElem (by simp) fun i hi _ => ?_
  obtain ⟨first, second⟩ : i < l.length ∧ i < pieces.length := by simpa using hi
  have good : i < (s.goodPieces g pieces).length := by
    rw [← List.length_map (f := fun p => (⟨lane, BitVec.ofNat 64 p.1, .both, []⟩ : Want)), ← wanted]
    simpa using first
  have want : l[i].1 = ⟨lane, BitVec.ofNat 64 pieces[i].1, .both, []⟩ := by
    have at_i := congrArg (·[i]?) wanted
    simpa [first, good, (goodPieces_isPrefix s g pieces).getElem good] using at_i
  have whole : min (65536 - pieces[i].1 % 65536) pieces[i].2 = pieces[i].2 :=
    min_eq_right (in_page _ (List.getElem_mem second))
  simp only [List.getElem_zipWith, List.getElem_map, List.getElem_zip, want, page_length, toNat_ofNat_mod_page, whole]

/-- `hzsettle` joins the pipeline once for its set (R153, R284). -/
theorem hzsettle_joins {s : State} {b k sb : Nat} {l : List (Want × Xl)} (issues : s.groupIssues)
    (free : s.regsFree (.s k :: spair b) [] laterLat) (base : ((s.grp s.cur.grp).sp b).toNat % 16 = 0)
    (length : ((s.grp s.cur.grp).s k).toNat % 16 = 0) :
    let pieces := rangePieces ((s.grp s.cur.grp).sp b).toNat 65537 ((s.grp s.cur.grp).s k).toNat
    let regions := s.regionsBehind ((l.zip pieces).map fun e => (e.1.2.pa, e.2.2))
    s.translates ((s.goodPieces s.cur.grp pieces).map fun p =>
      ⟨firstLane s.cur.lanes, BitVec.ofNat 64 p.1, .both, []⟩) l → ((s.grp s.cur.grp).s k = 0 ∨ regions ≠ []) →
    ∃ t op, exec (.hzsettle k b sb) s = .next t ∧ s.joined t sb op ∧ s.movedOn t ∧ op.kind = .settle ∧
      op.parts.map (fun p => p.lane) = regions := by
  intro pieces regions all reached
  have shape : exec (.hzsettle k b sb) s = execHzsettle k b sb s := exec_hzsettle ..
  dsimp only [execHzsettle] at shape
  have behind := behind_pieces rangePieces_in_page (map_fst_of_xlateAll all)
  obtain ⟨t, same, runs⟩ := memoryOp_joins shape issues free (by simp [base, length]) all fun t same => by
    simp only [same.cur, same.grp, same.regionsBehind, behind]
    rcases reached with zero | reached
    · exact if_pos (congrArg BitVec.toNat zero)
    · exact ite_eq_left_iff.mpr fun _ => if_neg fun none => reached (List.isEmpty_iff.mp none)
  have own := congrArg (·.grp) same.cur
  refine ⟨_, _, runs, joined_finish_addOp issues same.toSameIssue own,
    movedOn_finish_addOp issues same.toSameIssue own, rfl, ?_⟩
  simp only [same.cur, same.grp, same.regionsBehind, behind, List.map_map]
  exact List.map_id' _

/-- Settles O25: `hzadd` with and without an offset word has one shape; a haze range is checked where its addresses
have translated. -/
theorem hazeInstructionsIssue : Obligations.HazeInstructionsIssue := by
  intro a d b sb k off s l issues
  refine ⟨fun aligned free all => ⟨fun inside =>
      ⟨hazeAdd_starts issues (exec_hzaddExt ..) free aligned all inside, ?adds⟩,
    fun e outside no_handler no_trap vector vector_aligned => ⟨hazeAdd_traps issues (exec_hzaddExt ..) free aligned all
      outside no_handler no_trap vector vector_aligned, ?traps⟩⟩,
    fun aligned free all inside => ldt_starts issues free aligned all inside,
    fun free base length all reached => hzsettle_joins issues free base length all reached⟩
  case adds =>
    rintro rfl
    exact hazeAdd_starts issues (exec_hzadd ..) free aligned all inside
  case traps =>
    rintro rfl
    exact hazeAdd_traps issues (exec_hzadd ..) free aligned all outside no_handler no_trap vector vector_aligned

end Sys2Proof.Proofs
end

section
/-!
SUPPORT. Block and gang barriers (R285 to R287), and the statement about their instructions.
-/
namespace Sys2Proof.Proofs
open Sys2Proof.Machine Sys2Proof.Laws

/-! ## Arrivals join the pipeline (R285) -/

@[simp] theorem length_groups_finish (s : State) : s.finish.groups.length = s.groups.length := by
  unfold State.finish
  split
  · rfl
  · exact List.length_modify ..

section
variable {s : State} (issues : s.groupIssues) (o : Op) (own : o.grp = s.cur.grp)
include issues own

/-- The issuing group after its arrival has joined the pipeline and the lanes that wait for it have been marked. -/
theorem grp_arrived (lanes : W32) (f : Nat → Fibre → Fibre) :
    (((s.addOp o).finish.updGrp s.cur.grp fun g => g.updFibs lanes f).grp s.cur.grp) =
      (((s.grp s.cur.grp).incCounter o.sb).updFibs s.cur.lanes fun _ f => f.pass s.cur).updFibs lanes f := by
  have exists_ : s.cur.grp < (s.addOp o).finish.groups.length := by
    simpa [State.addOp, State.updGrp, State.took] using issues.2.1
  rw [grp_updGrp_self _ _ _ exists_, grp_finish_addOp issues (.refl s) own]

/-- An instruction whose operation joins the pipeline and whose lanes then may wait. -/
theorem arrived_joined (lanes : W32) (f : Nat → Fibre → Fibre) :
    s.joined ((s.addOp o).finish.updGrp s.cur.grp fun g => g.updFibs lanes f) o.sb o := by
  obtain ⟨joins, counter, regs, mem⟩ := joined_finish_addOp issues (.refl s) own
  refine ⟨joins, ?_, ?_, mem⟩
  · rw [grp_arrived issues o own]; rfl
  · rw [grp_arrived issues o own]; exact sameRegs_incCounter _ o.sb

theorem arrived_movedOn (lanes : W32) (f : Nat → Fibre → Fibre) (stays : ∀ i x, (f i x).pc = x.pc) :
    s.movedOn ((s.addOp o).finish.updGrp s.cur.grp fun g => g.updFibs lanes f) := by
  intro i hi active
  rw [grp_arrived issues o own, fib_updFibs _ _ _ (by simpa using hi), ← pass_pc,
    fib_updFibs _ _ _ (by simpa using hi), if_pos active]
  split
  · exact stays i _
  · rfl

/-- Whether a lane waits after an arrival. -/
theorem arrived_wait (lanes : W32) (w : Wait) {i : Nat} (hi : i < (s.grp s.cur.grp).ctl.fibs.length) :
    ((((s.addOp o).finish.updGrp s.cur.grp fun g => g.updFibs lanes fun _ f => { f with wait := w }).grp s.cur.grp).fib
      i).wait = if lanes.getLsbD i then w else ((s.grp s.cur.grp).fib i).wait := by
  rw [grp_arrived issues o own, fib_updFibs _ _ _ (by simpa using hi), fib_updFibs _ _ _ (by simpa using hi)]
  split
  · rfl
  · split <;> simp [Group.fib]

end

/-! ## EXPECT of the block barriers (R286) -/

/-- EXPECT of every block barrier is what it was. -/
def KeepsExpect (s t : State) : Prop := ∀ b k, ((t.blk b).bar k).expect = ((s.blk b).bar k).expect

theorem bar_updBar (x : Block) (j k : Nat) (f : BlockBar → BlockBar) :
    (x.updBar j f).bar k = if j = k ∧ k < x.bars.length then f (x.bar k) else x.bar k := by
  by_cases inside : k < x.bars.length
  · by_cases same : j = k <;> simp [Block.bar, Block.updBar, List.getD_eq_getElem?_getD, inside, same]
  · simp [Block.bar, Block.updBar, inside]

namespace KeepsExpect

variable {s t u : State}

theorem refl (s : State) : KeepsExpect s s := fun _ _ => rfl

theorem trans (h : KeepsExpect s t) (k : KeepsExpect t u) : KeepsExpect s u := fun b j => (k b j).trans (h b j)

/-! Each rule below says that the relation is kept when one more change is done last, as in `KeepsRetired`. -/

theorem same (h : KeepsExpect s t) (k : SameWork t u) : KeepsExpect s u :=
  h.trans fun b _ => by rw [blk_of_blocks k.blocks b]

theorem foldl {α : Type} {f : State → α → State} {l : List α} (h : KeepsExpect s t)
    (hf : ∀ u a, KeepsExpect u (f u a)) : KeepsExpect s (l.foldl f t) :=
  List.foldlRecOn l f h fun v hv a _ => hv.trans (hf v a)

theorem ite {c : Prop} [Decidable c] (h : KeepsExpect s t) (k : KeepsExpect s u) :
    KeepsExpect s (if c then t else u) := by
  split
  · exact h
  · exact k

theorem updGrp (h : KeepsExpect s t) (g : Nat) (f : Machine.Group → Machine.Group) : KeepsExpect s (t.updGrp g f) := h

theorem updBlk (h : KeepsExpect s t) (b : Nat) {f : Block → Block}
    (hf : ∀ x k, ((f x).bar k).expect = (x.bar k).expect) : KeepsExpect s (t.updBlk b f) := by
  refine h.trans fun c k => ?_
  by_cases same : b = c
  · subst same
    by_cases stands : b < t.blocks.length
    · rw [blk_updBlk_self t b f stands, hf]
    · simp [State.blk, stands]
  · rw [blk_updBlk_ne t b c f same]

/-- A barrier that is changed beside its EXPECT. -/
theorem updBar (h : KeepsExpect s t) (b k : Nat) {f : BlockBar → BlockBar}
    (hf : ∀ z, (f z).expect = z.expect := by exact fun _ => rfl) :
    KeepsExpect s (t.updBlk b fun y => y.updBar k f) := by
  refine h.updBlk b fun x j => ?_
  rw [bar_updBar]
  split
  · exact hf _
  · rfl

theorem finish (h : KeepsExpect s t) : KeepsExpect s t.finish := by
  unfold State.finish
  split
  · exact h.updBlk _ fun _ _ => rfl
  · exact h.updGrp _ _

theorem barArrivals (h : KeepsExpect s t) (b k : Nat) : KeepsExpect s (t.barArrivals b k) :=
  h.foldl fun u g => ite (((refl u).updGrp g _).updBar b k) (refl u)

theorem arriveLanes (h : KeepsExpect s t) (o : Op) (k : Nat) (go : W32) : KeepsExpect s (t.arriveLanes o k go) :=
  (h.updGrp o.grp _).same (sameWork_updOp _ o.id _)

theorem arriveAgain (h : KeepsExpect s t) (b k : Nat) : KeepsExpect s (t.arriveAgain b k) :=
  h.foldl fun u o => (refl u).arriveLanes o k o.again

theorem barRelease (h : KeepsExpect s t) (b k p : Nat) : KeepsExpect s (t.barRelease b k p) := by
  have acquired : KeepsExpect s (if (t.blk b).pair then
      (t.blk b).cores.foldl (fun u c => u.selfInvalidate c (t.gang (t.blk b).gang).ctx) t else t) :=
    ite (h.same (sameWork_foldl (fun u c => sameWork_selfInvalidate u c _) _ t)) h
  exact (acquired.foldl fun u g => (refl u).updGrp g _).same (sameWork_withOps _ _) |>.arriveAgain b k

theorem barComplete (h : KeepsExpect s t) (b k : Nat) : KeepsExpect s (t.barComplete b k) := by
  refine ite (same ?counted (sameWork_foldl (fun u c => sameWork_startDrain u c _ _) _ _)) (barRelease ?counted b k _)
  exact (h.updBar b k).same (sameWork_withOps _ _)

theorem barCheck (h : KeepsExpect s t) (b k : Nat) : KeepsExpect s (t.barCheck b k) :=
  ite (((h.barArrivals b k).barComplete b k).barArrivals b k) (h.barArrivals b k)

end KeepsExpect

/-! ## The instructions -/

/-- The state in which `bar.exp` has set EXPECT and its rule is still to be evaluated. -/
def withExpect (s : State) (b k cnt sb : Nat) : State :=
  (s.addOp (s.opOf sb .engine)).updBlk b fun y => y.updBar k fun z => { z with expect := cnt }

theorem mem_withExpect (s : State) (b k cnt sb : Nat) : (withExpect s b k cnt sb).mem = s.mem := by
  rw [withExpect, State.updBlk, State.addOp, State.updGrp, State.took]

section
variable {s : State} (issues : s.groupIssues)
include issues

/-- The arrival of the issuing lanes at block barrier `k` (R285). -/
def barOp (s : State) (k sb : Nat) : Op :=
  { s.opOf sb (.bar k none) with scope := s.effScope s.cur.grp 3, again := s.againAt k }

/-- An arrival at a block barrier after which the lanes `lanes` wait. -/
theorem barOp_joins (k sb : Nat) (lanes : W32) (w : Wait) {i : Instr} (runs : exec i s = .next
      ((s.addOp (barOp s k sb)).finish.updGrp s.cur.grp fun g => g.updFibs lanes fun _ f => { f with wait := w })) :
    ∃ t op, exec i s = .next t ∧ s.joined t sb op ∧ s.movedOn t ∧ op.lanes = s.cur.lanes ∧ op.kind = .bar k none ∧
      ∀ i, i < (s.grp s.cur.grp).ctl.fibs.length →
        ((t.grp s.cur.grp).fib i).wait = if lanes.getLsbD i then w else ((s.grp s.cur.grp).fib i).wait :=
  ⟨_, _, runs, arrived_joined issues _ rfl _ _, arrived_movedOn issues _ rfl _ _ fun _ _ => rfl, rfl, rfl,
    fun _ hi => arrived_wait issues _ rfl lanes w hi⟩

theorem exec_barArv_group (k sb : Nat) : exec (.barArv k sb) s = .next ((s.addOp (barOp s k sb)).finish.updGrp s.cur.grp
    fun g => g.updFibs (s.againAt k) fun _ f => { f with wait := .arv k }) := by
  rw [exec_barArv, execBarArv, asGroup_group issues.1]
  rfl

theorem exec_bar_group (k sb : Nat) : exec (.bar k sb) s = .next ((s.addOp (barOp s k sb)).finish.updGrp s.cur.grp
    fun g => g.updFibs s.cur.lanes fun _ f => { f with wait := .bar k none }) := by
  rw [exec_bar, execBar, asGroup_group issues.1]
  rfl

/-- A gang barrier of the launch's (R287). -/
theorem gbar_joins {g sb : Nat} (named : g < (s.gang (s.gangOf s.cur.grp)).field 529 5)
    (no_handler : (s.grp s.cur.grp).handler = .none) :
    ∃ t op, exec (.gbar g sb) s = .next t ∧ s.joined t sb op ∧ s.movedOn t ∧ op.lanes = s.cur.lanes ∧
      op.kind = .gbar g false ∧ op.acq = true ∧ op.scope = 0 := by
  have runs : exec (.gbar g sb) s =
      .next (s.addOp { s.opOf sb (.gbar g false) with acq := true, scope := 0 }).finish := by
    rw [exec_gbar, execGbar, asGroup_group issues.1]
    exact (if_neg (Nat.not_le.mpr named)).trans (if_neg (not_not.mpr no_handler))
  exact ⟨_, _, runs, joined_finish_addOp issues (.refl s) rfl, movedOn_finish_addOp issues (.refl s) rfl,
    rfl, rfl, rfl, rfl⟩

theorem gbar_traps {g : Nat} (sb : Nat) (past : (s.gang (s.gangOf s.cur.grp)).field 529 5 ≤ g) :
    exec (.gbar g sb) s = .next (s.fail (Fail.illegal 3)) := by
  rw [exec_gbar, execGbar, asGroup_group issues.1]
  exact if_pos past

/-- The rule of R285 is evaluated with the new EXPECT, which stays (R286). -/
theorem barExp_sets (k cnt sb : Nat) : ∃ t, exec (.barExp k cnt sb) s = .next t ∧ t.mem = s.mem ∧
    (k < (s.blk (s.grp s.cur.grp).blk).bars.length → ((t.blk (s.grp s.cur.grp).blk).bar k).expect = cnt) := by
  obtain ⟨group, -, stands⟩ := issues
  have runs : exec (.barExp k cnt sb) s =
      .next ((withExpect s (s.grp s.cur.grp).blk k cnt sb).barCheck (s.grp s.cur.grp).blk k).finish := by
    rw [exec_barExp, execBarExp, asGroup_group group]
    rfl
  generalize (s.grp s.cur.grp).blk = b at stands runs ⊢
  refine ⟨_, runs, ?mem, fun inside => ?expect⟩
  case mem => rw [finish_mem, ((KeepsLanes.refl (withExpect s b k cnt sb)).barCheck b k).mem, mem_withExpect]
  case expect =>
    rw [((KeepsExpect.refl (withExpect s b k cnt sb)).barCheck b k).finish b k, withExpect,
      blk_updBlk_self (s.addOp _) b _ stands, bar_updBar]
    exact congrArg BlockBar.expect (if_pos ⟨rfl, inside⟩)

end

/-- Settles O27: the arrivals join the pipeline as other operations do; EXPECT outlives the evaluation of its rule. -/
theorem barrierInstructionsIssue : Obligations.BarrierInstructionsIssue := by
  intro k cnt g sb s issues
  refine ⟨barOp_joins issues k sb _ _ (exec_barArv_group issues k sb), ?bar,
    fun named no_handler => gbar_joins issues named no_handler, gbar_traps issues sb, barExp_sets issues k cnt sb⟩
  obtain ⟨t, op, runs, joined, moved, lanes, kind, waits⟩ := barOp_joins issues k sb _ _ (exec_bar_group issues k sb)
  exact ⟨t, op, runs, joined, moved, lanes, kind, fun i hi active => (waits i hi).trans (if_pos active)⟩

end Sys2Proof.Proofs
end

section
/-!
SUPPORT. Bytes of the scratchpad (R109), and the transaction barriers in it (R72 to R74).
-/
namespace Sys2Proof.Proofs
open Sys2Proof.Machine Sys2Proof.Laws

/-! ## Where a scratchpad byte lies (R109) -/

/-- Scratchpad bytes of distinct banks lie at distinct bytes of the local store. -/
theorem scratchAt_injective {sp : List Nat} (distinct : sp.Nodup) {a a' k : Nat} (at_a : scratchAt sp a = some k)
    (at_a' : scratchAt sp a' = some k) : a = a' := by
  have place {c : Nat} (at_c : scratchAt sp c = some k) : 0 < sp.length ∧ sp.getD (c / 4 % sp.length) 0 = k / 98304 ∧
      4 * (c / 4 / sp.length) + c % 4 = k % 98304 := by
    obtain ⟨inside, at_c⟩ := Option.ite_none_right_eq_some.mp at_c
    obtain rfl := Option.some.inj at_c
    rw [Config.bankBytes] at inside ⊢
    have some_bank : 0 < sp.length := Nat.pos_of_ne_zero fun none => by simp [none] at inside
    have row : c / 4 / sp.length < 24576 := by
      rw [Nat.div_div_eq_div_mul, Nat.div_lt_iff_lt_mul (by omega)]
      linarith
    omega
  obtain ⟨some_bank, bank, row⟩ := place at_a
  obtain ⟨-, bank', row'⟩ := place at_a'
  have same_bank : a / 4 % sp.length = a' / 4 % sp.length := by
    have l := Nat.mod_lt (a / 4) some_bank
    have l' := Nat.mod_lt (a' / 4) some_bank
    rw [← bank', List.getD_eq_getElem _ _ l, List.getD_eq_getElem _ _ l'] at bank
    exact (distinct.getElem_inj_iff).mp bank
  have same_row : a / 4 / sp.length = a' / 4 / sp.length := by omega
  have same_word : a / 4 = a' / 4 := by rw [← Nat.div_add_mod (a / 4) sp.length, same_row, same_bank, Nat.div_add_mod]
  omega

/-- A byte inside the scratchpad lies somewhere. -/
theorem scratchAt_inside {sp : List Nat} {a : Nat} (inside : a < sp.length * Config.bankBytes) :
    ∃ k, scratchAt sp a = some k := ⟨_, if_pos inside⟩

/-! ## One byte -/

/-- The byte at a scratchpad address of a block's side, 0 beyond the scratchpad. -/
def scratchByte (s : State) (b side a : Nat) : Nat :=
  ((scratchAt ((s.blk b).spBanks side) a).map fun k => (look 0 (s.core ((s.blk b).coreAt side)).bytes k).toNat).getD 0

section
variable (s : State) (b side a : Nat)

theorem scratchRead_succ (n : Nat) :
    s.scratchRead b side a (n + 1) = scratchByte s b side a + 256 * s.scratchRead b side (a + 1) n := by
  simp only [State.scratchRead, scratchByte]
  cases scratchAt ((s.blk b).spBanks side) a <;> rfl

/-- What is read depends on the cores' bytes and on where the block's banks are. -/
theorem scratchRead_congr {t : State} (cores : t.cores = s.cores)
    (banks : (t.blk b).spBanks side = (s.blk b).spBanks side) (core : (t.blk b).coreAt side = (s.blk b).coreAt side)
    (n : Nat) : t.scratchRead b side a n = s.scratchRead b side a n := by
  have byte (a : Nat) : scratchByte t b side a = scratchByte s b side a := by
    simp only [scratchByte, banks, core, State.core, cores]
  induction n generalizing a with
  | zero => rfl
  | succ n ih => rw [scratchRead_succ, scratchRead_succ, byte, ih]

variable (core k v more : Nat)

theorem sameIssue_writeLocal : SameIssue s (s.writeLocal core k v more) := by
  unfold State.writeLocal
  split <;> exact ⟨⟨rfl, rfl, rfl, rfl⟩, rfl, rfl⟩

theorem bytes_writeLocal : ((s.writeLocal core k v more).core core).bytes =
    put 0 (s.core core).bytes k (BitVec.ofNat 8 v) := by
  have written : (s.writeLocal core k v more).core core =
      (s.updCore core fun c => { c with bytes := put 0 c.bytes k (BitVec.ofNat 8 v) }).core core := by
    unfold State.writeLocal
    split <;> rfl
  rw [written, core_updCore, if_pos rfl]

end

section
variable {s : State} {b side a : Nat} (distinct : ((s.blk b).spBanks side).Nodup)
include distinct

/-- A written byte is read back, and every other byte is what it was. -/
theorem scratchByte_writeLocal {k : Nat} (place : scratchAt ((s.blk b).spBanks side) a = some k) (v more a' : Nat) :
    scratchByte (s.writeLocal ((s.blk b).coreAt side) k v more) b side a' =
      if a' = a then v % 256 else scratchByte s b side a' := by
  have blk := blk_of_blocks (sameIssue_writeLocal s ((s.blk b).coreAt side) k v more).blocks b
  simp only [scratchByte, blk, bytes_writeLocal]
  by_cases same : a' = a
  · subst same
    simp [place]
  · rw [if_neg same]
    cases place' : scratchAt ((s.blk b).spBanks side) a' with
    | none => rfl
    | some k' =>
      have apart : k ≠ k' := fun e => same (scratchAt_injective distinct place' (e ▸ place))
      exact congrArg BitVec.toNat (look_put_ne 0 0 _ k k' _ apart)

end

/-! ## A run of bytes -/

theorem scratchWrite_cons (s : State) {b side a k : Nat} (place : scratchAt ((s.blk b).spBanks side) a = some k)
    (v : Nat) (l : List Nat) : s.scratchWrite b side a (v :: l) =
      (s.writeLocal ((s.blk b).coreAt side) k v l.length).scratchWrite b side (a + 1) l := by
  simp only [State.scratchWrite, place]

theorem sameIssue_scratchWrite (s : State) (b side a : Nat) (l : List Nat) :
    SameIssue s (s.scratchWrite b side a l) := by
  induction l generalizing s a with
  | nil => exact .refl s
  | cons v l ih =>
    rw [State.scratchWrite]
    refine .trans ?_ (ih _ _)
    split
    · exact sameIssue_writeLocal s _ _ _ _
    · exact .refl s

section
variable {s : State} {b side a : Nat} (distinct : ((s.blk b).spBanks side).Nodup)
include distinct

/-- Bytes before those that are written are what they were. -/
theorem scratchByte_scratchWrite (l : List Nat) {a' : Nat} (before : a' < a) :
    scratchByte (s.scratchWrite b side a l) b side a' = scratchByte s b side a' := by
  induction l generalizing s a with
  | nil => rfl
  | cons v l ih =>
    cases place : scratchAt ((s.blk b).spBanks side) a with
    | none =>
      simp only [State.scratchWrite, place]
      exact ih distinct (by omega)
    | some k =>
      have blk := blk_of_blocks (sameIssue_writeLocal s ((s.blk b).coreAt side) k v l.length).blocks b
      rw [scratchWrite_cons s place, ih (by rwa [blk]) (by omega), scratchByte_writeLocal distinct place,
        if_neg (Nat.ne_of_lt before)]

/-- What is written is read back. -/
theorem scratchRead_scratchWrite (n v : Nat) (inside : a + n ≤ ((s.blk b).spBanks side).length * Config.bankBytes) :
    (s.scratchWrite b side a (leBytes n v)).scratchRead b side a n = v % 256 ^ n := by
  induction n generalizing s a v with
  | zero => simp [State.scratchRead, Nat.mod_one]
  | succ n ih =>
    obtain ⟨k, place⟩ := scratchAt_inside (show a < ((s.blk b).spBanks side).length * Config.bankBytes by omega)
    have blk := blk_of_blocks
      (sameIssue_writeLocal s ((s.blk b).coreAt side) k (v % 256) (leBytes n (v / 256)).length).blocks b
    rw [leBytes, scratchWrite_cons s place, scratchRead_succ, ih (by rwa [blk]) _ (by rw [blk]; omega),
      scratchByte_scratchWrite (by rwa [blk]) _ (Nat.lt_succ_self a), scratchByte_writeLocal distinct place,
      if_pos rfl, Nat.mod_mod, Nat.pow_succ', Nat.mod_mul]

end

/-! ## The fields of a transaction barrier (R72 to R74) -/

/-- The fields lie in the widths that R72 gives them. -/
structure Fits (y : TxBar) : Prop where
  phase : y.phase < 2 ^ 4
  arrPend : y.arrPend < 2 ^ 16
  arrInit : y.arrInit < 2 ^ 16
  secPend : -2 ^ 31 ≤ y.secPend ∧ y.secPend < 2 ^ 31
  err : y.err < 2 ^ 8

theorem fits_ofBits (n : Nat) : Fits (TxBar.ofBits n) where
  phase := Nat.mod_lt _ (by norm_num)
  arrPend := Nat.mod_lt _ (by norm_num)
  arrInit := Nat.mod_lt _ (by norm_num)
  secPend := by
    have field : bits n 40 32 < 2 ^ 32 := Nat.mod_lt _ (by norm_num)
    simp only [TxBar.ofBits, signedOf]
    split <;> omega
  err := Nat.mod_lt _ (by norm_num)

namespace Fits

variable {y : TxBar} (h : Fits y)
include h

theorem arrive : Fits y.arrive := by
  unfold TxBar.arrive
  split
  · exact { h with err := by norm_num }
  · exact { h with arrPend := lt_of_le_of_lt (Nat.sub_le ..) h.arrPend }

theorem arrivals (n : Nat) : Fits (y.arrivals n) := by
  induction n generalizing y with
  | zero => exact h
  | succ n ih => exact ih h.arrive

theorem addSectors (d : Int) : Fits (y.addSectors d) := by
  unfold TxBar.addSectors
  dsimp only
  split
  · next range => exact { h with secPend := range }
  · exact { h with err := by norm_num }

/-- A barrier whose phase has completed (R73). -/
theorem nextPhase : Fits { y with phase := (y.phase + 1) % 16, arrPend := y.arrInit } :=
  { h with phase := Nat.mod_lt _ (by norm_num), arrPend := h.arrInit }

/-- The bits of a barrier are those of its 16 bytes. -/
theorem toBits_lt : y.toBits < 256 ^ 16 := by
  obtain ⟨phase, arrPend, arrInit, -, err⟩ := h
  have sectors : (y.secPend % 2 ^ 32).toNat < 2 ^ 32 := by omega
  unfold TxBar.toBits
  omega

theorem ofBits_toBits : TxBar.ofBits y.toBits = y := by
  obtain ⟨phase, arrPend, arrInit, secPend, err⟩ := h
  have sectors : signedOf 32 (y.secPend % 2 ^ 32).toNat = y.secPend := by
    unfold signedOf
    split <;> omega
  have range : (y.secPend % 2 ^ 32).toNat < 2 ^ 32 := by omega
  have fields : bits y.toBits 0 4 = y.phase ∧ bits y.toBits 8 16 = y.arrPend ∧ bits y.toBits 24 16 = y.arrInit ∧
      bits y.toBits 40 32 = (y.secPend % 2 ^ 32).toNat ∧ bits y.toBits 72 8 = y.err := by
    simp only [bits, TxBar.toBits]
    generalize (y.secPend % 2 ^ 32).toNat = sec at range ⊢
    omega
  obtain ⟨fphase, farrPend, farrInit, fsec, ferr⟩ := fields
  rw [TxBar.ofBits, fphase, farrPend, farrInit, fsec, ferr, sectors]

end Fits

end Sys2Proof.Proofs
end

section
/-!
SUPPORT. Engine instructions that take effect at once (R269, R296, R348), and where they leave their issuer.
-/
namespace Sys2Proof.Proofs
open Sys2Proof.Machine Sys2Proof.Laws

/-! ## Checks (R348) -/

section
variable {s : State} {rd wr : List Reg} {checks : List (Bool × Fail)} {act : State → State} (engine : s.engineIssues)
  (free : s.engRegsFree rd wr)
include engine

theorem engine_not_idle : s.cur.kind ≠ .idle := by
  rcases engine with ⟨group, -⟩ | ⟨stream, -⟩
  · simp [group]
  · simp [stream]

include free

/-- Where the registers are free, the checks of the instruction decide. -/
theorem engFail_eq_firstFail : s.engFail false false rd wr checks = firstFail checks := by
  rcases engine with ⟨group, -⟩ | ⟨stream, -⟩
  · simp only [State.engFail, firstFail, group, regFail_none (free group)]
  · simp only [State.engFail, firstFail, stream]

theorem engineOp_acts (passes : firstFail checks = none) :
    engineOp s true false false rd wr checks act = .next (act s).finish := by
  rw [engineOp]
  split
  · next idle => exact absurd idle (engine_not_idle engine)
  · simp [engFail_eq_firstFail engine free, passes]

theorem engineOp_fails {e : Fail} (fails : firstFail checks = some e) :
    engineOp s true false false rd wr checks act = .next (s.fail e) := by
  rw [engineOp]
  split
  · next idle => exact absurd idle (engine_not_idle engine)
  · simp [engFail_eq_firstFail engine free, fails]

end

/-! ## The issuer afterwards (R67, R163, R295) -/

/-- The issuer has moved on, memory is what it was, and a group's counter is one higher. -/
def Left (s : State) (sb : Nat) (u : State) : Prop :=
  s.went u ∧ u.mem = s.mem ∧
    (s.cur.kind = .group → (u.grp s.cur.grp).ctl.sb = ((s.grp s.cur.grp).incCounter sb).ctl.sb)

section
variable {s t : State} (same : SameIssue s t)
include same

theorem left_addOp (issues : s.groupIssues) {o : Op} (own : o.grp = s.cur.grp) : Left s o.sb (t.addOp o).finish := by
  obtain ⟨-, counter, -, mem⟩ := joined_finish_addOp issues same own
  exact ⟨⟨fun _ => movedOn_finish_addOp issues same own, fun stream => by simp [issues.1] at stream⟩, mem,
    fun _ => counter⟩

/-- An effect at once leaves the issuer past the instruction, and counts it in a group's counter. -/
theorem left_countNow (engine : s.engineIssues) (sb : Nat) : Left s sb (t.countNow sb).finish := by
  rcases engine with issues | ⟨stream, stands⟩
  · have group : t.cur.kind = .group := by rw [same.cur, issues.1]
    simp only [State.countNow, group]
    exact left_addOp same issues (congrArg (·.grp) same.cur)
  · have kind : t.cur.kind = .stream := by rw [same.cur, stream]
    have not_group : s.cur.kind ≠ .group := by simp [stream]
    simp only [State.countNow, State.finish, kind]
    refine ⟨⟨fun group => absurd group not_group, fun _ => ?_⟩, same.mem, fun group => absurd group not_group⟩
    rw [same.cur, blk_updBlk_self t _ _ (by rwa [same.blocks]), blk_of_blocks same.blocks, Seq.pass]
    split <;> exact ⟨rfl, rfl⟩

end

/-! ## Waiting at an instruction (R290 to R292) -/

section
variable {s : State} {come : State → Bool} {w : Wait} {t : State}

theorem waitUnless_goes (comes : come s = true) : waitUnless s come w (.next t) = .next t := by
  simp [waitUnless, comes]

theorem waitUnless_trapped (trapped : t.cur.trapped = true) : waitUnless s come w (.next t) = .next t := by
  simp [waitUnless, trapped]

theorem waitUnless_stays (not_trapped : t.cur.trapped = false) (waits : come s = false) :
    waitUnless s come w (.next t) = .next (s.stay t w) := by
  simp [waitUnless, not_trapped, waits]

/-- The issuing lanes stand at the instruction and wait. -/
def WaitsHere (s : State) (w : Wait) (u : State) : Prop :=
  u.mem = s.mem ∧ ∀ i, i < (s.grp s.cur.grp).ctl.fibs.length → s.cur.lanes.getLsbD i = true →
    ((u.grp s.cur.grp).fib i).wait = w ∧ ((u.grp s.cur.grp).fib i).pc = s.cur.hdr + BitVec.ofNat 64 (4 * s.cur.idx)

theorem waitsHere_stay_finish (issues : s.groupIssues) : WaitsHere s w (s.stay s.finish w) := by
  have exists_ : s.cur.grp < s.finish.groups.length := by simpa using issues.2.1
  refine ⟨finish_mem s, fun i hi active => ?_⟩
  rw [State.stay, grp_updGrp_self _ _ _ exists_, grp_finish issues, fib_updFibs _ _ _ (by simpa using hi),
    if_pos active]
  exact ⟨rfl, rfl⟩

theorem trapped_fail (s : State) (e : Fail) : (s.fail e).cur.trapped = true := by
  unfold State.fail
  split <;> rfl

end

end Sys2Proof.Proofs
end

section
/-!
SUPPORT. Transaction barriers (R72 to R74, R289 to R291), and the statement about their instructions.
-/
namespace Sys2Proof.Proofs
open Sys2Proof.Machine Sys2Proof.Laws

/-! ## Barriers in the scratchpad (R72) -/

section
variable (s : State) (b side x : Nat)

/-- A barrier lies in the bytes of the cores, at the block's banks. -/
theorem txBar_congr {t : State} (cores : t.cores = s.cores) (banks : (t.blk b).spBanks side = (s.blk b).spBanks side)
    (core : (t.blk b).coreAt side = (s.blk b).coreAt side) : t.txBar b side x = s.txBar b side x :=
  congrArg TxBar.ofBits (scratchRead_congr s b side _ cores banks core 16)

/-- A change of a block beside its banks leaves the barriers. -/
theorem txBar_updBlk (k : Nat) {f : Block → Block} (keeps : ∀ y, (f y).spBanks side = y.spBanks side ∧
    (f y).coreAt side = y.coreAt side := by exact fun _ => ⟨rfl, rfl⟩) :
    (s.updBlk k f).txBar b side x = s.txBar b side x := by
  have kept : ((s.updBlk k f).blk b).spBanks side = (s.blk b).spBanks side ∧
      ((s.updBlk k f).blk b).coreAt side = (s.blk b).coreAt side := by
    by_cases same : k = b
    · subst same
      by_cases stands : k < s.blocks.length
      · rw [blk_updBlk_self s k f stands]
        exact keeps _
      · simp [State.blk, stands]
    · rw [blk_updBlk_ne s k b f same]
      exact ⟨rfl, rfl⟩
  exact txBar_congr s b side x rfl kept.1 kept.2

theorem txBar_finish : s.finish.txBar b side x = s.txBar b side x := by
  unfold State.finish
  split
  · exact txBar_updBlk s b side x _
  · exact txBar_congr s b side x rfl rfl rfl

theorem txBar_addOp (o : Op) : (s.addOp o).txBar b side x = s.txBar b side x := txBar_congr s b side x rfl rfl rfl

theorem txBar_countNow (sb : Nat) : (s.countNow sb).txBar b side x = s.txBar b side x := by
  unfold State.countNow
  split
  · rfl
  · exact txBar_addOp s b side x _

theorem txDue_countNow (sb : Nat) : (s.countNow sb).txDue = s.txDue := by
  unfold State.countNow
  split <;> rfl

theorem txBar_foldl {α : Type} {g : State → α → State} (keeps : ∀ u a, (g u a).txBar b side x = u.txBar b side x)
    (l : List α) : (l.foldl g s).txBar b side x = s.txBar b side x :=
  List.foldlRecOn (motive := fun u : State => u.txBar b side x = s.txBar b side x) l g rfl
    fun u hu a _ => (keeps u a).trans hu

theorem fits_txBar : Fits (s.txBar b side x) := fits_ofBits _

end

/-! ## Updates and the test (R73) -/

/-- A barrier is to be tested at the end of the clock. -/
def addDue (s : State) (e : Nat × Nat × Nat) : State :=
  if s.txDue.contains e then s else { s with txDue := s.txDue ++ [e] }

section
variable (s : State) (e : Nat × Nat × Nat)

theorem sameIssue_addDue : SameIssue s (addDue s e) := by
  unfold addDue
  split <;> exact ⟨⟨rfl, rfl, rfl, rfl⟩, rfl, rfl⟩

theorem mem_txDue_addDue : e ∈ (addDue s e).txDue := by
  unfold addDue
  split
  · next due => exact List.contains_iff_mem.mp due
  · exact List.mem_append_right _ List.mem_cons_self

theorem cores_addDue : (addDue s e).cores = s.cores := by
  unfold addDue
  split <;> rfl

theorem txBar_addDue (b side x : Nat) : (addDue s e).txBar b side x = s.txBar b side x := by
  have blk := blk_of_blocks (sameIssue_addDue s e).blocks b
  exact txBar_congr s b side x (cores_addDue s e) (by rw [blk]) (by rw [blk])

end

/-- An update writes the barrier's bytes and makes it due for the test. -/
theorem txUpdate_eq_addDue (s : State) (b side x : Nat) (f : TxBar → TxBar) : s.txUpdate b side x f =
    addDue (s.scratchWrite b side (16 * x) (leBytes 16 (f (s.txBar b side x)).toBits)) (b, side, x) := rfl

theorem sameIssue_txUpdate (s : State) (b side x : Nat) (f : TxBar → TxBar) : SameIssue s (s.txUpdate b side x f) :=
  (sameIssue_scratchWrite s b side _ _).trans (sameIssue_addDue _ _)

section
variable {s : State} {b side x : Nat} (named : s.txInside b side x = true) (distinct : ((s.blk b).spBanks side).Nodup)
include named distinct

/-- A barrier that has been written is read back. -/
theorem txBar_scratchWrite {y : TxBar} (fits : Fits y) :
    (s.scratchWrite b side (16 * x) (leBytes 16 y.toBits)).txBar b side x = y := by
  rw [State.txBar, scratchRead_scratchWrite distinct 16 _ (of_decide_eq_true named), Nat.mod_eq_of_lt fits.toBits_lt,
    fits.ofBits_toBits]

theorem txBar_txUpdate {f : TxBar → TxBar} (fits : Fits (f (s.txBar b side x))) :
    (s.txUpdate b side x f).txBar b side x = f (s.txBar b side x) := by
  rw [txUpdate_eq_addDue, txBar_addDue, txBar_scratchWrite named distinct fits]

/-- The test steps the phase of a barrier with nothing pending, whose arrivals start again (R73). -/
theorem txBar_txTest (live : (s.blk b).live = true) : (s.txTest b side x).txBar b side x =
    if (s.txBar b side x).arrPend = 0 ∧ (s.txBar b side x).secPend = 0 then
      { s.txBar b side x with phase := ((s.txBar b side x).phase + 1) % 16, arrPend := (s.txBar b side x).arrInit }
    else s.txBar b side x := by
  have done : ((s.blk b).live && (s.txBar b side x).complete) = true ↔
      (s.txBar b side x).arrPend = 0 ∧ (s.txBar b side x).secPend = 0 := by
    simp [live, TxBar.complete]
  simp only [State.txTest, done]
  split
  · rw [txBar_foldl, txBar_scratchWrite named distinct (fits_txBar s b side x).nextPhase]
    intro u k
    split
    · exact txBar_updBlk u b side x b
    · rfl
  · rfl

end

/-! ## The instructions (R289, R290) -/

/-- A barrier of the issuer's side has been updated to `y` and is to be tested. -/
def Updated (s : State) (sb x : Nat) (y : TxBar) (u : State) : Prop :=
  Left s sb u ∧ u.txBar s.engBlk (s.engSide false) x = y ∧ (s.engBlk, s.engSide false, x) ∈ u.txDue

/-- A barrier update is an engine instruction. -/
theorem txOp_eq (x : Nat) (rd : List Reg) (sb : Nat) (last : List (Bool × Fail)) (f : State → TxBar → TxBar)
    (s : State) :
    txOp x rd sb last f s = engineOp s true false false (.s x :: rd) [] (s.txFail (s.engS x) :: last) fun u =>
      (u.txUpdate u.engBlk (u.engSide false) ((s.engS x).toNat % 2 ^ 18) (f u)).countNow sb := rfl

section
variable {s : State} {x sb : Nat} {rd : List Reg} {last : List (Bool × Fail)} {f : State → TxBar → TxBar}
  (engine : s.engineIssues) (free : s.engRegsFree (.s x :: rd) [])
include engine free

/-- A barrier index outside the scratchpad is a window fault, also beside a bad count (log entry 25). -/
theorem txOp_outside
    (outside : 2 ^ 18 ≤ (s.engS x).toNat ∨ s.txInside s.engBlk (s.engSide false) (s.engS x).toNat = false) :
    txOp x rd sb last f s = .next (s.fail Fail.window) := by
  have fails : s.txFail (s.engS x) = (true, Fail.window) := by
    refine Prod.ext ?_ rfl
    rcases lt_or_ge (s.engS x).toNat (2 ^ 18) with low | high
    · have past := outside.resolve_left (Nat.not_le.mpr low)
      simp only [State.txFail, Nat.mod_eq_of_lt low, past, Bool.not_false, Bool.or_true]
    · simp only [State.txFail, high, decide_true, Bool.true_or]
  rw [txOp_eq, engineOp_fails engine free (by rw [fails, firstFail])]

variable (low : (s.engS x).toNat < 2 ^ 18) (named : s.txInside s.engBlk (s.engSide false) (s.engS x).toNat = true)
include low named

omit engine free in
theorem txFail_inside : s.txFail (s.engS x) = (false, Fail.window) := by
  refine Prod.ext ?_ rfl
  simp only [State.txFail, Nat.mod_eq_of_lt low, named, Bool.not_true, Bool.or_false]
  exact decide_eq_false (Nat.not_le.mpr low)

theorem txOp_fails {e : Fail} (fails : firstFail last = some e) : txOp x rd sb last f s = .next (s.fail e) := by
  rw [txOp_eq, engineOp_fails engine free (by rw [txFail_inside low named, firstFail, fails])]

theorem txOp_updates (passes : firstFail last = none)
    (distinct : ((s.blk s.engBlk).spBanks (s.engSide false)).Nodup)
    (fits : Fits (f s (s.txBar s.engBlk (s.engSide false) (s.engS x).toNat))) : ∃ u, txOp x rd sb last f s = .next u ∧
      Updated s sb (s.engS x).toNat (f s (s.txBar s.engBlk (s.engSide false) (s.engS x).toNat)) u := by
  rw [txOp_eq, engineOp_acts engine free (by rw [txFail_inside low named, firstFail, passes]), Nat.mod_eq_of_lt low]
  refine ⟨_, rfl, left_countNow (sameIssue_txUpdate ..) engine sb, ?_, ?_⟩
  · rw [txBar_finish, txBar_countNow, txBar_txUpdate named distinct fits]
  · rw [finish_txDue, txDue_countNow]
    exact mem_txDue_addDue _ _

end

/-- How often `txarv` arrives (R289). -/
def arrivalCount (s : State) (one : Bool) : Nat := if one ∨ s.cur.kind = .stream then 1 else popCount s.cur.lanes

theorem arrivals_one (s : State) (y : TxBar) : y.arrivals (arrivalCount s true) = y.arrive := by
  simp [arrivalCount, TxBar.arrivals]

theorem arrivalCount_lanes (s : State) :
    arrivalCount s false = if s.cur.kind = .stream then 1 else popCount s.cur.lanes := by
  simp [arrivalCount]

section
variable {s : State} {x sb : Nat} (c : Nat) (engine : s.engineIssues) (low : (s.engS x).toNat < 2 ^ 18)
  (named : s.txInside s.engBlk (s.engSide false) (s.engS x).toNat = true)
  (distinct : ((s.blk s.engBlk).spBanks (s.engSide false)).Nodup)
include engine low named distinct

omit engine low named distinct in
theorem exec_txexp_txOp : exec (.txexp x c sb) s =
    txOp x [.s c] sb [] (fun u y => y.addSectors (u.engS c).toNat) s := rfl

theorem txexp_updates (free : s.engRegsFree [.s x, .s c] []) : ∃ u, exec (.txexp x c sb) s = .next u ∧ Updated s sb
    (s.engS x).toNat ((s.txBar s.engBlk (s.engSide false) (s.engS x).toNat).addSectors (s.engS c).toNat) u := by
  rw [exec_txexp_txOp]
  exact txOp_updates engine free low named rfl distinct ((fits_txBar ..).addSectors _)

theorem txarvExp_updates (one : Bool) (free : s.engRegsFree [.s x, .s c] []) :
    ∃ u, exec (.txarv x c true one sb) s = .next u ∧ Updated s sb (s.engS x).toNat
      (((s.txBar s.engBlk (s.engSide false) (s.engS x).toNat).arrivals (arrivalCount s one)).addSectors
        (s.engS c).toNat) u :=
  txOp_updates (f := fun s y => (y.arrivals (arrivalCount s one)).addSectors (s.engS c).toNat) engine free low named rfl
    distinct (((fits_txBar ..).arrivals _).addSectors _)

theorem txarv_updates (one : Bool) (free : s.engRegsFree [.s x] []) :
    ∃ u, exec (.txarv x c false one sb) s = .next u ∧ Updated s sb (s.engS x).toNat
      ((s.txBar s.engBlk (s.engSide false) (s.engS x).toNat).arrivals (arrivalCount s one)) u :=
  txOp_updates (f := fun s y => y.arrivals (arrivalCount s one)) engine free low named rfl distinct
    ((fits_txBar ..).arrivals _)

end

/-! ## Instructions of a group alone (R289 to R291) -/

theorem engS_group {s : State} (group : s.cur.kind = .group) (k : Nat) : s.engS k = (s.grp s.cur.grp).s k := by
  simp only [State.engS, group]

theorem engBlk_group {s : State} (group : s.cur.kind = .group) : s.engBlk = (s.grp s.cur.grp).blk := by
  simp only [State.engBlk, group]

/-- The operation that is to write a result to the registers `dsts`. -/
def resultOp (s : State) (sb : Nat) (dsts : List (Nat × Nat × Dst)) (data : Nat → Nat) : Op :=
  { Op.blank s.cur.grp (s.grp s.cur.grp).core (s.ctxOf s.cur.grp) s.cur.lanes sb .engine with
    stage := .finished
    port := s.cur.port
    dsts := dsts
    parts := (lanesOf s.cur.lanes).map fun i => ⟨i, 0, 0, 0, 0, 0, 0, 0, data i, 0, .done, false⟩ }

theorem addResult_eq (s : State) (sb : Nat) (dsts : List (Nat × Nat × Dst)) (data : Nat → Nat) :
    s.addResult sb dsts data = s.addOp (resultOp s sb dsts data) := rfl

/-- The places of a predicate in the lanes of a list; p15 has none. -/
theorem predDsts_eq (g : Machine.Group) (p : Nat) (l : List Nat) :
    (l.filterMap fun i => (g.dst i (.p p)).map fun d => (i, 0, d)) =
      if p = 15 then [] else l.map fun i => (i, 0, Dst.p i p) := by
  by_cases last : p = 15 <;> simp [Group.dst, last]

section
variable {s : State} (issues : s.groupIssues)
include issues

/-- `txinit` is an update that a bad count refuses (R289). -/
theorem exec_txinit_group (x c sb : Nat) : exec (.txinit x c sb) s =
    txOp x [.s c] sb [(decide ((s.engS c).toNat = 0 ∨ 65535 < (s.engS c).toNat), Fail.illegal 5)]
      (fun _ _ => ⟨0, (s.engS c).toNat, (s.engS c).toNat, 0, 0⟩) s := by
  rw [exec_txinit, execTxinit, asGroup_group issues.1]

omit issues in
theorem fits_txinit {n : Nat} (most : n ≤ 65535) : Fits ⟨0, n, n, 0, 0⟩ :=
  ⟨by norm_num, Nat.lt_succ_of_le most, Nat.lt_succ_of_le most, by norm_num, by norm_num⟩

section
variable {x : Nat} (low : (s.engS x).toNat < 2 ^ 18)
  (named : s.txInside s.engBlk (s.engSide false) (s.engS x).toNat = true)
include low named

/-- `txtest` is to write whether the phase differs (R290). -/
theorem txtest_joins (p ph sb : Nat) (free : s.regsFree [.s x, .s ph] [.p p] 4096) :
    ∃ u, exec (.txtest p x ph sb) s = .next u ∧ Left s sb u ∧
      ∃ op ∈ u.ops, op.stage = .finished ∧ op.sb = sb ∧
        op.dsts = (if p = 15 then [] else (lanesOf s.cur.lanes).map fun i => (i, 0, Dst.p i p)) ∧
        ∀ q ∈ op.parts, q.data = if (s.txBar s.engBlk (s.engSide false) (s.engS x).toNat).phase =
          ((s.grp s.cur.grp).s ph).toNat % 16 then 0 else 1 := by
  rw [exec_txtest, execTxtest, asGroup_group issues.1]
  dsimp only
  rw [engineOp_acts (.inl issues) (fun _ => free) (by rw [txFail_inside low named, firstFail, firstFail]),
    Nat.mod_eq_of_lt low, engS_group issues.1 ph, addResult_eq]
  obtain ⟨⟨id, joins⟩, -⟩ := joined_finish_addOp issues (.refl s) (o := resultOp s sb _ _) rfl
  refine ⟨_, rfl, left_addOp (.refl s) issues rfl, _, joins ▸ List.mem_append_right _ List.mem_cons_self, rfl, rfl,
    predDsts_eq .., List.forall_mem_map.mpr fun i _ => ?_⟩
  simp only [bne_iff_ne, ne_eq, ite_not]

end

/-- `txwait` moves on, or its lanes wait at the instruction (R290, log entry 28). -/
theorem exec_txwait_group {x ph : Nat} (low : (s.engS x).toNat < 2 ^ 18)
    (named : s.txInside s.engBlk (s.engSide false) (s.engS x).toNat = true)
    (free : s.regsFree [.s x, .s ph] [] 4096) : exec (.txwait x ph) s =
      waitUnless s (fun u => (u.txBar u.engBlk (s.engSide false) (s.engS x).toNat).phase !=
        ((s.grp s.cur.grp).s ph).toNat % 16)
        (.tx (s.engSide false) (s.engS x).toNat (((s.grp s.cur.grp).s ph).toNat % 16)) (.next s.finish) := by
  rw [exec_txwait, execTxwait, asGroup_group issues.1]
  dsimp only
  rw [engineOp_acts (.inl issues) (fun _ => free) (by rw [txFail_inside low named, firstFail, firstFail]),
    Nat.mod_eq_of_lt low, engS_group issues.1 ph, id]

/-- `twait` checks that the tile may be named, then waits in the same way (R291). -/
theorem exec_twait_group (t st : Nat) : exec (.twait t st) s =
    waitUnless s (fun _ => ((s.blk (s.grp s.cur.grp).blk).tile (s.engSide false) t).state == st) (.tile t st)
      (.next (if (s.blk (s.grp s.cur.grp).blk).named (s.engSide false) t then s.finish else s.fail Fail.window)) := by
  rw [exec_twait, execTwait, asGroup_group issues.1, engBlk_group issues.1]
  dsimp only
  split
  · next named => rw [engineOp_acts (.inl issues) (fun _ => regsFree_nil) (by rw [named]; rfl), id]
  · next absent => rw [engineOp_fails (.inl issues) (fun _ => regsFree_nil) (by rw [eq_false_of_ne_true absent]; rfl)]

end

section
variable {s : State} (issues : s.groupIssues)
include issues

/-- A wait for a barrier's phase that is over, and one that is not (R290). -/
theorem txwait_goes_or_waits (x ph : Nat) (low : (s.engS x).toNat < 2 ^ 18)
    (named : s.txInside s.engBlk (s.engSide false) (s.engS x).toNat = true)
    (free : s.regsFree [.s x, .s ph] [] 4096) :
    ((s.txBar s.engBlk (s.engSide false) (s.engS x).toNat).phase ≠ ((s.grp s.cur.grp).s ph).toNat % 16 →
      exec (.txwait x ph) s = .next s.finish) ∧
    ((s.txBar s.engBlk (s.engSide false) (s.engS x).toNat).phase = ((s.grp s.cur.grp).s ph).toNat % 16 →
      s.cur.trapped = false → ∃ u, exec (.txwait x ph) s = .next u ∧
        WaitsHere s (.tx (s.engSide false) (s.engS x).toNat (((s.grp s.cur.grp).s ph).toNat % 16)) u) := by
  rw [exec_txwait_group issues low named free]
  exact ⟨fun differs => waitUnless_goes (bne_iff_ne.mpr differs), fun equal no_trap =>
    ⟨_, waitUnless_stays (by rw [finish_cur, no_trap]) (bne_eq_false_iff_eq.mpr equal), waitsHere_stay_finish issues⟩⟩

/-- A wait for a tile's state that is over, one that is not, and one for a tile that may not be named (R291). -/
theorem twait_goes_or_waits (t st : Nat) :
    let b := s.blk (s.grp s.cur.grp).blk
    (b.named (s.engSide false) t = true →
      ((b.tile (s.engSide false) t).state = st → exec (.twait t st) s = .next s.finish) ∧
      ((b.tile (s.engSide false) t).state ≠ st → s.cur.trapped = false →
        ∃ u, exec (.twait t st) s = .next u ∧ WaitsHere s (.tile t st) u)) ∧
    (b.named (s.engSide false) t = false → exec (.twait t st) s = .next (s.fail Fail.window)) := by
  intro b
  rw [exec_twait_group issues]
  refine ⟨fun named => ⟨fun there => ?goes, fun elsewhere no_trap => ?waits⟩, fun absent => ?refused⟩
  case goes =>
    rw [if_pos named]
    exact waitUnless_goes (beq_iff_eq.mpr there)
  case waits =>
    rw [if_pos named]
    exact ⟨_, waitUnless_stays (by rw [finish_cur, no_trap]) (beq_eq_false_iff_ne.mpr elsewhere),
      waitsHere_stay_finish issues⟩
  case refused => rw [if_neg (by rw [absent]; exact Bool.false_ne_true), waitUnless_trapped (trapped_fail s _)]

end

/-- Settles O35: each instruction is a barrier update or a wait; the scratchpad gives back the barrier that an update
writes. -/
theorem transactionBarriers : Obligations.TransactionBarriers := by
  intro x c p ph sb t st s engine g side idx old n lanes left updated inside outside
  have as_group (group : s.cur.kind = .group) : s.groupIssues :=
    engine.resolve_right fun stream => by simp [stream.1] at group
  have count : lanes = arrivalCount s false := (arrivalCount_lanes s).symm
  refine ⟨fun ⟨low, named, distinct⟩ => ?inside, fun out => ?outside, fun group => ?tile⟩
  case tile =>
    obtain ⟨named, absent⟩ := twait_goes_or_waits (as_group group) t st
    exact ⟨named, fun unnamed _ => absent unnamed⟩
  case outside =>
    refine ⟨fun group free => ?init, fun free => ?exp⟩
    case init => rw [exec_txinit_group (as_group group), txOp_outside engine (fun _ => free) out]
    case exp => rw [exec_txexp_txOp, txOp_outside engine free out]
  case inside =>
    refine ⟨fun group free => ⟨fun _ most => ?init, fun bad => ?initBad⟩, fun free => ⟨?exp, ?expOne, ?expLanes⟩,
      fun free => ⟨?one, ?lanes⟩, txBar_txTest named distinct,
      fun group free => txtest_joins (as_group group) low named p ph sb free,
      fun group free => txwait_goes_or_waits (as_group group) x ph low named free⟩
    case init =>
      rw [exec_txinit_group (as_group group)]
      exact txOp_updates engine (fun _ => free) low named (by rw [decide_eq_false (by omega)]; rfl) distinct
        (fits_txinit most)
    case initBad =>
      rw [exec_txinit_group (as_group group)]
      exact txOp_fails engine (fun _ => free) low named (by rw [decide_eq_true bad, firstFail])
    case exp => exact txexp_updates c engine low named distinct free
    case expOne =>
      rw [← arrivals_one s]
      exact txarvExp_updates c engine low named distinct true free
    case expLanes =>
      rw [count]
      exact txarvExp_updates c engine low named distinct false free
    case one =>
      rw [← arrivals_one s]
      exact txarv_updates c engine low named distinct true free
    case lanes =>
      rw [count]
      exact txarv_updates c engine low named distinct false free

end Sys2Proof.Proofs
end

section
/-!
SUPPORT. Barrier units (R425, R426) and site routers (R389 to R394), and the statement about their events.
-/
namespace Sys2Proof.Proofs
open Sys2Proof.Machine Sys2Proof.Laws

/-! ## Barrier units (R425) -/

/-- The key under which a unit counts an arrival, and who has arrived: an isle, or a block. -/
def arrivalEntry (s : State) (p : Packet) : Nat × Nat :=
  if 1000 ≤ p.aux.getD 2 0 then (p.aux.getD 1 0 + 272, p.aux.getD 2 0 - 1000)
  else if (s.gang (p.aux.headD 0)).field 540 1 = 1 then ((1 + p.disle) * 16 + p.aux.getD 1 0, p.aux.getD 2 0)
  else (p.aux.getD 1 0, p.aux.getD 2 0)

theorem arrivalEntry_eq (s : State) (p : Packet) : arrivalEntry s p =
    if 1000 ≤ p.aux.getD 2 0 then (barKey (p.aux.getD 1 0) 17, p.aux.getD 2 0 - 1000)
    else if s.deviceWide (p.aux.headD 0) then (barKey (p.aux.getD 1 0) (1 + p.disle), p.aux.getD 2 0)
    else (barKey (p.aux.getD 1 0) 0, p.aux.getD 2 0) := by
  simp [arrivalEntry, barKey, State.deviceWide, Nat.add_comm]

section
variable {s : State} {isle unit : Nat} {p : Packet} (takes : s.takesPacket isle unit 0x30 p)
include takes

/-- The level and the arriver of an arrival, recorded under the gang (R425). -/
theorem barArrival_counts (arrival : p.aux.getD 3 0 = 0) : exec (.barArrival isle unit) s =
    let e := arrivalEntry s p
    .next (((s.popUnit isle unit p).setArrived (p.aux.headD 0) e.1 (s.arrivedAt (p.aux.headD 0) e.1 ++ [e.2])).unitCheck
      (p.aux.headD 0) (p.aux.getD 1 0)) := by
  rw [exec_barArrival, execBarArrival, takes]
  dsimp only
  rw [if_pos arrival, onPacket_next takes, arrivalEntry_eq]
  rfl

/-- A release goes on to an isle's blocks, completes at its block, or finds none. -/
theorem barRelease_goes (release : p.aux.getD 3 0 = 1) : exec (.barRelease isle unit) s = .next
    (if 1000 ≤ p.aux.getD 2 0 then
      (s.popUnit isle unit p).releaseBlocks (p.aux.headD 0) (p.aux.getD 1 0) p.disle false
    else (((s.popUnit isle unit p).gang (p.aux.headD 0)).blocks.find? (fun b =>
        ((s.popUnit isle unit p).blk b).num == p.aux.getD 2 0 && ((s.popUnit isle unit p).blk b).live) |>.map
      fun b => (s.popUnit isle unit p).gbarComplete b (p.aux.getD 1 0)).getD (s.popUnit isle unit p)) := by
  rw [exec_barRelease, execBarRelease, takes]
  dsimp only
  rw [if_pos release, onPacket_next takes]
  refine congrArg _ (if_congr Iff.rfl rfl ?_)
  split
  · next found => rw [found]; rfl
  · next absent => rw [absent]; rfl

end

/-! ## Slew windows (R426) -/

/-- Admitting the cores of a list admits them and no other. -/
theorem core_admitted (l : List Nat) (s : State) (c : Nat) :
    (l.foldl (fun (s : State) c => s.updCore c fun x => { x with admitted := true }) s).core c =
      if c ∈ l then { s.core c with admitted := true } else s.core c := by
  induction l generalizing s with
  | nil => rfl
  | cons a l ih =>
    rw [List.foldl_cons, ih, core_updCore]
    by_cases same : c = a
    · subst same
      simp
    · simp [same]

/-- The state in which the cores of a list have been admitted. -/
def admitted (s : State) (l : List Nat) : State :=
  l.foldl (fun (s : State) c => s.updCore c fun x => { x with admitted := true })
    { s with timers := place s.timers 5500 (s.bclk + 1) }

theorem slewWindow_admits {s : State} (due : s.slewDue = true) :
    let l := (s.slewOrder (s.disp.slewGang.getD 0)).take s.disp.slewa
    ∃ t, exec .slewWindow s = .next t ∧ t.cores = (admitted s l).cores ∧
      ∀ c, l.getLast? = some c → t.disp.slewptr = (c + 1) % 256 := by
  intro l
  rw [exec_slewWindow, execSlewWindow, if_pos due]
  refine ⟨_, rfl, ?_, ?_⟩
  · split <;> rfl
  · intro c last
    rw [show ((s.slewOrder (s.disp.slewGang.getD 0)).take s.disp.slewa).getLast? = some c from last]
    rfl

/-! ## Arbitration (R389, R392) -/

/-- What a choice among candidates leaves: memory, the base clock, the links and the slots. -/
structure SameLinks (s t : State) : Prop where
  mem : t.mem = s.mem
  bclk : t.bclk = s.bclk
  links : t.mesh.links = s.mesh.links
  slot : t.mesh.slot = s.mesh.slot

namespace SameLinks

variable {s t u : State}

theorem refl (s : State) : SameLinks s s := ⟨rfl, rfl, rfl, rfl⟩

theorem trans (h : SameLinks s t) (k : SameLinks t u) : SameLinks s u :=
  ⟨k.mem.trans h.mem, k.bclk.trans h.bclk, k.links.trans h.links, k.slot.trans h.slot⟩

end SameLinks

theorem sameLinks_choose (s : State) (isle port : Nat) (l : List Candidate) :
    SameLinks s (s.choose isle port l).1 := by
  have round : SameLinks s (s.newRound isle port) := ⟨rfl, rfl, rfl, rfl⟩
  unfold State.choose
  split
  · exact .refl s
  · dsimp only
    have funded (p : Candidate → Bool) : SameLinks s (if l.any p then s else s.newRound isle port) := by
      split
      · exact .refl s
      · exact round
    split
    · exact funded _
    · split
      · exact funded _
      · exact (funded _).trans ⟨rfl, rfl, rfl, rfl⟩

theorem sameLinks_ageHeads (s : State) (isle : Nat) (l : List Candidate) :
    SameLinks s (l.foldl (fun (s : State) x => s.ageHead isle x) s) :=
  List.foldlRecOn l _ (.refl s) fun _ h _ _ => h.trans ⟨rfl, rfl, rfl, rfl⟩

theorem mem_depart (s : State) (isle port : Nat) (c : Candidate) : (s.depart isle port c).mem = s.mem := rfl

theorem links_depart (s : State) (isle port : Nat) (c : Candidate) : (s.depart isle port c).mesh.links = s.mesh.links ++
    [if port = 4 then ⟨s.bclk + 1, isle, none, c.pkt⟩
      else ⟨s.bclk + 2, neighbour isle port, some (farInput port), c.pkt⟩] := rfl

theorem slot_depart (s : State) (isle port : Nat) (c : Candidate) :
    look 0 (s.depart isle port c).mesh.slot (isle * 5 + port) = s.freeSlot isle port + 1 + c.pkt.dlen := by
  rw [Nat.add_assoc]
  exact look_place_self ..

/-- A chosen packet is on its way, and its flits have taken their slots. -/
theorem arbitrationCycle_departs {s u : State} {isle port : Nat} {c : Candidate}
    (arbitrates : s.arbitrates isle port = true)
    (chosen : s.choose isle port (s.candidates isle port) = (u, some c)) :
    ∃ t, exec (.arbitrationCycle isle port) s = .next t ∧ t.mem = s.mem ∧
      t.mesh.links = s.mesh.links ++ [if port = 4 then ⟨s.bclk + 1, isle, none, c.pkt⟩
        else ⟨s.bclk + 2, neighbour isle port, some (farInput port), c.pkt⟩] ∧
      look 0 t.mesh.slot (isle * 5 + port) = s.freeSlot isle port + 1 + c.pkt.dlen := by
  rw [exec_arbitrationCycle, execArbitrationCycle, if_pos arbitrates]
  dsimp only
  rw [chosen]
  have same : SameLinks s u := by
    have kept := sameLinks_choose s isle port (s.candidates isle port)
    rwa [chosen] at kept
  have aged := same.trans (sameLinks_ageHeads u isle ((s.candidates isle port).filter fun x => x != c))
  refine ⟨_, rfl, ?mem, ?links, ?slot⟩
  case mem => rw [mem_depart, aged.mem]
  case links => rw [links_depart, aged.links, aged.bclk]
  case slot => rw [slot_depart, State.freeSlot, aged.slot, aged.bclk, State.freeSlot]

/-! ## Arrivals (R389, R393, R394) -/

/-- Whether an error lies in a flit of a packet. -/
def inFlitOf (p : Packet) : ErrAt → Bool
  | .flit tag j => tag == p.tag && decide (j ≤ p.dlen)
  | _ => false

/-- The sectors that an error in a flit of a packet marks. -/
def marksOf (p : Packet) : ErrAt → Nat
  | .flit _ j => p.flitMarks j
  | _ => 0

theorem testBit_foldl_marks (p : Packet) (l : List ErrAt) (n i : Nat) :
    ((l.filter (inFlitOf p)).foldl (fun n e => n ||| marksOf p e) n).testBit i =
      (n.testBit i || l.any fun e => inFlitOf p e && (marksOf p e).testBit i) := by
  induction l generalizing n with
  | nil => simp
  | cons e l ih =>
    rw [List.filter_cons, List.any_cons]
    cases hit : inFlitOf p e with
    | false => simpa using ih n
    | true => simp [ih, Bool.or_assoc]

/-- What the flits of a packet with uncorrectable errors leave: the other errors, and the packet with its marks. -/
theorem markFlits_eq (s : State) (p : Packet) : s.markFlits p = if s.errs.isEmpty then (s, p) else
    ({ s with errs := s.errs.filter fun e => !inFlitOf p e },
      { p with poison := (s.errs.filter (inFlitOf p)).foldl (fun n e => n ||| marksOf p e) p.poison }) := by
  refine if_congr Iff.rfl rfl (Prod.ext (congrArg (fun l => { s with errs := l }) ?rest)
    (congrArg (fun n => { p with poison := n }) ?marks))
  case rest => exact List.filter_congr fun e _ => by cases e <;> rfl
  case marks =>
    refine (List.foldl_ext _ _ _ fun n e _ => ?mark).trans (congrArg _ (List.filter_congr fun e _ => ?hit))
    case mark => cases e <;> simp [marksOf]
    case hit => cases e <;> rfl

theorem poison_markFlits (s : State) (p : Packet) (i : Nat) : (s.markFlits p).2.poison.testBit i =
    (p.poison.testBit i || s.errs.any fun e => inFlitOf p e && (marksOf p e).testBit i) := by
  rw [markFlits_eq]
  split
  · next none => simp [List.isEmpty_iff.mp none]
  · exact testBit_foldl_marks p s.errs p.poison i

/-- Marks change a packet's poison alone. -/
theorem packet_markFlits (s : State) (p : Packet) :
    (s.markFlits p).2 = { p with poison := (s.markFlits p).2.poison } := by
  rw [markFlits_eq]
  split <;> rfl

theorem bclk_markFlits (s : State) (p : Packet) : (s.markFlits p).1.bclk = s.bclk := by
  rw [markFlits_eq]
  split <;> rfl

section
variable (s : State) {f : Flying}

theorem enter_unit (unit : f.input = none) : s.enter f = s.toUnit f.isle f.pkt.dunit f.pkt s.bclk := by
  simp only [State.enter, unit]

variable {i : Nat} (router : f.input = some i)
include router

theorem enter_wrongChannel (wrong : channelOf f.pkt.typ ≠ f.pkt.vc) : s.enter f = s.logEvent := by
  simp only [State.enter, router, if_pos wrong]

theorem enter_router (own : channelOf f.pkt.typ = f.pkt.vc) : s.enter f = s.updMesh fun m => { m with
    inputs := place m.inputs (inKey f.isle i f.pkt.vc)
      (look [] m.inputs (inKey f.isle i f.pkt.vc) ++ [{ f.pkt with elig := s.bclk + 1, age := 0 }]) } := by
  simp only [State.enter, router, if_neg (not_not.mpr own)]

end

/-- A packet that arrives enters its buffer with its marks. -/
theorem packetArrival_enters {s : State} {k : Nat} {f : Flying} (flies : s.mesh.links[k]? = some f)
    (arrives : s.arrives k = true) : exec (.packetArrival k) s =
      let landed := (s.updMesh fun m => { m with links := m.links.eraseIdx k }).markFlits f.pkt
      .next (landed.1.enter { f with pkt := landed.2 }) := by
  rw [exec_packetArrival, execPacketArrival, flies]
  dsimp only
  rw [if_pos arrives]

/-! ## STOP and GO (R391) -/

theorem stopSignal_signals {s : State} {isle input vc : Nat} (silent : s.signalsStop (stopKey isle input vc) = false)
    (full : 72 ≤ s.bufferFlits isle input vc) : exec (.stopSignal isle input vc) s = .next (s.updMesh fun m => { m with
      stops := place m.stops (stopKey isle input vc)
        (((look [] m.stops (stopKey isle input vc)).filter fun e => decide (s.bclk < e.2)) ++
          [(s.bclk + 2, 0)]) }) := by
  rw [exec_stopSignal, execStopSignal, if_pos (by simp [State.stopDue, silent, full])]
  rfl

theorem goSignal_signals {s : State} {isle input vc : Nat} (stopped : s.signalsStop (stopKey isle input vc) = true)
    (drained : s.bufferFlits isle input vc ≤ 64) : exec (.goSignal isle input vc) s = .next (s.updMesh fun m => { m with
      stops := place m.stops (stopKey isle input vc)
        ((look [] m.stops (stopKey isle input vc)).map fun e => if e.2 = 0 then (e.1, s.bclk + 2) else e) }) := by
  rw [exec_goSignal, execGoSignal, if_pos (by simp [State.goDue, stopped, drained])]

/-- Settles O46: each event is one step under its condition; the marks of a packet are those of the errors in its
flits. -/
theorem barrierUnitsAndRouters : Obligations.BarrierUnitsAndRouters := by
  intro isle unit port input vc k p f s s1 gang g from_ e sk
  refine ⟨fun takes arrival => ?arrives, fun takes release => ?releases, fun due => ?slew,
    fun u c arbitrates chosen => arbitrationCycle_departs arbitrates chosen, fun flies arrives => ?lands,
    stopSignal_signals, goSignal_signals⟩
  case arrives =>
    rw [barArrival_counts takes arrival]
    rfl
  case releases =>
    rw [barRelease_goes takes release]
    refine ⟨fun isles => by rw [if_pos isles], fun b blocks found => ?_, fun blocks absent => ?_⟩
    · have there : ((s1.gang gang).blocks.find? fun b => (s1.blk b).num == from_ && (s1.blk b).live) = some b := found
      rw [if_neg (Nat.not_le.mpr blocks), there]
      rfl
    · have nowhere : ((s1.gang gang).blocks.find? fun b => (s1.blk b).num == from_ && (s1.blk b).live) = none := absent
      rw [if_neg (Nat.not_le.mpr blocks), nowhere]
      rfl
  case slew =>
    obtain ⟨t, runs, cores, pointer⟩ := slewWindow_admits due
    have core (c : Nat) := (congrArg (look Core.reset · c) cores).trans (core_admitted _ _ c)
    exact ⟨t, runs, fun c mem => by rw [State.core, core, if_pos mem],
      fun c absent => by rw [State.core, core, if_neg absent]; rfl, pointer⟩
  case lands =>
    intro landed s2
    rw [packetArrival_enters flies arrives]
    have packet := packet_markFlits (s.updMesh fun m => { m with links := m.links.eraseIdx k }) f.pkt
    have typ : landed.2.typ = f.pkt.typ := congrArg (·.typ) packet
    have channel : landed.2.vc = f.pkt.vc := congrArg (·.vc) packet
    have dunit : landed.2.dunit = f.pkt.dunit := congrArg (·.dunit) packet
    have bclk : s2.bclk = s.bclk := bclk_markFlits _ _
    refine ⟨fun i => (poison_markFlits _ _ i).trans ?_, fun unit => ?_,
      fun i router => ⟨fun wrong => ?_, fun own => ?_⟩⟩
    · exact congrArg _ (congrArg (s.errs.any ·) (funext fun e => by cases e <;> rfl))
    · rw [← dunit, ← bclk]
      exact congrArg _ (enter_unit s2 (f := { f with pkt := landed.2 }) unit)
    · rw [← typ, ← channel] at wrong
      exact congrArg _ (enter_wrongChannel s2 (f := { f with pkt := landed.2 }) router wrong)
    · rw [← typ, ← channel] at own
      rw [← bclk, ← channel]
      exact congrArg _ (enter_router s2 (f := { f with pkt := landed.2 }) router own)

end Sys2Proof.Proofs
end

section
/-!
SUPPORT. Engine instructions that hand something over (R294, R296, R348): when they act, where they leave their issuer,
and what tiles, array operations and packets leave alone.
-/
namespace Sys2Proof.Proofs
open Sys2Proof.Machine Sys2Proof.Laws

/-! ## Who may issue, and the checks (R294, R296, R348) -/

section
variable {s : State}

theorem asGroup_stream {k : Machine.Group → Result} (stream : s.cur.kind = .stream) :
    asGroup s k = .next (s.fail (Fail.illegal 4)) := by simp only [asGroup, stream]

theorem streamOp_stream {k : Result} (stream : s.cur.kind = .stream) : streamOp s k = k := by
  simp only [streamOp, stream]

theorem streamOp_group {k : Result} (group : s.cur.kind = .group) : streamOp s k = .next (s.fail (Fail.illegal 4)) := by
  simp only [streamOp, group]

theorem engRegsFree_stream {rd wr : List Reg} (stream : s.cur.kind = .stream) : s.engRegsFree rd wr :=
  fun group => by simp [stream] at group

theorem engRegsFree_nil : s.engRegsFree [] [] := fun _ => regsFree_nil

end

/-- Checks that all pass have no first failure. -/
theorem firstFail_none {checks : List (Bool × Fail)} (pass : ∀ e ∈ checks, e.1 = false) : firstFail checks = none := by
  induction checks with
  | nil => rfl
  | cons e l ih =>
    obtain ⟨passes, later⟩ := List.forall_mem_cons.mp pass
    obtain ⟨fails, f⟩ := e
    obtain rfl : fails = false := passes
    exact ih later

section
variable {s : State} {ready slotBad hiBad : Bool} {rd wr : List Reg} {checks : List (Bool × Fail)} {act : State → State}
  (engine : s.engineIssues) (free : s.engRegsFree rd wr)
include engine free

/-- An engine instruction acts where it may issue and its checks pass. -/
theorem engineOp_runs (is_ready : ready = true) (slots : slotBad = false) (mode : hiBad = false)
    (pass : ∀ e ∈ checks, e.1 = false) :
    engineOp s ready slotBad hiBad rd wr checks act = .next (act s).finish := by
  subst is_ready slots mode
  exact engineOp_acts engine free (firstFail_none pass)

/-- An engine instruction that may issue fails by the first of its checks that does not pass. -/
theorem engineOp_refuses {e : Fail} (is_ready : ready = true) (slots : slotBad = false) (mode : hiBad = false)
    (fails : firstFail checks = some e) : engineOp s ready slotBad hiBad rd wr checks act = .next (s.fail e) := by
  subst is_ready slots mode
  exact engineOp_fails engine free fails

end

section
variable {s : State} (stream : s.cur.kind = .stream)
include stream

theorem engBlk_stream : s.engBlk = s.cur.blk := by simp only [State.engBlk, stream]

theorem engSide_stream (hi : Bool) : s.engSide hi = if hi then 1 else 0 := by simp only [State.engSide, stream]

end

/-- The block of an engine instruction's issuer exists. -/
theorem engBlk_lt {s : State} (engine : s.engineIssues) : s.engBlk < s.blocks.length := by
  rcases engine with ⟨group, -, stands⟩ | ⟨stream, stands⟩
  · rwa [engBlk_group group]
  · rwa [engBlk_stream stream]

/-! ## What leaves the issuer alone -/

/-- The issuer, memory, the groups and the sequencers are what they were. -/
structure KeepsIssuer (s t : State) : Prop where
  cur : t.cur = s.cur
  mem : t.mem = s.mem
  groups : t.groups = s.groups
  blocks : t.blocks.length = s.blocks.length
  seq : ∀ b, (t.blk b).seq = (s.blk b).seq

/-- A changed block, whether it exists or not. -/
theorem blk_updBlk (s : State) (b k : Nat) (f : Block → Block) :
    (s.updBlk b f).blk k = if b = k ∧ k < s.blocks.length then f (s.blk k) else s.blk k := by
  by_cases same : b = k
  · subst same
    by_cases stands : b < s.blocks.length
    · rw [blk_updBlk_self s b f stands, if_pos ⟨rfl, stands⟩]
    · rw [if_neg fun h => stands h.2]
      simp [State.blk, stands]
  · rw [blk_updBlk_ne s b k f same, if_neg fun h => same h.1]

/-- What a change of a block leaves of each block, a block has after the change. -/
theorem blk_updBlk_keeps {α : Type} (p : Block → α) (s : State) (b : Nat) {f : Block → Block} (keeps : ∀ x, p (f x) = p x)
    (k : Nat) : p ((s.updBlk b f).blk k) = p (s.blk k) := by
  rw [blk_updBlk]
  split
  · exact keeps _
  · rfl

namespace KeepsIssuer

variable {s t u : State}

theorem refl (s : State) : KeepsIssuer s s := ⟨rfl, rfl, rfl, rfl, fun _ => rfl⟩

theorem trans (h : KeepsIssuer s t) (k : KeepsIssuer t u) : KeepsIssuer s u :=
  ⟨k.cur.trans h.cur, k.mem.trans h.mem, k.groups.trans h.groups, k.blocks.trans h.blocks,
    fun b => (k.seq b).trans (h.seq b)⟩

theorem of_sameWork (same : SameWork s t) (cur : t.cur = s.cur) : KeepsIssuer s t :=
  ⟨cur, same.mem, same.groups, congrArg List.length same.blocks, fun b => by rw [blk_of_blocks same.blocks b]⟩

theorem updBlk (s : State) (b : Nat) {f : Block → Block} (keeps : ∀ x, (f x).seq = x.seq) : KeepsIssuer s (s.updBlk b f) :=
  ⟨rfl, rfl, rfl, List.length_modify .., blk_updBlk_keeps Block.seq s b keeps⟩

theorem updTile (s : State) (b side k : Nat) (f : Tile → Tile) : KeepsIssuer s (s.updTile b side k f) :=
  updBlk s b fun _ => rfl

theorem updCore (s : State) (c : Nat) (f : Core → Core) : KeepsIssuer s (s.updCore c f) :=
  of_sameWork (sameWork_updCore s c f) rfl

theorem addMat (s : State) (m : MatOp) : KeepsIssuer s (s.addMat m) := of_sameWork ⟨rfl, rfl, rfl, rfl⟩ rfl

end KeepsIssuer

/-! ## The issuer afterwards (R67, R163, R295) -/

/-- The end of an instruction changes of a block the sequencer at most, and not what it waits for. -/
theorem blk_finish (s : State) (b : Nat) :
    ∃ q, s.finish.blk b = { s.blk b with seq := q } ∧ q.waitBar = (s.blk b).seq.waitBar := by
  have passes (q : Seq) : (q.pass s.cur).waitBar = q.waitBar := by
    unfold Seq.pass
    split <;> rfl
  unfold State.finish
  split
  · rw [blk_updBlk]
    split
    · exact ⟨_, rfl, passes _⟩
    · exact ⟨_, rfl, rfl⟩
  · exact ⟨_, rfl, rfl⟩

theorem tile_finish (s : State) (b side k : Nat) : (s.finish.blk b).tile side k = (s.blk b).tile side k := by
  obtain ⟨q, ended, -⟩ := blk_finish s b
  rw [ended]
  rfl

theorem core_finish (s : State) (c : Nat) : s.finish.core c = s.core c := by rw [State.core, finish_cores, State.core]

theorem countGrp_group {s : State} (group : s.cur.kind = .group) (sb : Nat) :
    s.countGrp sb = s.updGrp s.cur.grp fun g => g.incCounter sb := by simp only [State.countGrp, group]

theorem countGrp_stream {s : State} (stream : s.cur.kind = .stream) (sb : Nat) : s.countGrp sb = s := by
  simp only [State.countGrp, stream]

theorem cur_countGrp (s : State) (sb : Nat) : (s.countGrp sb).cur = s.cur := by
  unfold State.countGrp
  split <;> rfl

theorem blocks_countGrp (s : State) (sb : Nat) : (s.countGrp sb).blocks = s.blocks := by
  unfold State.countGrp
  split <;> rfl

/-- A sequencer that has moved on, whatever else of the machine is different. -/
theorem went_finish_stream {s t : State} (streams : s.streamIssues) (cur : t.cur = s.cur)
    (blocks : t.blocks.length = s.blocks.length) (seq : (t.blk s.cur.blk).seq.off = (s.blk s.cur.blk).seq.off) :
    s.went t.finish := by
  obtain ⟨stream, stands⟩ := streams
  refine ⟨fun group => by simp [stream] at group, fun _ => ?_⟩
  have kind : t.cur.kind = .stream := by rw [cur, stream]
  simp only [State.finish, kind]
  rw [cur, blk_updBlk_self t _ _ (by rwa [blocks])]
  dsimp only
  rw [Seq.pass, ← seq]
  split <;> exact ⟨rfl, rfl⟩

/-- An issuer whose counter has been raised moves on. -/
theorem left_finish {s t : State} (engine : s.engineIssues) {sb : Nat} (keeps : KeepsIssuer (s.countGrp sb) t) :
    Left s sb t.finish := by
  have cur := keeps.cur.trans (cur_countGrp s sb)
  rcases engine with ⟨group, exists_, -⟩ | streams
  · have not_stream : s.cur.kind ≠ .stream := by simp [group]
    have mem : t.finish.mem = s.mem := by rw [finish_mem, keeps.mem, countGrp_group group]; rfl
    have counted : t.finish.grp s.cur.grp =
        ((s.grp s.cur.grp).incCounter sb).updFibs s.cur.lanes fun _ f => f.pass s.cur := by
      rw [finish_of_group (by rw [cur, group]), cur,
        grp_updGrp_self _ _ _ (by rw [keeps.groups, countGrp_group group]; simpa using exists_),
        grp_of_groups keeps.groups, countGrp_group group, grp_updGrp_self _ _ _ exists_]
    refine ⟨⟨fun _ i hi active => ?_, fun stream => absurd stream not_stream⟩, mem, fun _ => by rw [counted]; rfl⟩
    rw [counted, fib_updFibs _ _ _ (by simpa using hi), if_pos active, pass_pc]
  · have stream := streams.1
    rw [countGrp_stream stream] at keeps
    exact ⟨went_finish_stream streams keeps.cur keeps.blocks (by rw [keeps.seq]), (finish_mem t).trans keeps.mem,
      fun group => by simp [stream] at group⟩

/-- An operation of the issuing group that joins the pipeline raises its counter. -/
theorem keepsIssuer_addOp {s t : State} (keeps : KeepsIssuer s t) (group : s.cur.kind = .group) {o : Op}
    {sb : Nat} (own : o.grp = s.cur.grp) (counts : o.sb = sb) : KeepsIssuer (s.countGrp sb) (t.addOp o) := by
  subst counts
  rw [countGrp_group group]
  refine ⟨keeps.cur, keeps.mem, ?_, keeps.blocks, keeps.seq⟩
  change t.groups.modify o.grp _ = s.groups.modify s.cur.grp _
  rw [own, keeps.groups]

/-- An effect at once is counted in a group's counter. -/
theorem keepsIssuer_countNow {s t : State} (engine : s.engineIssues) (keeps : KeepsIssuer s t) (sb : Nat) :
    KeepsIssuer (s.countGrp sb) (t.countNow sb) := by
  rcases engine with ⟨group, -⟩ | ⟨stream, -⟩
  · have kind : t.cur.kind = .group := by rw [keeps.cur, group]
    simp only [State.countNow, kind]
    exact keepsIssuer_addOp keeps group (congrArg Issue.grp keeps.cur) rfl
  · have kind : t.cur.kind = .stream := by rw [keeps.cur, stream]
    simpa only [State.countNow, kind, countGrp_stream stream] using keeps

theorem blocks_countNow (s : State) (sb : Nat) : (s.countNow sb).blocks = s.blocks := by
  unfold State.countNow
  split <;> rfl

theorem cores_countNow (s : State) (sb : Nat) : (s.countNow sb).cores = s.cores := by
  unfold State.countNow
  split <;> rfl

/-! ## Tiles (R70) -/

/-- A tile after a change of one: two names of an entry are one entry. -/
theorem tile_updTile (s : State) {b : Nat} (stands : b < s.blocks.length) (side k side' k' : Nat) (f : Tile → Tile) :
    ((s.updTile b side k f).blk b).tile side' k' =
      if side * 64 + k = side' * 64 + k' then f ((s.blk b).tile side' k') else (s.blk b).tile side' k' := by
  rw [State.updTile, blk_updBlk_self s b _ stands]
  split
  · next same =>
    simp only [Block.tile, Block.updTile, same, look_place_self]
  · next apart => exact look_place_ne _ _ _ _ _ apart

theorem tile_updTile_self (s : State) {b : Nat} (stands : b < s.blocks.length) (side k : Nat) (f : Tile → Tile) :
    ((s.updTile b side k f).blk b).tile side k = f ((s.blk b).tile side k) := by
  rw [tile_updTile s stands, if_pos rfl]

/-! ## Array operations (R301) -/

/-- An operation as it joins the array: numbered, and with the instruction and the group that it comes from. -/
def numbered (s : State) (m : MatOp) : MatOp :=
  { m with id := s.fresh, iaddr := s.iaddr, grp := if s.cur.kind = .group then some s.cur.grp else none }

section
variable (s : State) {m : MatOp} (own : m.cmd = none)
include own

/-- An operation of an instruction stands last in the queue of its core. -/
theorem mq_addMat (c : Nat) : ((s.addMat m).core c).mq =
    if c = (s.blk m.blk).coreAt m.side then (s.core c).mq ++ [numbered s m] else (s.core c).mq := by
  rw [State.addMat]
  simp only [own, Option.isSome_none, Bool.false_eq_true, if_false]
  rw [core_updCore]
  split
  · next same =>
    subst same
    split <;> simp [numbered, Core.markBusy, State.took, State.core, own]
  · rfl

theorem mem_mq_addMat : numbered s m ∈ ((s.addMat m).core ((s.blk m.blk).coreAt m.side)).mq := by
  rw [mq_addMat s own, if_pos rfl]
  exact List.mem_append_right _ List.mem_cons_self

end

end Sys2Proof.Proofs
end

section
/-!
SUPPORT. Matrix multiplications join the array (R301, R302), and the statement about them.
-/
namespace Sys2Proof.Proofs
open Sys2Proof.Machine Sys2Proof.Laws

/-! ## Operations and reads that stay (R116, R117) -/

/-- A tile of the same rows, of which no read has completed and no wait to become EMPTY has ended. -/
structure StillRead (x y : Tile) : Prop where
  rows : y.rows = x.rows
  reads : x.reads ≤ y.reads
  goal : 0 < x.reads → x.goal = some 0 → y.goal = some 0

theorem StillRead.refl (x : Tile) : StillRead x x := ⟨rfl, le_rfl, fun _ h => h⟩

theorem StillRead.trans {x y z : Tile} (h : StillRead x y) (k : StillRead y z) : StillRead x z :=
  ⟨k.rows.trans h.rows, h.reads.trans k.reads,
    fun some_read waits => k.goal (some_read.trans_le h.reads) (h.goal some_read waits)⟩

/-- A tile with one more read pending. -/
def readOnce (x : Tile) : Tile := { x with reads := x.reads + 1 }

theorem stillRead_readOnce (x : Tile) : StillRead x (readOnce x) := ⟨rfl, Nat.le_succ _, fun _ h => h⟩

theorem goal_toward_of_reads {x : Tile} (some_read : 0 < x.reads) (st : Nat) :
    x.toward st = { x with goal := some st } := if_neg some_read.ne'

theorem stillRead_toward (x : Tile) : StillRead x (x.toward 0) := by
  rcases Nat.eq_zero_or_pos x.reads with none_left | some_read
  · exact ⟨by rw [Tile.toward, if_pos none_left], by rw [Tile.toward, if_pos none_left], fun h => absurd none_left h.ne'⟩
  · rw [goal_toward_of_reads some_read]
    exact ⟨rfl, le_rfl, fun _ _ => rfl⟩

/-- The issuer is left alone, block `b` stays where it is with its reads pending, and no array operation leaves a queue. -/
structure GoesOn (b : Nat) (s t : State) : Prop extends KeepsIssuer s t where
  coreAt : (t.blk b).coreAt = (s.blk b).coreAt
  accFirst : (t.blk b).accFirst = (s.blk b).accFirst
  tile : ∀ side k, StillRead ((s.blk b).tile side k) ((t.blk b).tile side k)
  mq : ∀ c, (s.core c).mq ⊆ (t.core c).mq

namespace GoesOn

variable {b : Nat} {s t u : State}

theorem refl (s : State) : GoesOn b s s := ⟨.refl s, rfl, rfl, fun _ _ => .refl _, fun _ => List.Subset.refl _⟩

theorem trans (h : GoesOn b s t) (k : GoesOn b t u) : GoesOn b s u :=
  ⟨h.toKeepsIssuer.trans k.toKeepsIssuer, k.coreAt.trans h.coreAt, k.accFirst.trans h.accFirst,
    fun side i => (h.tile side i).trans (k.tile side i), fun c => List.Subset.trans (h.mq c) (k.mq c)⟩

theorem addMat (s : State) {m : MatOp} (own : m.cmd = none) : GoesOn b s (s.addMat m) := by
  refine ⟨.addMat s m, rfl, rfl, fun _ _ => .refl _, fun c => ?_⟩
  rw [mq_addMat s own]
  split
  · exact List.subset_append_left _ _
  · exact List.Subset.refl _

theorem updTile (s : State) (side k : Nat) {f : Tile → Tile} (keeps : ∀ x, StillRead x (f x)) :
    GoesOn b s (s.updTile b side k f) := by
  have kept {α : Type} (p : Block → α) (h : ∀ x, p (x.updTile side k f) = p x) :
      p ((s.updTile b side k f).blk b) = p (s.blk b) := blk_updBlk_keeps p s b h b
  refine ⟨.updTile s b side k f, kept Block.coreAt fun _ => rfl, kept Block.accFirst fun _ => rfl, fun side' k' => ?_,
    fun _ => List.Subset.refl _⟩
  by_cases stands : b < s.blocks.length
  · rw [tile_updTile s stands]
    split
    · exact keeps _
    · exact .refl _
  · rw [State.updTile, blk_updBlk, if_neg fun h => stands h.2]
    exact .refl _

/-- What each step of a loop brings about, and all of them keep, holds after the loop of every one of its items. -/
theorem foldl {f : State → Nat → State} {Q : State → Nat → Prop} (keeps : ∀ {u v a}, GoesOn b u v → Q u a → Q v a)
    {l : List Nat} (step : ∀ u, GoesOn b s u → ∀ a ∈ l, GoesOn b u (f u a) ∧ Q (f u a) a) :
    GoesOn b s (l.foldl f s) ∧ ∀ a ∈ l, Q (l.foldl f s) a := by
  induction l generalizing s with
  | nil => exact ⟨.refl s, by simp⟩
  | cons a l ih =>
    obtain ⟨first, done⟩ := step s (.refl s) a List.mem_cons_self
    obtain ⟨rest, all⟩ := ih fun u h i mem => step u (first.trans h) i (List.mem_cons_of_mem a mem)
    exact ⟨first.trans rest, List.forall_mem_cons.mpr ⟨keeps rest done, all⟩⟩

end GoesOn

/-! ## One multiplication (R301, R302) -/

theorem operandReady_of_readable {s : State} {side k : Nat} (readable : (s.engBlock.tile side k).readable = true) :
    s.operandReady side k = true := by
  rw [State.operandReady, readable, Bool.or_true]

/-- Of block `b` on a side the core's array holds the operation of `kind`, on the rows from `r` on that the tile `ta` has,
and a read of both tiles is pending. -/
def MmaStands (b ta tb r : Nat) (kind : MatKind) (t : State) (side : Nat) : Prop :=
  (∃ m ∈ (t.core ((t.blk b).coreAt side)).mq, m.blk = b ∧ m.side = side ∧ m.kind = kind ∧
    m.row = (t.blk b).accFirst side + r ∧ m.rows = ((t.blk b).tile 0 ta).rowCount) ∧
  0 < ((t.blk b).tile 0 ta).reads ∧ 0 < ((t.blk b).tile side tb).reads

/-- A tile of a side waits to become EMPTY, if that has been asked for. -/
def Emptying (b k : Nat) (want : Bool) (t : State) (side : Nat) : Prop :=
  want = true → 0 < ((t.blk b).tile side k).reads ∧ ((t.blk b).tile side k).goal = some 0

section
variable {b : Nat} {s t : State} (goes : GoesOn b s t) {side : Nat}
include goes

theorem MmaStands.goesOn {ta tb r : Nat} {kind : MatKind} (h : MmaStands b ta tb r kind s side) :
    MmaStands b ta tb r kind t side := by
  obtain ⟨⟨m, mem, hm⟩, readA, readB⟩ := h
  refine ⟨⟨m, ?_, ?_⟩, readA.trans_le (goes.tile _ _).reads, readB.trans_le (goes.tile _ _).reads⟩
  · rw [goes.coreAt]
    exact goes.mq _ mem
  · rwa [goes.accFirst, Tile.rowCount, (goes.tile 0 ta).rows]

theorem Emptying.goesOn {k : Nat} {want : Bool} (h : Emptying b k want s side) : Emptying b k want t side := fun asked =>
  have ⟨some_read, waits⟩ := h asked
  ⟨some_read.trans_le (goes.tile _ _).reads, (goes.tile _ _).goal some_read waits⟩

end

theorem updTile_readOnce {b : Nat} {s : State} (stands : b < s.blocks.length) (side k : Nat) :
    GoesOn b s (s.updTile b side k readOnce) ∧ 0 < (((s.updTile b side k readOnce).blk b).tile side k).reads := by
  refine ⟨.updTile s side k stillRead_readOnce, ?_⟩
  rw [tile_updTile_self s stands]
  exact Nat.succ_pos _

section
variable {b : Nat} {s : State} (streams : s.streamIssues) (own : s.cur.blk = b) (side : Nat)
include streams own

/-- An operation joins the array on its side, and both tiles are read once more. -/
theorem issueMma_stands (ta tb r k c0 : Nat) (z ea eb pr scaled : Bool) (low : pr = false → side = 0) :
    let t := s.issueMma side ta tb r k c0 z ea eb pr scaled
    GoesOn b s t ∧ MmaStands b ta tb r (.mma ta tb k c0 z ea eb pr scaled) t side := by
  obtain ⟨stream, stands⟩ := streams
  subst own
  intro t
  have first : (if pr then 0 else side) = 0 := by cases pr <;> simp [low]
  obtain ⟨clocks, issued⟩ : ∃ clocks, t = ((s.addMat (.mk' s.cur.blk side (.mma ta tb k c0 z ea eb pr scaled)
      ((s.blk s.cur.blk).accFirst side + r) ((s.blk s.cur.blk).tile 0 ta).rowCount clocks false)).updTile s.cur.blk 0 ta
        readOnce).updTile s.cur.blk side tb readOnce := by
    unfold t
    simp only [State.issueMma, engBlk_stream stream, first]
    exact ⟨_, rfl⟩
  rw [issued]
  generalize joins : MatOp.mk' .. = m
  have fields : m.cmd = none ∧ m.blk = s.cur.blk ∧ m.side = side := by subst joins; exact ⟨rfl, rfl, rfl⟩
  obtain ⟨no_cmd, blk, at_side⟩ := fields
  obtain ⟨readA, readsA⟩ := updTile_readOnce (s := s.addMat m) stands 0 ta
  obtain ⟨readB, readsB⟩ := updTile_readOnce (by rwa [readA.blocks]) side tb
  have all := (GoesOn.addMat s no_cmd).trans (readA.trans readB)
  refine ⟨all, ⟨numbered s m, ?mem, blk, at_side, ?kind, ?row, ?rows⟩, readsA.trans_le (readB.tile 0 ta).reads, readsB⟩
  case mem =>
    rw [all.coreAt, ← blk, ← at_side]
    exact (readA.trans readB).mq _ (mem_mq_addMat s no_cmd)
  case kind => subst joins; rfl
  case row => rw [all.accFirst]; subst joins; rfl
  case rows => rw [Tile.rowCount, (all.tile 0 ta).rows]; subst joins; rfl

/-- A tile that is read waits to become EMPTY, where that is asked for. -/
theorem askEmpty_waits (k : Nat) (want : Bool) :
    GoesOn b s (s.askEmpty side k want) ∧
      (0 < ((s.blk b).tile side k).reads → Emptying b k want (s.askEmpty side k want) side) := by
  obtain ⟨stream, stands⟩ := streams
  subst own
  rw [State.askEmpty, engBlk_stream stream]
  cases want with
  | false => exact ⟨.refl s, fun _ => nofun⟩
  | true =>
    refine ⟨.updTile s side k stillRead_toward, fun some_read _ => ?_⟩
    rw [if_pos rfl, tile_updTile_self s stands, goal_toward_of_reads some_read]
    exact ⟨some_read, rfl⟩

end

/-! ## The instruction (R301, R302) -/

/-- The sides of a multiplication. -/
def mmaSides (pr : Bool) : List Nat := if pr then [0, 1] else [0]

theorem mem_mmaSides {pr : Bool} {side : Nat} : side ∈ mmaSides pr ↔ side = 0 ∨ pr = true ∧ side = 1 := by
  cases pr <;> simp [mmaSides]

/-- The state in which the operations have joined the array on each side and the tiles wait to become EMPTY. -/
def mmaIssued (ta tb r k c0 : Nat) (z ea eb pr scaled : Bool) (s : State) : State :=
  (mmaSides pr).foldl (fun s side => s.askEmpty side tb eb)
    (((mmaSides pr).foldl (fun s side => s.issueMma side ta tb r k c0 z ea eb pr scaled) s).askEmpty 0 ta ea)

theorem mmaIssued_stands {s : State} (streams : s.streamIssues) (ta tb r k c0 : Nat) (z ea eb pr scaled : Bool) :
    let t := mmaIssued ta tb r k c0 z ea eb pr scaled s
    GoesOn s.cur.blk s t ∧ ∀ side ∈ mmaSides pr,
      MmaStands s.cur.blk ta tb r (.mma ta tb k c0 z ea eb pr scaled) t side ∧
        Emptying s.cur.blk ta ea t 0 ∧ Emptying s.cur.blk tb eb t side := by
  intro t
  have later {u : State} (goes : GoesOn s.cur.blk s u) : u.streamIssues ∧ u.cur.blk = s.cur.blk := by
    simpa [State.streamIssues, goes.cur, goes.blocks] using streams
  obtain ⟨issued, stand⟩ := GoesOn.foldl (s := s) (l := mmaSides pr)
    (f := fun u side => u.issueMma side ta tb r k c0 z ea eb pr scaled)
    (Q := MmaStands s.cur.blk ta tb r (.mma ta tb k c0 z ea eb pr scaled)) (fun goes h => h.goesOn goes) fun u goes side mem =>
      issueMma_stands (later goes).1 (later goes).2 side ta tb r k c0 z ea eb pr scaled fun single => by
        simpa [mmaSides, single] using mem
  obtain ⟨asked, emptyA⟩ := askEmpty_waits (later issued).1 (later issued).2 0 ta ea
  have upTo := issued.trans asked
  obtain ⟨ends, emptyB⟩ := GoesOn.foldl (l := mmaSides pr) (f := fun u side => u.askEmpty side tb eb)
    (Q := Emptying s.cur.blk tb eb) (fun goes h => h.goesOn goes) fun u goes side mem =>
    have ⟨waits, empties⟩ := askEmpty_waits (later (upTo.trans goes)).1 (later (upTo.trans goes)).2 side tb eb
    ⟨waits, empties ((stand side mem).goesOn (asked.trans goes)).2.2⟩
  exact ⟨upTo.trans ends, fun side mem => ⟨(stand side mem).goesOn (asked.trans ends),
    (emptyA (stand side mem).2.1).goesOn ends, emptyB side mem⟩⟩

theorem exec_mmaOp (ta tb r k c0 : Nat) (z ea eb pr scaled : Bool) (s : State) :
    exec (if scaled then .mmas ta tb r k c0 z ea eb pr else .mma ta tb r k c0 z ea eb pr) s =
      mmaOp ta tb r k c0 z ea eb pr scaled s := by
  cases scaled
  · exact exec_mma ..
  · exact exec_mmas ..

/-- The operands of one side may be named and read, their slots are a legal pair, and the shape and the scales fit. -/
structure MmaFits (s : State) (ta tb r k c0 : Nat) (scaled : Bool) (side : Nat) : Prop where
  namedA : (s.blk s.cur.blk).named 0 ta = true
  namedB : (s.blk s.cur.blk).named side tb = true
  readA : ((s.blk s.cur.blk).tile 0 ta).readable = true
  readB : ((s.blk s.cur.blk).tile side tb).readable = true
  pair : pairOk scaled (s.slotFor s.cur.blk ((s.blk s.cur.blk).tile 0 ta).fslot)
    (s.slotFor s.cur.blk ((s.blk s.cur.blk).tile side tb).fslot) = true
  shape : s.mmaShape side ((s.blk s.cur.blk).tile 0 ta) ((s.blk s.cur.blk).tile side tb)
    (s.slotFor s.cur.blk ((s.blk s.cur.blk).tile 0 ta).fslot)
    (s.slotFor s.cur.blk ((s.blk s.cur.blk).tile side tb).fslot) k r c0 = true
  scalesA : s.scalesFit s.cur.blk 0 (s.slotFor s.cur.blk ((s.blk s.cur.blk).tile 0 ta).fslot)
    ((s.blk s.cur.blk).tile 0 ta) k ((s.blk s.cur.blk).tile 0 ta).rowCount = true
  scalesB : s.scalesFit s.cur.blk side (s.slotFor s.cur.blk ((s.blk s.cur.blk).tile side tb).fslot)
    ((s.blk s.cur.blk).tile side tb) k ((s.blk s.cur.blk).tile side tb).rowCount = true

/-- Whether the operands B of both sides have one shape, where both are used. -/
def equalShapes (b : Block) (tb : Nat) (pr : Bool) : Bool :=
  !pr || ((b.tile 0 tb).rows == (b.tile 1 tb).rows && (b.tile 0 tb).rowb == (b.tile 1 tb).rowb &&
    (b.tile 0 tb).fslot == (b.tile 1 tb).fslot)

section
variable {s : State} (streams : s.streamIssues) {ta tb r k c0 : Nat} {pr scaled : Bool}
  (fits : ∀ side ∈ mmaSides pr, MmaFits s ta tb r k c0 scaled side)
include streams fits

theorem mmaReady_of_fits : s.mmaReady ta tb pr = true := by
  have block : s.engBlock = s.blk s.cur.blk := by rw [State.engBlock, engBlk_stream streams.1]
  have readable (side : Nat) (mem : side ∈ mmaSides pr) : s.operandReady side tb = true :=
    operandReady_of_readable (by rw [block]; exact (fits side mem).readB)
  have lower : 0 ∈ mmaSides pr := mem_mmaSides.mpr (.inl rfl)
  rw [State.mmaReady, operandReady_of_readable (by rw [block]; exact (fits 0 lower).readA), readable 0 lower]
  cases pr with
  | false => rfl
  | true => exact readable 1 (mem_mmaSides.mpr (.inr ⟨rfl, rfl⟩))

/-- Operands that fit are not refused, and none is waited for (R71, R296, R301). -/
theorem mmaOp_issues (z ea eb : Bool) (paired : (pr && !(s.blk s.cur.blk).pair) = false)
    (equal : equalShapes (s.blk s.cur.blk) tb pr = true) :
    mmaOp ta tb r k c0 z ea eb pr scaled s = .next (mmaIssued ta tb r k c0 z ea eb pr scaled s).finish := by
  rw [mmaOp, streamOp_stream streams.1]
  dsimp only
  rw [State.engBlock, engBlk_stream streams.1]
  refine engineOp_runs (.inr streams) engRegsFree_nil (mmaReady_of_fits streams fits)
    (Bool.and_eq_false_iff.mpr (.inr (Bool.not_eq_eq_eq_not.mpr ?pairs))) paired ?checks
  case pairs => exact List.all_eq_true.mpr fun side mem => (fits side mem).pair
  case checks =>
    simp only [List.forall_mem_cons, List.not_mem_nil, false_imp_iff, implies_true, and_true]
    refine ⟨Bool.not_eq_eq_eq_not.mpr ?named,
      Bool.or_eq_false_iff.mpr ⟨Bool.not_eq_eq_eq_not.mpr equal, Bool.not_eq_eq_eq_not.mpr ?shapes⟩,
      Bool.not_eq_eq_eq_not.mpr ?scales⟩
    case named =>
      exact List.all_eq_true.mpr fun side mem => Bool.and_eq_true_iff.mpr ⟨(fits side mem).namedA, (fits side mem).namedB⟩
    case shapes => exact List.all_eq_true.mpr fun side mem => (fits side mem).shape
    case scales =>
      exact List.all_eq_true.mpr fun side mem => Bool.and_eq_true_iff.mpr ⟨(fits side mem).scalesA, (fits side mem).scalesB⟩

end

/-- Settles O28: what one side's operation brings about, the other side's and the waits to become EMPTY keep. -/
theorem matrixMultiplyIssues : Obligations.MatrixMultiplyIssues := by
  intro ta tb r k c0 z ea eb pr scaled s streams b sides wa wb paired fits equal
  have fit (side : Nat) (mem : side ∈ mmaSides pr) : MmaFits s ta tb r k c0 scaled side := by
    obtain ⟨namedA, namedB, readA, readB, pair, shape, scalesA, scalesB⟩ := fits side mem
    exact ⟨namedA, namedB, readA, readB, pair, shape, scalesA, scalesB⟩
  have shapes : equalShapes (s.blk s.cur.blk) tb pr = true := by
    cases pr with
    | false => rfl
    | true => simpa [equalShapes, and_assoc] using equal rfl
  obtain ⟨goes, stands⟩ := mmaIssued_stands streams ta tb r k c0 z ea eb pr scaled
  have keeps : KeepsIssuer (s.countGrp 0) (mmaIssued ta tb r k c0 z ea eb pr scaled s) := by
    rw [countGrp_stream streams.1]
    exact goes.toKeepsIssuer
  obtain ⟨went, mem, -⟩ := left_finish (.inr streams) keeps
  refine ⟨_, (exec_mmaOp ..).trans (mmaOp_issues streams fit z ea eb ?mode shapes), went, mem, fun side side_of => ?side⟩
  case mode =>
    cases pr with
    | false => rfl
    | true => exact Bool.not_eq_eq_eq_not.mpr (paired rfl)
  case side =>
    obtain ⟨⟨⟨m, joins, blk, at_side, kind, row, rows⟩, readsA, readsB⟩, emptyA, emptyB⟩ := stands side side_of
    rw [goes.accFirst] at row
    rw [Tile.rowCount, (goes.tile 0 ta).rows] at rows
    rw [goes.coreAt] at joins
    simp only [core_finish, tile_finish]
    exact ⟨⟨m, joins, blk, at_side, kind, row, rows⟩, readsA, readsB,
      fun want => (emptyA want).2, fun want => (emptyB want).2⟩

end Sys2Proof.Proofs
end

section
/-!
SUPPORT. Clearing and moving accumulator rows (R304, R305), and the statement about it.
-/
namespace Sys2Proof.Proofs
open Sys2Proof.Machine Sys2Proof.Laws

/-! ## The issuer's block (R295) -/

theorem KeepsIssuer.engBlk {s t : State} (h : KeepsIssuer s t) : t.engBlk = s.engBlk := by
  simp only [State.engBlk, h.cur, grp_of_groups h.groups]

/-- The core of an engine instruction is that of its side. -/
theorem engCore_eq (s : State) (hi : Bool) : s.engCore hi = (s.blk s.engBlk).coreAt (s.engSide hi) := rfl

theorem blk_countGrp (s : State) (sb b : Nat) : (s.countGrp sb).blk b = s.blk b := blk_of_blocks (blocks_countGrp s sb) b

theorem core_countGrp (s : State) (sb c : Nat) : (s.countGrp sb).core c = s.core c := by
  unfold State.countGrp
  split <;> rfl

/-- What a change of a group leaves of each group, a group has after the change. -/
theorem grp_updGrp_keeps {α : Type} (p : Machine.Group → α) (s : State) (g : Nat) {f : Machine.Group → Machine.Group}
    (keeps : ∀ x, p (f x) = p x) (k : Nat) : p ((s.updGrp g f).grp k) = p (s.grp k) := by
  by_cases same : g = k
  · subst same
    by_cases exists_ : g < s.groups.length
    · rw [grp_updGrp_self s g f exists_, keeps]
    · simp [State.grp, exists_]
  · rw [grp_updGrp_ne s g k f same]

/-- What raising a counter leaves of each group. -/
theorem grp_countGrp_keeps {α : Type} (p : Machine.Group → α) (s : State) (sb : Nat)
    (keeps : ∀ x, p (x.incCounter sb) = p x) (k : Nat) : p ((s.countGrp sb).grp k) = p (s.grp k) := by
  unfold State.countGrp
  split
  · rfl
  · exact grp_updGrp_keeps p s _ keeps k

theorem blk_incCounter (x : Machine.Group) (sb : Nat) : (x.incCounter sb).blk = x.blk := by
  unfold Group.incCounter
  split <;> rfl

theorem core_incCounter (x : Machine.Group) (sb : Nat) : (x.incCounter sb).core = x.core := by
  unfold Group.incCounter
  split <;> rfl

theorem engBlk_countGrp (s : State) (sb : Nat) : (s.countGrp sb).engBlk = s.engBlk := by
  have blk := grp_countGrp_keeps Group.blk s sb (fun x => blk_incCounter x sb) s.cur.grp
  simp only [State.engBlk, cur_countGrp, blk]

theorem engSide_countGrp (s : State) (sb : Nat) (hi : Bool) : (s.countGrp sb).engSide hi = s.engSide hi := by
  have blk := grp_countGrp_keeps Group.blk s sb (fun x => blk_incCounter x sb) s.cur.grp
  have core := grp_countGrp_keeps Group.core s sb (fun x => core_incCounter x sb) s.cur.grp
  simp only [State.engSide, cur_countGrp, blk, core, blk_countGrp]

theorem firstRow_congr {s t : State} (cur : t.cur = s.cur) (blk : t.engBlk = s.engBlk)
    (first : (t.blk s.engBlk).accFirst = (s.blk s.engBlk).accFirst) (side r : Nat) : t.firstRow side r = s.firstRow side r := by
  simp only [State.firstRow, State.engBlock, cur, blk, first]

/-! ## An operation on a tile (R305, R310) -/

/-- The state in which an operation of the issuer's has joined the array, and with it a tile has changed. -/
def handedOver (s : State) (sb : Nat) (m : MatOp) (side k : Nat) (f : Tile → Tile) : State :=
  ((s.countGrp sb).addMat m).updTile s.engBlk side k f

theorem handedOver_finish {s : State} (engine : s.engineIssues) (sb k : Nat) (f : Tile → Tile) {m : MatOp} {side : Nat}
    (no_cmd : m.cmd = none) (blk : m.blk = s.engBlk) (at_side : m.side = side) :
    let u := (handedOver s sb m side k f).finish
    Left s sb u ∧ (u.blk s.engBlk).tile side k = f (s.engBlock.tile side k) ∧
      numbered (s.countGrp sb) m ∈ (u.core ((s.blk s.engBlk).coreAt side)).mq := by
  intro u
  have joined := KeepsIssuer.addMat (s.countGrp sb) m
  have blocks : ((s.countGrp sb).addMat m).blocks = s.blocks := blocks_countGrp s sb
  refine ⟨left_finish engine (joined.trans (.updTile _ _ _ _ _)), ?tile, ?mem⟩
  case tile =>
    rw [tile_finish, handedOver, tile_updTile_self _ (by rw [blocks]; exact engBlk_lt engine), blk_of_blocks blocks]
    rfl
  case mem =>
    have mem := mem_mq_addMat (s.countGrp sb) no_cmd
    rw [blk, at_side, blk_countGrp] at mem
    rw [core_finish]
    exact mem

/-! ## `mzero` (R304) -/

/-- The sides on which an `mzero` clears rows. -/
def mzeroSides (s : State) : List Nat := if s.cur.kind = .stream ∧ s.engBlock.pair = true then [0, 1] else [s.engSide false]

/-- The operation that clears the rows of a side; its end is that of the instruction on the last side. -/
def zeroOp (u : State) (r n sb side : Nat) (last : Bool) : MatOp :=
  { MatOp.mk' u.engBlk side .zero (u.firstRow side r) n ((n + 15) / 16) true with
    owner := if last then u.engOwner sb else none }

/-- The state in which the operations have joined the array. -/
def mzeroIssued (r n sb : Nat) (s : State) : State :=
  (mzeroSides s).foldl (fun u side => u.addMat (zeroOp u r n sb side (side == (mzeroSides s).getLastD 0))) (s.countGrp sb)

/-- The array of a side's core holds an operation that clears the rows from `r` on. -/
def ZeroStands (s : State) (r n : Nat) (u : State) (side : Nat) : Prop :=
  ∃ m ∈ (u.core ((s.blk s.engBlk).coreAt side)).mq, m.kind = .zero ∧ m.side = side ∧
    m.row = s.firstRow side r ∧ m.rows = n

theorem mzeroIssued_stands (s : State) (r n sb : Nat) : GoesOn s.engBlk (s.countGrp sb) (mzeroIssued r n sb s) ∧
    ∀ side ∈ mzeroSides s, ZeroStands s r n (mzeroIssued r n sb s) side := by
  refine GoesOn.foldl (Q := ZeroStands s r n) (fun goes h => ?keeps) fun u goes side _ => ⟨.addMat u rfl, ?stands⟩
  case keeps =>
    obtain ⟨m, mem, fields⟩ := h
    exact ⟨m, goes.mq _ mem, fields⟩
  case stands =>
    have blk : u.engBlk = s.engBlk := goes.engBlk.trans (engBlk_countGrp s sb)
    have row : u.firstRow side r = s.firstRow side r :=
      firstRow_congr (goes.cur.trans (cur_countGrp s sb)) blk (goes.accFirst.trans (by rw [blk_countGrp])) side r
    have core : (u.blk u.engBlk).coreAt = (s.blk s.engBlk).coreAt := by rw [blk, goes.coreAt, blk_countGrp]
    have joins := mem_mq_addMat u (m := zeroOp u r n sb side (side == (mzeroSides s).getLastD 0)) rfl
    exact ⟨_, core ▸ joins, rfl, rfl, row, rfl⟩

/-- Rows inside the allocation or the window are cleared on each side (R304). -/
theorem mzero_issues {s : State} (engine : s.engineIssues) {r n1 : Nat} (inside : s.rowsInside r (n1 + 1) = true) (sb : Nat) :
    exec (.mzero r n1 sb) s = .next (mzeroIssued r (n1 + 1) sb s).finish := by
  rw [exec_mzero, execMzero]
  exact engineOp_runs engine engRegsFree_nil rfl rfl rfl (List.forall_mem_singleton.mpr (Bool.not_eq_eq_eq_not.mpr inside))

theorem engSide_mem_mzeroSides (s : State) : s.engSide false ∈ mzeroSides s := by
  unfold mzeroSides
  split
  · next both => simp [engSide_stream both.1]
  · exact List.mem_singleton_self _

/-! ## `macc` (R305) -/

/-- A tile that begins to fill, beside any copy. -/
def filling (x : Tile) : Tile := { x with state := 1, copy := false }

/-- A tile, rows and columns that `macc` takes. -/
structure MaccFits (s : State) (t r c0 : Nat) (hi : Bool) : Prop where
  named : s.engBlock.named (s.engSide hi) t = true
  slot : maccSlot (s.slotFor s.engBlk (s.engBlock.tile (s.engSide hi) t).fslot) = true
  mode : s.hiBad hi = false
  rows : s.rowsInside r (s.engBlock.tile (s.engSide hi) t).rowCount = true
  cols : 16 * c0 + maccCols (s.slotFor s.engBlk (s.engBlock.tile (s.engSide hi) t).fslot)
    (s.engBlock.tile (s.engSide hi) t) ≤ 256

/-- A tile that fits joins the array with its rows, and is read once more or begins to fill. -/
theorem maccOp_joins {s : State} (engine : s.engineIssues) {t r c0 : Nat} {hi reads ready : Bool}
    (fits : MaccFits s t r c0 hi) (is_ready : ready = true) (sb : Nat) (kind : MatKind) :
    let tile := s.engBlock.tile (s.engSide hi) t
    ∃ u, maccOp t r sb c0 hi reads ready kind s = .next u ∧ Left s sb u ∧
      (u.blk s.engBlk).tile (s.engSide hi) t = (if reads then readOnce else filling) tile ∧
      ∃ m ∈ (u.core (s.engCore hi)).mq, m.kind = kind ∧ m.rows = tile.rowCount := by
  intro tile
  obtain ⟨named, slot, mode, rows, cols⟩ := fits
  let m : MatOp := { MatOp.mk' (s.countGrp sb).engBlk (s.engSide hi) kind ((s.countGrp sb).firstRow (s.engSide hi) r)
    tile.rowCount tile.rowCount (!reads) with owner := (s.countGrp sb).engOwner sb }
  have runs : maccOp t r sb c0 hi reads ready kind s =
      .next (handedOver s sb m (s.engSide hi) t (if reads then readOnce else filling)).finish := by
    have blk : ((s.countGrp sb).addMat m).engBlk = s.engBlk := engBlk_countGrp s sb
    rw [maccOp]
    refine (engineOp_runs engine engRegsFree_nil is_ready
      (Bool.and_eq_false_iff.mpr (.inr (Bool.not_eq_eq_eq_not.mpr slot))) mode ?checks).trans ?acts
    case checks =>
      simp only [List.forall_mem_cons, List.not_mem_nil, false_imp_iff, implies_true, and_true]
      exact ⟨Bool.not_eq_eq_eq_not.mpr named, Bool.not_eq_eq_eq_not.mpr rows, decide_eq_false (Nat.not_lt.mpr cols)⟩
    case acts =>
      rw [handedOver, ← blk]
      cases reads <;> rfl
  obtain ⟨left, changed, mem⟩ := handedOver_finish engine sb t (if reads then readOnce else filling) (m := m)
    rfl (engBlk_countGrp s sb) rfl
  exact ⟨_, runs, left, changed, _, mem, rfl, rfl⟩

theorem destReady_of_empty {s : State} {side k : Nat} (empty : (s.engBlock.tile side k).state = 0) :
    s.destReady side k = true := by
  rw [State.destReady, empty]
  exact Bool.or_true _

/-- Settles O29: both moves are one operation on a tile; an `mzero` is one for each side. -/
theorem accumulatorMovesIssue : Obligations.AccumulatorMovesIssue := by
  intro t r sb rnd c0 n1 add hi s engine b side tile counted fits
  have moves (h : fits) : MaccFits s t r c0 hi ∧ s.maccRows t r = true := by
    obtain ⟨named, slot, mode, rows, cols, free⟩ := h
    exact ⟨⟨named, slot, mode, rows, cols⟩, free⟩
  obtain ⟨goes, stands⟩ := mzeroIssued_stands s r (n1 + 1) sb
  obtain ⟨went, mem, counts⟩ := left_finish engine goes.toKeepsIssuer
  refine ⟨fun inside => ?lower, fun inside stream pair => ?upper, fun h empty => ?out, fun h readable => ?into⟩
  case lower =>
    obtain ⟨m, joins, kind, -, row, rows⟩ := stands _ (engSide_mem_mzeroSides s)
    exact ⟨_, mzero_issues engine inside sb, went, mem, counts, m,
      (congrArg Core.mq (core_finish _ _)).symm ▸ joins, kind, row, rows⟩
  case upper =>
    obtain ⟨m, joins, kind, at_side, row, rows⟩ :=
      stands 1 (by simp [mzeroSides, stream, show s.engBlock.pair = true from pair])
    refine ⟨_, mzero_issues engine inside sb, m, ?core, kind, at_side, ?row, rows⟩
    case core =>
      have core : (s.blk s.engBlk).coreAt 1 = b.core + 1 := congrArg (b.core + ·) (if_pos pair)
      rw [core_finish, ← core]
      exact joins
    case row => simpa only [State.firstRow, stream] using row
  case out =>
    obtain ⟨fit, free⟩ := moves h
    obtain ⟨u, runs, ⟨went, mem, counts⟩, changed, joins⟩ := maccOp_joins engine fit (reads := false)
      (Bool.and_eq_true_iff.mpr ⟨destReady_of_empty empty, free⟩) sb (.accOut t c0 rnd)
    exact ⟨u, (exec_maccOut ..).trans runs, went, mem, counts, congrArg Tile.state changed, joins⟩
  case into =>
    obtain ⟨fit, free⟩ := moves h
    obtain ⟨u, runs, ⟨went, mem, counts⟩, changed, joins⟩ := maccOp_joins engine fit (reads := true)
      (Bool.and_eq_true_iff.mpr ⟨operandReady_of_readable readable, free⟩) sb (.accIn t c0 rnd add)
    exact ⟨u, (exec_maccIn ..).trans runs, went, mem, counts, congrArg Tile.reads changed, joins⟩

end Sys2Proof.Proofs
end

section
/-!
SUPPORT. The tile table (R308 to R310, R291), and the statement about its instructions.
-/
namespace Sys2Proof.Proofs
open Sys2Proof.Machine Sys2Proof.Laws

/-- Where every check that does not pass fails in one way, and one does not pass, the checks fail in that way. -/
theorem firstFail_some {checks : List (Bool × Fail)} {f : Fail} (one_way : ∀ e ∈ checks, e.2 = f)
    (fails : ∃ e ∈ checks, e.1 = true) : firstFail checks = some f := by
  induction checks with
  | nil => simp at fails
  | cons e l ih =>
    obtain ⟨first, later⟩ := List.forall_mem_cons.mp one_way
    obtain ⟨bad, g⟩ := e
    cases bad with
    | true => exact congrArg some first
    | false => exact ih later (by simpa using fails)

/-! ## Results on their way (R67) -/

/-- A finished operation is to write the data of each active lane to the registers `dsts`, and its counter follows. -/
def Answers (s : State) (sb : Nat) (dsts : List (Nat × Nat × Dst)) (data : Nat → Nat) (u : State) : Prop :=
  ∃ op ∈ u.ops, op.stage = .finished ∧ op.sb = sb ∧ op.dsts = dsts ∧
    ∀ x ∈ op.parts, x.lane ∈ lanesOf s.cur.lanes ∧ x.data = data x.lane

theorem addResult_finish {s t : State} (issues : s.groupIssues) (keeps : KeepsIssuer s t) (sb : Nat)
    (dsts : List (Nat × Nat × Dst)) (data : Nat → Nat) :
    let u := (t.addResult sb dsts data).finish
    Left s sb u ∧ Answers s sb dsts data u ∧ ∀ b side k, (u.blk b).tile side k = (t.blk b).tile side k := by
  have own : (resultOp t sb dsts data).grp = s.cur.grp := congrArg Issue.grp keeps.cur
  rw [addResult_eq]
  refine ⟨left_finish (.inl issues) (keepsIssuer_addOp keeps issues.1 own rfl), ?answers, tile_finish _⟩
  have joins : { resultOp t sb dsts data with id := t.fresh } ∈ (t.addOp (resultOp t sb dsts data)).finish.ops := by
    rw [finish_ops]
    exact List.mem_append_right _ List.mem_cons_self
  refine ⟨_, joins, rfl, rfl, rfl, List.forall_mem_map.mpr fun i active => ⟨?_, rfl⟩⟩
  rwa [← keeps.cur]

/-! ## `talloc` and `tfree` (R308, R309) -/

/-- The state in which `talloc` has made its entry, where a range is free. -/
def allocated (s : State) (t w : Nat) (found : Option Nat) : State :=
  match found with
  | some o => s.updTile s.engBlk (s.engSide false) t fun _ => s.engBlock.newTile (s.engSide false) o w
  | none => s

theorem keepsIssuer_allocated (s : State) (t w : Nat) (found : Option Nat) : KeepsIssuer s (allocated s t w found) := by
  cases found with
  | none => exact .refl s
  | some o => exact .updTile s _ _ _ _

/-- The range of the operand buffer that a geometry word asks for. -/
def rangeFor (s : State) (w : Nat) : Option Nat :=
  s.engBlock.findRange (s.engSide false) ((16 * (w % 16 + 1)) * (64 * (w / 2 ^ 4 % 16 + 1)))

section
variable {s : State} (issues : s.groupIssues) {p t sg sb : Nat} (free : s.regsFree [.s sg] [.p p] 4096)
include issues free

theorem talloc_answers (reserved : t < s.engBlock.nTiles) (unused : (s.engBlock.tile (s.engSide false) t).alloc = false)
    (legal : ((s.grp s.cur.grp).s sg).toNat / 2 ^ 11 % 2 ^ 3 = 0) :
    let w := ((s.grp s.cur.grp).s sg).toNat
    ∃ u, exec (.talloc p t sg sb) s = .next u ∧ Left s sb u ∧
      Answers s sb (if p = 15 then [] else (lanesOf s.cur.lanes).map fun i => (i, 0, Dst.p i p))
        (fun _ => if (rangeFor s w).isSome then 1 else 0) u ∧
      (u.blk s.engBlk).tile (s.engSide false) t =
        ((allocated s t w (rangeFor s w)).blk s.engBlk).tile (s.engSide false) t := by
  intro w
  have low : bits w 0 4 = w % 16 := by simp [bits]
  have runs : exec (.talloc p t sg sb) s = .next ((allocated s t w (rangeFor s w)).addResult sb
      (if p = 15 then [] else (lanesOf s.cur.lanes).map fun i => (i, 0, Dst.p i p))
      fun _ => if (rangeFor s w).isSome then 1 else 0).finish := by
    rw [exec_talloc, execTalloc, asGroup_group issues.1, engS_group issues.1]
    refine (engineOp_runs (.inl issues) (fun _ => free) rfl rfl rfl ?checks).trans ?acts
    case checks =>
      simp only [List.forall_mem_cons, List.not_mem_nil, false_imp_iff, implies_true, and_true, Bool.or_eq_false_iff,
        decide_eq_false_iff_not, bne_eq_false_iff_eq]
      exact ⟨⟨Nat.not_le.mpr reserved, unused⟩, legal⟩
    case acts =>
      dsimp only
      rw [predDsts_eq, low]
      rfl
  obtain ⟨left, answers, tiles⟩ := addResult_finish issues (keepsIssuer_allocated s t w (rangeFor s w)) sb _ _
  exact ⟨_, runs, left, answers, tiles _ _ _⟩

theorem talloc_refused (refused : s.engBlock.nTiles ≤ t ∨ (s.engBlock.tile (s.engSide false) t).alloc = true ∨
    ((s.grp s.cur.grp).s sg).toNat / 2 ^ 11 % 2 ^ 3 ≠ 0) : exec (.talloc p t sg sb) s = .next (s.fail Fail.window) := by
  rw [exec_talloc, execTalloc, asGroup_group issues.1, engS_group issues.1]
  refine engineOp_refuses (.inl issues) (fun _ => free) rfl rfl rfl (firstFail_some (by simp) ?_)
  simpa [bits, or_assoc] using refused

end

section
variable {s : State} (issues : s.groupIssues) {t : Nat}
include issues

/-- A tile with no read pending is given back (R309). -/
theorem tfree_clears (named : s.engBlock.named (s.engSide false) t = true)
    (no_read : (s.engBlock.tile (s.engSide false) t).reads = 0)
    (still : (s.engBlock.tile (s.engSide false) t).state = 0 ∨ (s.engBlock.tile (s.engSide false) t).state = 2) (sb : Nat) :
    ∃ u, exec (.tfree t sb) s = .next u ∧ Left s sb u ∧ (u.blk s.engBlk).tile (s.engSide false) t = Tile.empty := by
  have ready : s.tfreeReady t = true := by simp [State.tfreeReady, no_read, still]
  have runs : exec (.tfree t sb) s =
      .next ((s.updTile s.engBlk (s.engSide false) t fun _ => Tile.empty).countNow sb).finish := by
    rw [exec_tfree, execTfree, asGroup_group issues.1]
    exact engineOp_runs (.inl issues) engRegsFree_nil ready rfl rfl
      (List.forall_mem_singleton.mpr (Bool.not_eq_eq_eq_not.mpr named))
  refine ⟨_, runs, left_finish (.inl issues) (keepsIssuer_countNow (.inl issues) (.updTile s _ _ _ _) sb), ?_⟩
  rw [tile_finish, blk_of_blocks (blocks_countNow _ sb), tile_updTile_self s (engBlk_lt (.inl issues))]

theorem tfree_refused (unnamed : s.engBlock.named (s.engSide false) t = false) (sb : Nat) :
    exec (.tfree t sb) s = .next (s.fail Fail.window) := by
  have ready : s.tfreeReady t = true := by simp [State.tfreeReady, unnamed]
  rw [exec_tfree, execTfree, asGroup_group issues.1]
  exact engineOp_refuses (.inl issues) engRegsFree_nil ready rfl rfl (by rw [unnamed]; rfl)

/-! ## `tstate` (R291) -/

variable {d : Nat} (free : s.regsFree [] (vpair d) 4096)
include free

theorem tstate_answers (reserved : t < s.engBlock.nTiles) (sb : Nat) :
    ∃ u, exec (.tstate d t sb) s = .next u ∧ Left s sb u ∧
      Answers s sb ((lanesOf s.cur.lanes).flatMap fun i =>
        [(i, 0, Dst.v i ((s.grp s.cur.grp).entry i d)), (i, 1, Dst.v i ((s.grp s.cur.grp).entry i (d + 1)))])
        (fun _ => (s.engBlock.tile (s.engSide false) t).bits) u ∧
      (u.blk s.engBlk).tile (s.engSide false) t = s.engBlock.tile (s.engSide false) t := by
  obtain ⟨left, answers, tiles⟩ := addResult_finish issues (.refl s) sb ((lanesOf s.cur.lanes).flatMap fun i =>
    [(i, 0, Dst.v i ((s.grp s.cur.grp).entry i d)), (i, 1, Dst.v i ((s.grp s.cur.grp).entry i (d + 1)))])
    fun _ => (s.engBlock.tile (s.engSide false) t).bits
  refine ⟨_, ?runs, left, answers, tiles _ _ _⟩
  case runs =>
    rw [exec_tstate, execTstate, asGroup_group issues.1]
    exact engineOp_runs (.inl issues) (fun _ => free) rfl rfl rfl
      (List.forall_mem_singleton.mpr (decide_eq_false (Nat.not_le.mpr reserved)))

theorem tstate_refused (past : s.engBlock.nTiles ≤ t) (sb : Nat) :
    exec (.tstate d t sb) s = .next (s.fail Fail.window) := by
  rw [exec_tstate, execTstate, asGroup_group issues.1]
  exact engineOp_refuses (.inl issues) (fun _ => free) rfl rfl rfl
    (firstFail_some (by simp) ⟨_, List.mem_singleton_self _, decide_eq_true past⟩)

end

/-! ## `tfill` (R310) -/

theorem engS_countGrp (s : State) (sb k : Nat) : (s.countGrp sb).engS k = s.engS k := by
  have value := grp_countGrp_keeps (fun x => x.s k) s sb (fun x => by unfold Group.incCounter; split <;> rfl)
  have retired := grp_countGrp_keeps Group.retired s sb fun x => by unfold Group.incCounter; split <;> rfl
  simp only [State.engS, cur_countGrp, value, retired, blk_countGrp]

section
variable {s : State} (engine : s.engineIssues) {t sv : Nat} {hi : Bool} (free : s.engRegsFree [.s sv] [])
  (mode : s.hiBad hi = false)
include engine free mode

/-- An EMPTY tile begins to fill (R310). -/
theorem tfill_fills (named : s.engBlock.named (s.engSide hi) t = true)
    (empty : (s.engBlock.tile (s.engSide hi) t).state = 0) (sb : Nat) :
    ∃ u, exec (.tfill t sv hi sb) s = .next u ∧ Left s sb u ∧ ((u.blk s.engBlk).tile (s.engSide hi) t).state = 1 ∧
      ∃ m ∈ (u.core (s.engCore hi)).mq, m.kind = .fill t (s.engS sv) := by
  obtain ⟨m, no_cmd, blk, at_side, kind, runs⟩ : ∃ m : MatOp, m.cmd = none ∧ m.blk = s.engBlk ∧ m.side = s.engSide hi ∧
      m.kind = .fill t (s.engS sv) ∧
      exec (.tfill t sv hi sb) s = .next (handedOver s sb m (s.engSide hi) t filling).finish := by
    rw [exec_tfill, execTfill]
    dsimp only
    rw [engineOp_runs engine free (destReady_of_empty empty) rfl mode
      (List.forall_mem_singleton.mpr (Bool.not_eq_eq_eq_not.mpr named))]
    simp only [engBlk_countGrp, engS_countGrp]
    exact ⟨_, rfl, rfl, rfl, rfl, rfl⟩
  obtain ⟨left, changed, mem⟩ := handedOver_finish engine sb t filling no_cmd blk at_side
  exact ⟨_, runs, left, congrArg Tile.state changed, _, mem, kind⟩

theorem tfill_refused (unnamed : s.engBlock.named (s.engSide hi) t = false) (sb : Nat) :
    exec (.tfill t sv hi sb) s = .next (s.fail Fail.window) := by
  have ready : s.destReady (s.engSide hi) t = true := by simp [State.destReady, unnamed]
  rw [exec_tfill, execTfill]
  exact engineOp_refuses engine free ready rfl mode (by rw [unnamed]; rfl)

end

/-- Settles O30, one lemma for each instruction and outcome. -/
theorem tileTableInstructions : Obligations.TileTableInstructions := by
  intro p t sg sv d sb hi s engine g b side lanes w tile after left answer toPred
  have as_group (group : s.cur.kind = .group) : s.groupIssues :=
    engine.resolve_right fun stream => by simp [stream.1] at group
  have answered {u : State} {dsts : List (Nat × Nat × Dst)} {n : Nat} (h : Answers s sb dsts (fun _ => n) u) :
      answer u dsts n := by
    obtain ⟨op, mem, stage, counts, places, data⟩ := h
    exact ⟨op, mem, stage, counts, places, fun x hx => (data x hx).2⟩
  refine ⟨fun group => ?group, fun free mode named empty => ?fills,
    fun free mode unnamed => tfill_refused engine free mode unnamed sb⟩
  case fills =>
    exact tfill_fills engine free mode named empty sb
  case group =>
    have issues := as_group group
    refine ⟨fun free reserved unused legal => ⟨fun o found => ?makes, fun full => ?full⟩, talloc_refused issues,
      fun named no_read still => tfree_clears issues named no_read still sb, fun unnamed => tfree_refused issues unnamed sb,
      fun free reserved => ?state, fun free past => tstate_refused issues free past sb⟩
    case makes =>
      obtain ⟨u, runs, left, answers, made⟩ := talloc_answers issues (sb := sb) free reserved unused legal
      rw [show rangeFor s w = some o from found] at answers made
      rw [allocated, tile_updTile_self s (engBlk_lt engine)] at made
      have entry : after u = b.newTile side o w := made
      have rows : bits w 0 4 = w % 16 := by simp [bits]
      refine ⟨u, runs, left, answered answers, ?_⟩
      rw [entry]
      exact ⟨rfl, rfl, rows, rfl, rfl, rfl, rfl⟩
    case full =>
      obtain ⟨u, runs, left, answers, same⟩ := talloc_answers issues (sb := sb) free reserved unused legal
      rw [show rangeFor s w = none from full] at answers same
      exact ⟨u, runs, left, answered answers, same⟩
    case state =>
      obtain ⟨u, runs, left, answers, same⟩ := tstate_answers issues free reserved sb
      exact ⟨u, runs, left, same, answered answers⟩

end Sys2Proof.Proofs
end

section
/-!
SUPPORT. Accumulator cells that a group reads and writes, and its window of rows (R68, R69, R319, R320), and the
statement about them.
-/
namespace Sys2Proof.Proofs
open Sys2Proof.Machine Sys2Proof.Laws

/-! ## Cells (R319) -/

/-- The cell that a lane names. -/
def cellOf (s : State) (a i : Nat) : Nat := ((s.grp s.cur.grp).v i a).toNat

/-- A cell of a row in the group's window (R68). -/
def InAccWindow (s : State) (c : Nat) : Prop :=
  c < 65536 ∧ (s.grp s.cur.grp).ctl.awb ≤ c / 256 ∧ c / 256 < (s.grp s.cur.grp).ctl.awb + (s.grp s.cur.grp).ctl.awl

/-- A lane that names no cell of the window is what fails. -/
theorem accFail_eq_true_iff (s : State) (a : Nat) :
    (s.accFail a).1 = true ↔ ∃ i ∈ lanesOf s.cur.lanes, ¬ InAccWindow s (cellOf s a i) := by
  simp only [State.accFail, List.any_eq_true, Bool.or_eq_true, decide_eq_true_eq, InAccWindow, cellOf, not_and_or, not_lt,
    not_le, or_assoc]

/-- Values written one after the other: the last that goes to a key stands, and other keys are as they were. -/
theorem look_foldl_put {β : Type} [DecidableEq β] (d : β) (key : Nat → Nat) (val : Nat → β) (l : List Nat) (m : SMap β)
    (c : Nat) : look d (l.foldl (fun m i => put d m (key i) (val i)) m) c =
      ((l.reverse.find? fun i => key i == c).map val).getD (look d m c) := by
  induction l using List.reverseRecOn with
  | nil => rfl
  | append_singleton l i ih =>
    rw [List.foldl_append, List.reverse_append]
    simp only [List.foldl_cons, List.foldl_nil, List.reverse_cons, List.reverse_nil, List.nil_append, List.cons_append,
      List.find?_cons]
    by_cases last : key i = c
    · subst last
      simp
    · rw [look_put_ne d d _ _ _ _ last, ih, beq_false_of_ne last]

section
variable {s : State} (issues : s.groupIssues) {d a sb : Nat} (ready : s.accReady a = true)
include issues ready

theorem accrd_refused (free : s.regsFree [.v a] [.v d] 4096)
    (outside : ∃ i ∈ lanesOf s.cur.lanes, ¬ InAccWindow s (cellOf s a i)) :
    exec (.accrd d a sb) s = .next (s.fail Fail.window) := by
  rw [exec_accrd, execAccrd, asGroup_group issues.1]
  exact engineOp_refuses (.inl issues) (fun _ => free) ready rfl rfl
    (firstFail_some (by simp [State.accFail]) ⟨_, List.mem_singleton_self _, (accFail_eq_true_iff s a).mpr outside⟩)

theorem accwr_refused (free : s.regsFree [.v d, .v a] [] 4096)
    (outside : ∃ i ∈ lanesOf s.cur.lanes, ¬ InAccWindow s (cellOf s a i)) :
    exec (.accwr d a sb) s = .next (s.fail Fail.window) := by
  rw [exec_accwr, execAccwr, asGroup_group issues.1]
  exact engineOp_refuses (.inl issues) (fun _ => free) ready rfl rfl
    (firstFail_some (by simp [State.accFail]) ⟨_, List.mem_singleton_self _, (accFail_eq_true_iff s a).mpr outside⟩)

variable (inside : ∀ i ∈ lanesOf s.cur.lanes, InAccWindow s (cellOf s a i))
include inside

omit issues ready in
theorem accFail_inside : ∀ e ∈ [s.accFail a], e.1 = false := by
  refine List.forall_mem_singleton.mpr (eq_false_of_ne_true fun fails => ?_)
  obtain ⟨i, active, outside⟩ := (accFail_eq_true_iff s a).mp fails
  exact outside (inside i active)

omit issues ready in
theorem cell_mod {i : Nat} (active : i ∈ lanesOf s.cur.lanes) :
    ((s.grp s.cur.grp).v i a).toNat % 65536 = cellOf s a i := Nat.mod_eq_of_lt (inside i active).1

/-- Each lane is to receive its cell (R319). -/
theorem accrd_answers (free : s.regsFree [.v a] [.v d] 4096)
    (sound : ∀ i ∈ lanesOf s.cur.lanes, ErrAt.cell (s.grp s.cur.grp).core (cellOf s a i) ∉ s.errs) :
    ∃ u, exec (.accrd d a sb) s = .next u ∧ Left s sb u ∧ u.core (s.grp s.cur.grp).core = s.core (s.grp s.cur.grp).core ∧
      Answers s sb ((lanesOf s.cur.lanes).map fun i => (i, 0, Dst.v i ((s.grp s.cur.grp).entry i d)))
        (fun i => (look 0 (s.core (s.grp s.cur.grp).core).acc (((s.grp s.cur.grp).v i a).toNat % 65536)).toNat) u := by
  have no_error : ((lanesOf s.cur.lanes).any fun i =>
      s.errs.contains (.cell (s.grp s.cur.grp).core (((s.grp s.cur.grp).v i a).toNat % 65536))) = false := by
    refine List.any_eq_false.mpr fun i active => ?_
    rw [cell_mod inside active, List.contains_iff_mem]
    exact sound i active
  obtain ⟨left, answers, -⟩ := addResult_finish issues (.refl s) sb
    ((lanesOf s.cur.lanes).map fun i => (i, 0, Dst.v i ((s.grp s.cur.grp).entry i d)))
    fun i => (look 0 (s.core (s.grp s.cur.grp).core).acc (((s.grp s.cur.grp).v i a).toNat % 65536)).toNat
  refine ⟨_, ?runs, left, core_finish _ _, answers⟩
  case runs =>
    rw [exec_accrd, execAccrd, asGroup_group issues.1,
      engineOp_runs (.inl issues) (fun _ => free) ready rfl rfl (accFail_inside inside)]
    simp only [no_error, Bool.false_eq_true, if_false]

/-- The value of the highest lane that names a cell stands in it (R319). -/
theorem accwr_writes (free : s.regsFree [.v d, .v a] [] 4096) :
    ∃ u, exec (.accwr d a sb) s = .next u ∧ Left s sb u ∧ ∀ c, look 0 (u.core (s.grp s.cur.grp).core).acc c =
      (((lanesOf s.cur.lanes).reverse.find? fun i => cellOf s a i == c).map fun i => (s.grp s.cur.grp).v i d).getD
        (look 0 (s.core (s.grp s.cur.grp).core).acc c) := by
  let s1 : State := { s with errs := s.errs.filter fun e => !((lanesOf s.cur.lanes).map fun i =>
    ErrAt.cell (s.grp s.cur.grp).core (((s.grp s.cur.grp).v i a).toNat % 65536)).contains e }
  let s2 := s1.updCore (s.grp s.cur.grp).core fun c => { c with
    acc := (lanesOf s.cur.lanes).foldl
      (fun acc i => put 0 acc (((s.grp s.cur.grp).v i a).toNat % 65536) ((s.grp s.cur.grp).v i d)) c.acc }
  have keeps : KeepsIssuer s s2 := .of_sameWork ⟨rfl, rfl, rfl, rfl⟩ rfl
  refine ⟨(s2.countNow sb).finish, ?runs, left_finish (.inl issues) (keepsIssuer_countNow (.inl issues) keeps sb),
    fun c => ?_⟩
  case runs =>
    rw [exec_accwr, execAccwr, asGroup_group issues.1]
    exact engineOp_runs (.inl issues) (fun _ => free) ready rfl rfl (accFail_inside inside)
  rw [core_finish, State.core, cores_countNow, ← State.core, core_updCore, if_pos rfl, ← look_foldl_put]
  refine congrArg (look 0 · c) (List.foldl_ext _ _ _ fun acc i active => ?_)
  rw [cell_mod inside active]

end

/-! ## Windows (R69, R320) -/

/-- The issuing group's lanes have moved on, whatever else of the machine is different. -/
theorem movedOn_finish {s t : State} (issues : s.groupIssues) (cur : t.cur = s.cur) (groups : t.groups.length = s.groups.length)
    (fibs : (t.grp s.cur.grp).ctl.fibs.length = (s.grp s.cur.grp).ctl.fibs.length) : s.movedOn t.finish := by
  obtain ⟨group, exists_, -⟩ := issues
  intro i hi active
  rw [finish_of_group (by rw [cur, group]), cur, grp_updGrp_self _ _ _ (by rwa [groups]), fib_updFibs _ _ _ (by rwa [fibs]),
    if_pos active, pass_pc]

/-- The state in which `awset` has given a group its window, and ended the allocation phase with `.last`. -/
def windowGiven (s : State) (target first len : Nat) (last : Bool) : State :=
  let u := s.updGrp target fun y => y.updCtl fun c => { c with awb := first, awl := len }
  if last then u.updBlk s.engBlk fun b => { b with allocOpen := false } else u

section
variable (s : State) (target first len : Nat) (last : Bool)

theorem groups_windowGiven : (windowGiven s target first len last).groups =
    (s.updGrp target fun y => y.updCtl fun c => { c with awb := first, awl := len }).groups := by
  unfold windowGiven
  cases last <;> rfl

theorem cur_windowGiven : (windowGiven s target first len last).cur = s.cur := by
  unfold windowGiven
  cases last <;> rfl

theorem mem_windowGiven : (windowGiven s target first len last).mem = s.mem := by
  unfold windowGiven
  cases last <;> rfl

theorem window_finish (s : State) (k : Nat) :
    ((s.finish.grp k).ctl.awb, (s.finish.grp k).ctl.awl) = ((s.grp k).ctl.awb, (s.grp k).ctl.awl) := by
  unfold State.finish
  split
  · rfl
  · exact grp_updGrp_keeps (f := fun g => g.updFibs s.cur.lanes fun _ f => f.pass s.cur)
      (fun x => (x.ctl.awb, x.ctl.awl)) s _ (fun _ => rfl) k

/-- The group's window is the one given. -/
theorem window_windowGiven_self (exists_ : target < s.groups.length) :
    let x := (windowGiven s target first len last).finish.grp target
    x.ctl.awb = first ∧ x.ctl.awl = len := by
  refine Prod.mk_inj.mp ((window_finish _ target).trans ?_)
  rw [grp_of_groups (groups_windowGiven s target first len last), grp_updGrp_self s _ _ exists_]
  rfl

/-- Another group's window is as it was. -/
theorem window_windowGiven_ne {k : Nat} (other : k ≠ target) :
    let x := (windowGiven s target first len last).finish.grp k
    x.ctl.awb = (s.grp k).ctl.awb ∧ x.ctl.awl = (s.grp k).ctl.awl := by
  refine Prod.mk_inj.mp ((window_finish _ k).trans ?_)
  rw [grp_of_groups (groups_windowGiven s target first len last), grp_updGrp_ne s _ _ _ other.symm]

theorem allocOpen_windowGiven (stands : s.engBlk < s.blocks.length) (opened : (s.blk s.engBlk).allocOpen = true) :
    ((windowGiven s target first len last).finish.blk s.engBlk).allocOpen = !last := by
  obtain ⟨q, ended, -⟩ := blk_finish (windowGiven s target first len last) s.engBlk
  rw [ended]
  cases last with
  | false => exact opened
  | true => exact congrArg Block.allocOpen (blk_updBlk_self _ _ _ stands)

end

section
variable {s : State} (issues : s.groupIssues) {sg sf sl : Nat} {last : Bool}
include issues

/-- Outside the allocation phase, or by another group than group 0, `awset` is illegal (R69, R320). -/
theorem awset_illegal (illegal : s.engBlock.allocOpen = false ∨ (s.grp s.cur.grp).num ≠ 0) :
    exec (.awset sg sf sl last) s = .next (s.fail (Fail.illegal 4)) := by
  have mode : (!s.engBlock.allocOpen || (s.grp s.cur.grp).num != 0) = true := by simpa using illegal
  rw [exec_awset, execAwset, asGroup_group issues.1]
  simp [engineOp, issues.1, State.engFail, mode, firstFail]

/-- The rows lie inside the allocation, and the group is one of the block's (R68, R320). -/
def AwsetFits (s : State) (sg sf sl : Nat) : Prop :=
  let g := s.grp s.cur.grp
  let base := s.engBlock.accFirst (s.engBlock.side (s.grp (s.engBlock.groups.getD (g.s sg).toNat 0)).core)
  (g.s sg).toNat < s.engBlock.groups.length ∧ (g.s sl).toNat ≤ 256 ∧ base ≤ (g.s sf).toNat ∧
    (g.s sf).toNat + (g.s sl).toNat ≤ base + s.engBlock.accRows

variable (free : s.regsFree [.s sg, .s sf, .s sl] [] 4096) (opened : s.engBlock.allocOpen = true)
  (leader : (s.grp s.cur.grp).num = 0)
include free opened leader

theorem awset_gives (given : AwsetFits s sg sf sl) : exec (.awset sg sf sl last) s =
    let g := s.grp s.cur.grp
    .next (windowGiven s (s.engBlock.groups.getD (g.s sg).toNat 0) (g.s sf).toNat (g.s sl).toNat last).finish := by
  have mode : (!s.engBlock.allocOpen || (s.grp s.cur.grp).num != 0) = false := by simp [opened, leader]
  have blk (k : Nat) (f : Control → Control) : (s.updGrp k fun y => y.updCtl f).engBlk = s.engBlk := by
    have same := grp_updGrp_keeps (f := fun y => y.updCtl f) Group.blk s k (fun _ => rfl) s.cur.grp
    simp only [State.engBlk, updGrp_cur, same]
  rw [exec_awset, execAwset, asGroup_group issues.1]
  simp only [engS_group issues.1]
  refine (engineOp_runs (.inl issues) (fun _ => free) rfl rfl mode (List.forall_mem_singleton.mpr ?checks)).trans ?acts
  case checks => simpa [AwsetFits, and_assoc] using given
  case acts => simp only [windowGiven, blk]

theorem awset_refused (outside : ¬ AwsetFits s sg sf sl) : exec (.awset sg sf sl last) s = .next (s.fail Fail.window) := by
  have mode : (!s.engBlock.allocOpen || (s.grp s.cur.grp).num != 0) = false := by simp [opened, leader]
  rw [exec_awset, execAwset, asGroup_group issues.1]
  simp only [engS_group issues.1]
  refine engineOp_refuses (.inl issues) (fun _ => free) rfl rfl mode
    (firstFail_some (by simp) ⟨_, List.mem_singleton_self _, ?_⟩)
  simp only [AwsetFits, not_and_or, not_lt, not_le] at outside
  simpa [or_assoc] using outside

end

/-- Settles O34: the last lane that names a cell is the highest; a window is given beside all others. -/
theorem accumulatorAccess : Obligations.AccumulatorAccess := by
  intro d a sb sg sf sl last s issues g b lanes cell inside left
  have block : s.engBlock = b := by rw [State.engBlock, engBlk_group issues.1]
  have leaves {u : State} (h : Left s sb u) : left u := ⟨h.1.1 issues.1, h.2.1, h.2.2 issues.1⟩
  refine ⟨fun named ready => ⟨fun free sound => ?read, fun free => ?write⟩, fun unnamed ready =>
    ⟨fun free => accrd_refused issues ready free unnamed, fun free => accwr_refused issues ready free unnamed⟩, ?window⟩
  case read =>
    obtain ⟨u, runs, gone, same, op, mem, stage, counts, places, data⟩ :=
      accrd_answers issues (sb := sb) ready named free sound
    refine ⟨u, runs, leaves gone, congrArg Core.acc same, op, mem, stage, counts, places, fun p hp => ?_⟩
    obtain ⟨active, value⟩ := data p hp
    refine value.trans ?_
    dsimp only
    rw [cell_mod named active]
    rfl
  case write =>
    obtain ⟨u, runs, gone, cells⟩ := accwr_writes issues (sb := sb) ready named free
    refine ⟨u, runs, leaves gone, fun c => (cells c).trans ?_⟩
    change Option.getD (Option.map _ (lanes.reverse.find? fun i => cell i == c)) _ = _
    cases lanes.reverse.find? fun i => cell i == c <;> rfl
  case window =>
    refine ⟨fun illegal => awset_illegal issues (by rwa [block]), fun free opened leader =>
      ⟨fun given exists_ => ?gives, fun outside => awset_refused issues free (by rwa [block]) leader ?outside⟩⟩
    case outside => rwa [AwsetFits, block]
    case gives =>
      have runs := awset_gives issues (last := last) free (by rwa [block]) leader (by rwa [AwsetFits, block])
      rw [block] at runs
      have groups := groups_windowGiven s (b.groups.getD (g.s sg).toNat 0) (g.s sf).toNat (g.s sl).toNat last
      obtain ⟨first, rows⟩ := window_windowGiven_self s _ (g.s sf).toNat (g.s sl).toNat last exists_
      refine ⟨_, runs, movedOn_finish issues (cur_windowGiven ..) ?count ?fibs, ?mem, first, rows,
        fun k other => window_windowGiven_ne s _ _ _ last other, ?phase⟩
      case count => rw [groups]; exact List.length_modify ..
      case fibs =>
        rw [grp_of_groups groups]
        exact grp_updGrp_keeps (f := fun y => y.updCtl fun c => { c with awb := (g.s sf).toNat, awl := (g.s sl).toNat })
          (fun x => x.ctl.fibs.length) s _ (fun _ => rfl) s.cur.grp
      case mem => rw [finish_mem, mem_windowGiven]
      case phase =>
        have blk : s.engBlk = g.blk := engBlk_group issues.1
        rw [← blk]
        exact allocOpen_windowGiven s _ _ _ last (engBlk_lt (.inl issues)) (block.symm ▸ opened : s.engBlock.allocOpen = true)

end Sys2Proof.Proofs
end

section
/-!
SUPPORT. Commands enter the copy queue (R311 to R315), and the statement about copies.
-/
namespace Sys2Proof.Proofs
open Sys2Proof.Machine Sys2Proof.Laws

/-! ## What packets and drains leave of the engines (R130, R388) -/

/-- The issuer, the work of the machine, the commands, the copy queues and the chain channels are what they were. -/
structure SameEngines (s t : State) : Prop extends SameWork s t where
  cur : t.cur = s.cur
  cmds : t.cmds = s.cmds
  chans : t.chans = s.chans
  cq : ∀ c, (t.core c).cq = (s.core c).cq

namespace SameEngines

theorem refl (s : State) : SameEngines s s := ⟨.refl s, rfl, rfl, rfl, fun _ => rfl⟩

theorem trans {s t u : State} (h : SameEngines s t) (k : SameEngines t u) : SameEngines s u :=
  ⟨h.toSameWork.trans k.toSameWork, k.cur.trans h.cur, k.cmds.trans h.cmds, k.chans.trans h.chans,
    fun c => (k.cq c).trans (h.cq c)⟩

theorem updCore (s : State) (c : Nat) {f : Core → Core} (keeps : ∀ x, (f x).cq = x.cq) : SameEngines s (s.updCore c f) := by
  refine ⟨sameWork_updCore s c f, rfl, rfl, rfl, fun k => ?_⟩
  rw [core_updCore]
  split
  · next same => rw [keeps, same]
  · rfl

theorem toUnit (s : State) (isle unit : Nat) (p : Packet) (at_ : Nat) : SameEngines s (s.toUnit isle unit p at_) := by
  refine ⟨sameWork_toUnit s isle unit p at_, ?_, ?_, ?_, fun c => ?_⟩ <;>
  · unfold State.toUnit
    split
    · split <;> rfl
    · rfl

theorem pressPort (s : State) (p : Packet) : SameEngines s (s.pressPort p) := by
  unfold State.pressPort
  split
  · exact updCore s _ fun _ => rfl
  · exact refl s

theorem inject (s : State) (p : Packet) : SameEngines s (s.inject p) := by
  unfold State.inject
  dsimp only
  split
  · exact trans (t := s.updMesh _) ⟨sameWork_updMesh s _, rfl, rfl, rfl, fun _ => rfl⟩ (pressPort _ p)
  · exact ⟨sameWork_updMesh s _, rfl, rfl, rfl, fun _ => rfl⟩

theorem markFlits (s : State) (p : Packet) : SameEngines s (s.markFlits p).1 := by
  unfold State.markFlits
  split
  · exact refl s
  · exact ⟨⟨rfl, rfl, rfl, rfl⟩, rfl, rfl, rfl, fun _ => rfl⟩

theorem send (s : State) (p : Packet) : SameEngines s (s.send p) := by
  unfold State.send
  split
  · exact (markFlits s p).trans (toUnit _ _ _ _ _)
  · exact inject s p

theorem sendDirty (s : State) (core : Nat) (l : L1Line) (waiters : List Nat) :
    SameEngines s (s.sendDirty core l waiters) := by
  have sent := send s.took
  exact ⟨sameWork_sendDirty s core l waiters, (sent _).cur, (sent _).cmds, (sent _).chans, (sent _).cq⟩

theorem updLines (s : State) (core : Nat) (p : L1Line → Bool) (f : L1Line → L1Line) :
    SameEngines s (s.updLines core p f) := updCore s core fun _ => rfl

theorem cleanLines (core : Nat) (waiters : List Nat) (l : List L1Line) (s : State) :
    SameEngines s (s.cleanLines core waiters l) := by
  induction l generalizing s with
  | nil => exact refl s
  | cons x t ih => exact ((sendDirty s core x waiters).trans (updLines _ core _ _)).trans (ih _)

theorem startDrain (s : State) (core ctx : Nat) (owner : DrainOwner) : SameEngines s (s.startDrain core ctx owner) := by
  have clean := cleanLines core [s.fresh] (s.took.dirtyLines core ctx) s.took
  exact ⟨sameWork_startDrain s core ctx owner, clean.cur, clean.cmds, clean.chans, clean.cq⟩

theorem keepsIssuer {s t : State} (h : SameEngines s t) : KeepsIssuer s t := .of_sameWork h.toSameWork h.cur

/-- An array operation that joins its core changes no command and no copy queue. -/
theorem addMat (s : State) (m : MatOp) : SameEngines s (s.addMat m) := by
  have idle {p : Prop} [Decidable p] (x : Core) (row rows : Nat) : (if p then x.markBusy row rows true else x).cq = x.cq := by
    split <;> rfl
  unfold State.addMat
  exact trans (t := s.took) ⟨sameWork_took s, rfl, rfl, rfl, fun _ => rfl⟩ (updCore _ _ fun x => idle x _ _)

end SameEngines

/-! ## The copy queue (R311) -/

/-- A command as it enters the queue: with `.ir` its core drains first. -/
def entered (c : Cmd) (ir : Bool) : Cmd := { c with stage := if ir then .draining else c.stage }

/-- The state in which a command stands in the list and in its core's queue. -/
def enqueued (s : State) (c : Cmd) : State :=
  { s.took with cmds := s.cmds ++ [c] }.updCore c.core fun x => { x with cq := x.cq ++ [c.id] }

/-- A command stands in the list and in its core's queue. -/
def Queued (c : Cmd) (u : State) : Prop := c ∈ u.cmds ∧ c.id ∈ (u.core c.core).cq

theorem Queued.same {c : Cmd} {t u : State} (h : Queued c t) (same : SameEngines t u) : Queued c u := by
  rwa [Queued, same.cmds, same.cq]

theorem queued_enqueued (s : State) (c : Cmd) : Queued c (enqueued s c) := by
  refine ⟨List.mem_append_right _ List.mem_cons_self, ?_⟩
  rw [enqueued, core_updCore, if_pos rfl]
  exact List.mem_append_right _ List.mem_cons_self

theorem addCmd_enqueues (s : State) (c : Cmd) (ir : Bool) :
    SameEngines (enqueued (s.countGrp c.sb) (entered c ir)) (s.addCmd c ir) := by
  cases ir with
  | false => exact .refl _
  | true => exact .startDrain (enqueued (s.countGrp c.sb) (entered c true)) _ _ _

theorem keepsIssuer_addCmd (s : State) (c : Cmd) (ir : Bool) : KeepsIssuer (s.countGrp c.sb) (s.addCmd c ir) := by
  have entered_ : KeepsIssuer (s.countGrp c.sb) (enqueued (s.countGrp c.sb) (entered c ir)) :=
    .of_sameWork ⟨rfl, rfl, rfl, rfl⟩ rfl
  exact entered_.trans (addCmd_enqueues s c ir).keepsIssuer

theorem queued_addCmd (s : State) (c : Cmd) (ir : Bool) : Queued (entered c ir) (s.addCmd c ir) :=
  (queued_enqueued _ _).same (addCmd_enqueues s c ir)

theorem blocks_addCmd (s : State) (c : Cmd) (ir : Bool) : (s.addCmd c ir).blocks = s.blocks :=
  (addCmd_enqueues s c ir).blocks.trans (blocks_countGrp s c.sb)

/-! ## Descriptors (R298, R312) -/

/-- The base and the strides are multiples of 32, and the counts are 1 to 65,535. -/
structure RunFits (r : Run) : Prop where
  base : r.base.toNat % 32 = 0
  stride : ∀ x ∈ r.stride, x % 32 = 0
  counts : ∀ n ∈ r.n0 :: r.n, 1 ≤ n ∧ n < 65536

theorem RunFits.aligned {r : Run} (h : RunFits r) : r.aligned = true :=
  Bool.and_eq_true_iff.mpr ⟨beq_iff_eq.mpr h.base, List.all_eq_true.mpr fun x mem => beq_iff_eq.mpr (h.stride x mem)⟩

theorem RunFits.countsOk {r : Run} (h : RunFits r) : r.countsOk = true :=
  List.all_eq_true.mpr fun n mem => decide_eq_true (h.counts n mem)

theorem runChecks_pass {r : Run} (h : RunFits r) {named size : Bool} (is_named : named = true) (fits : size = true) :
    ∀ e ∈ runChecks r named size, e.1 = false := by
  simp [runChecks, h.aligned, h.countsOk, is_named, fits]

theorem queueRoom_of_length {s : State} {core : Nat} (room : (s.core core).cq.length < 16) : s.queueRoom core = true :=
  decide_eq_true room

/-! ## The instructions (R313 to R315) -/

section
variable {s : State} (engine : s.engineIssues)
include engine

/-- A command that enters the queue while its tile changes leaves its issuer past the instruction. -/
theorem addCmd_updTile_finish (c : Cmd) (ir : Bool) (side k : Nat) (f : Tile → Tile) :
    let u := ((s.addCmd c ir).updTile s.engBlk side k f).finish
    Left s c.sb u ∧ (u.blk s.engBlk).tile side k = f (s.engBlock.tile side k) ∧ Queued (entered c ir) u := by
  refine ⟨left_finish engine ((keepsIssuer_addCmd s c ir).trans (.updTile _ _ _ _ _)), ?tile, ?queued⟩
  case tile =>
    rw [tile_finish, tile_updTile_self _ (by rw [blocks_addCmd]; exact engBlk_lt engine), blk_of_blocks (blocks_addCmd s c ir)]
    rfl
  case queued =>
    rw [Queued, core_finish, finish_cmds]
    exact queued_addCmd s c ir

end

/-- The issuer has moved on, and a command of the issuer's with the runs `run` stands in its core's queue. -/
def QueuedOf (s : State) (hi : Bool) (run : Run) (P : Cmd → Prop) (u : State) : Prop :=
  s.went u ∧ u.mem = s.mem ∧ ∃ c ∈ u.cmds, c.id ∈ (u.core (s.engCore hi)).cq ∧ c.run = run ∧ c.blk = s.engBlk ∧
    c.core = s.engCore hi ∧ P c

theorem queuedOf_of_left {s u : State} {hi ir : Bool} {sb : Nat} {c : Cmd} {P : Cmd → Prop} (left : Left s sb u)
    (queued : Queued (entered c ir) u) (blk : c.blk = s.engBlk) (core : c.core = s.engCore hi) (fields : P (entered c ir)) :
    QueuedOf s hi c.run P u := by
  obtain ⟨went, mem, -⟩ := left
  obtain ⟨listed, waits⟩ := queued
  refine ⟨went, mem, entered c ir, listed, ?_, rfl, blk, core, fields⟩
  rw [← core]
  exact waits

/-- The command of a copy into a tile or from it. -/
def copyCmd (s : State) (kind : CmdKind) (t sd : Nat) (acq rel : Bool) (scope sb rnd slot : Nat) (cv hi : Bool) : Cmd :=
  { s.newCmd kind hi sb sd 11 (s.runOf sd) with
    tile := t, acq := acq, rel := rel, scope := scope, cv := cv, slot := slot, rnd := rnd }

/-- A command that is what the instruction names. -/
def IsCopy (kind : CmdKind) (t : Nat) (acq rel : Bool) (c : Cmd) : Prop :=
  c.kind = kind ∧ c.tile = t ∧ c.acq = acq ∧ c.rel = rel

/-- The tile may be named, its slots are ones that a conversion takes, and the sizes match (R313). -/
structure CopyFits (s : State) (t sd slot : Nat) (cv hi : Bool) : Prop where
  named : s.engBlock.named (s.engSide hi) t = true
  slots : cv = true → copySlot (s.slotFor s.engBlk slot) = true ∧
    copySlot (s.slotFor s.engBlk (s.engBlock.tile (s.engSide hi) t).fslot) = true
  size : copySize cv (s.slotFor s.engBlk slot) (s.slotFor s.engBlk (s.engBlock.tile (s.engSide hi) t).fslot) (s.runOf sd)
    (s.engBlock.tile (s.engSide hi) t) = true

theorem CopyFits.slotBad {s : State} {t sd slot : Nat} {cv hi : Bool} (h : CopyFits s t sd slot cv hi) :
    (cv && s.engBlock.named (s.engSide hi) t && !(copySlot (s.slotFor s.engBlk slot) &&
      copySlot (s.slotFor s.engBlk (s.engBlock.tile (s.engSide hi) t).fslot))) = false := by
  cases cv with
  | false => rfl
  | true =>
    obtain ⟨outer, own⟩ := h.slots rfl
    simp [outer, own]

/-- A tile that begins to fill under a copy. -/
def copying (x : Tile) : Tile := { x with state := 1, copy := true }

section
variable {s : State} (engine : s.engineIssues) {sd : Nat} {hi : Bool} (free : s.engRegsFree (sregs sd 11) [])
  (mode : s.hiBad hi = false) (room : (s.core (s.engCore hi)).cq.length < 16) (run : RunFits (s.runOf sd))
include engine free mode room run

section
variable {t slot : Nat} {cv : Bool} (fits : CopyFits s t sd slot cv hi) (acq rel ir : Bool) (scope sb rnd : Nat)
include fits

theorem tcopy_queues (empty : (s.engBlock.tile (s.engSide hi) t).state = 0)
    (barrier : s.txInside s.engBlk (s.engSide hi) (s.engBlock.tile (s.engSide hi) t).txb = true) :
    ∃ u, exec (.tcopy t sd acq rel scope ir sb rnd slot cv hi) s = .next u ∧
      (u.blk s.engBlk).tile (s.engSide hi) t = copying (s.engBlock.tile (s.engSide hi) t) ∧
      QueuedOf s hi (s.runOf sd) (IsCopy .tcopy t acq rel) u := by
  obtain ⟨left, changed, queued⟩ := addCmd_updTile_finish engine
    (copyCmd s .tcopy t sd acq rel scope sb rnd slot cv hi) ir (s.engSide hi) t copying
  have ready : s.tcopyReady t hi = true :=
    Bool.and_eq_true_iff.mpr ⟨destReady_of_empty empty, queueRoom_of_length room⟩
  refine ⟨_, ?runs, changed, queuedOf_of_left left queued rfl rfl ⟨rfl, rfl, rfl, rfl⟩⟩
  rw [exec_tcopy, execTcopy]
  exact engineOp_runs engine free ready fits.slotBad mode (List.forall_mem_append.mpr
    ⟨runChecks_pass run fits.named fits.size, List.forall_mem_singleton.mpr (Bool.not_eq_eq_eq_not.mpr barrier)⟩)

theorem tstore_queues (readable : (s.engBlock.tile (s.engSide hi) t).readable = true) :
    ∃ u, exec (.tstore t sd acq rel scope ir sb rnd slot cv hi) s = .next u ∧
      (u.blk s.engBlk).tile (s.engSide hi) t = (s.engBlock.tile (s.engSide hi) t).toward 3 ∧
      QueuedOf s hi (s.runOf sd) (IsCopy .tstore t acq rel) u := by
  obtain ⟨left, changed, queued⟩ := addCmd_updTile_finish engine
    (copyCmd s .tstore t sd acq rel scope sb rnd slot cv hi) ir (s.engSide hi) t (Tile.toward · 3)
  have ready : s.tstoreReady t hi = true :=
    Bool.and_eq_true_iff.mpr ⟨operandReady_of_readable readable, queueRoom_of_length room⟩
  refine ⟨_, ?runs, changed, queuedOf_of_left left queued rfl rfl ⟨rfl, rfl, rfl, rfl⟩⟩
  rw [exec_tstore, execTstore]
  exact engineOp_runs engine free ready fits.slotBad mode (runChecks_pass run fits.named fits.size)

end

omit room in
/-- The rows of a `tstore.hz` are read in array order beside its command (R315). -/
theorem tstoreHz_queues {r rows1 c0 : Nat} (ready : s.tstoreHzReady hi r (rows1 + 1) = true)
    (whole : (s.runOf sd).sectors * 2 % (rows1 + 1) = 0) (cols : 16 * c0 + hzCells (s.runOf sd) (rows1 + 1) ≤ 256)
    (inside : s.rowsInside r (rows1 + 1) = true) (acq rel ir : Bool) (scope sb : Nat) :
    ∃ u, exec (.tstoreHz sd acq rel scope ir sb hi r rows1 c0) s = .next u ∧
      QueuedOf s hi (s.runOf sd) (fun c => c.kind = .tstoreHz ∧ c.rows = rows1 + 1 ∧ c.c0 = c0) u := by
  let c : Cmd := { s.newCmd .tstoreHz hi sb sd 11 (s.runOf sd) with
    acq := acq, rel := rel, scope := scope, row := s.firstRow (s.engSide hi) r, rows := rows1 + 1, c0 := c0
    kk := hzCells (s.runOf sd) (rows1 + 1) }
  let m : MatOp := { MatOp.mk' s.engBlk (s.engSide hi) (.hzRows c.id) c.row (rows1 + 1) (rows1 + 1) true with
    owner := s.engGrp.map fun g => (g, 0) }
  have left : Left s c.sb ((s.addCmd c ir).addMat m).finish :=
    left_finish engine ((keepsIssuer_addCmd s c ir).trans (.addMat _ m))
  have queued : Queued (entered c ir) ((s.addCmd c ir).addMat m).finish := by
    rw [Queued, core_finish, finish_cmds]
    exact (queued_addCmd s c ir).same (.addMat _ m)
  refine ⟨_, ?runs, queuedOf_of_left left queued rfl rfl ⟨rfl, rfl, rfl⟩⟩
  rw [exec_tstoreHz, execTstoreHz]
  refine engineOp_runs engine free ready rfl mode (List.forall_mem_append.mpr ⟨runChecks_pass run rfl rfl, ?_⟩)
  simp [whole, cols, inside]

end

/-- Settles O31: both copies change their tile beside the command, and `tstore.hz` has an array operation beside it. -/
theorem copiesEnterTheQueue : Obligations.CopiesEnterTheQueue := by
  intro t sd scope sb rnd slot r rows1 c0 acq rel ir cv hi s engine b side tile wt w run queued free mode room base stride counts
  have run_fits : RunFits (s.runOf sd) := ⟨base, stride, counts⟩
  refine ⟨fun named slots size => ?copies, fun ready whole cols inside =>
    tstoreHz_queues engine free mode run_fits ready whole cols inside acq rel ir scope sb⟩
  have fits : CopyFits s t sd slot cv hi := ⟨named, slots, size⟩
  refine ⟨fun empty barrier => ?into, fun readable => ?from_⟩
  case into =>
    obtain ⟨u, runs, changed, queued⟩ :=
      tcopy_queues engine free mode room run_fits fits acq rel ir scope sb rnd empty barrier
    exact ⟨u, runs, congrArg Tile.state changed, congrArg Tile.copy changed, queued⟩
  case from_ =>
    obtain ⟨u, runs, changed, queued⟩ := tstore_queues engine free mode room run_fits fits acq rel ir scope sb rnd readable
    exact ⟨u, runs, fun no_read => (congrArg Tile.state changed).trans (congrArg Tile.state (if_pos no_read)), queued⟩

end Sys2Proof.Proofs
end

section
/-!
SUPPORT. The streaming loop and the chains (R306, R307, R316), and the statement about them.
-/
namespace Sys2Proof.Proofs
open Sys2Proof.Machine Sys2Proof.Laws

/-! ## `mloop` (R306, R307) -/

/-- Busy bits are not in the copy queue. -/
theorem cq_markRows (rows : List Nat) (x : Core) :
    (rows.foldl (fun (x : Core) r => x.markBusy r 1 true) x).cq = x.cq :=
  List.foldlRecOn rows _ (motive := fun y : Core => y.cq = x.cq) rfl fun _ same _ _ => same

/-- Two tiles that begin to fill, whether their names are two entries' or one's. -/
theorem filling_both (s : State) {b : Nat} (stands : b < s.blocks.length) (side j k : Nat) :
    let u := (s.updTile b side j filling).updTile b side k filling
    ((u.blk b).tile side j).state = 1 ∧ ((u.blk b).tile side k).state = 1 := by
  have still : b < (s.updTile b side j filling).blocks.length := by
    rwa [(KeepsIssuer.updTile s b side j filling).blocks]
  refine ⟨?first, by rw [tile_updTile_self _ still]; rfl⟩
  rw [tile_updTile _ still]
  split
  · rfl
  · rw [tile_updTile_self _ stands]; rfl

/-- The command of an `mloop` is in the queue, and its rows are busy. -/
def loopQueued (s : State) (c : Cmd) (rows : List Nat) : State :=
  (s.addCmd c false).updCore (s.engBlock.coreAt 0) fun x => rows.foldl (fun (x : Core) r => x.markBusy r 1 true) x

/-- The state in which an `mloop` has issued. -/
def loopIssued (s : State) (ta tb : Nat) (c : Cmd) (rows : List Nat) : State :=
  ((loopQueued s c rows).updTile s.cur.blk 0 ta filling).updTile s.cur.blk 0 tb filling

section
variable {s : State} (streams : s.streamIssues)
include streams

theorem keepsIssuer_loopQueued (c : Cmd) (rows : List Nat) : KeepsIssuer s (loopQueued s c rows) := by
  have entered_ := keepsIssuer_addCmd s c false
  rw [countGrp_stream streams.1] at entered_
  exact entered_.trans (.updCore _ _ _)

theorem engBlk_loopQueued (c : Cmd) (rows : List Nat) : (loopQueued s c rows).engBlk = s.cur.blk :=
  (keepsIssuer_loopQueued streams c rows).engBlk.trans (engBlk_stream streams.1)

theorem loopIssued_finish (ta tb : Nat) (c : Cmd) (rows : List Nat) :
    let u := (loopIssued s ta tb c rows).finish
    s.went u ∧ u.mem = s.mem ∧ ((u.blk s.cur.blk).tile 0 ta).state = 1 ∧ ((u.blk s.cur.blk).tile 0 tb).state = 1 ∧
      Queued c u := by
  intro u
  have queued := keepsIssuer_loopQueued streams c rows
  have keeps : KeepsIssuer s (loopIssued s ta tb c rows) :=
    queued.trans ((KeepsIssuer.updTile _ _ _ _ _).trans (.updTile _ _ _ _ _))
  obtain ⟨first, second⟩ := filling_both (loopQueued s c rows) (b := s.cur.blk)
    (by rw [queued.blocks]; exact streams.2) 0 ta tb
  refine ⟨went_finish_stream streams keeps.cur keeps.blocks (by rw [keeps.seq]), (finish_mem _).trans keeps.mem, ?_, ?_, ?_⟩
  · rw [tile_finish]; exact first
  · rw [tile_finish]; exact second
  · rw [Queued, core_finish, finish_cmds]
    change Queued c (loopQueued s c rows)
    exact (queued_addCmd s c false).same (.updCore _ _ (cq_markRows rows))

/-- What the block's tiles, their slots and the descriptor of an `mloop` have to satisfy (R306, R307, R311). -/
structure LoopFits (s : State) (ta tb sd : Nat) (b : Block) (wa wb : Nat) (c : Cmd) : Prop where
  named : b.named 0 ta = true ∧ b.named 0 tb = true
  empty : (b.tile 0 ta).state = 0 ∧ (b.tile 0 tb).state = 0
  room : (s.core (b.coreAt 0)).cq.length < 16
  pair : pairOk (slotForm wa != 0 || slotForm wb != 0) wa wb = true
  bases : c.run.base.toNat % 32 = 0 ∧ c.runB.base.toNat % 32 = 0
  pitch : ∀ n ∈ c.pitch, n % 32 = 0
  strides : ∀ n ∈ c.run.stride ++ c.runB.stride, n % 32 = 0
  counts : ∀ n ∈ c.run.n, 1 ≤ n
  reserved : bits (s.engS (sd + 4)).toNat 24 8 = 0
  shape : s.mmaShape 0 (b.tile 0 ta) (b.tile 0 tb) wa wb c.kk 0 0 = true
  span : s.loopSpan c (b.tile 0 ta).rowCount (b.tile 0 tb).rowCount = true
  scales : s.scalesFit s.engBlk 0 wa (b.tile 0 ta) c.kk (b.tile 0 ta).rowCount = true ∧
    s.scalesFit s.engBlk 0 wb (b.tile 0 tb) c.kk (b.tile 0 tb).rowCount = true

/-- An `mloop` whose operands fit enters the queue. -/
theorem mloop_acts {ta tb sd : Nat} (fits : LoopFits s ta tb sd s.engBlock
      (s.slotFor s.engBlk (s.engBlock.tile 0 ta).fslot) (s.slotFor s.engBlk (s.engBlock.tile 0 tb).fslot)
      (s.loopCmd ta tb sd)) :
    exec (.mloop ta tb sd) s = .next (loopIssued s ta tb (s.loopCmd ta tb sd)
      (loopRows (s.loopCmd ta tb sd) (s.engBlock.accFirst 0) (s.engBlock.tile 0 ta).rowCount)).finish := by
  have stream := streams.1
  have room : (s.core (s.engCore false)).cq.length < 16 := by rw [engCore_eq, engSide_stream stream]; exact fits.room
  have ready : s.mloopReady ta tb = true := Bool.and_eq_true_iff.mpr
    ⟨Bool.and_eq_true_iff.mpr ⟨destReady_of_empty fits.empty.1, destReady_of_empty fits.empty.2⟩,
      queueRoom_of_length room⟩
  rw [exec_mloop, execMloop, streamOp_stream stream]
  refine (engineOp_runs (.inr streams) (engRegsFree_stream stream) ready ?slots rfl ?checks).trans ?issued
  case slots => rw [fits.pair]; exact Bool.and_false _
  case checks =>
    simp only [List.forall_mem_cons, Bool.not_eq_false', Bool.and_eq_true, beq_iff_eq, List.all_eq_true, decide_eq_true_eq]
    exact ⟨⟨⟨fits.bases, fits.pitch⟩, fits.strides⟩, fits.named, ⟨⟨⟨fits.counts, fits.reserved⟩, fits.shape⟩, fits.span⟩,
      fits.scales, nofun⟩
  case issued =>
    rw [loopIssued, ← engBlk_loopQueued streams (s.loopCmd ta tb sd)
      (loopRows (s.loopCmd ta tb sd) (s.engBlock.accFirst 0) (s.engBlock.tile 0 ta).rowCount)]
    rfl

end

/-! ## `tchain` (R316) -/

/-- A head stands in its channel. -/
def headAccepted (s : State) (key : Nat) (h : Head) : State := s.updChan key fun c => { c with heads := c.heads ++ [h] }

/-- The operation of a `tchain` whose head waits for the drain of `.ir`. -/
def comingOp (s : State) (sb ctx : Nat) : Op :=
  { Op.blank s.cur.grp (s.engCore false) ctx 0 sb .engine with stage := .releasing, port := s.cur.port }

/-- A head waits for the drain of `.ir`: its operation has joined the pipeline, and the channel knows of it. -/
def headComing (s : State) (key sb : Nat) (h : Head) : State :=
  (s.addOp (comingOp s sb h.ctx)).updChan key fun c => { c with coming := c.coming ++ [(s.fresh, false, h)] }

theorem chan_of_chans {s t : State} (chans : t.chans = s.chans) (key : Nat) : t.chan key = s.chan key := by
  rw [State.chan, chans, State.chan]

theorem chans_countNow (s : State) (sb : Nat) : (s.countNow sb).chans = s.chans := by
  unfold State.countNow
  split <;> rfl

section
variable {s : State} (issues : s.groupIssues) (key sb : Nat) (h : Head)
include issues

theorem headAccepted_finish : let u := ((headAccepted s key h).countNow sb).finish
    Left s sb u ∧ (u.chan key).heads = (s.chan key).heads ++ [h] ∧ (u.chan key).coming = (s.chan key).coming := by
  have accepted : KeepsIssuer s (headAccepted s key h) := ⟨rfl, rfl, rfl, rfl, fun _ => rfl⟩
  refine ⟨left_finish (.inl issues) (keepsIssuer_countNow (.inl issues) accepted sb), ?_⟩
  rw [chan_of_chans (finish_chans _), chan_of_chans (chans_countNow _ sb), headAccepted, chan_updChan]
  exact ⟨rfl, rfl⟩

theorem headComing_finish (core : Nat) :
    let u := ((headComing s key sb h).startDrain core h.ctx (.head key s.fresh)).finish
    Left s sb u ∧ (u.chan key).heads = (s.chan key).heads ∧
      (u.chan key).coming = (s.chan key).coming ++ [(s.fresh, false, h)] ∧
      ∃ e ∈ u.drains, e.2.owner = .head key s.fresh ∧ e.2.core = core ∧ e.2.ctx = h.ctx := by
  have drain := SameEngines.startDrain (headComing s key sb h) core h.ctx (.head key s.fresh)
  have joined : KeepsIssuer (s.countGrp sb) (headComing s key sb h) :=
    (keepsIssuer_addOp (o := comingOp s sb h.ctx) (.refl s) issues.1 rfl rfl).trans ⟨rfl, rfl, rfl, rfl, fun _ => rfl⟩
  refine ⟨left_finish (.inl issues) (joined.trans drain.keepsIssuer), ?_⟩
  rw [chan_of_chans (finish_chans _), chan_of_chans drain.chans, headComing, chan_updChan, finish_drains]
  exact ⟨rfl, rfl, _, mem_place_self .., rfl, rfl, rfl⟩

/-- A `tchain` of an aligned head whose channel has room acts. -/
theorem tchain_acts {sh ch : Nat} {ir : Bool} (free : s.regsFree (spair sh) [] 4096)
    (room : (s.chan (chanKey (isleOf (s.engCore false)) ch)).heads.length < 16)
    (aligned : ((s.grp s.cur.grp).sp sh).toNat % 64 = 0) (scope sb : Nat) :
    let key := chanKey (isleOf (s.engCore false)) ch
    let h : Head := ⟨s.ctxOf s.cur.grp, (s.grp s.cur.grp).sp sh⟩
    exec (.tchain sh ch ir scope sb) s = .next (if ir then
      (headComing s key sb h).startDrain (s.engCore false) h.ctx (.head key s.fresh)
      else (headAccepted s key h).countNow sb).finish := by
  have pair : s.engPair sh = (s.grp s.cur.grp).sp sh := by rw [State.engPair, engS_group issues.1, engS_group issues.1]; rfl
  rw [exec_tchain, execTchain, asGroup_group issues.1, pair]
  exact engineOp_runs (.inl issues) (fun _ => free) (decide_eq_true room) rfl rfl
    (List.forall_mem_singleton.mpr (by simp [aligned]))

end

/-- Settles O32: the rows of the loop are marked beside its command, and a head either stands in its channel or is coming. -/
theorem loopsAndChainsStart : Obligations.LoopsAndChainsStart := by
  intro ta tb sd sh ch scope sb ir s
  refine ⟨fun streams => ?loop, fun issues => ?chain⟩
  case loop =>
    intro b wa wb c named_a named_b empty_a empty_b room pair base_a base_b pitch strides counts reserved shape span
      scales_a scales_b
    have blk : s.engBlk = s.cur.blk := engBlk_stream streams.1
    have core : s.engCore false = b.coreAt 0 := by rw [engCore_eq, engSide_stream streams.1, blk]; rfl
    have fits : LoopFits s ta tb sd s.engBlock (s.slotFor s.engBlk (s.engBlock.tile 0 ta).fslot)
        (s.slotFor s.engBlk (s.engBlock.tile 0 tb).fslot) c := by
      rw [State.engBlock, blk]
      exact ⟨⟨named_a, named_b⟩, ⟨empty_a, empty_b⟩, room, pair, ⟨base_a, base_b⟩, pitch, strides, counts, reserved,
        shape, span, by rw [blk]; exact ⟨scales_a, scales_b⟩⟩
    obtain ⟨went, mem, first, second, listed, queued⟩ := loopIssued_finish streams ta tb c
      (loopRows c (s.engBlock.accFirst 0) (s.engBlock.tile 0 ta).rowCount)
    exact ⟨_, mloop_acts streams fits, went, mem, first, second, c, listed, rfl, core ▸ queued, rfl, rfl, rfl⟩
  case chain =>
    intro free g key room aligned
    have runs := tchain_acts (ch := ch) (ir := ir) issues free room aligned scope sb
    cases ir with
    | false =>
      obtain ⟨⟨went, mem, counts⟩, heads, coming⟩ := headAccepted_finish issues key sb ⟨s.ctxOf s.cur.grp, g.sp sh⟩
      exact ⟨_, runs, went.1 issues.1, mem, counts issues.1, fun _ => ⟨heads, coming⟩, nofun⟩
    | true =>
      obtain ⟨⟨went, mem, counts⟩, heads, coming, drains⟩ :=
        headComing_finish issues key sb ⟨s.ctxOf s.cur.grp, g.sp sh⟩ (s.engCore false)
      exact ⟨_, runs, went.1 issues.1, mem, counts issues.1, nofun, fun _ => ⟨heads, coming, drains⟩⟩

end Sys2Proof.Proofs
end

section
/-!
SUPPORT. Meeting points of the sequencers (R294, R318), and the statement about them.
-/
namespace Sys2Proof.Proofs
open Sys2Proof.Machine Sys2Proof.Laws

/-! ## What a barrier's rule leaves of the sequencers (R285, R318) -/

/-- The sequencer of a block, and its place at each barrier, are what they were. -/
structure SameMeeting (x y : Block) : Prop where
  seq : y.seq = x.seq
  bars : y.bars.length = x.bars.length
  pk : ∀ k, (y.bar k).pk = (x.bar k).pk

theorem SameMeeting.refl (x : Block) : SameMeeting x x := ⟨rfl, rfl, fun _ => rfl⟩

theorem SameMeeting.trans {x y z : Block} (h : SameMeeting x y) (k : SameMeeting y z) : SameMeeting x z :=
  ⟨k.seq.trans h.seq, k.bars.trans h.bars, fun j => (k.pk j).trans (h.pk j)⟩

/-- The issuer is what it was, and so is each block's sequencer and its place at each barrier. -/
structure KeepsMeeting (s t : State) : Prop where
  cur : t.cur = s.cur
  blocks : t.blocks.length = s.blocks.length
  blk : ∀ b, SameMeeting (s.blk b) (t.blk b)

namespace KeepsMeeting

variable {s t u : State}

theorem refl (s : State) : KeepsMeeting s s := ⟨rfl, rfl, fun _ => .refl _⟩

theorem trans (h : KeepsMeeting s t) (k : KeepsMeeting t u) : KeepsMeeting s u :=
  ⟨k.cur.trans h.cur, k.blocks.trans h.blocks, fun b => (h.blk b).trans (k.blk b)⟩

/-! Each rule below says that the relation is kept when one more change is done last, as in `KeepsExpect`. -/

theorem same (h : KeepsMeeting s t) (k : SameWork t u) (cur : u.cur = t.cur := by exact rfl) : KeepsMeeting s u :=
  h.trans ⟨cur, congrArg List.length k.blocks, fun b => by rw [blk_of_blocks k.blocks b]; exact .refl _⟩

theorem foldl {α : Type} {f : State → α → State} {l : List α} (h : KeepsMeeting s t)
    (hf : ∀ u a, KeepsMeeting u (f u a)) : KeepsMeeting s (l.foldl f t) :=
  List.foldlRecOn l f h fun v hv a _ => hv.trans (hf v a)

theorem ite {c : Prop} [Decidable c] (h : KeepsMeeting s t) (k : KeepsMeeting s u) :
    KeepsMeeting s (if c then t else u) := by
  split
  · exact h
  · exact k

theorem updGrp (h : KeepsMeeting s t) (g : Nat) (f : Machine.Group → Machine.Group) : KeepsMeeting s (t.updGrp g f) :=
  h.trans ⟨rfl, rfl, fun _ => .refl _⟩

/-- A barrier that is changed beside the sequencer's place at it. -/
theorem updBar (h : KeepsMeeting s t) (b k : Nat) {f : BlockBar → BlockBar}
    (hf : ∀ z, (f z).pk = z.pk := by exact fun _ => rfl) : KeepsMeeting s (t.updBlk b fun y => y.updBar k f) := by
  refine h.trans ⟨rfl, List.length_modify .., fun c => ?_⟩
  rw [blk_updBlk]
  split
  · refine ⟨rfl, List.length_modify .., fun j => ?_⟩
    rw [bar_updBar]
    split
    · exact hf _
    · rfl
  · exact .refl _

theorem startDrain (h : KeepsMeeting s t) (core ctx : Nat) (owner : DrainOwner) :
    KeepsMeeting s (t.startDrain core ctx owner) :=
  h.same (sameWork_startDrain t core ctx owner) (SameEngines.startDrain t core ctx owner).cur

theorem barArrivals (h : KeepsMeeting s t) (b k : Nat) : KeepsMeeting s (t.barArrivals b k) :=
  h.foldl fun u g => ite (((refl u).updGrp g _).updBar b k) (refl u)

theorem arriveLanes (h : KeepsMeeting s t) (o : Op) (k : Nat) (go : W32) : KeepsMeeting s (t.arriveLanes o k go) :=
  (h.updGrp o.grp _).same (sameWork_updOp _ o.id _)

theorem arriveAgain (h : KeepsMeeting s t) (b k : Nat) : KeepsMeeting s (t.arriveAgain b k) :=
  h.foldl fun u o => (refl u).arriveLanes o k o.again

theorem barRelease (h : KeepsMeeting s t) (b k p : Nat) : KeepsMeeting s (t.barRelease b k p) := by
  have acquired : KeepsMeeting s (if (t.blk b).pair then
      (t.blk b).cores.foldl (fun u c => u.selfInvalidate c (t.gang (t.blk b).gang).ctx) t else t) :=
    ite (h.foldl fun u c => (refl u).same (sameWork_selfInvalidate u c _)) h
  exact (acquired.foldl fun u g => (refl u).updGrp g _).same (sameWork_withOps _ _) |>.arriveAgain b k

theorem barComplete (h : KeepsMeeting s t) (b k : Nat) : KeepsMeeting s (t.barComplete b k) := by
  refine ite (foldl ?counted fun u c => (refl u).startDrain c _ _) (barRelease ?counted b k _)
  exact (h.updBar b k).same (sameWork_withOps _ _)

theorem barCheck (h : KeepsMeeting s t) (b k : Nat) : KeepsMeeting s (t.barCheck b k) :=
  ite (((h.barArrivals b k).barComplete b k).barArrivals b k) (h.barArrivals b k)

theorem seqArrive (h : KeepsMeeting s t) (b k : Nat) : KeepsMeeting s (t.seqArrive b k) :=
  ite ((h.updBar b k).barCheck b k) (h.updBar b k)

end KeepsMeeting

theorem mem_seqArrive (s : State) (b k : Nat) : (s.seqArrive b k).mem = s.mem := by
  unfold State.seqArrive
  dsimp only
  split
  · exact ((KeepsLanes.refl _).barCheck b k).mem
  · rfl

/-! ## The sequencer goes on (R318) -/

theorem bar_finish (s : State) (b k : Nat) : (s.finish.blk b).bar k = (s.blk b).bar k := by
  obtain ⟨q, ended, -⟩ := blk_finish s b
  rw [ended]
  rfl

theorem waitBar_finish (s : State) (b : Nat) : (s.finish.blk b).seq.waitBar = (s.blk b).seq.waitBar := by
  obtain ⟨q, ended, same⟩ := blk_finish s b
  rw [ended]
  exact same

/-- A sequencer's block after P_k has stepped and, with `seqbar`, the wait for phase `p` has begun. -/
def atPhase (k : Nat) (wait : Option Nat) (x : Block) : Block :=
  let y := x.updBar k fun z => { z with pk := (z.pk + 1) % 16 }
  match wait with
  | some p => { y with seq := { y.seq with waitBar := some (k * 16 + p) } }
  | none => y

theorem nextPhase_wait (s : State) (b k p : Nat) :
    ((s.nextPhase b k).updBlk b fun x => { x with seq := { x.seq with waitBar := some (k * 16 + p) } }) =
      s.updBlk b (atPhase k (some p)) := by
  simp only [State.nextPhase, State.updBlk, List.modify_modify_eq]
  rfl

theorem atPhase_off (k : Nat) (wait : Option Nat) (x : Block) : (atPhase k wait x).seq.off = x.seq.off := by
  cases wait <;> rfl

theorem atPhase_bar {k : Nat} (wait : Option Nat) {x : Block} (inside : k < x.bars.length) :
    (atPhase k wait x).bar k = { x.bar k with pk := ((x.bar k).pk + 1) % 16 } := by
  have stepped := bar_updBar x k k fun z => { z with pk := (z.pk + 1) % 16 }
  rw [if_pos ⟨rfl, inside⟩] at stepped
  cases wait <;> exact stepped

theorem atPhase_waitBar (k : Nat) (wait : Option Nat) (x : Block) :
    (atPhase k wait x).seq.waitBar = match wait with
      | some p => some (k * 16 + p)
      | none => x.seq.waitBar := by
  cases wait <;> rfl

/-- What an arrival leaves of barrier `k` of the issuing sequencer's block (R318). -/
def MetAt (s : State) (k : Nat) (u : State) : Prop :=
  let z := (s.blk s.cur.blk).bar k
  let s1 := s.updBlk s.cur.blk fun y => y.updBar k fun z => { z with arrived := z.arrived + 1 }
  s.went u ∧ u.mem = s.mem ∧
    (z.pk = z.phase → (u.blk s.cur.blk).bar k =
      { ((s1.barCheck s.cur.blk k).blk s.cur.blk).bar k with pk := (z.pk + 1) % 16 }) ∧
    (z.pk ≠ z.phase → (u.blk s.cur.blk).bar k = { z with pk := (z.pk + 1) % 16, early := z.early ++ [z.pk] })

section
variable {s : State} (streams : s.streamIssues) {k : Nat} (inside : k < (s.blk s.cur.blk).bars.length)
include streams inside

/-- A sequencer whose P_k steps goes on, whatever has become of the barrier's arrivals. -/
theorem atPhase_finish {t : State} (keeps : KeepsMeeting s t) (mem : t.mem = s.mem) (wait : Option Nat) :
    let u := (t.updBlk s.cur.blk (atPhase k wait)).finish
    s.went u ∧ u.mem = s.mem ∧ (u.blk s.cur.blk).bar k =
      { (t.blk s.cur.blk).bar k with pk := (((s.blk s.cur.blk).bar k).pk + 1) % 16 } ∧
    (u.blk s.cur.blk).seq.waitBar = match wait with
      | some p => some (k * 16 + p)
      | none => (s.blk s.cur.blk).seq.waitBar := by
  obtain ⟨seq, bars, pk⟩ := keeps.blk s.cur.blk
  have here := blk_updBlk_self t s.cur.blk (atPhase k wait) (by rw [keeps.blocks]; exact streams.2)
  refine ⟨went_finish_stream streams keeps.cur ((List.length_modify ..).trans keeps.blocks) ?off, (finish_mem _).trans mem,
    ?bar, ?waits⟩
  case off => rw [here, atPhase_off, seq]
  case bar => rw [bar_finish, here, atPhase_bar wait (by rwa [bars]), pk]
  case waits => rw [waitBar_finish, here, atPhase_waitBar, seq]

/-- An arrival is counted under the barrier's rule, or held for its phase. -/
theorem seqArrive_finish (wait : Option Nat) :
    let u := ((s.seqArrive s.cur.blk k).updBlk s.cur.blk (atPhase k wait)).finish
    MetAt s k u ∧ (u.blk s.cur.blk).seq.waitBar = match wait with
      | some p => some (k * 16 + p)
      | none => (s.blk s.cur.blk).seq.waitBar := by
  obtain ⟨went, mem, bar, waits⟩ :=
    atPhase_finish streams inside ((KeepsMeeting.refl s).seqArrive s.cur.blk k) (mem_seqArrive s s.cur.blk k) wait
  refine ⟨⟨went, mem, fun now => ?counted, fun ahead => ?held⟩, waits⟩
  case counted => rw [bar, State.seqArrive, if_pos now]
  case held =>
    rw [bar, State.seqArrive, if_neg ahead, blk_updBlk_self _ _ _ streams.2, bar_updBar, if_pos ⟨rfl, inside⟩]

theorem seqbar_meets : ∃ u, exec (.seqbar k) s = .next u ∧ MetAt s k u ∧
    (u.blk s.cur.blk).seq.waitBar = some (k * 16 + ((s.blk s.cur.blk).bar k).pk) := by
  refine ⟨_, ?_, seqArrive_finish streams inside (some ((s.blk s.cur.blk).bar k).pk)⟩
  rw [exec_seqbar, execSeqbar, streamOp_stream streams.1, ← nextPhase_wait]

theorem seqbarArv_meets : ∃ u, exec (.seqbarArv k) s = .next u ∧ MetAt s k u ∧
    (u.blk s.cur.blk).seq.waitBar = (s.blk s.cur.blk).seq.waitBar := by
  refine ⟨_, ?_, seqArrive_finish streams inside none⟩
  rw [exec_seqbarArv, execSeqbarArv, streamOp_stream streams.1]
  rfl

theorem seqbarWait_passes (past : (((s.blk s.cur.blk).bar k).phase + 16 - ((s.blk s.cur.blk).bar k).pk) % 16 ≠ 0) :
    ∃ u, exec (.seqbarWait k) s = .next u ∧ s.went u ∧ u.mem = s.mem ∧ (u.blk s.cur.blk).bar k =
      { (s.blk s.cur.blk).bar k with pk := (((s.blk s.cur.blk).bar k).pk + 1) % 16 } ∧
      (u.blk s.cur.blk).seq.waitBar = (s.blk s.cur.blk).seq.waitBar := by
  refine ⟨_, ?_, atPhase_finish streams inside (.refl s) rfl none⟩
  rw [exec_seqbarWait, execSeqbarWait, streamOp_stream streams.1]
  exact if_pos (bne_iff_ne.mpr past)

end

/-! ## Wrong issuers (R294) -/

section
variable {s : State}

theorem sequencerOnly_of_group (group : s.cur.kind = .group) (k a b c d e : Nat) (p q r x : Bool) :
    ∀ i ∈ [Instr.mma a b c d e p q r x, .mmas a b c d e p q r x, .mloop a b c, .seqbar k, .seqbarArv k, .seqbarWait k],
      exec i s = .next (s.fail (Fail.illegal 4)) := by
  simp only [List.forall_mem_cons, exec_mma, execMma, exec_mmas, execMmas, mmaOp, exec_mloop, execMloop, exec_seqbar,
    execSeqbar, exec_seqbarArv, execSeqbarArv, exec_seqbarWait, execSeqbarWait, streamOp_group group, true_and]
  exact nofun

theorem groupOnly_of_stream (stream : s.cur.kind = .stream) (a b c d : Nat) (p : Bool) :
    ∀ i ∈ [Instr.talloc a b c d, .tfree a b, .tchain a b p c d, .accrd a b c, .accwr a b c, .awset a b c p, .txinit a b c,
        .txwait a b, .txtest a b c d, .twait a b, .tstate a b c], exec i s = .next (s.fail (Fail.illegal 4)) := by
  simp only [List.forall_mem_cons, exec_talloc, execTalloc, exec_tfree, execTfree, exec_tchain, execTchain, exec_accrd,
    execAccrd, exec_accwr, execAccwr, exec_awset, execAwset, exec_txinit, execTxinit, exec_txwait, execTxwait, exec_txtest,
    execTxtest, exec_twait, execTwait, exec_tstate, execTstate, asGroup_stream stream, true_and]
  exact nofun

end

/-- Settles O33: an arrival leaves the sequencers and their places at the barriers as they were, so P_k steps from
where it stood. -/
theorem sequencerMeetingPoints : Obligations.SequencerMeetingPoints := by
  intro k a b c d e p q r x s
  refine ⟨fun streams inside => ⟨seqbar_meets streams inside, seqbarArv_meets streams inside,
    seqbarWait_passes streams inside, fun behind => ?waits⟩, fun group => sequencerOnly_of_group group k a b c d e p q r x,
    fun stream => groupOnly_of_stream stream a b c d p⟩
  case waits =>
    rw [exec_seqbarWait, execSeqbarWait, streamOp_stream streams.1]
    exact if_neg fun past => bne_iff_ne.mp past behind

end Sys2Proof.Proofs
end

section
/-!
SUPPORT. A cache that is made to fit its banks (R107, R114), special registers (R343), and the statement about them.
-/
namespace Sys2Proof.Proofs
open Sys2Proof.Machine Sys2Proof.Laws

/-! ## Lines that leave a cache (R107, R114, R149) -/

theorem sameEngines_updShare (s : State) (core ctx region : Nat) (f : Share → Share) :
    SameEngines s (s.updShare core ctx region f) := SameEngines.updCore s core fun _ => rfl

/-- A line that leaves a cache leaves as packets (R114, R402). -/
theorem sameEngines_evict (s : State) (core : Nat) (l : L1Line) : SameEngines s (s.evict core l) := by
  have returned (p : Packet) : SameEngines s (if l.excl.isSome then s.send p else s) := by
    split
    · exact .send s p
    · exact .refl s
  have written (u : State) : SameEngines u (if l.dirty = 0 then u else u.sendDirty core l []) := by
    split
    · exact .refl u
    · exact .sendDirty u core l []
  unfold State.evict
  exact ((returned _).trans (written _)).trans (SameEngines.updCore _ core fun _ => rfl)

theorem sameEngines_withFlights (s : State) (f : SMap Flight) : SameEngines s { s with flights := f } :=
  ⟨⟨rfl, rfl, rfl, rfl⟩, rfl, rfl, rfl, fun _ => rfl⟩

theorem sameEngines_sendNotice (s : State) (typ core : Nat) (d : Delta) (tag : Nat) :
    SameEngines s (s.sendNotice typ core d tag) := .send s _

/-- A delta line that drains leaves as packets (R149, R407). -/
theorem sameEngines_drainDelta (s : State) (core : Nat) (d : Delta) : SameEngines s (s.drainDelta core d) := by
  have left : SameEngines s (s.took.updCore core fun c => { c with
      deltas := c.deltas.filter (fun x => !(x.ctx == d.ctx && x.region == d.region && x.loc == d.loc)) }) :=
    SameEngines.trans (t := s.took) ⟨sameWork_took s, rfl, rfl, rfl, fun _ => rfl⟩ (.updCore _ core fun _ => rfl)
  unfold State.drainDelta
  split
  · refine SameEngines.trans ?_ (sameEngines_sendNotice _ _ _ _ _)
    refine SameEngines.trans ?_ (sameEngines_withFlights _ _)
    exact (left.trans (.send _ _)).trans (sameEngines_updShare _ core d.ctx d.region _)
  · exact left

theorem sameEngines_shrinkCache (core n : Nat) (s : State) : SameEngines s (s.shrinkCache core n) := by
  induction n generalizing s with
  | zero => exact .refl s
  | succ n ih =>
    unfold State.shrinkCache
    dsimp only
    split
    · exact .refl s
    · refine SameEngines.trans ?_ (ih _)
      split
      · exact sameEngines_evict s core _
      · split
        · exact sameEngines_drainDelta s core _
        · exact .refl s

theorem sameEngines_fitCache (s : State) (core : Nat) : SameEngines s (s.fitCache core) :=
  sameEngines_shrinkCache core _ s

theorem sameEngines_zeroed (s : State) (core : Nat) (banks : List Nat) (row n : Nat) :
    SameEngines s (s.zeroed core banks row n) := by
  unfold State.zeroed
  split
  · exact .refl s
  · exact ⟨⟨rfl, rfl, rfl, rfl⟩, rfl, rfl, rfl, fun _ => rfl⟩

/-- A change of a block's roles writes BROLE, and beside it changes caches, banks and packets alone (R107). -/
theorem sameEngines_setRoles (s : State) (b : Nat) (v : W64) :
    SameEngines (s.updBlk b fun y => { y with brole := v }) (s.setRoles b v) := by
  have side (u : State) (core : Nat) (f : Core → Core) (keeps : ∀ x, (f x).cq = x.cq) (gone : List Nat) :
      SameEngines u (((u.updCore core f).zeroed core gone 0 0).fitCache core) :=
    ((SameEngines.updCore u core keeps).trans (sameEngines_zeroed _ core gone 0 0)).trans (sameEngines_fitCache _ core)
  exact List.foldlRecOn (motive := SameEngines (s.updBlk b fun y => { y with brole := v })) _ _ (.refl _)
    fun u hu _ _ => hu.trans (side u _ _ (by exact fun _ => rfl) _)

/-! ## Special registers (R343) -/

theorem exec_srdp_wide {d n : Nat} (wide : selectorWide n = true) (s : State) : exec (.srdp d n) s =
    scalarOp s 1 [] (spair d) fun _ =>
      [(.s d, lo32 (s.sysReg s.cur.grp n)), (.s (d + 1), hi32 (s.sysReg s.cur.grp n))] := by
  simp only [exec_srdp, execSrdp, wide, if_true]

theorem exec_srdp_narrow {d n : Nat} (narrow : selectorWide n = false) (s : State) : exec (.srdp d n) s =
    scalarOp s 1 [] [.s d] fun _ => [(.s d, lo32 (s.sysReg s.cur.grp n))] := by
  simp only [exec_srdp, execSrdp, narrow, Bool.false_eq_true, if_false]

/-- What `swrp` leaves: its lanes have moved on, memory and the registers are what they were, and the control state
beside the fibres is `ctl`. -/
def LeavesControl (s : State) (ctl : Control) (u : State) : Prop :=
  s.movedOn u ∧ u.mem = s.mem ∧ { (u.grp s.cur.grp).ctl with fibs := [] } = { ctl with fibs := [] } ∧
    (s.grp s.cur.grp).sameRegs (u.grp s.cur.grp)

section
variable {s : State} {k n : Nat}

/-- `swrp` in a mode that does not allow it (R343). -/
theorem swrp_refused (group : s.cur.kind = .group) (refused : s.swrpMode n = true) :
    exec (.swrp n k) s = .next (s.fail (Fail.illegal 4)) := by
  rw [exec_swrp, execSwrp, asGroup_group group]
  exact if_pos refused

/-- `swrp` in a mode that allows it, with its operand in free registers, looks at its value (R343). -/
theorem swrp_allowed {rd : List Reg} {v : W64} (group : s.cur.kind = .group) (allowed : s.swrpMode n = false)
    (free : s.regsFree rd [] 1) (names : (if selectorWide n then spair k else [.s k]) = rd)
    (holds : (if selectorWide n then (s.grp s.cur.grp).sp k else ((s.grp s.cur.grp).s k).setWidth 64) = v) :
    exec (.swrp n k) s = .next (if s.swrpValue n v then s.fail (Fail.illegal 5) else (s.setSpecial n v).finish) := by
  subst names holds
  rw [exec_swrp, execSwrp, asGroup_group group, if_neg (ne_true_of_eq_false allowed), regFail_none free]
  exact (apply_ite Host.Outcome.next ..).symm

theorem leavesControl_updCtl (issues : s.groupIssues) {f : Control → Control} (keeps : ∀ c, (f c).fibs = c.fibs) :
    LeavesControl s (f (s.grp s.cur.grp).ctl) (s.updGrp s.cur.grp fun x => x.updCtl f).finish := by
  have after := grp_finish_updGrp issues fun x => x.updCtl f
  exact ⟨movedOn_finish_updGrp issues _ (congrArg List.length (keeps _)), finish_mem _, after ▸ rfl,
    after ▸ ⟨rfl, rfl, rfl⟩⟩

/-- BROLE written leaves the issuing group alone but that it moves on (R107). -/
theorem setRoles_finish (issues : s.groupIssues) (v : W64) :
    LeavesControl s (s.grp s.cur.grp).ctl (s.setRoles (s.grp s.cur.grp).blk v).finish ∧
      ((s.setRoles (s.grp s.cur.grp).blk v).finish.blk (s.grp s.cur.grp).blk).brole = v := by
  have same := sameEngines_setRoles s (s.grp s.cur.grp).blk v
  obtain ⟨group, exists_, stands⟩ := issues
  have ends := finish_of_group (s := s.setRoles (s.grp s.cur.grp).blk v) (by rw [same.cur]; exact group)
  have own : (s.setRoles (s.grp s.cur.grp).blk v).grp s.cur.grp = s.grp s.cur.grp := grp_of_groups same.groups _
  have after : (s.setRoles (s.grp s.cur.grp).blk v).finish.grp s.cur.grp =
      (s.grp s.cur.grp).updFibs s.cur.lanes fun _ f => f.pass s.cur := by
    rw [ends, same.cur, updBlk_cur, grp_updGrp_self _ _ _ (by rwa [same.groups]), own]
  refine ⟨⟨movedOn_finish ⟨group, exists_, stands⟩ same.cur (congrArg List.length same.groups) (by rw [own]),
    (finish_mem _).trans same.mem, after ▸ rfl, after ▸ ⟨rfl, rfl, rfl⟩⟩, ?_⟩
  rw [ends, blk_of_blocks (updGrp_blocks _ _ _), blk_of_blocks same.blocks, blk_updBlk_self _ _ _ stands]

/-! The writable selectors, each with its operand in free registers. -/

variable (issues : s.groupIssues)
include issues

theorem swrp_tvec (free : s.regsFree (spair k) [] 1) : ∃ u, exec (.swrp 1 k) s = .next u ∧
    LeavesControl s { (s.grp s.cur.grp).ctl with tvec := (s.grp s.cur.grp).sp k } u :=
  ⟨_, swrp_allowed issues.1 rfl free rfl rfl,
    leavesControl_updCtl issues (f := fun c => { c with tvec := (s.grp s.cur.grp).sp k }) fun _ => rfl⟩

theorem swrp_tpc (free : s.regsFree (spair k) [] 1) (inside : (s.grp s.cur.grp).ctl.trapMode = true) :
    ∃ u, exec (.swrp 5 k) s = .next u ∧
      LeavesControl s { (s.grp s.cur.grp).ctl with tpc := (s.grp s.cur.grp).sp k } u :=
  ⟨_, swrp_allowed issues.1 (congrArg (!·) inside) free
    rfl rfl,
    leavesControl_updCtl issues (f := fun c => { c with tpc := (s.grp s.cur.grp).sp k }) fun _ => rfl⟩

/-- A new TIDX is one of the words of a clause (R343). -/
theorem swrp_tidx (free : s.regsFree [.s k] [] 1) (inside : (s.grp s.cur.grp).ctl.trapMode = true) :
    let n := ((s.grp s.cur.grp).s k).toNat
    (n ≤ 15 → ∃ u, exec (.swrp 6 k) s = .next u ∧ LeavesControl s { (s.grp s.cur.grp).ctl with tidx := n } u) ∧
      (15 < n → exec (.swrp 6 k) s = .next (s.fail (Fail.illegal 5))) := by
  intro n
  have acts := swrp_allowed issues.1 (n := 6) (v := ((s.grp s.cur.grp).s k).setWidth 64) (congrArg (!·) inside) free
    rfl rfl
  have value : (((s.grp s.cur.grp).s k).setWidth 64).toNat = n := BitVec.toNat_setWidth_of_le (by decide)
  have leaves := leavesControl_updCtl issues
    (f := fun c => { c with tidx := (((s.grp s.cur.grp).s k).setWidth 64).toNat }) fun _ => rfl
  have checked : s.swrpValue 6 (((s.grp s.cur.grp).s k).setWidth 64) = decide (15 < n) := by
    rw [← value]
    rfl
  rw [value] at leaves
  refine ⟨fun low => ⟨_, acts.trans (congrArg _ (if_neg ?_)), leaves⟩, fun high => acts.trans (congrArg _ (if_pos ?_))⟩
  · simpa [checked] using low
  · simpa [checked] using high

/-- A new BROLE is one that the block's banks and the rules of roles allow (R107). -/
theorem swrp_brole (free : s.regsFree (spair k) [] 1) (first : (s.grp s.cur.grp).num = 0)
    (opened : (s.blk (s.grp s.cur.grp).blk).allocOpen = true) :
    let v := (s.grp s.cur.grp).sp k
    let ok := (s.blk (s.grp s.cur.grp).blk).roleOk v.toNat
    (ok = true → ∃ u, exec (.swrp 0 k) s = .next u ∧ LeavesControl s (s.grp s.cur.grp).ctl u ∧
        (u.blk (s.grp s.cur.grp).blk).brole = v) ∧
      (ok = false → exec (.swrp 0 k) s = .next (s.fail (Fail.illegal 5))) := by
  intro v ok
  have allowed : s.swrpMode 0 = false := by simp [State.swrpMode, first, opened]
  have acts := swrp_allowed (v := v) issues.1 allowed free rfl rfl
  have checked : s.swrpValue 0 v = !ok := rfl
  refine ⟨fun fits => ?_, fun unfit => acts.trans (congrArg _ (if_pos ?_))⟩
  · exact ⟨_, acts.trans (congrArg _ (if_neg (by simp [checked, fits]))), setRoles_finish issues v⟩
  · simp [checked, unfit]

end

/-- Settles O36: `srdp` has the shape of a scalar instruction, and `swrp` changes the control state, or the block's
roles, and moves on. -/
theorem systemRegisters : Obligations.SystemRegisters := by
  intro d k n s v
  refine ⟨?wide, ?narrow, ?writes⟩
  case wide =>
    rintro (rfl | rfl | rfl | rfl) <;>
      exact scalarResult_of (fun s => exec_srdp_wide rfl s) fun _ _ => rfl
  case narrow =>
    rintro (rfl | rfl | rfl | rfl | rfl | rfl) <;>
      exact scalarResult_of (fun s => exec_srdp_narrow rfl s) fun _ _ => rfl
  case writes =>
    intro issues g left
    refine ⟨fun free => ⟨swrp_tvec issues free, swrp_tpc issues free, swrp_brole issues free⟩, swrp_tidx issues,
      fun outside => ⟨swrp_refused issues.1 (congrArg (!·) outside), swrp_refused issues.1 (congrArg (!·) outside)⟩,
      fun late => swrp_refused issues.1 ?_⟩
    rcases late with other | closed
    · simp [State.swrpMode, other, g]
    · simp [State.swrpMode, closed, g]

end Sys2Proof.Proofs
end

section
/-!
SUPPORT. Taking a trap (R349 to R353), and the statement about it.
-/
namespace Sys2Proof.Proofs
open Sys2Proof.Machine Sys2Proof.Laws

/-- A fibre of a group that enters trap mode: at TVEC where its lane is in the trap set, and as it was where it is not
(R349). -/
theorem fib_enterTrap_eq (r : TrapRecord) (x : Machine.Group) {i : Nat} (h : i < x.ctl.fibs.length) :
    (enterTrap r x).fib i = if r.tlanes.getLsbD i then atVector x.ctl.tvec (x.fib i) else x.fib i :=
  fib_updFibs (recordTrap r x) _ _ h

section
variable {s : State} {g : Nat} (iaddr : W64) (set : W32) (cause info port : Nat) (tolanes : W32) (tpc : W64)
  (tidx : Nat) (addr : Option W64)

/-- A trap in a pre-emption handler ends it: the group is left to the hardware (R360, R361). -/
theorem takeTrapAt_preempt (handler : (s.grp g).handler = .preempt) :
    s.takeTrapAt iaddr g set cause info port tolanes tpc tidx addr =
      s.updGrp g fun x => { x with stopped := true, hwsave := true } :=
  if_pos handler

/-- A trap in a resume handler, or one that finds no vector or trap mode, ends the gang (R353, R363). -/
theorem takeTrapAt_terminates (ends : (s.grp g).handler = .resume ∨ (s.grp g).handler = .none ∧
      ((s.grp g).ctl.tvec = 0 ∨ (s.grp g).ctl.tvec.toNat % 4 ≠ 0 ∨ (s.grp g).ctl.trapMode = true)) :
    s.takeTrapAt iaddr g set cause info port tolanes tpc tidx addr =
      s.terminate (s.gangOf g) (s.trapReport g cause iaddr (addr.getD 0)) := by
  have not_preempt : (s.grp g).handler ≠ .preempt := by
    rcases ends with handler | ⟨handler, -⟩ <;> simp [handler]
  rw [State.takeTrapAt, if_neg not_preempt, if_pos (ends.imp_right And.right)]

end

/-- Settles O47, by the three things that a trap can do: enter trap mode, leave the group to the hardware, or end the
gang. -/
theorem takingATrap : Obligations.TakingATrap := by
  intro s g cause info port set tolanes tpc tidx addr x t y
  refine ⟨fun stands no_handler no_trap vector aligned => ?enters, fun stands handler => ?preempt,
    fun ends => ⟨takeTrapAt_terminates _ set cause info port tolanes tpc tidx addr ends, rfl⟩⟩
  case enters =>
    have taken : t = s.updGrp g _ :=
      takeTrapAt_enters no_handler no_trap vector aligned _ set cause info port tolanes tpc tidx addr
    have entered : y = enterTrap _ x := (congrArg (·.grp g) taken).trans (grp_updGrp_self s g _ stands)
    have fib {i : Nat} (hi : i < x.ctl.fibs.length) := (congrArg (·.fib i) entered).trans (fib_enterTrap_eq _ x hi)
    refine ⟨entered ▸ rfl, entered ▸ rfl, entered ▸ rfl, entered ▸ rfl, entered ▸ rfl, entered ▸ rfl, entered ▸ rfl,
      entered ▸ rfl, fun i hi trapped => ?_, fun i hi other => ?_, entered ▸ ⟨rfl, rfl, rfl⟩, entered ▸ rfl,
      entered ▸ rfl,
      taken ▸ rfl, fun k hk => ?_⟩
    · rw [fib hi, if_pos trapped]
      exact ⟨rfl, rfl, rfl, rfl, rfl, rfl, rfl⟩
    · rw [fib hi]
      exact if_neg (ne_true_of_eq_false other)
    · rw [taken]
      exact grp_updGrp_ne s g k _ (Ne.symm hk)
  case preempt =>
    have taken : t = s.updGrp g _ := takeTrapAt_preempt _ set cause info port tolanes tpc tidx addr handler
    have stopped : y = _ := (congrArg (·.grp g) taken).trans (grp_updGrp_self s g _ stands)
    exact ⟨taken ▸ rfl, stopped ▸ rfl, stopped ▸ rfl, stopped ▸ rfl, stopped ▸ ⟨rfl, rfl, rfl⟩⟩

end Sys2Proof.Proofs
end

section
/-!
SUPPORT. The return from a trap (R352) and the entry of a handler (R359), and the statement about `trapret`.
-/
namespace Sys2Proof.Proofs
open Sys2Proof.Machine Sys2Proof.Laws

/-! ## The return (R352) -/

/-- A fibre that the return from a trap sends to the header at TPC (R352). -/
def backAt (tpc : W64) (tidx : Nat) (f : Fibre) : Fibre :=
  { f.atHeader tpc with next := tidx, bkptCode := f.bkptHeld, bkptHeld := none }

/-- A group that has left trap mode (R352). -/
def leftTrap (x : Machine.Group) : Machine.Group :=
  (x.updFibs (x.ctl.tlanes &&& x.occupied) fun _ f => backAt x.ctl.tpc x.ctl.tidx f).updCtl
    fun c => { c with trapMode := false }

theorem leaveTrap_eq (s : State) (g : Nat) : s.leaveTrap g = s.updGrp g leftTrap := rfl

theorem fib_leftTrap (x : Machine.Group) {i : Nat} (h : i < x.ctl.fibs.length) :
    (leftTrap x).fib i =
      if (x.ctl.tlanes &&& x.occupied).getLsbD i then backAt x.ctl.tpc x.ctl.tidx (x.fib i) else x.fib i :=
  fib_updFibs x _ _ h

theorem length_fibs_leftTrap (x : Machine.Group) : (leftTrap x).ctl.fibs.length = x.ctl.fibs.length :=
  length_fibs_updFibs x _ _

/-- A return from a trap vacates no lane slot. -/
theorem occ_leftTrap (x : Machine.Group) {i : Nat} (h : i < x.ctl.fibs.length) :
    ((leftTrap x).fib i).occ = (x.fib i).occ := by
  rw [fib_leftTrap x h]
  split <;> rfl

theorem getElem?_fibs (x : Machine.Group) {i : Nat} (h : i < x.ctl.fibs.length) :
    x.ctl.fibs[i]? = some (x.fib i) := by
  simp [Group.fib, List.getD_eq_getElem?_getD, h]

/-! ## Entering a handler (R359, R363) -/

/-- A group that has entered handler mode: its control state is kept, and its fibres stand at the handler (R359). -/
def atHandler (h : Handler) (pc : W64) (x : Machine.Group) : Machine.Group :=
  { (x.updCtl fun c => { c with fibs := c.fibs.map fun f => f.inHandler pc, trapMode := false }) with
    saved := some x.ctl, handler := h, stopped := false }

theorem groups_captureOwed (s : State) (g : Nat) : (s.captureOwed g).groups = s.groups := rfl

theorem enterHandler_preempt (s : State) (g : Nat) (pc : W64) :
    s.enterHandler g .preempt pc = (s.captureOwed g).updGrp g (atHandler .preempt pc) := rfl

theorem sameRegs_atHandler (h : Handler) (pc : W64) (x : Machine.Group) : x.sameRegs (atHandler h pc x) :=
  ⟨rfl, rfl, rfl⟩

theorem fib_atHandler (h : Handler) (pc : W64) (x : Machine.Group) (i : Nat) :
    (atHandler h pc x).fib i = (x.fib i).inHandler pc :=
  fib_map x (f := fun f => f.inHandler pc) rfl i

/-- A group of a gang in its handlers enters its own (R359): it stands, is neither halted nor in a trap, and has neither
begun nor ended its handler. -/
structure EntersHandler (s : State) (g : Nat) : Prop where
  pre : ∃ d, (s.gang (s.gangOf g)).pre = .handlers d
  live : (s.grp g).live = true
  retired : (s.grp g).retired = false
  halted : (s.grp g).halted = false
  trapMode : (s.grp g).ctl.trapMode = false
  handler : (s.grp g).handler = .none
  pdone : (s.grp g).pdone = none

theorem handlerDue_enters {s : State} {g : Nat} (due : EntersHandler s g) :
    s.handlerDue g = s.enterHandler g .preempt (s.gang (s.gangOf g)).preemptPc := by
  obtain ⟨⟨d, pre⟩, live, retired, halted, trapMode, handler, pdone⟩ := due
  simp [State.handlerDue, pre, live, retired, halted, trapMode, handler, pdone]

theorem handlerDue_stays {s : State} {g : Nat} (not_due : ¬ EntersHandler s g) : s.handlerDue g = s := by
  unfold State.handlerDue
  dsimp only
  split
  · next d pre =>
    refine if_neg fun ready => not_due ?_
    simp only [Bool.and_eq_true, Bool.not_eq_true', beq_iff_eq, Option.isNone_iff_eq_none] at ready
    obtain ⟨⟨⟨⟨⟨live, retired⟩, halted⟩, trapMode⟩, handler⟩, pdone⟩ := ready
    exact ⟨⟨d, pre⟩, live, retired, halted, trapMode, handler, pdone⟩
  · rfl

/-! ## The statement -/

section
variable {s : State} (issues : s.groupIssues)
include issues

theorem grp_leaveTrap : (s.leaveTrap s.cur.grp).grp s.cur.grp = leftTrap (s.grp s.cur.grp) :=
  grp_updGrp_self s _ _ issues.2.1

/-- The gang of a group that has left trap mode is the one it was in. -/
theorem gang_leaveTrap : (s.leaveTrap s.cur.grp).gang ((s.leaveTrap s.cur.grp).gangOf s.cur.grp) =
    s.gang (s.gangOf s.cur.grp) := by
  have same : (s.leaveTrap s.cur.grp).gangOf s.cur.grp = s.gangOf s.cur.grp := by
    simp only [State.gangOf, grp_leaveTrap issues]
    rfl
  rw [same]
  rfl

/-- A group that has left trap mode is due for its handler where it was, but for trap mode. -/
theorem entersHandler_leaveTrap : EntersHandler (s.leaveTrap s.cur.grp) s.cur.grp ↔
    (∃ d, (s.gang (s.gangOf s.cur.grp)).pre = .handlers d) ∧ (s.grp s.cur.grp).live = true ∧
      (s.grp s.cur.grp).retired = false ∧ (s.grp s.cur.grp).halted = false ∧ (s.grp s.cur.grp).handler = .none ∧
      (s.grp s.cur.grp).pdone = none := by
  have gang := gang_leaveTrap issues
  have group := grp_leaveTrap issues
  constructor
  · rintro ⟨pre, live, retired, halted, -, handler, pdone⟩
    rw [gang] at pre
    rw [group] at live retired halted handler pdone
    exact ⟨pre, live, retired, halted, handler, pdone⟩
  · rintro ⟨pre, live, retired, halted, handler, pdone⟩
    refine ⟨gang ▸ pre, ?_, ?_, ?_, ?_, ?_, ?_⟩ <;> rw [group]
    · exact live
    · exact retired
    · exact halted
    · rfl
    · exact handler
    · exact pdone

/-- The group after a return that ends in its handler. -/
theorem grp_handler_leaveTrap (pc : W64) :
    (((s.leaveTrap s.cur.grp).enterHandler s.cur.grp .preempt pc).grp s.cur.grp) =
      atHandler .preempt pc (leftTrap (s.grp s.cur.grp)) := by
  have stands : s.cur.grp < ((s.leaveTrap s.cur.grp).captureOwed s.cur.grp).groups.length := by
    simpa [groups_captureOwed, leaveTrap_eq] using issues.2.1
  rw [enterHandler_preempt, grp_updGrp_self _ _ _ stands, grp_of_groups (groups_captureOwed _ _),
    grp_leaveTrap issues]

end

/-- Settles O37: `trapret` leaves trap mode, and the group enters its handler if it is due. -/
theorem trapReturnResumes : Obligations.TrapReturnResumes := by
  intro s issues g k back due
  have meaning : exec .trapret s = _ := (exec_trapret s).trans (asGroup_group issues.1)
  refine ⟨fun outside => meaning.trans (if_pos outside), fun inside => ?_⟩
  rw [meaning, if_neg (ne_false_of_eq_true inside)]
  refine ⟨fun odd => if_pos odd, fun aligned far => ?_, fun aligned near => ?_⟩
  · rw [if_neg (not_not_intro aligned)]
    exact if_pos far
  · rw [if_neg (not_not_intro aligned), if_neg (ne_false_of_eq_true near)]
    have control : { (leftTrap g).ctl with fibs := [] } = { g.ctl with fibs := [], trapMode := false } := rfl
    have fibs (i : Nat) (hi : i < g.ctl.fibs.length) : (leftTrap g).ctl.fibs[i]? = some (back i) := by
      rw [getElem?_fibs _ (by rwa [length_fibs_leftTrap]), fib_leftTrap g hi]
      rfl
    by_cases is_due : due
    · have ends := handlerDue_enters ((entersHandler_leaveTrap issues).mpr is_due)
      have group := grp_handler_leaveTrap issues ((s.leaveTrap s.cur.grp).gang
        ((s.leaveTrap s.cur.grp).gangOf s.cur.grp)).preemptPc
      refine ⟨_, congrArg Host.Outcome.next ends, rfl, ?_, (leftTrap g).ctl, control, fibs,
        fun not_due => absurd is_due not_due, fun _ => ?_⟩ <;> rw [group]
      · exact sameRegs_atHandler _ _ (leftTrap g)
      · refine ⟨rfl, rfl, rfl, fun i hi occ => ?_⟩
        rw [fib_atHandler, gang_leaveTrap issues, Fibre.inHandler, occ_leftTrap g hi, if_pos occ]
    · have ends := handlerDue_stays (mt (entersHandler_leaveTrap issues).mp is_due)
      have group := grp_leaveTrap issues
      exact ⟨_, congrArg Host.Outcome.next ends, rfl, group ▸ ⟨rfl, rfl, rfl⟩, (leftTrap g).ctl, control, fibs,
        fun _ => congrArg Group.ctl group, fun d => absurd d is_due⟩

end Sys2Proof.Proofs
end

section
/-!
SUPPORT. Instructions that act on a whole context (R344 to R346), the end of a handler (R360, R363) and debug reads
(R366), and the statement about them.
-/
namespace Sys2Proof.Proofs
open Sys2Proof.Machine Sys2Proof.Laws

/-! ## Permissions (R340) -/

section
variable {s : State} {ok : Ctx → Bool} {k : Machine.Group → Result} (group : s.cur.kind = .group)
include group

theorem withPermission_granted (granted : ok (s.ctx (s.ctxOf s.cur.grp)) = true) :
    withPermission s ok k = k (s.grp s.cur.grp) :=
  (asGroup_group group).trans (if_pos granted)

theorem withPermission_denied (denied : ok (s.ctx (s.ctxOf s.cur.grp)) = false) :
    withPermission s ok k = .next (s.fail (Fail.illegal 2)) :=
  (asGroup_group group).trans (if_neg (ne_true_of_eq_false denied))

end

/-! ## Waiting and completing (R342) -/

section
variable {s u : State} (issues : s.groupIssues) (same : SameWork s u) (cur : u.cur = s.cur)
include issues same cur

theorem grp_finish_same : u.finish.grp s.cur.grp = (s.grp s.cur.grp).updFibs s.cur.lanes fun _ f => f.pass s.cur := by
  have own := grp_of_groups same.groups s.cur.grp
  rw [finish_of_group (cur ▸ issues.1), cur, grp_updGrp_self _ _ _ (by rw [same.groups]; exact issues.2.1), own]

theorem movedOn_finish_same : s.movedOn u.finish :=
  movedOn_finish issues cur (congrArg List.length same.groups) (by rw [grp_of_groups same.groups])

/-- A system instruction that has nothing to wait for moves on, and one that has keeps its group, registers and memory
(R342). -/
theorem holdGroup_leaves (empty : Bool) (w : SysWait) :
    let g := s.grp s.cur.grp
    let t := u.holdGroup empty w
    t.mem = s.mem ∧ g.sameRegs (t.grp s.cur.grp) ∧
      (empty = true → s.movedOn t ∧ (t.grp s.cur.grp).sysWait = g.sysWait) ∧
      (empty = false → (t.grp s.cur.grp).sysWait = some w ∧ (t.grp s.cur.grp).ctl = g.ctl) := by
  intro g t
  cases empty with
  | true =>
    have ended : t.grp s.cur.grp = _ := grp_finish_same issues same cur
    exact ⟨(finish_mem u).trans same.mem, ended ▸ ⟨rfl, rfl, rfl⟩,
      fun _ => ⟨movedOn_finish_same issues same cur, ended ▸ rfl⟩, nofun⟩
  | false =>
    have held : t.grp s.cur.grp = { g with sysWait := some w } := by
      refine (congrArg (fun c => (u.updGrp c.grp _).grp s.cur.grp) cur).trans ?_
      rw [grp_updGrp_self _ _ _ (by rw [same.groups]; exact issues.2.1), grp_of_groups same.groups]
    exact ⟨same.mem, held ▸ ⟨rfl, rfl, rfl⟩, nofun, fun _ => held ▸ ⟨rfl, rfl⟩⟩

end

@[simp] theorem holdGroup_cores (s : State) (empty : Bool) (w : SysWait) : (s.holdGroup empty w).cores = s.cores := by
  cases empty with
  | true => exact finish_cores s
  | false => rfl

@[simp] theorem holdGroup_itlb (s : State) (empty : Bool) (w : SysWait) : (s.holdGroup empty w).itlb = s.itlb := by
  cases empty with
  | true => exact finish_itlb s
  | false => rfl

/-! ## Invalidation (R344) -/

/-- An entry that an invalidation leaves: of another context, or not for the address. -/
def Forgot (ctx : Nat) (va : Option Nat) (e : TlbEnt) : Prop :=
  match va with
  | none => e.ctx ≠ ctx
  | some a => e.hits ctx a = false

theorem forgot_ite (ctx a : Nat) (all : Bool) (e : TlbEnt) :
    Forgot ctx (if all then none else some a) e ↔ if all then e.ctx ≠ ctx else e.hits ctx a = false := by
  cases all <;> exact Iff.rfl

theorem sameWork_forget (s : State) (ctx : Nat) (va : Option Nat) : SameWork s (s.forget ctx va) := ⟨rfl, rfl, rfl, rfl⟩

/-- An invalidation leaves no entry that it names in a translation cache of a core or an isle (R344). -/
theorem forget_forgets (s : State) (ctx : Nat) (va : Option Nat) :
    (∀ c ∈ (s.forget ctx va).cores, ∀ e ∈ c.2.tlb, Forgot ctx va e) ∧
      (∀ c ∈ (s.forget ctx va).itlb, ∀ e ∈ c.2, Forgot ctx va e) := by
  constructor <;>
  · intro c hc e he
    obtain ⟨x, -, rfl⟩ := List.mem_map.mp hc
    have kept := (List.mem_filter.mp he).2
    cases va with
    | none => exact bne_iff_ne.mp kept
    | some a => exact (Bool.not_eq_true' _).mp kept

/-! ## Write-back (R345) -/

/-- The lines of a context at a core are clean. -/
def CleanAt (s : State) (core ctx : Nat) : Prop := ∀ l ∈ (s.core core).lines, l.ctx = ctx → l.dirty = 0

theorem lines_cleanLines_ne {core c : Nat} (other : core ≠ c) (waiters : List Nat) (l : List L1Line) (s : State) :
    ((s.cleanLines core waiters l).core c).lines = (s.core c).lines := by
  induction l generalizing s with
  | nil => rfl
  | cons y t ih =>
    refine (ih _).trans ?_
    rw [State.updLines, core_updCore, if_neg (Ne.symm other), lines_sendDirty]

/-- A drain of a context leaves its clean lines clean. -/
theorem CleanAt.startDrain {s : State} {c ctx : Nat} (h : CleanAt s c ctx) (core : Nat) (owner : DrainOwner) :
    CleanAt (s.startDrain core ctx owner) c ctx := by
  by_cases own : core = c
  · exact own ▸ clean_startDrain s core ctx owner
  · have same : ((s.startDrain core ctx owner).core c).lines = (s.core c).lines :=
      lines_cleanLines_ne own [s.fresh] (s.took.dirtyLines core ctx) s.took
    exact fun l hl => h l (same ▸ hl)

/-- One drain of `ctxwb`, with its number (R345). -/
def drainFor (ctx grp : Nat) (acc : State × List Nat) (c : Nat) : State × List Nat :=
  (acc.1.startDrain c ctx (.ctxwb grp), acc.2 ++ [acc.1.fresh])

/-- The drains of `ctxwb` change neither the issuer nor the work of the machine, there is one for each core, and each
leaves its core clean (R345). -/
theorem drainFor_foldl (ctx grp : Nat) (s : State) (l : List Nat) :
    SameEngines s (l.foldl (drainFor ctx grp) (s, [])).1 ∧ (l.foldl (drainFor ctx grp) (s, [])).2.length = l.length ∧
      ∀ c ∈ l, CleanAt (l.foldl (drainFor ctx grp) (s, [])).1 c ctx := by
  induction l using List.reverseRecOn with
  | nil => exact ⟨.refl s, rfl, nofun⟩
  | append_singleton l k ih =>
    obtain ⟨same, length, clean⟩ := ih
    rw [List.foldl_append, List.foldl_cons, List.foldl_nil]
    refine ⟨same.trans (.startDrain _ k ctx _), by simp [drainFor, length], fun c hc => ?_⟩
    rcases List.mem_append.mp hc with earlier | last
    · exact (clean c earlier).startDrain k _
    · exact List.mem_singleton.mp last ▸ clean_startDrain _ _ _ _

/-! ## Reclaim (R346) -/

/-- What `hzreclaim` settles: delta lines and shares of the context on cores that run no gang of it (R346). -/
theorem mem_toReclaim {s : State} {ctx c r : Nat} : (c, r) ∈ s.toReclaim ctx ↔
    c ∈ s.cores.map (·.1) ∧ s.runsOn c ctx = false ∧
      ((∃ y ∈ (s.core c).deltas, y.ctx = ctx ∧ y.region = r) ∨
        ∃ y ∈ (s.core c).shares, y.ctx = ctx ∧ y.region = r) := by
  have regions (k : Nat) : (c, r) ∈ (if s.runsOn k ctx then [] else
      (((s.core k).deltas.filter (·.ctx == ctx)).map (·.region) ++
        ((s.core k).shares.filter (·.ctx == ctx)).map (·.region)).dedup.map fun r => (k, r)) ↔
      k = c ∧ s.runsOn c ctx = false ∧ ((∃ y ∈ (s.core c).deltas, y.ctx = ctx ∧ y.region = r) ∨
        ∃ y ∈ (s.core c).shares, y.ctx = ctx ∧ y.region = r) := by
    by_cases same : k = c
    · subst same
      cases runs : s.runsOn k ctx <;> simp [and_assoc]
    · cases runs : s.runsOn k ctx <;> simp [same]
  simp only [State.toReclaim, List.mem_flatMap, regions]
  constructor
  · rintro ⟨k, listed, rfl, rest⟩
    exact ⟨listed, rest⟩
  · rintro ⟨listed, rest⟩
    exact ⟨c, listed, rfl, rest⟩

/-- The settles of `hzreclaim` (R346). -/
def sendSettles (ctx core : Nat) (l : List (Nat × Nat)) (s : State) : State :=
  l.foldl (fun (u : State) e => u.sendSettleTo (isleOf core) (unitOfCore core) ctx e.1 e.2) s

theorem sameEngines_sendSettles (ctx core : Nat) (l : List (Nat × Nat)) (s : State) :
    SameEngines s (sendSettles ctx core l s) :=
  List.foldlRecOn l _ (.refl s) fun u hu _ _ => hu.trans (.send u _)

/-! ## The end of a wait (R342 to R346) -/

section
variable {s : State} {w : SysWait} {c : Issue} (waits : (s.grp s.cur.grp).sysWait = some w)
  (ended : s.sysOver (s.ctxOf s.cur.grp) w = true)
include waits ended

/-- A group whose system instruction is over has no wait, and moves on: beside that, only translations are forgotten. -/
theorem endSystem_ends
    (issued : (∃ va l, w = .tlbinv c va l) ∨ (∃ l, w = .ctxwb c l) ∨ ∃ l, w = .hzreclaim c l) :
    ∃ u, SameWork (s.updGrp s.cur.grp fun x => { x with sysWait := none }) u ∧
      s.endSystem s.cur.grp = { { u with cur := c }.finish with cur := Issue.none } := by
  rcases issued with ⟨va, l, rfl⟩ | ⟨l, rfl⟩ | ⟨l, rfl⟩
  · refine ⟨_, sameWork_forget _ (s.ctxOf s.cur.grp) va, ?_⟩
    simp only [State.endSystem, waits, ended, if_true]
  · refine ⟨_, .refl _, ?_⟩
    simp only [State.endSystem, waits, ended, if_true]
  · refine ⟨_, .refl _, ?_⟩
    simp only [State.endSystem, waits, ended, if_true]

end

theorem ended_movedOn {s u : State} {c : Issue} (issues : s.groupIssues)
    (same : SameWork (s.updGrp s.cur.grp fun x => { x with sysWait := none }) u) (group : c.kind = .group)
    (own : c.grp = s.cur.grp) :
    ({ { u with cur := c }.finish with cur := Issue.none }.grp s.cur.grp).sysWait = none ∧
      { s with cur := c }.movedOn { { u with cur := c }.finish with cur := Issue.none } := by
  have stands : s.cur.grp < u.groups.length := by simpa [same.groups] using issues.2.1
  have before : u.grp s.cur.grp = { s.grp s.cur.grp with sysWait := none } :=
    (grp_of_groups same.groups _).trans (grp_updGrp_self s _ _ issues.2.1)
  have ended : { u with cur := c }.finish.grp s.cur.grp =
      { s.grp s.cur.grp with sysWait := none }.updFibs c.lanes fun _ f => f.pass c := by
    rw [finish_of_group (s := { u with cur := c }) group, ← before, ← own]
    exact grp_updGrp_self _ _ _ (own ▸ stands)
  refine ⟨congrArg Group.sysWait ended, fun i hi active => ?_⟩
  have place := congrArg (fun x => (x.fib i).pc) ended
  rw [fib_updFibs _ _ _ (own ▸ hi), if_pos active, pass_pc] at place
  exact own.symm ▸ place

/-! ## The end of a handler (R360, R363) -/

section
variable {s : State} {k : Nat} (issues : s.groupIssues)
include issues

theorem pdone_illegal (outside : (s.grp s.cur.grp).handler = .none) :
    exec (.pdone k) s = .next (s.fail (Fail.illegal 4)) := by
  rw [exec_pdone, execPdone, asGroup_group issues.1]
  simp only [outside]

variable (free : s.regsFree [.s k] [] 1)
include free

/-- `pdone` in a pre-emption handler names what is to be saved, in five bits (R360). -/
theorem pdone_preempt (inside : (s.grp s.cur.grp).handler = .preempt) : exec (.pdone k) s = .next
    (if 32 ≤ ((s.grp s.cur.grp).s k).toNat then s.fail (Fail.illegal 5)
      else (s.updGrp s.cur.grp fun x =>
        { x with pdone := some ((s.grp s.cur.grp).s k).toNat, stopped := true }).finish) := by
  rw [exec_pdone, execPdone, asGroup_group issues.1]
  simp only [inside, regFail_none free]
  exact (apply_ite Host.Outcome.next ..).symm

theorem pdone_resume (inside : (s.grp s.cur.grp).handler = .resume) : exec (.pdone k) s = .next
    (s.updGrp s.cur.grp fun x =>
      { x with ctl := x.saved.getD x.ctl, saved := none, handler := .none, stopped := true }) := by
  rw [exec_pdone, execPdone, asGroup_group issues.1]
  simp only [inside, regFail_none free]

end

/-! ## Debug reads (R366) -/

section
variable {s : State} {d a obj : Nat} (group : s.cur.kind = .group)
  (granted : (s.ctx (s.ctxOf s.cur.grp)).dbgr = true) (free : s.regsFree [.v a] (vpair d) 1)
include group granted free

theorem dbgrd_reads (named : ∀ i ∈ lanesOf s.cur.lanes,
      (s.debugObject s.cur.grp obj ((s.grp s.cur.grp).v i a).toNat).isSome = true) :
    exec (.dbgrd d a obj) s = .next (s.afterWrites 1 fun i =>
      putPair d (BitVec.ofNat 64 ((s.debugObject s.cur.grp obj ((s.grp s.cur.grp).v i a).toNat).getD 0))) := by
  have inside : ((lanesOf s.cur.lanes).any fun i =>
      (s.debugObject s.cur.grp obj ((s.grp s.cur.grp).v i a).toNat).isNone) = false := by
    simpa [← Option.isSome_iff_ne_none] using named
  rw [exec_dbgrd, execDbgrd, withPermission_granted group granted]
  simp only [regFail_none free, inside, Bool.false_eq_true, if_false, laneOp_next group free]

theorem dbgrd_window (unnamed : ∃ i ∈ lanesOf s.cur.lanes,
      s.debugObject s.cur.grp obj ((s.grp s.cur.grp).v i a).toNat = none) :
    exec (.dbgrd d a obj) s = .next (s.fail Fail.window) := by
  have outside : ((lanesOf s.cur.lanes).any fun i =>
      (s.debugObject s.cur.grp obj ((s.grp s.cur.grp).v i a).toNat).isNone) = true := by
    simpa using unnamed
  rw [exec_dbgrd, execDbgrd, withPermission_granted group granted]
  simp only [regFail_none free, outside, if_true]

end

/-! ## The statement -/

section
variable {s : State} (issues : s.groupIssues)
include issues

/-- `tlbinv` forgets, and waits for the walks that fly (R344). -/
theorem tlbinv_acts {a : Nat} {all : Bool} (granted : (s.ctx (s.ctxOf s.cur.grp)).tlbi = true)
    (free : s.regsFree (if all then [] else spair a) [] 1) :
    let ctx := s.ctxOf s.cur.grp
    let va : Option Nat := if all then none else some (vaBits ((s.grp s.cur.grp).sp a))
    let flying := s.walks.filter fun w => w.failed.isNone || w.ctx != ctx
    exec (.tlbinv a all) s = .next (({ s with walks := flying }.forget ctx va).holdGroup (flying.map Walk.id).isEmpty
      (.tlbinv s.cur va (flying.map Walk.id))) := by
  rw [exec_tlbinv, execTlbinv, withPermission_granted issues.1 granted]
  simp only [regFail_none free]

/-- `ctxwb` drains every core that holds lines of the context, and waits for the drains (R345). -/
theorem ctxwb_acts :
    let ctx := s.ctxOf s.cur.grp
    let drained := (s.coresHolding ctx).foldl (drainFor ctx s.cur.grp) (s, [])
    exec .ctxwb s = .next (drained.1.holdGroup drained.2.isEmpty (.ctxwb s.cur drained.2)) := by
  intro ctx drained
  have cur : drained.1.cur = s.cur := (drainFor_foldl ctx s.cur.grp s (s.coresHolding ctx)).1.cur
  rw [exec_ctxwb, execCtxwb, asGroup_group issues.1]
  exact congrArg (fun c : Issue =>
    Host.Outcome.next (drained.1.holdGroup drained.2.isEmpty (SysWait.ctxwb c drained.2))) cur

/-- `hzreclaim` settles what it reclaims, and waits for it (R346). -/
theorem hzreclaim_acts (outside : (s.grp s.cur.grp).handler = .none) :
    let owed := s.toReclaim (s.ctxOf s.cur.grp)
    let settled := sendSettles (s.ctxOf s.cur.grp) (s.grp s.cur.grp).core owed s
    exec .hzreclaim s = .next (settled.holdGroup owed.isEmpty (.hzreclaim s.cur owed)) := by
  intro owed settled
  have cur : settled.cur = s.cur := (sameEngines_sendSettles _ _ owed s).cur
  rw [exec_hzreclaim, execHzreclaim, asGroup_group issues.1, if_neg (not_not_intro outside)]
  exact congrArg (fun c : Issue =>
    Host.Outcome.next (settled.holdGroup owed.isEmpty (SysWait.hzreclaim c owed))) cur

end

/-- Settles O38: each instruction on a context does its work at once, and then holds its group or moves on; a held group
moves on at the end of its wait. -/
theorem contextMaintenance : Obligations.ContextMaintenance := by
  intro a k d obj all s issues g ctx va flying settled waits
  refine ⟨fun denied => (exec_tlbinv a all s).trans (withPermission_denied issues.1 denied), ?tlbinv, ?ctxwb,
    ?hzreclaim, fun c r => mem_toReclaim, ?inHandler, ?ends, pdone_illegal issues, ?preempt, ?resume,
    fun denied => (exec_dbgrd d a obj s).trans (withPermission_denied issues.1 denied),
    fun granted free => ⟨dbgrd_reads issues.1 granted free, dbgrd_window issues.1 granted free⟩, ?objects⟩
  case tlbinv =>
    intro granted free
    have same : SameWork s ({ s with walks := flying }.forget ctx va) := ⟨rfl, rfl, rfl, rfl⟩
    obtain ⟨mem, regs, goes, holds⟩ := holdGroup_leaves issues same rfl (flying.map Walk.id).isEmpty
      (.tlbinv s.cur va (flying.map Walk.id))
    obtain ⟨cores, itlb⟩ := forget_forgets { s with walks := flying } ctx va
    refine ⟨_, tlbinv_acts issues granted free, mem, regs, fun landed => goes (by simp [landed]), fun flies =>
      holds (by simpa using flies), fun c hc e he => ?_, fun c hc e he => ?_⟩
    · exact (forgot_ite _ _ _ e).mp (cores c (by rwa [holdGroup_cores] at hc) e he)
    · exact (forgot_ite _ _ _ e).mp (itlb c (by rwa [holdGroup_itlb] at hc) e he)
  case ctxwb =>
    obtain ⟨same, length, clean⟩ := drainFor_foldl ctx s.cur.grp s (s.coresHolding ctx)
    obtain ⟨mem, regs, -, holds⟩ := holdGroup_leaves issues same.toSameWork same.cur _ _
    refine ⟨_, ctxwb_acts issues, mem, regs, fun nobody => ?_, fun somebody => ⟨_, length, holds ?_⟩, fun c hc => ?_⟩
    · rw [nobody]
      rfl
    · rw [List.isEmpty_eq_false_iff, ← List.length_pos_iff, length]
      exact List.length_pos_iff.mpr somebody
    · have lines := clean c hc
      unfold CleanAt State.core at lines
      unfold State.core
      rwa [holdGroup_cores]
  case hzreclaim =>
    intro outside
    have same := sameEngines_sendSettles ctx g.core (s.toReclaim ctx) s
    obtain ⟨mem, regs, -, holds⟩ := holdGroup_leaves issues same.toSameWork same.cur (s.toReclaim ctx).isEmpty
      (.hzreclaim s.cur (s.toReclaim ctx))
    refine ⟨_, hzreclaim_acts issues outside, mem, regs, fun nothing => ?_,
      fun something => ⟨holds (by simpa using something), ?_⟩⟩
    · rw [nothing]
      rfl
    · rw [List.isEmpty_eq_false_iff.mpr something, State.holdGroup, same.cur]
      rfl
  case inHandler =>
    intro inside
    rw [exec_hzreclaim, execHzreclaim, asGroup_group issues.1]
    exact if_pos inside
  case ends =>
    intro w c waits ended group own issued
    obtain ⟨u, same, ends⟩ := endSystem_ends waits ended issued
    rw [ends]
    exact ended_movedOn issues same group own
  case preempt =>
    intro inside free
    have acts := pdone_preempt issues free inside
    have after := grp_finish_updGrp issues fun x => { x with pdone := some (g.s k).toNat, stopped := true }
    refine ⟨fun few => ⟨_, acts.trans (congrArg _ (if_neg (Nat.not_le.mpr few))), finish_mem _, ?_, ?_, ?_, ?_⟩,
      fun many => acts.trans (congrArg _ (if_pos many))⟩
    · exact movedOn_finish_updGrp issues _ rfl
    · exact after ▸ ⟨rfl, rfl, rfl⟩
    · exact after ▸ rfl
    · exact after ▸ rfl
  case resume =>
    intro inside free c saved
    have after := grp_updGrp_self s s.cur.grp (fun x =>
      { x with ctl := x.saved.getD x.ctl, saved := none, handler := .none, stopped := true }) issues.2.1
    refine ⟨_, pdone_resume issues free inside, rfl, after ▸ ⟨rfl, rfl, rfl⟩, ?_, after ▸ rfl, after ▸ rfl⟩
    rw [after]
    exact congrArg (·.getD g.ctl) saved
  case objects =>
    intro n
    refine ⟨?_, ?_, fun many => if_pos many, fun many => if_pos many, fun other => if_pos other⟩
    · rw [← ite_not]
      simp only [State.debugObject, not_lt]
      rfl
    · rw [← ite_not]
      simp only [State.debugObject, not_lt]
      rfl

end Sys2Proof.Proofs
end

section
/-!
SUPPORT. Supervisor commands, the freeze and pre-emption (R355, R358, R361, R364, R367, R368), and the statement about
them.
-/
namespace Sys2Proof.Proofs
open Sys2Proof.Machine Sys2Proof.Laws

/-! ## The command port (R368) -/

section
variable {s : State}

theorem onCommand_busy (busy : s.mgmt.sv.busy = true) (k : SvCmd → State) : onCommand s k = s := if_pos busy

theorem debugCommand_busy (busy : s.mgmt.sv.busy = true) (code : Nat) (k : SvCmd → Nat → List Nat → State) :
    debugCommand s code k = s := onCommand_busy busy _

theorem onCommand_free (free : s.mgmt.sv.busy = false) (k : SvCmd → State) : onCommand s k = k s.mgmt.sv :=
  if_neg (Bool.eq_false_iff.mp free)

/-! ## Page requests and pre-emption (R355, R358) -/

section
variable (free : s.mgmt.sv.busy = false)
include free

theorem pageans_unnamed (none : s.namedRequest s.mgmt.sv = none) : s.pageans = s.svEnd 1 1 := by
  rw [State.pageans, onCommand_free free, none]

theorem pageans_answers {r : PageReq} (named : s.namedRequest s.mgmt.sv = some r) (answer : s.mgmt.sv.act = false) :
    s.pageans = (s.answerPage r).svEnd 1 0 := by
  rw [State.pageans, onCommand_free free, named]
  exact if_neg (Bool.eq_false_iff.mp answer)

theorem pageans_refuses {r : PageReq} (named : s.namedRequest s.mgmt.sv = some r) (refuse : s.mgmt.sv.act = true) :
    s.pageans = { s.svRun 1 with pageReqs := s.pageReqs.map fun (x : PageReq) =>
      if x.ctx = r.ctx ∧ x.id = r.id then { x with refused := true } else x }.refusePages := by
  rw [State.pageans, onCommand_free free, named]
  exact if_pos refuse

theorem preemptCmd_unnamed (none : s.namedGang s.mgmt.sv = none) : s.preemptCmd = s.svEnd 2 1 := by
  rw [State.preemptCmd, onCommand_free free, none]

section
variable {k : Nat} (named : s.namedGang s.mgmt.sv = some k)
include named

theorem preemptCmd_refused (unfit : (s.gang k).pre ≠ .none ∨ (s.gang k).terminated = true ∨ s.mgmt.sv.img % 64 ≠ 0) :
    s.preemptCmd = s.svEnd 2 2 := by
  rw [State.preemptCmd, onCommand_free free, named]
  exact if_pos unfit

variable (fit : ¬ ((s.gang k).pre ≠ .none ∨ (s.gang k).terminated = true ∨ s.mgmt.sv.img % 64 ≠ 0))
include fit

theorem preemptCmd_small (small : s.mgmt.sv.imgLen < s.imageSize k) : s.preemptCmd = s.svEnd 2 3 := by
  rw [State.preemptCmd, onCommand_free free, named]
  exact (if_neg fit).trans (if_pos small)

theorem preemptCmd_begins (large : s.imageSize k ≤ s.mgmt.sv.imgLen) :
    s.preemptCmd = (s.svRun 2).beginPreempt k (BitVec.ofNat 64 s.mgmt.sv.img) s.mgmt.sv.imgLen := by
  rw [State.preemptCmd, onCommand_free free, named]
  exact (if_neg fit).trans (if_neg large.not_gt)

end

/-! ## The debugger (R364) -/

theorem debugCommand_unnamed (none : s.namedGroups s.mgmt.sv = none) (code : Nat)
    (k : SvCmd → Nat → List Nat → State) : debugCommand s code k = s.svEnd code 1 := by
  rw [debugCommand, onCommand_free free, none]

section
variable {b : Nat} {gs : List Nat} (named : s.namedGroups s.mgmt.sv = some (b, gs))
include named

theorem debugCommand_detached (detached : (s.ctx s.mgmt.sv.ctx).dbgatt = false) (code : Nat)
    (k : SvCmd → Nat → List Nat → State) : debugCommand s code k = s.svEnd code 2 := by
  rw [debugCommand, onCommand_free free, named]
  exact if_neg (Bool.eq_false_iff.mp detached)

variable (attached : (s.ctx s.mgmt.sv.ctx).dbgatt = true)
include attached

theorem debugCommand_attached (code : Nat) (k : SvCmd → Nat → List Nat → State) :
    debugCommand s code k = k s.mgmt.sv b gs := by
  rw [debugCommand, onCommand_free free, named]
  exact if_pos attached

/-- DBGRUN of every group of a block resumes those that are halted. -/
theorem dbgrun_block (all : s.mgmt.sv.arg / 256 = 255) :
    s.dbgrun = (((gs.filter fun g => (s.grp g).halted).foldl (fun (u : State) g => u.resumeGroup g) s).resumeBlock
      b).svEnd 3 0 := by
  rw [State.dbgrun, debugCommand_attached free named attached]
  simp [allGroups, all]

theorem dbgstep_block (all : s.mgmt.sv.arg / 256 = 255) : s.dbgstep = s.svEnd 4 2 := by
  rw [State.dbgstep, debugCommand_attached free named attached]
  match gs with
  | [] => rfl
  | [_] => exact if_pos (.inl all)
  | _ :: _ :: _ => rfl

theorem dbghalt_groups :
    let all := if (s.ctx s.mgmt.sv.ctx).dbgstop then s.standing b else gs
    let asked := all.foldl (fun (u : State) g => u.updGrp g fun x => { x with haltReq := !x.halted }) (s.svRun 5)
    s.dbghalt = (all.foldl (fun (u : State) g => u.haltAt g) asked).svCheck := by
  rw [State.dbghalt, debugCommand_attached free named attached]

end

section
variable {b g : Nat} (named : s.namedGroups s.mgmt.sv = some (b, [g]))
  (attached : (s.ctx s.mgmt.sv.ctx).dbgatt = true)
include named attached

theorem dbgrun_halted (halted : (s.grp g).halted = true) :
    s.dbgrun = ((s.resumeGroup g).resumeBlock b).svEnd 3 0 := by
  rw [State.dbgrun, debugCommand_attached free named attached]
  simp [halted]

theorem dbgstep_running (running : (s.grp g).halted = false) : s.dbgstep = s.svEnd 4 2 := by
  rw [State.dbgstep, debugCommand_attached free named attached]
  exact if_pos (.inr running)

variable (one : s.mgmt.sv.arg / 256 ≠ 255)
include one

theorem dbgrun_running (running : (s.grp g).halted = false) : s.dbgrun = s.svEnd 3 2 := by
  rw [State.dbgrun, debugCommand_attached free named attached]
  simp [allGroups, one, running]

theorem dbgstep_halted (halted : (s.grp g).halted = true) :
    s.dbgstep = ((s.svRun 4).resumeGroup g).updGrp g fun x => { x with stepping := true } := by
  rw [State.dbgstep, debugCommand_attached free named attached]
  exact if_neg (by simp [allGroups, one, halted])

end

end

end

/-! ## The freeze (R367) -/

/-- The freeze asserted anew is due within 16 base clocks; one that was due already stays due then. -/
theorem assertFreeze_due (s : State) : ∃ x, s.assertFreeze.mgmt.freezeAt = some x ∧
    (s.mgmt.freezeAt = none → s.bclk ≤ x ∧ x ≤ s.bclk + 16) := by
  refine ⟨_, rfl, fun unset => ?_⟩
  have delay : Config.freezeDelay s.tick % 17 < 17 := Nat.mod_lt _ (by decide)
  rw [unset, Option.getD_none]
  omega

/-! ## Pre-emption (R358, R361) -/

section
variable {s : State} {ga d : Nat} (quiet : s.quiesced ga = true) (waits : (s.gang ga).pre = .quiesce d)
include quiet waits

/-- What PREEMPT_QUIESCED does with the gang's groups once their control state is captured. -/
theorem execPreemptQuiesced_quiesced :
    let s1 := (s.captureGang ga).updGang ga fun g => { g with pre := .handlers d }
    exec (.preemptQuiesced ga) s = if (s1.gang ga).preemptPc = 0 ∨ d ≤ s1.ptime then
        .next ((s1.liveOf ga).foldl
          (fun (u : State) g => u.updGrp g fun x => { x with stopped := true, hwsave := true }) s1)
      else .next ((s1.liveOf ga).foldl (fun (u : State) g =>
        (u.updGrp g fun x => { x with stopped := !x.ctl.trapMode }).handlerDue g) s1) := by
  rw [exec_preemptQuiesced, execPreemptQuiesced, if_pos quiet, waits]

end

/-- A group that the hardware saves: it has stopped. -/
def LeftToHardware (x : Machine.Group) : Prop := x.stopped = true ∧ x.hwsave = true

/-- A group that has not ended its handler stops and is left to the hardware. -/
def stopUnsaved (u : State) (g : Nat) : State :=
  if (u.grp g).doneSaving then u else u.updGrp g fun x => { x with stopped := true, hwsave := true }

theorem execPreemptDeadline_passed {s : State} {ga : Nat} (passed : s.deadlinePassed ga = true) :
    exec (.preemptDeadline ga) s = .next ((s.liveOf ga).foldl stopUnsaved s) := if_pos passed

section
variable (u : State) (k : Nat)

theorem mem_stopUnsaved : (stopUnsaved u k).mem = u.mem := by
  rw [stopUnsaved]
  split <;> rfl

theorem length_groups_stopUnsaved : (stopUnsaved u k).groups.length = u.groups.length := by
  rw [stopUnsaved]
  split
  · rfl
  · exact List.length_modify ..

theorem grp_stopUnsaved_ne {g : Nat} (other : k ≠ g) : (stopUnsaved u k).grp g = u.grp g := by
  rw [stopUnsaved]
  split
  · rfl
  · exact grp_updGrp_ne u k g _ other

theorem stopUnsaved_left (inside : k < u.groups.length) (unsaved : (u.grp k).doneSaving = false) :
    LeftToHardware ((stopUnsaved u k).grp k) := by
  rw [stopUnsaved, if_neg (Bool.eq_false_iff.mp unsaved), grp_updGrp_self u k _ inside]
  exact ⟨rfl, rfl⟩

/-- A group left to the hardware stays so: it counts as saved. -/
theorem stopUnsaved_keeps_left {g : Nat} (left : LeftToHardware (u.grp g)) :
    LeftToHardware ((stopUnsaved u k).grp g) := by
  obtain rfl | other := eq_or_ne k g
  · rw [stopUnsaved, if_pos (by simp [Group.doneSaving, left.2])]
    exact left
  · rwa [grp_stopUnsaved_ne u k other]

end

theorem mem_foldl_stopUnsaved (l : List Nat) (u : State) : (l.foldl stopUnsaved u).mem = u.mem :=
  List.foldlRecOn (motive := fun t : State => t.mem = u.mem) l stopUnsaved rfl
    fun t same k _ => (mem_stopUnsaved t k).trans same

/-- Every group of the list that has not ended its handler is left to the hardware. -/
theorem foldl_stopUnsaved_left {g : Nat} (l : List Nat) (u : State) (listed : g ∈ l) (inside : g < u.groups.length)
    (unsaved : (u.grp g).doneSaving = false) : LeftToHardware ((l.foldl stopUnsaved u).grp g) := by
  induction l generalizing u with
  | nil => exact absurd listed List.not_mem_nil
  | cons k l ih =>
    obtain rfl | other := eq_or_ne k g
    · exact List.foldlRecOn (motive := fun t : State => LeftToHardware (t.grp k)) l stopUnsaved
        (stopUnsaved_left u k inside unsaved) fun t left j _ => stopUnsaved_keeps_left t j left
    · exact ih _ ((List.mem_cons.mp listed).resolve_left other.symm)
        (inside.trans_eq (length_groups_stopUnsaved u k).symm) (by rwa [grp_stopUnsaved_ne u k other])

/-! ## The statement -/

/-- Settles O54: each command as the port takes it, the freeze's due clock, and what the pre-emption events do with the
groups of their gang. -/
theorem supervisorActs : Obligations.SupervisorActs := by
  intro code ga s c
  refine ⟨fun busy i listed => ?busy, fun free => ⟨?unknown, ?noPage, fun r named => ⟨?answer, ?refuse⟩, ?noGang,
    fun k named => ⟨?unfit, fun idle alive aligned => ?preempt⟩, ?noGroups,
    fun b gs named => ⟨?detached, fun attached => ⟨?group, ?stepBlock, ?runBlock, ?halt⟩⟩, ?freeze⟩, ?pin,
    fun d quiet waits => ?quiesced, fun passed => ?deadline⟩
  case busy =>
    simp only [List.mem_cons, List.not_mem_nil, or_false] at listed
    have debug := debugCommand_busy busy
    obtain rfl | rfl | rfl | rfl | rfl | rfl | rfl := listed
    · exact congrArg Host.Outcome.next (onCommand_busy busy _)
    · exact congrArg Host.Outcome.next (onCommand_busy busy _)
    · exact congrArg Host.Outcome.next (debug 3 _)
    · exact congrArg Host.Outcome.next (debug 4 _)
    · exact congrArg Host.Outcome.next (debug 5 _)
    · exact congrArg Host.Outcome.next (onCommand_busy busy _)
    · exact congrArg Host.Outcome.next (onCommand_busy busy _)
  case unknown => exact congrArg Host.Outcome.next (onCommand_free free _)
  case noPage => exact fun none => congrArg Host.Outcome.next (pageans_unnamed free none)
  case answer => exact fun answer => congrArg Host.Outcome.next (pageans_answers free named answer)
  case refuse => exact fun refuse => congrArg Host.Outcome.next (pageans_refuses free named refuse)
  case noGang => exact fun none => congrArg Host.Outcome.next (preemptCmd_unnamed free none)
  case unfit => exact fun unfit => congrArg Host.Outcome.next (preemptCmd_refused free named unfit)
  case preempt =>
    have fit : ¬ ((s.gang k).pre ≠ .none ∨ (s.gang k).terminated = true ∨ c.img % 64 ≠ 0) := by
      simp [idle, alive, aligned]
    exact ⟨fun small => congrArg Host.Outcome.next (preemptCmd_small free named fit small),
      fun large => congrArg Host.Outcome.next (preemptCmd_begins free named fit large)⟩
  case noGroups =>
    intro none
    have unnamed := debugCommand_unnamed free none
    exact ⟨congrArg Host.Outcome.next (unnamed 3 _), congrArg Host.Outcome.next (unnamed 4 _),
      congrArg Host.Outcome.next (unnamed 5 _)⟩
  case detached =>
    intro detached
    have refused := debugCommand_detached free named detached
    exact ⟨congrArg Host.Outcome.next (refused 3 _), congrArg Host.Outcome.next (refused 4 _),
      congrArg Host.Outcome.next (refused 5 _)⟩
  case group =>
    rintro g rfl one
    exact ⟨fun running => ⟨congrArg Host.Outcome.next (dbgrun_running free named attached one running),
        congrArg Host.Outcome.next (dbgstep_running free named attached running)⟩,
      fun halted => ⟨congrArg Host.Outcome.next (dbgrun_halted free named attached halted),
        congrArg Host.Outcome.next (dbgstep_halted free named attached one halted)⟩⟩
  case stepBlock => exact fun all => congrArg Host.Outcome.next (dbgstep_block free named attached all)
  case runBlock => exact fun all => congrArg Host.Outcome.next (dbgrun_block free named attached all)
  case halt => exact congrArg Host.Outcome.next (dbghalt_groups free named attached)
  case freeze =>
    obtain ⟨x, due, soon⟩ := assertFreeze_due (s.svRun 6)
    exact ⟨(s.svRun 6).assertFreeze, x, congrArg Host.Outcome.next (onCommand_free free _), due, rfl, soon, rfl⟩
  case pin =>
    obtain ⟨x, due, soon⟩ := assertFreeze_due s
    exact ⟨s.assertFreeze, x, rfl, due, soon, rfl⟩
  case quiesced =>
    exact ⟨fun late => (execPreemptQuiesced_quiesced quiet waits).trans (if_pos late),
      fun handler early => (execPreemptQuiesced_quiesced quiet waits).trans
        (if_neg (not_or.mpr ⟨handler, early.not_ge⟩))⟩
  case deadline =>
    exact ⟨_, execPreemptDeadline_passed passed, mem_foldl_stopUnsaved _ s,
      fun g listed inside unsaved => foldl_stopUnsaved_left _ s listed inside unsaved⟩

end Sys2Proof.Proofs
end

section
/-!
SUPPORT. Bring-up, attestation, the recovery mailbox and the test port (R367, R465 to R468, R471), and the statement
about them.
-/
namespace Sys2Proof.Proofs
open Sys2Proof.Machine Sys2Proof.Laws

/-- What one element of a list sets and no element undoes holds after them all. -/
theorem foldl_of_mem {σ α : Type} {P : σ → Prop} {f : σ → α → σ} {a : α} {l : List α} (listed : a ∈ l)
    (sets : ∀ u, P (f u a)) (keeps : ∀ u b, P u → P (f u b)) (u : σ) : P (l.foldl f u) := by
  obtain ⟨before, after, rfl⟩ := List.append_of_mem listed
  rw [List.foldl_append, List.foldl_cons]
  exact List.foldlRecOn after f (sets _) fun t done b _ => keeps t b done

/-! ## Bring-up (R467) -/

theorem chip_updChip_self (s : State) (m : Nat) (f : Chip → Chip) : (s.updChip m f).chip m = f (s.chip m) :=
  look_place_self ..

theorem chip_updChip_ne (s : State) {m k : Nat} (f : Chip → Chip) (other : m ≠ k) : (s.updChip m f).chip k = s.chip k :=
  look_place_ne _ _ _ _ _ other

theorem port_updPort_self (s : State) (p : Nat) (f : VPort → VPort) : (s.updPort p f).port p = f (s.port p) :=
  look_place_self ..

theorem port_updPort_ne (s : State) {p k : Nat} (f : VPort → VPort) (other : p ≠ k) : (s.updPort p f).port k =
    s.port k :=
  look_place_ne _ _ _ _ _ other

/-- A chiplet that works, in the logical map. -/
def InMap (c : Chip) : Prop := c.state = 0 ∧ c.inMap = true

theorem joinChips_inMap (s : State) {passed k : Nat} (chiplet : k < 16) (pass : passed.testBit k = true) :
    InMap ((s.joinChips passed).chip k) := by
  refine foldl_of_mem (P := fun u : State => InMap (u.chip k))
    (List.mem_filter.mpr ⟨List.mem_range.mpr chiplet, pass⟩) (fun u => ?_) (fun u m joined => ?_) s
  · rw [chip_updChip_self]
    exact ⟨rfl, rfl⟩
  · obtain rfl | other := eq_or_ne m k
    · rw [chip_updChip_self]
      exact ⟨rfl, rfl⟩
    · rwa [chip_updChip_ne u _ other]

theorem trainPorts_up (s : State) {ports k : Nat} (port : k < 32) (trained : ports.testBit k = true) :
    ((s.trainPorts ports).port k).up = true := by
  refine foldl_of_mem (P := fun u : State => (u.port k).up = true) (List.mem_range.mpr port)
    (fun u => ?_) (fun u p up => ?_) s
  · rw [if_pos trained, port_updPort_self]
  · split
    · obtain rfl | other := eq_or_ne p k
      · rw [port_updPort_self]
      · rwa [port_updPort_ne u _ other]
    · exact up

section
variable {s : State} {b : Boot} (boot : s.mgmt.boot = some b)
include boot

theorem bootStep_starts (phase : s.mgmt.phase = 0) : s.bootStep = s.atPhase 1 := by
  simp only [State.bootStep, boot, phase]

theorem bootStep_image (phase : s.mgmt.phase = 1) : s.bootStep =
    if b.yehamOk then s.atPhase 2 else (s.updMgmt fun m => { m with recovery := true }).bootEnds false := by
  simp only [State.bootStep, boot, phase]

theorem bootStep_bases (phase : s.mgmt.phase = 2) :
    s.bootStep = if b.baseOk then (s.failChips b.chips).atPhase 3 else s.bootEnds true := by
  simp only [State.bootStep, boot, phase]

theorem bootStep_map (phase : s.mgmt.phase = 3) : s.bootStep = (s.joinChips b.chips).atPhase 4 := by
  simp only [State.bootStep, boot, phase]

theorem bootStep_host (phase : s.mgmt.phase = 4) :
    s.bootStep = if b.hostOk then s.atPhase 5 else s.bootEnds true := by
  simp only [State.bootStep, boot, phase]

theorem bootStep_ports (phase : s.mgmt.phase = 5) : s.bootStep = (s.trainPorts b.ports).atPhase 6 := by
  simp only [State.bootStep, boot, phase]

theorem bootStep_joins (phase : s.mgmt.phase = 6) : s.bootStep = (s.bootJoins.atPhase 7).bootEnds false := by
  simp only [State.bootStep, boot, phase]

end

/-! ## Attestation (R466) -/

theorem exec_attestationRequest_up {s : State} (up : 4 < s.mgmt.phase) (works : s.mgmt.recovery = false) (algOk : Bool)
    (nonce : Nat) : exec (.attestationRequest algOk nonce) s =
      .next (s.emit (if algOk then s.attestation (nonce % 2 ^ 384) else .refusedRequest)) := by
  rw [exec_attestationRequest, execAttestationRequest, if_pos (by simp [State.yehamUp, up, works])]

/-! ## The recovery mailbox (R471) -/

theorem mailboxFree_of {s : State} (recovers : s.mgmt.recovery = true) (idle : s.mgmt.mbState ≠ 1) :
    s.mailboxFree = true := by simp [State.mailboxFree, recovers, idle]

section
variable {s : State} (sigOk flashOk : Bool)

theorem commitStaging_length (bad : s.mgmt.mbLen = 0 ∨ stagingBytes < s.mgmt.mbLen) :
    s.commitStaging sigOk flashOk = s.mailboxEnds 3 1 := if_pos bad

theorem commitStaging_staged (some_byte : 0 < s.mgmt.mbLen) (inside : s.mgmt.mbLen ≤ stagingBytes) :
    s.commitStaging sigOk flashOk = if !sigOk then s.mailboxEnds 3 2 else if !flashOk then s.mailboxEnds 3 3 else
      (s.updMgmt fun m => { m with
        flash := writeBytes m.flash 0 m.mbLen (readBytes m.staging 0 m.mbLen) }).mailboxEnds 2 0 :=
  if_neg (not_or.mpr ⟨some_byte.ne', inside.not_gt⟩)

end

theorem mem_mailboxEnds (s : State) (f : Mgmt → Mgmt) (state err : Nat) :
    ((s.updMgmt f).mailboxEnds state err).mem = s.mem := rfl

theorem mbData_mailboxEnds (s : State) (f : Mgmt → Mgmt) (state err : Nat) :
    ((s.updMgmt f).mailboxEnds state err).mgmt.mbData = (f s.mgmt).mbData := rfl

/-- The identity data as IDENTIFY writes them over DATA. -/
def identityData (d : SMap Byte) : SMap Byte := (List.range 4096).foldl (fun d i => put 0 d i (Config.identityByte i)) d

theorem identity_eq (s : State) :
    s.identity = (s.updMgmt fun m => { m with mbData := identityData m.mbData }).mailboxEnds 2 0 := rfl

theorem look_identityData (d : SMap Byte) {i : Nat} (inside : i < 4096) :
    look 0 (identityData d) i = Config.identityByte i := by
  rw [identityData]
  refine foldl_of_mem (P := fun d : SMap Byte => look 0 d i = Config.identityByte i)
    (f := fun d i => put 0 d i (Config.identityByte i)) (List.mem_range.mpr inside)
    (fun d => look_put_self ..) (fun d j same => ?_) d
  obtain rfl | other := eq_or_ne j i
  · exact look_put_self ..
  · rwa [look_put_ne _ _ _ _ _ _ other]

/-! ## The test port (R367) -/

/-- A word of a width with its check bits, as it is shifted out. -/
def checkedWord (width x : Nat) : Nat :=
  x % 2 ^ width + Config.checkBits width x % 2 ^ Config.checkWidth width * 2 ^ width

section
variable (width x : Nat) (l : List Nat)

theorem checkedWord_lt : checkedWord width x < 2 ^ (width + Config.checkWidth width) := by
  have word : x % 2 ^ width < 2 ^ width := Nat.mod_lt _ (Nat.two_pow_pos _)
  have check : Config.checkBits width x % 2 ^ Config.checkWidth width < 2 ^ Config.checkWidth width :=
    Nat.mod_lt _ (Nat.two_pow_pos _)
  calc checkedWord width x
      < 2 ^ width + Config.checkBits width x % 2 ^ Config.checkWidth width * 2 ^ width := Nat.add_lt_add_right word _
    _ = (Config.checkBits width x % 2 ^ Config.checkWidth width + 1) * 2 ^ width := by ring
    _ ≤ 2 ^ Config.checkWidth width * 2 ^ width := Nat.mul_le_mul_right _ check
    _ = 2 ^ (width + Config.checkWidth width) := by rw [pow_add, mul_comm]

theorem rawWords_cons : rawWords width (x :: l) = (width + Config.checkWidth width + (rawWords width l).1,
    checkedWord width x + (rawWords width l).2 * 2 ^ (width + Config.checkWidth width)) := rfl

/-- What is shifted out fits in its bits. -/
theorem rawWords_lt : (rawWords width l).2 < 2 ^ (rawWords width l).1 := by
  induction l with
  | nil => exact Nat.one_pos
  | cons x t fits =>
    rw [rawWords_cons]
    calc checkedWord width x + (rawWords width t).2 * 2 ^ (width + Config.checkWidth width)
        < 2 ^ (width + Config.checkWidth width) + (rawWords width t).2 * 2 ^ (width + Config.checkWidth width) :=
          Nat.add_lt_add_right (checkedWord_lt width x) _
      _ = ((rawWords width t).2 + 1) * 2 ^ (width + Config.checkWidth width) := by ring
      _ ≤ 2 ^ (rawWords width t).1 * 2 ^ (width + Config.checkWidth width) := Nat.mul_le_mul_right _ fits
      _ = 2 ^ (width + Config.checkWidth width + (rawWords width t).1) := by rw [pow_add _ (width + _), mul_comm]

/-- The first word stands in the lowest bits. -/
theorem rawWords_cons_mod : (rawWords width (x :: l)).2 % 2 ^ width = x % 2 ^ width := by
  rw [rawWords_cons, checkedWord, pow_add, mul_comm (2 ^ width) (2 ^ Config.checkWidth width), ← mul_assoc,
    Nat.add_mul_mod_self_right, Nat.add_mul_mod_self_right, Nat.mod_mod]

/-- The words after the first stand above it and its check bits. -/
theorem rawWords_cons_div :
    (rawWords width (x :: l)).2 / 2 ^ (width + Config.checkWidth width) = (rawWords width l).2 := by
  rw [rawWords_cons, Nat.add_mul_div_right _ _ (Nat.two_pow_pos _), Nat.div_eq_of_lt (checkedWord_lt width x), zero_add]

end

section
variable (s : State)

/-- The state after a shift of the test port. -/
def tapped (n : Nat) (x : Out) : State := { s with mgmt := { s.mgmt with tapIr := n }, out := s.out ++ [x] }

theorem exec_frzread_eq : exec .frzread s = .next (tapped s 0x21
    (.tap s.frozenRead.1 (if s.mgmt.frozen then s.frozenRead.2 else ones s.frozenRead.1))) := rfl

theorem frozenRead_eq {isle unit array : Nat} (selected : Config.frozenArray s.mgmt.tapSel = (isle, unit, array)) :
    s.frozenRead = rawWords (s.arrayWords isle unit array).1 (s.arrayWords isle unit array).2 := by
  rw [State.frozenRead, selected]

theorem frozenRead_lt : s.frozenRead.2 < 2 ^ s.frozenRead.1 := rawWords_lt ..

theorem exec_frzread_frozen (frozen : s.mgmt.frozen = true) :
    exec .frzread s = .next (tapped s 0x21 (.tap s.frozenRead.1 s.frozenRead.2)) := by
  rw [exec_frzread_eq, if_pos frozen]

theorem exec_frzread_running (running : s.mgmt.frozen = false) :
    exec .frzread s = .next (tapped s 0x21 (.tap s.frozenRead.1 (ones s.frozenRead.1))) := by
  rw [exec_frzread_eq, if_neg (Bool.eq_false_iff.mp running)]

end

/-! ## The statement -/

/-- Settles O55: the resets and the ends of bring-up's phases, what the host and the mailbox get, and what the test port
shifts out. -/
theorem managementActs : Obligations.ManagementActs := by
  intro yehamOk baseOk hostOk algOk sigOk flashOk chips ports nonce code s fresh ends tap m
  refine ⟨rfl, rfl, rfl, fun b boot => ⟨bootStep_starts boot, fun phase => ?image, fun phase => ?bases,
      fun phase => ?map, fun phase => ?host, fun phase => ?ports, bootStep_joins boot⟩,
    fun up works => exec_attestationRequest_up up works algOk nonce, fun recovers idle => ?mailbox, rfl, rfl,
    fun running => ⟨?select, ⟨_, exec_frzread_running s running⟩⟩, fun frozen => ?frozen⟩
  case image =>
    rw [bootStep_image boot phase]
    exact ⟨fun ok => if_pos ok, fun bad => if_neg (Bool.eq_false_iff.mp bad)⟩
  case bases =>
    rw [bootStep_bases boot phase]
    exact ⟨fun ok => if_pos ok, fun bad => if_neg (Bool.eq_false_iff.mp bad)⟩
  case map =>
    rw [bootStep_map boot phase]
    exact ⟨rfl, fun k chiplet pass => joinChips_inMap s chiplet pass⟩
  case host =>
    rw [bootStep_host boot phase]
    exact ⟨fun ok => if_pos ok, fun bad => if_neg (Bool.eq_false_iff.mp bad)⟩
  case ports =>
    rw [bootStep_ports boot phase]
    exact ⟨rfl, fun k port trained => trainPorts_up s port trained⟩
  case mailbox =>
    have takes : s.mailboxFree = true := mailboxFree_of recovers idle
    refine ⟨fun fits => ?_, fun unfit => ?_, fun bad => ?_, fun some_byte inside => ?_, ?_, ?_, ?_⟩
    · exact congrArg Host.Outcome.next ((if_pos takes).trans (if_pos fits))
    · exact congrArg Host.Outcome.next ((if_pos takes).trans (if_neg unfit))
    · exact congrArg Host.Outcome.next ((if_pos takes).trans (commitStaging_length sigOk flashOk bad))
    · have staged : exec (.commitImage sigOk flashOk) s = _ :=
        congrArg Host.Outcome.next ((if_pos takes).trans (commitStaging_staged sigOk flashOk some_byte inside))
      refine ⟨?_, ?_, ?_⟩
      · rintro rfl
        exact staged
      · rintro rfl rfl
        exact staged
      · rintro rfl rfl
        exact staged
    · exact congrArg Host.Outcome.next (if_pos takes)
    · exact ⟨_, congrArg Host.Outcome.next ((if_pos takes).trans (identity_eq s)), rfl, rfl, mem_mailboxEnds ..,
        fun i inside => by rw [mbData_mailboxEnds, look_identityData _ inside]⟩
    · exact congrArg Host.Outcome.next (if_pos takes)
  case select => exact congrArg Host.Outcome.next (if_neg (Bool.eq_false_iff.mp running))
  case frozen =>
    refine ⟨⟨Config.scanIn s.tick % 2 ^ 32, Nat.mod_lt _ (Nat.two_pow_pos _),
        congrArg Host.Outcome.next (if_pos frozen)⟩,
      ⟨_, _, frozenRead_lt s, exec_frzread_frozen s frozen⟩, fun isle unit array selected => ⟨?_, ?_⟩⟩
    · rw [exec_frzread_frozen s frozen, frozenRead_eq s selected]
      rfl
    · rintro x t words
      rw [words]
      exact ⟨rawWords_cons_mod _ x t, rawWords_cons_div _ x t⟩

end Sys2Proof.Proofs
end

section
/-!
SUPPORT. The machine right after power-on: every register at its reset value.
-/
namespace Sys2Proof.Proofs
open Sys2Proof.Machine Sys2Proof.Laws

/-- Right after power-on nobody issues, and there is no group whose masks could hold a fibre. -/
theorem reset_settled : State.reset.Settled := ⟨rfl, List.forall_mem_nil _⟩

/-- Settles O60: after power-on the tables of contexts, regions, queues, clusters and chiplets are empty, so every index
reads as the default of its table; the other registers stand in the reset state itself. -/
theorem resetValues : Obligations.ResetValues := by
  refine ⟨reset_settled, wf_reset, rfl, rfl, fun c => ?context, fun i => ?region, fun n => ?queue, ?scheduler,
    fun n => ?cluster, ?power, ?time, ?ceiling, fun m => ?chiplet⟩
  case context => exact ⟨rfl, rfl, rfl, rfl, rfl, rfl, rfl, rfl, rfl, rfl, rfl, rfl, rfl, rfl, rfl, rfl, rfl, rfl⟩
  case region => exact ⟨rfl, rfl, rfl, rfl, rfl, rfl, rfl, rfl, rfl⟩
  case queue => exact ⟨rfl, rfl, rfl, rfl, rfl, rfl, rfl, rfl, rfl⟩
  case scheduler => exact ⟨rfl, rfl, rfl⟩
  case cluster => exact ⟨rfl, rfl, rfl, rfl, rfl⟩
  case power => exact ⟨rfl, rfl, rfl, rfl⟩
  case time => exact ⟨rfl, rfl, rfl, rfl, rfl⟩
  case ceiling => exact ⟨rfl, rfl, rfl, rfl, rfl, rfl, rfl, rfl, rfl, rfl⟩
  case chiplet => exact ⟨rfl, rfl, rfl, rfl⟩

end Sys2Proof.Proofs
end

section
/-!
SUPPORT. Reads and writes at a slice, at the management unit, at the host port and at the Vreles ports, and the statement
about them.
-/
namespace Sys2Proof.Proofs
open Sys2Proof.Machine Sys2Proof.Laws

/-! ## What a packet or message that is sent changes (R388, R397) -/

theorem toUnit_frame (s : State) (isle unit : Nat) (p : Packet) (at_ : Nat) :
    ∃ chips mesh, s.toUnit isle unit p at_ = { s with chips := chips, mesh := mesh } := by
  unfold State.toUnit
  split
  · split
    · exact ⟨_, _, rfl⟩
    · exact ⟨_, _, rfl⟩
  · exact ⟨_, _, rfl⟩

theorem pressPort_frame (s : State) (p : Packet) : ∃ cores, s.pressPort p = { s with cores := cores } := by
  unfold State.pressPort
  split
  · exact ⟨_, rfl⟩
  · exact ⟨_, rfl⟩

theorem inject_frame (s : State) (p : Packet) :
    ∃ cores mesh, s.inject p = { s with cores := cores, mesh := mesh } := by
  unfold State.inject
  dsimp only
  split
  · next waits =>
    obtain ⟨cores, pressed⟩ := pressPort_frame (s.updMesh _) p
    exact ⟨cores, _, pressed⟩
  · exact ⟨_, _, rfl⟩

theorem markFlits_frame (s : State) (p : Packet) : ∃ errs, (s.markFlits p).1 = { s with errs := errs } := by
  unfold State.markFlits
  split
  · exact ⟨_, rfl⟩
  · exact ⟨_, rfl⟩

/-- A packet that is sent changes the mesh, the pressure at a core's port, the discards of a chiplet and the errors met. -/
theorem send_frame (s : State) (p : Packet) : ∃ cores chips mesh errs,
    s.send p = { s with cores := cores, chips := chips, mesh := mesh, errs := errs } := by
  unfold State.send
  split
  · obtain ⟨errs, marked⟩ := markFlits_frame s p
    obtain ⟨chips, mesh, handed⟩ := toUnit_frame (s.markFlits p).1 (s.markFlits p).2.disle (s.markFlits p).2.dunit
      (s.markFlits p).2 ((s.markFlits p).1.bclk + 1)
    exact ⟨_, chips, mesh, errs, handed.trans (by rw [marked])⟩
  · obtain ⟨cores, mesh, injected⟩ := inject_frame s p
    exact ⟨cores, _, mesh, _, injected⟩

theorem ptime_send (s : State) (p : Packet) : (s.send p).ptime = s.ptime := by
  obtain ⟨_, _, _, _, sent⟩ := send_frame s p
  rw [sent]

/-- Memory and the requests that wait for a peer's answer are what they were. -/
structure KeepsWaiting (s t : State) : Prop where
  mem : t.mem = s.mem
  outWait : t.mgmt.outWait = s.mgmt.outWait

namespace KeepsWaiting

theorem refl (s : State) : KeepsWaiting s s := ⟨rfl, rfl⟩

theorem trans {s t u : State} (h : KeepsWaiting s t) (k : KeepsWaiting t u) : KeepsWaiting s u :=
  ⟨k.mem.trans h.mem, k.outWait.trans h.outWait⟩

theorem send (s : State) (p : Packet) : KeepsWaiting s (s.send p) := by
  obtain ⟨_, _, _, _, sent⟩ := send_frame s p
  rw [sent]
  exact ⟨rfl, rfl⟩

theorem sendPeer (s : State) (port vc : Nat) (m : PeerMsg) : KeepsWaiting s (s.sendPeer port vc m) := by
  unfold State.sendPeer State.putPeer
  dsimp only
  split
  · split
    · exact ⟨rfl, rfl⟩
    · exact ⟨rfl, rfl⟩
  · exact ⟨rfl, rfl⟩

theorem outsideAccepted (s : State) (p : Packet) : KeepsWaiting s (s.outsideAccepted p) := by
  unfold State.outsideAccepted
  split
  · exact send s _
  · exact refl s

end KeepsWaiting

/-! ## The bytes of a request without a home (R369, R394) -/

section
variable {p : Packet}

theorem reach_line (whole : p.typ ≠ 9) : p.reach = (0, 128) := if_neg whole

theorem reach_sectors (part : p.typ = 9) : p.reach = (p.aux.headD 0, 32 * p.aux.getD 1 4) := if_pos part

/-- A byte of a write joins the last run where it follows it, and begins a run of its own elsewhere. -/
def Run.add (p : Packet) (runs : List (Nat × List Nat)) (i : Nat) : List (Nat × List Nat) :=
  if p.bmask.getLsbD i then
    match runs.getLast? with
    | some (o, l) => if o + l.length = i then runs.dropLast ++ [(o, l ++ [lineGet p.data i 1])]
      else runs ++ [(i, [lineGet p.data i 1])]
    | none => [(i, [lineGet p.data i 1])]
  else runs

/-- The bytes of runs, each with its offset. -/
def Run.bytes (runs : List (Nat × List Nat)) : List (Nat × Nat) :=
  runs.flatMap fun e => e.2.mapIdx fun k b => (e.1 + k, b)

theorem runs_eq_foldl (p : Packet) : p.runs = (List.range 128).foldl (Run.add p) [] := rfl

theorem Run.bytes_append (runs more : List (Nat × List Nat)) :
    Run.bytes (runs ++ more) = Run.bytes runs ++ Run.bytes more := List.flatMap_append

/-- A byte that follows a run stands behind the run's bytes. -/
theorem Run.bytes_extend (o b : Nat) (l : List Nat) :
    Run.bytes [(o, l ++ [b])] = Run.bytes [(o, l)] ++ [(o + l.length, b)] := by
  simp [Run.bytes, List.mapIdx_concat]

theorem Run.bytes_add (runs : List (Nat × List Nat)) (i : Nat) : Run.bytes (Run.add p runs i) =
    Run.bytes runs ++ if p.bmask.getLsbD i then [(i, lineGet p.data i 1)] else [] := by
  unfold Run.add
  split
  · split
    · next o l last =>
      have whole : runs.dropLast ++ [(o, l)] = runs := List.dropLast_append_getLast? _ last
      split
      · next follows => rw [Run.bytes_append, Run.bytes_extend, ← List.append_assoc, ← Run.bytes_append, whole, follows]
      · rw [Run.bytes_append]
        rfl
    · next first =>
      rw [List.getLast?_eq_none_iff.mp first]
      rfl
  · exact (List.append_nil _).symm

/-- The runs hold the masked bytes of the line, in order. -/
theorem bytes_runs (p : Packet) : Run.bytes p.runs =
    ((List.range 128).filter fun i => p.bmask.getLsbD i).map fun i => (i, lineGet p.data i 1) := by
  rw [runs_eq_foldl]
  induction List.range 128 using List.reverseRecOn with
  | nil => rfl
  | append_singleton l i ih =>
    rw [List.foldl_append, List.foldl_cons, List.foldl_nil, Run.bytes_add, ih, List.filter_append, List.map_append]
    by_cases masked : p.bmask.getLsbD i = true
    · simp [masked]
    · simp [masked]

end

/-! ## Requests at the units without lines (R374, R491) -/

section
variable {s : State} {isle unit : Nat} {p : Packet}

theorem rdh_next (takes : s.takesPacket isle unit 0x02 p) :
    exec (.rdh isle unit) s = .next ((s.popUnit isle unit p).readAt unit p) :=
  (exec_rdh isle unit s).trans (onPacket_next takes _)

theorem cpr_next (takes : s.takesPacket isle unit 0x09 p) :
    exec (.cpr isle unit) s = .next ((s.popUnit isle unit p).readAt unit p) :=
  (exec_cpr isle unit s).trans (onPacket_next takes _)

theorem wt_next (takes : s.takesPacket isle unit 0x03 p) :
    exec (.wt isle unit) s = .next ((s.popUnit isle unit p).writeAt unit p) :=
  (exec_wt isle unit s).trans (onPacket_next takes _)

theorem cpw_next (takes : s.takesPacket isle unit 0x0A p) :
    exec (.cpw isle unit) s = .next ((s.popUnit isle unit p).writeAt unit p) :=
  (exec_cpw isle unit s).trans (onPacket_next takes _)

end

section
variable (s : State) (p : Packet)

theorem readAt_mgmt : s.readAt unitMgmt p = s.registerRead p := rfl
theorem readAt_host : s.readAt unitHost p = s.hostAsked p := rfl
theorem readAt_vreles : s.readAt unitVreles p = s.peerAsked p := rfl
theorem writeAt_mgmt : s.writeAt unitMgmt p = s.registerStore p := rfl
theorem writeAt_host : s.writeAt unitHost p = s.hostWritten p := rfl
theorem writeAt_vreles : s.writeAt unitVreles p = s.peerWritten p := rfl

/-- DATA of `n` bytes in their place `o` of an otherwise empty line. -/
def answered (o n v flits : Nat) : State :=
  s.send { p.reply 0x10 vcR flits with data := lineSet 0 o n v, poison := 0, aux := 0 :: p.aux }

variable {p} {o n : Nat} (reach : p.reach = (o, n))
include reach

theorem registerRead_reach : s.registerRead p =
    answered s p o n (s.devRead (p.pa % 2 ^ 26 / 128 * 128 + o) n) (if o % 64 + n ≤ 64 then 1 else 2) := by
  simp only [State.registerRead, State.outsideAnswer, reach]
  rfl

/-- The host is asked, and what it answers is a free value (notes/assumptions/4). -/
theorem hostAsked_reach : ∃ v, s.hostAsked p = answered (s.emit (.hostRead ((p.pa + o) % 2 ^ 51) n)) p o n v
    (if o % 64 + n ≤ 64 then 1 else 2) := by
  refine ⟨outsideData s.tick (p.pa + o) n, ?_⟩
  simp only [State.hostAsked, State.outsideAnswer, reach]
  rfl

end

section
variable (s : State) (p : Packet)

theorem foldl_emit {α : Type} (f : α → Out) (l : List α) : l.foldl (fun (u : State) a => u.emit (f a)) s =
    { s with out := s.out ++ l.map f } := by
  induction l generalizing s with
  | nil => simp
  | cons a t ih =>
    rw [List.foldl_cons, ih, State.emit]
    simp

theorem ptime_outsideAccepted : (s.outsideAccepted p).ptime = s.ptime := by
  unfold State.outsideAccepted
  split
  · exact ptime_send _ _
  · rfl

/-- A write at the host port leaves as one posted write for each run and is acknowledged at the present time. -/
theorem hostWritten_runs :
    let posted : State := { s with out := s.out ++ p.runs.map fun e => Out.hostWrite ((p.pa + e.1) % 2 ^ 51) e.2 }
    s.hostWritten p = (posted.outsideAccepted p).send { p.reply 0x11 vcR 0 with
      tag := if p.srcCore < 256 then p.aux.headD 0 else p.tag, time := s.ptime, aux := p.aux } := by
  intro posted
  have sent : p.runs.foldl (fun (u : State) e => u.emit (.hostWrite ((p.pa + e.1) % 2 ^ 51) e.2)) s = posted :=
    foldl_emit s _ p.runs
  simp only [State.hostWritten, sent, State.outsideWritten, ptime_outsideAccepted]
  rfl

/-- A request that a peer is to answer: memory is as it was, and the request stands among those that wait. -/
def WaitsForPeer (t : State) : Prop := t.mem = s.mem ∧ ∃ tag : Nat, (tag, p) ∈ t.mgmt.outWait

/-- The request waits under a new number. -/
theorem waitsForPeer_of_keeps {t : State}
    (keeps : KeepsWaiting (s.took.updMgmt fun m => { m with outWait := place m.outWait s.fresh p }) t) :
    WaitsForPeer s p t :=
  ⟨keeps.mem, s.fresh, keeps.outWait ▸ mem_place_self _ _ _⟩

theorem peerAsked_waits : WaitsForPeer s p (s.peerAsked p) :=
  waitsForPeer_of_keeps s p (.sendPeer _ _ _ _)

theorem peerWritten_waits : WaitsForPeer s p (s.peerWritten p) :=
  waitsForPeer_of_keeps s p <| .trans
    (List.foldlRecOn _ _ (.refl _) fun _ kept _ _ => kept.trans (.sendPeer _ _ _ _)) (.outsideAccepted _ p)

end

/-! ## Requests served at a slice (R394, R399) -/

section
variable (s : State) {p : Packet}

theorem serve_rd (typ : p.typ = 1) : s.serve p =
    (s.updHome p.disle p.dunit p.loc p.pa fun h => { h with lexp := max h.lexp (s.ptime + p.aux.headD 0) }).answerData p
      (s.ptime + p.aux.headD 0) true := by
  simp [State.serve, Packet.isAcquire, typ]

theorem serve_wt (typ : p.typ = 3) : s.serve p = (s.placeRecord p (p.aux.headD 0 == 1)).applyWrite p := by
  simp [State.serve, Packet.isAcquire, typ]

theorem serve_drn (typ : p.typ = 7) : s.serve p = s.applyWrite p := by simp [State.serve, Packet.isAcquire, typ]

theorem serve_cpr (typ : p.typ = 9) : s.serve p = s.answerData p 0 false := by
  simp [State.serve, Packet.isAcquire, typ]

theorem serve_cpw (typ : p.typ = 10) : s.serve p = s.applyWrite p := by simp [State.serve, Packet.isAcquire, typ]

/-- The request whose source is the one that a read names in AUX, where it names one (R394). -/
def forwarded (p : Packet) : Packet :=
  if p.aux.getD 1 0 = 1 then { p with sisle := p.aux.getD 2 0, sunit := p.aux.getD 3 0 } else p

/-- A read that is no acquire of a line with another's record is answered to the unit that it names. -/
theorem serve_rdh (typ : p.typ = 2) (own : p.isAcquire = true →
      (∀ r, (s.homeLine p.disle p.dunit p.loc p.pa).rrec = some r → r = (p.srcCore, p.ctx)) ∧
      (s.homeLine p.disle p.dunit p.loc p.pa).draining = false) :
    s.serve p = s.answerData (forwarded p) 0 false := by
  have answer : s.answerData (forwarded p) 0 false = if p.aux.getD 1 0 = 1 then
      s.answerData { p with sisle := p.aux.getD 2 0, sunit := p.aux.getD 3 0 } 0 false else s.answerData p 0 false :=
    apply_ite (fun q => s.answerData q 0 false) ..
  rw [answer]
  cases acquire : p.isAcquire
  · simp only [State.serve, acquire, typ, Bool.false_and, Bool.false_eq_true, if_false]
  · obtain ⟨mine, quiet⟩ := own acquire
    cases record : (s.homeLine p.disle p.dunit p.loc p.pa).rrec with
    | none => simp only [State.serve, record, quiet, typ, Bool.or_self, Bool.and_false, Bool.false_eq_true, if_false]
    | some r =>
      have same : (r != (p.srcCore, p.ctx)) = false := by simp [mine r record]
      simp only [State.serve, record, quiet, typ, same, Bool.or_self, Bool.and_false, Bool.false_eq_true, if_false]

end

section
variable (s : State) (p : Packet)

theorem poisonAt_bring : (s.bring p).poisonAt p.loc = s.poisonAt p.loc := poisonAt_updHome s _ _ _ _ fun _ => rfl

/-- The data flits of a read of whole lines (R393). -/
def wholeLineFlits (p : Packet) : Nat := if p.sunit = unitWalker then 1 else 2

variable {p}

theorem answerFlits_line (whole : p.typ ≠ 9) : p.answerFlits = wholeLineFlits p := if_neg whole

theorem answerFlits_sectors (part : p.typ = 9) :
    p.answerFlits = carried (lineMask (p.aux.headD 0) (32 * p.aux.getD 1 4)) := if_pos part

theorem typ_forwarded : (forwarded p).typ = p.typ := by
  unfold forwarded
  split <;> rfl

theorem loc_forwarded : (forwarded p).loc = p.loc := by
  unfold forwarded
  split <;> rfl

theorem aux_forwarded : (forwarded p).aux = p.aux := by
  unfold forwarded
  split <;> rfl

theorem ptime_writeHome (loc : Nat) (mask : BitVec 128) (d : LineData) (poison : Nat) :
    (s.writeHome loc mask d poison).ptime = s.ptime := by
  unfold State.writeHome
  dsimp only
  split <;> rfl

theorem ptime_placeRecord (p : Packet) (mark : Bool) : (s.placeRecord p mark).ptime = s.ptime := by
  cases mark <;> rfl

/-- A write at home is acknowledged with the GWCT at the present time (R399). -/
theorem applyWrite_now {now : Nat} (time : s.ptime = now) (p : Packet) :
    let w := s.writeHome p.loc p.bmask p.data p.poison
    s.applyWrite p = w.send { p.reply 0x11 vcR 0 with
      time := max now (w.homeLine p.disle p.dunit p.loc p.pa).lexp, aux := p.aux } := by
  rw [State.applyWrite, State.answerAck, State.gwct, ptime_writeHome, time]

end

/-! ## The statement -/

/-- Settles O39: each unit takes its requests, a slice serves what it takes under no lease, and the runs of a write hold its
masked bytes. -/
theorem homeAnswersRequests : Obligations.HomeAnswersRequests := by
  intro isle unit p s s0 s1 h line off len data flits far written marked register stored fromHost posted accepted acked kept
  refine ⟨?mgmt, ?host, ?vreles, fun mgmt host vreles free own => ?slice⟩
  case mgmt =>
    rintro rfl
    refine ⟨fun takes => ?_, fun takes => ?_, wt_next, cpw_next⟩
    · rw [rdh_next takes, readAt_mgmt, registerRead_reach _ (reach_line (typ_of_takesPacket takes ▸ by decide))]
      rfl
    · rw [cpr_next takes, readAt_mgmt, registerRead_reach _ (reach_sectors (typ_of_takesPacket takes))]
      rfl
  case host =>
    rintro rfl
    have posts : s0.hostWritten p = acked := hostWritten_runs s0 p
    refine ⟨fun takes => ⟨_, rdh_next takes, ?_⟩, fun takes => ⟨_, cpr_next takes, ?_⟩,
      fun takes => posts ▸ wt_next takes, fun takes => posts ▸ cpw_next takes, bytes_runs p⟩
    · exact hostAsked_reach s0 (reach_line (typ_of_takesPacket takes ▸ by decide))
    · exact hostAsked_reach s0 (reach_sectors (typ_of_takesPacket takes))
  case vreles =>
    rintro rfl
    have asks : kept (s0.peerAsked p) := peerAsked_waits s0 p
    have writes : kept (s0.peerWritten p) := peerWritten_waits s0 p
    exact ⟨fun takes => ⟨_, rdh_next takes, asks⟩, fun takes => ⟨_, cpr_next takes, asks⟩,
      fun takes => ⟨_, wt_next takes, writes⟩, fun takes => ⟨_, cpw_next takes, writes⟩⟩
  case slice =>
    have serves {typ : Nat} {i : Instr} {t : State} (request : (typ, i) ∈ sliceRequests isle unit) (no_atomic : typ ≠ 4)
        (served : p.typ = typ → s1.serve p = t) (takes : s.takesPacket isle unit typ p) : exec i s = .next t := by
      have taken := typ_of_takesPacket takes
      rw [sliceRequest_next mgmt host vreles request takes, taken_serves free (taken ▸ no_atomic)]
      exact congrArg _ (served taken)
    have marks : s1.poisonAt p.loc = s.poisonAt p.loc := poisonAt_bring s0 p
    refine ⟨serves (by simp [sliceRequests]) (by decide) fun typ => ?rd,
      serves (by simp [sliceRequests]) (by decide) fun typ => ?rdh,
      serves (by simp [sliceRequests]) (by decide) fun typ => ?cpr,
      serves (by simp [sliceRequests]) (by decide) fun typ => ?wt,
      serves (by simp [sliceRequests]) (by decide) fun typ => (serve_drn s1 typ).trans (applyWrite_now s1 rfl p),
      serves (by simp [sliceRequests]) (by decide) fun typ => (serve_cpw s1 typ).trans (applyWrite_now s1 rfl p)⟩
    case rd =>
      rw [serve_rd s1 typ, State.answerData, answerFlits_line (typ ▸ by decide), poisonAt_updHome, marks]
      · rfl
      · exact fun _ => rfl
    case rdh =>
      have mine : s1.homeLine p.disle p.dunit p.loc p.pa = h := homeLine_bring s0 p
      rw [serve_rdh s1 typ (mine ▸ own), State.answerData, answerFlits_line (typ_forwarded.trans typ ▸ by decide),
        loc_forwarded, aux_forwarded, marks]
      rfl
    case cpr =>
      rw [serve_cpr s1 typ, State.answerData, answerFlits_sectors typ, marks]
      rfl
    case wt =>
      have record : s1.placeRecord p (p.aux.headD 0 == 1) = marked := by
        simp only [State.placeRecord, beq_iff_eq, marked]
      have time : marked.ptime = s.ptime := record ▸ ptime_placeRecord s1 p _
      rw [serve_wt s1 typ, record]
      exact applyWrite_now marked time p

end Sys2Proof.Proofs
end

section
/-!
SUPPORT. Probes, fences, rejoining, self-tests and scrubs, the states of the Vreles ports, and the statement about them.
-/
namespace Sys2Proof.Proofs
open Sys2Proof.Machine Sys2Proof.Laws

/-! ## Interrupts (R469) -/

theorem msix_frame (s : State) (v : Nat) : ∃ table out, s.msix v =
    { s with mgmt := { s.mgmt with msixTable := table }, out := out } := by
  unfold State.msix
  split
  · exact ⟨_, _, rfl⟩
  · split
    · exact ⟨_, _, rfl⟩
    · exact ⟨_, _, rfl⟩

/-- An interrupt changes what is pending and what has been sent. -/
theorem interrupt_frame (s : State) (src : Nat) : ∃ pend table out, s.interrupt src =
    { s with mgmt := { s.mgmt with intPend := pend, msixTable := table }, out := out } := by
  unfold State.interrupt
  dsimp only
  split
  · exact ⟨_, _, _, rfl⟩
  · split
    · obtain ⟨table, out, sent⟩ :=
        msix_frame (s.updMgmt fun m => { m with intPend := put 0 m.intPend src 1 }) (s.intVec src)
      exact ⟨_, table, out, sent⟩
    · exact ⟨_, _, _, rfl⟩

section
variable (s : State) (src : Nat)

@[simp] theorem mem_interrupt : (s.interrupt src).mem = s.mem := by
  obtain ⟨_, _, _, told⟩ := interrupt_frame s src
  rw [told]

@[simp] theorem homes_interrupt : (s.interrupt src).homes = s.homes := by
  obtain ⟨_, _, _, told⟩ := interrupt_frame s src
  rw [told]

@[simp] theorem corrected_interrupt : (s.interrupt src).mgmt.corrected = s.mgmt.corrected := by
  obtain ⟨_, _, _, told⟩ := interrupt_frame s src
  rw [told]

@[simp] theorem poisonAt_interrupt (loc : Nat) : (s.interrupt src).poisonAt loc = s.poisonAt loc := by
  rw [State.poisonAt, homes_interrupt, State.poisonAt]

end

/-! ## The cores of a chiplet (R12) -/

theorem mem_chipCores {m c : Nat} : c ∈ chipCores m ↔ c / 16 = m := by
  simp only [chipCores, List.mem_map, List.mem_range]
  constructor
  · rintro ⟨i, inside, rfl⟩
    omega
  · rintro rfl
    exact ⟨c % 16, Nat.mod_lt _ (by decide), by omega⟩

/-! ## Probes (R454) -/

/-- A probe is sent to one core. -/
def sendProbe (s : State) (c : Nat) : State :=
  s.updCore c fun x => { x with
    probe := some (x.probe.getD s.ptime), hung := x.hung || !Config.answers s.tick c }

/-- A core that was sent a probe has one since now, or since the one that it has not answered; the others are as they
were. -/
theorem core_foldl_sendProbe (s : State) (l : List Nat) :
    let t := l.foldl sendProbe s
    t.ptime = s.ptime ∧ (∀ c, c ∈ l → (t.core c).probe = some ((s.core c).probe.getD s.ptime)) ∧
      ∀ c, c ∉ l → t.core c = s.core c := by
  induction l using List.reverseRecOn with
  | nil => exact ⟨rfl, fun _ listed => absurd listed List.not_mem_nil, fun _ _ => rfl⟩
  | append_singleton l a ih =>
    obtain ⟨now, sent, others⟩ := ih
    rw [List.foldl_append, List.foldl_cons, List.foldl_nil]
    refine ⟨now, fun c listed => ?_, fun c unlisted => ?_⟩
    · rw [sendProbe, core_updCore]
      split
      · next same =>
        subst same
        by_cases before : c ∈ l
        · simp only [sent c before, Option.getD_some]
        · simp only [others c before, now]
      · next other => exact sent c ((List.mem_append.mp listed).resolve_right (mt List.mem_singleton.mp other))
    · obtain ⟨before, other⟩ := not_or.mp (mt List.mem_append.mpr unlisted)
      rw [sendProbe, core_updCore, if_neg (mt List.mem_singleton.mpr other), others c before]

section
variable {s : State} {m : Nat}

theorem livenessProbe_next (up : s.chipUp m = true) (due : look 0 s.timers (5900 + m) < s.ptime / 4000) :
    exec (.livenessProbe m) s =
      .next ((chipCores m).foldl sendProbe { s with timers := place s.timers (5900 + m) (s.ptime / 4000) }) := by
  rw [exec_livenessProbe, execLivenessProbe, if_pos (by simp [State.probeDue, up, due])]
  rfl

variable {e : Nat × Core} {t d : Nat} (up : s.chipUp m = true) (listed : e ∈ s.cores) (mine : isleOf e.1 = m)
include up listed mine

/-- A core that has not answered a probe of 16 us ago loses its chiplet. -/
theorem probeTimeout_fences (probed : e.2.probe = some t) (late : t + 16000 ≤ s.ptime) :
    exec (.probeTimeout m) s = .next (s.fence m 1) := by
  have lost : s.probeLost m = true := Bool.and_eq_true_iff.mpr
    ⟨up, List.any_eq_true.mpr ⟨e, listed, by simp [mine, probed, State.older, late]⟩⟩
  rw [exec_probeTimeout, execProbeTimeout, if_pos lost]

/-- A port under pressure since 64 us ago loses its chiplet. -/
theorem backpressureTimeout_fences (pressed : e.2.pressed = some t) (late : t + 64000 ≤ s.ptime) :
    exec (.backpressureTimeout m) s = .next (s.fence m 2) := by
  have stuck : s.portStuck m = true := Bool.and_eq_true_iff.mpr
    ⟨up, List.any_eq_true.mpr ⟨e, listed, by simp [mine, pressed, State.older, late]⟩⟩
  rw [exec_backpressureTimeout, execBackpressureTimeout, if_pos stuck]

end

/-! ## Rejoining (R460) -/

section
variable (s : State) (m : Nat)

/-- A chiplet in its self-test. -/
def inSelfTest : State := s.updChip m fun c => { c with state := 2 }

/-- The cores of a chiplet at their reset values. -/
def resetCores : State := (chipCores m).foldl (fun (u : State) c => u.updCore c fun _ => Core.reset) s

/-- The clusters of a chiplet without a clock. -/
def stopClusters : State :=
  (List.range 4).foldl (fun (u : State) i => u.updCluster (4 * m + i) fun c => { c with clock := 0, phase := 0 }) s

theorem resetCores_frame : ∃ cores, resetCores s m = { s with cores := cores } :=
  List.foldlRecOn (motive := fun u : State => ∃ cores, u = { s with cores := cores }) _ _ ⟨_, rfl⟩ <| by
    rintro _ ⟨_, rfl⟩ _ _
    exact ⟨_, rfl⟩

theorem stopClusters_frame : ∃ clusters, stopClusters s m = { s with clusters := clusters } :=
  List.foldlRecOn (motive := fun u : State => ∃ clusters, u = { s with clusters := clusters }) _ _ ⟨_, rfl⟩ <| by
    rintro _ ⟨_, rfl⟩ _ _
    exact ⟨_, rfl⟩

variable {m} {c i : Nat}

theorem core_resetCores_own (own : c / 16 = m) : (resetCores s m).core c = Core.reset := by
  refine foldl_of_mem (P := fun u : State => u.core c = Core.reset) (mem_chipCores.mpr own)
    (fun u => ?_) (fun u k zero => ?_) s
  · rw [core_updCore, if_pos rfl]
  · rw [core_updCore]
    split
    · rfl
    · exact zero

theorem core_resetCores_other (other : c / 16 ≠ m) : (resetCores s m).core c = s.core c := by
  refine List.foldlRecOn (motive := fun u : State => u.core c = s.core c) _ _ rfl fun u same k own => ?_
  have apart : c ≠ k := fun h => other (h ▸ mem_chipCores.mp own)
  rw [core_updCore, if_neg apart, same]

theorem clock_stopClusters (own : i < 4) : ((stopClusters s m).cluster (4 * m + i)).clock = 0 := by
  have set (u : State) (n : Nat) (f : Cluster → Cluster) : (u.updCluster n f).cluster n = f (u.cluster n) :=
    look_place_self ..
  refine foldl_of_mem (P := fun u : State => (u.cluster (4 * m + i)).clock = 0) (List.mem_range.mpr own)
    (fun u => by rw [set]) (fun u k stopped => ?_) s
  obtain rfl | other := eq_or_ne k i
  · rw [set]
  · exact (congrArg Cluster.clock (look_place_ne _ _ _ _ _ (by omega))).trans stopped

/-- A chiplet that is reset and zeroed: its cores at their reset values, no clock, and nothing else changed. -/
theorem stopClusters_resetCores (m : Nat) : let t := stopClusters (resetCores s m) m
    t.chips = s.chips ∧ t.mem = s.mem ∧ (∀ c, c / 16 = m → t.core c = Core.reset) ∧
    (∀ c, c / 16 ≠ m → t.core c = s.core c) ∧ ∀ i, i < 4 → (t.cluster (4 * m + i)).clock = 0 := by
  have own (c : Nat) := core_resetCores_own s (m := m) (c := c)
  have other (c : Nat) := core_resetCores_other s (m := m) (c := c)
  have stopped (i : Nat) := clock_stopClusters (resetCores s m) (m := m) (i := i)
  obtain ⟨clusters, halted⟩ := stopClusters_frame (resetCores s m) m
  obtain ⟨cores, zeroed⟩ := resetCores_frame s m
  rw [halted] at stopped ⊢
  rw [zeroed] at own other stopped ⊢
  exact ⟨rfl, rfl, own, other, stopped⟩

/-- A fenced chiplet that is to rejoin is in its self-test, its cores reset and its clocks stopped; memory and the other
cores are as they were. -/
theorem rejoin_resets (fenced : (s.chip m).state = 1) : ∃ t, exec (.rejoin m) s = .next t ∧ (t.chip m).state = 2 ∧
    t.mem = s.mem ∧ (∀ c, c / 16 = m → t.core c = Core.reset) ∧ (∀ c, c / 16 ≠ m → t.core c = s.core c) ∧
    ∀ i, i < 4 → (t.cluster (4 * m + i)).clock = 0 := by
  have reset : exec (.rejoin m) s = .next (stopClusters (resetCores (inSelfTest s m) m) m) := by
    rw [exec_rejoin, execRejoin, State.startRejoin, if_pos fenced]
    rfl
  obtain ⟨chips, mem, cores⟩ := stopClusters_resetCores (inSelfTest s m) m
  refine ⟨_, reset, ?_, mem, cores⟩
  rw [State.chip, chips]
  exact congrArg Chip.state (chip_updChip_self s m _)

end

theorem selfTestComplete_next {s : State} {m : Nat} (tested : (s.chip m).state = 2) (ok : Bool) :
    exec (.selfTestComplete m ok) s = .next
      (((if ok then s.joinMap m else s.updChip m fun c => { c with state := 3, cause := 4 }).updDisp
        fun d => { d with passDue := true }).interrupt 64) := by
  rw [exec_selfTestComplete, execSelfTestComplete, if_pos tested]

/-! ## Errors in memory (R462, R464) -/

section
variable (s : State) (loc : Nat)

/-- The 32 bytes at a location marked as poisoned. -/
def poisonSector : State :=
  let h := look HomeLine.none s.homes (loc / 128)
  { s with homes := place s.homes (loc / 128) { h with poison := h.poison ||| 2 ^ (loc % 128 / 32) } }

theorem poisonAt_poisonSector : (poisonSector s loc).poisonAt loc = s.poisonAt loc ||| 2 ^ (loc % 128 / 32) :=
  congrArg HomeLine.poison (look_place_self ..)

/-- The mark of an uncorrectable error is set beside those that stand, and memory is as it was. -/
theorem scrub_uncorrectable : ∃ t, exec (.scrub loc true) s = .next t ∧ t.mem = s.mem ∧
    (t.poisonAt loc).testBit (loc % 128 / 32) = true ∧
    ∀ i, i ≠ loc % 128 / 32 → (t.poisonAt loc).testBit i = (s.poisonAt loc).testBit i := by
  refine ⟨(poisonSector s loc).interrupt 72, rfl, mem_interrupt _ 72, ?_, fun i other => ?_⟩
  · rw [poisonAt_interrupt, poisonAt_poisonSector, Nat.testBit_or, Nat.testBit_two_pow_self, Bool.or_true]
  · rw [poisonAt_interrupt, poisonAt_poisonSector, Nat.testBit_or, Nat.testBit_two_pow_of_ne other.symm, Bool.or_false]

/-- A corrected error is counted for the isle of its location, and changes no line. -/
theorem scrub_corrected : ∃ t, exec (.scrub loc false) s = .next t ∧ t.mem = s.mem ∧
    t.mgmt.corrected = place s.mgmt.corrected (loc / 2 ^ 48 % 16) (look 0 s.mgmt.corrected (loc / 2 ^ 48 % 16) + 1) ∧
    t.homes = s.homes := by
  refine ⟨s.countCorrected (loc / 2 ^ 48 % 16), rfl, ?_⟩
  unfold State.countCorrected
  dsimp only
  split
  · exact ⟨mem_interrupt .., corrected_interrupt .., homes_interrupt ..⟩
  · exact ⟨rfl, rfl, rfl⟩

end

/-! ## Ports (R397, R464, R472) -/

section
variable {s : State} {port : Nat}

theorem portDown_next (up : (s.port port).up = true) : exec (.portDown port) s =
    .next ((s.updPort port fun p => { p with up := false, retraining := none }).interrupt 70) := by
  rw [exec_portDown, execPortDown, if_pos up]

theorem linkCalibration_next (up : (s.port port).up = true) : exec (.linkCalibration port) s =
    .next (s.updPort port fun p => { p with calUntil := s.ptime + 2000 }) := by
  rw [exec_linkCalibration, execLinkCalibration, if_pos up]

theorem portTrainsAgain_next (idle : (s.port port).up = false ∨ (s.port port).retraining.isSome = true)
    (works : 4 < s.mgmt.phase) : exec (.portTrainsAgain port) s =
    .next (((s.updPort port fun p => { p with up := true, retraining := none }).flushPort port).interrupt 70) := by
  have trains : ((!(s.port port).up || (s.port port).retraining.isSome) && decide (4 < s.mgmt.phase)) = true := by
    simpa [works] using idle
  rw [exec_portTrainsAgain, execPortTrainsAgain, if_pos trains]

theorem updPort_congr {f g : VPort → VPort} (same : f (s.port port) = g (s.port port)) :
    s.updPort port f = s.updPort port g := by rw [State.updPort, same, State.updPort]

/-- The NAKs in a row for a number, this one included. -/
def nakCount (p : VPort) (seq : Nat) : Nat := if p.nakSeq = seq then p.naks + 1 else 1

/-- A NAK is counted. -/
def nakCounted (s : State) (port seq : Nat) : State :=
  s.updPort port fun p => { p with nakSeq := seq, naks := nakCount (s.port port) seq }

theorem port_emitFlits (l : List (Nat × Nat × PeerMsg)) (s : State) (port k : Nat) :
    (s.emitFlits port l).port k = s.port k := by
  induction l generalizing s with
  | nil => rfl
  | cons e t ih => exact ih _

/-- Where skipping stops, an element stands. -/
theorem any_of_dropWhile {α : Type} {q : α → Bool} {a : α} {l t : List α}
    (found : (l.dropWhile fun x => !q x) = a :: t) : l.any q = true := by
  by_contra none_left
  have skipped : (l.dropWhile fun x => !q x) = [] :=
    List.dropWhile_eq_nil_iff.mpr fun x listed => by
      simpa using fun held => none_left (List.any_eq_true.mpr ⟨x, listed, held⟩)
  exact List.cons_ne_nil a t (found.symm.trans skipped)

/-- The flits that have left stand first in the replay buffer, so a flit among them is where the buffer is cut (R397). -/
theorem cameUpTo_of_left {p : VPort} {seq : Nat} {e : Nat × Nat × PeerMsg} {l : List (Nat × Nat × PeerMsg)}
    (stands : (p.left.dropWhile fun e => !holdsFlit seq e) = e :: l) : p.cameUpTo seq =
      { p with replay := p.replay.dropWhile fun e => !holdsFlit seq e, acked := seqFrom e.1 seq } := by
  have cut : (p.replay.dropWhile fun e => !holdsFlit seq e) = e :: (l ++ p.late) := by
    have whole : p.left ++ p.late = p.replay := List.take_append_drop _ _
    rw [← whole, List.dropWhile_append, stands]
    rfl
  simp only [VPort.cameUpTo, cut]

variable {seq : Nat} (up : (s.port port).up = true) (trained : (s.port port).retraining = none)
include up trained

theorem nak_next : exec (.nak port seq) s = .next (let s1 := nakCounted s port seq
    if 8 ≤ nakCount (s.port port) seq then s1.retrain port
    else if (s.port port).left.any (holdsFlit seq) then
      (s1.resendFrom port seq).updPort port fun p => p.cameUpTo seq
    else s1) := by
  rw [exec_nak, execNak]
  exact congrArg _ (if_pos (by simp [up, trained]))

theorem nak_retrains (eighth : 8 ≤ nakCount (s.port port) seq) :
    exec (.nak port seq) s = .next ((nakCounted s port seq).retrain port) := by
  rw [nak_next up trained]
  exact congrArg _ (if_pos eighth)

variable (fewer : nakCount (s.port port) seq < 8)
include fewer

theorem nak_unknown (gone : ∀ e ∈ (s.port port).left, holdsFlit seq e = false) :
    exec (.nak port seq) s = .next (nakCounted s port seq) := by
  have none_left : ¬ (s.port port).left.any (holdsFlit seq) = true := by
    simpa using gone
  rw [nak_next up trained]
  exact congrArg _ ((if_neg (Nat.not_le.mpr fewer)).trans (if_neg none_left))

/-- A NAK of a flit that has left is counted, and the port sends again from it; the flits before it have come. -/
theorem nak_resends {e : Nat × Nat × PeerMsg} {l : List (Nat × Nat × PeerMsg)}
    (stands : ((s.port port).left.dropWhile fun e => !holdsFlit seq e) = e :: l) :
    let first : Out := if seqFrom e.1 seq = 0 then .peer port e.2.2 else .peerRest port (seqFrom e.1 seq) e.2.2
    exec (.nak port seq) s = .next ((((nakCounted s port seq).emit first).emitFlits port l).updPort port fun p =>
      { p with replay := p.replay.dropWhile fun e => !holdsFlit seq e, acked := seqFrom e.1 seq }) := by
  intro first
  have counted : (nakCounted s port seq).port port =
      { s.port port with nakSeq := seq, naks := nakCount (s.port port) seq } := port_updPort_self s port _
  have held : (s.port port).left.any (holdsFlit seq) = true := any_of_dropWhile stands
  have resends : (nakCounted s port seq).resendFrom port seq =
      ((nakCounted s port seq).emit first).emitFlits port l := by
    have left : ((nakCounted s port seq).port port).left = (s.port port).left := by
      rw [counted]
      rfl
    rw [State.resendFrom, left, stands, apply_ite (nakCounted s port seq).emit]
  rw [nak_next up trained]
  refine congrArg _ ((if_neg (Nat.not_le.mpr fewer)).trans ((if_pos held).trans ?_))
  rw [resends]
  refine updPort_congr ?_
  rw [port_emitFlits]
  exact cameUpTo_of_left (congrArg VPort.left counted ▸ stands)

end

/-! ## The statement -/

/-- Settles O52: the probes of a chiplet and what fences it, its way back into the map, the two scrubs, and the states of a
port. -/
theorem containmentActs : Obligations.ContainmentActs := by
  intro m core loc port seq s p
  refine ⟨fun up due => ⟨_, livenessProbe_next up due, ?probes⟩,
    fun answers => congrArg _ (if_neg (Bool.eq_false_iff.mp answers)),
    fun e t => probeTimeout_fences, fun e t => backpressureTimeout_fences, rfl, rejoin_resets s,
    fun tested => ⟨selfTestComplete_next tested true, selfTestComplete_next tested false⟩, scrub_uncorrectable s loc,
    scrub_corrected s loc, fun up => ⟨portDown_next up, linkCalibration_next up⟩, portTrainsAgain_next,
    fun up trained => ⟨nak_retrains up trained, fun e l fewer stands => nak_resends up trained fewer stands,
      nak_unknown up trained⟩⟩
  case probes =>
    obtain ⟨_, sent, others⟩ :=
      core_foldl_sendProbe { s with timers := place s.timers (5900 + m) (s.ptime / 4000) } (chipCores m)
    exact ⟨fun c own => sent c (mem_chipCores.mpr own), fun c other => others c (mt mem_chipCores.mp other)⟩

end Sys2Proof.Proofs
end
